-- ==== Sys2Proof/Word.lean ====
section
/-!
DEFINITION. The word types of the device: the 16-bit native word (00_scope R1), the octet of the
two byte-organised stores (R3) and of the messages of external standards, and the double word of
a 32-bit register group or address register.
-/

namespace Sys2Proof

/-- The native word: every register is one word wide and every memory is organised in words (R1). -/
abbrev Word := BitVec 16

/-- An octet of the tag store, the external flash or a standard message (R3). -/
abbrev Octet := BitVec 8

/-- A 32-bit quantity: a word address of the device map or a pair of words (R1, R4). -/
abbrev DWord := BitVec 32

end Sys2Proof
end

