-- ==== Sys2Proof/Syntax.lean ====
section
/-!
DEFINITION. The commands of the device: one constructor of `Instr` per row of opcode_table.json,
with the operands each row needs (the table itself gives no fields), and the plain types of those
operands.  Results of signal processing and of the outside world (samples, measurements, received
frames, comparator states) that the specification does not compute bit by bit are operands.
-/

namespace Sys2Proof

/-- The initiators that hold register latches and staging sets (00_scope R9). -/
inductive Initiator where
  | crown
  | tiller (t : Fin 32)
  | host
  | mgmt
  | debug
  | tag
  deriving DecidableEq, Repr

/-- The blocks with an enable (02_modes_and_start R73). -/
inductive BlockId where
  | prt (p : Fin 64)
  | shf (s : Fin 8)
  | awn (s : Fin 8)
  | hed (n : Fin 8)
  | lnk
  | til (t : Fin 32)
  | eth (n : Fin 2)
  | usl (n : Fin 2)
  | tmr (n : Fin 32)
  | nfr
  deriving DecidableEq, Repr

/-- How large one ADC sample is against ADC full scale (03_ports_and_sheaves R81, R83). -/
inductive AdcLevel where
  | low    -- at or below −13 dB
  | mid    -- above −13 dB and below −1 dB
  | high   -- at or above −1 dB
  | full   -- at full scale
  deriving DecidableEq, Repr

/-- One port's share of a sample instant: the normalised sample of R79, and the level of the ADC sample it came from. -/
structure PortSample where
  i     : Int
  q     : Int
  level : AdcLevel
  deriving DecidableEq, Repr

/-- A row with an error (15_faults R381, R386): its memory unit, the row, and the code bits that flipped. -/
structure Upset where
  unit  : Nat           -- macro, 0 to 202 (R386); 203 a flit on the path; 204 a marker word of the tag store, `row` its physical page
  row   : Nat
  flips : List Nat       -- positions of the flipped bits of the stored row, 0 to 136
  deriving DecidableEq, Repr

/-- A sample instant of a sheaf: the eight ports' samples, whether the sample queue holds a credit (01_architecture R28), and the rows
of the sample ring found in error when they are read. -/
structure SampleSet where
  ports  : List PortSample
  credit : Bool
  upsets : List Upset
  deriving DecidableEq, Repr

/-- What the detectors find at a local maximum of the metric M on one channel-beam stream
(05_search R137, R138) with the measurements latched at it (R146).  Powers are mean squares on the
scale of R79 in units of 2^-32. -/
structure Candidate where
  beam  : Fin 8
  chan  : Fin 48
  prof  : Fin 8
  coded : Bool
  synct : Nat
  subt  : Fin 16
  foff  : Int
  m     : Int          -- M in 0.25 dB units
  sig   : List Nat     -- signal power of each port, eight entries
  noise : List Nat     -- noise power of each port, eight entries
  deriving DecidableEq, Repr

/-- The mismatch measurement of one port over a transmission (R100): powers in 0.25 dBm units and
the sign of the reflected detector's in-phase product (R125). -/
structure PortMeas where
  fwd      : Int
  refl     : Int
  positive : Bool
  deriving DecidableEq, Repr

/-- A loop-back or software request presented to the regulatory gate (04 R109, R118). -/
structure GateStream where
  centre : Int         -- nominal centre, Hz
  df     : Int         -- frequency pre-compensation, Hz
  deriving DecidableEq, Repr

/-- What a request's waveform is, for the occupied bandwidth of R511 and for R113. -/
inductive Waveform where
  | profile (kind rate : Nat)
  | cw
  | loop
  deriving DecidableEq, Repr

/-- A transmit request at the regulatory gate (R109): sheaf, streams, waveform, the start instant and
the end in fifths of a tick, and the requested power of each of the eight ports in 0.25 dBm units
(none: zero weight). -/
structure GateReq where
  sheaf   : Fin 8
  streams : List GateStream
  wave    : Waveform
  t5      : Nat
  e5      : Nat
  power   : List (Option Int)
  session : Nat
  deriving DecidableEq, Repr

/-- How the operation under way on a flash, a fuse block or a program ends. -/
inductive OpOutcome where
  | done
  | fail
  | timeout
  deriving DecidableEq, Repr

/-- A chip found by the census of cluster formation (13_sage_cluster R340), with the values it brings of `USL_LM` and
`USL_SBMAX`; the census names the chips in clockwise order. -/
structure CensusChip where
  chip  : Nat
  mode  : Nat
  lm    : Nat
  sbmax : Nat
  deriving DecidableEq, Repr

/-- The detection summary of a member chip (R347). -/
structure Summary where
  src    : Nat           -- chip number
  sheaf  : Fin 8
  synct  : Nat
  subt   : Fin 16
  prof   : Fin 8
  beam   : Fin 8
  chan   : Fin 48
  coded  : Bool
  freq   : Int           -- carrier frequency of the detection, Hz
  snr    : Int
  endt   : Nat
  len    : Nat
  first  : Nat           -- announced positions
  count  : Nat
  addr   : Nat           -- source address announced
  arrive : Nat
  deriving DecidableEq, Repr

/-- A SOFT frame of a member chip: positions and values (R347, R170). -/
structure SoftFrame where
  src   : Nat
  synct : Nat
  sheaf : Fin 8
  first : Nat
  lam   : List Int
  deriving DecidableEq, Repr

/-- A directory frame (R352): a session's lookup key, its owner's chip number, and the tick at which it applies. -/
structure DirFrame where
  src    : Nat
  owner  : Nat
  mode   : Nat
  pan    : Nat
  addr   : Nat
  remove : Bool
  at_    : Nat
  deriving DecidableEq, Repr

/-- A handover frame (R354): Th, and words 0 to 15 of the record with the key column, wrapped. -/
structure HandFrame where
  src     : Nat
  th      : Nat
  wrapped : List Octet
  deriving DecidableEq, Repr

/-- The result of the vendor side of a full self-test (R400). -/
structure FtFound where
  rows    : List (Nat × Nat)
  engines : List Nat
  ports   : List (Fin 64)
  deriving DecidableEq, Repr

/-- The result of a calibration measurement: the values its kind keeps (R114). -/
structure CalValues where
  vals : List Word
  deriving DecidableEq, Repr

/-- How a full read of the panel record ends (18_field R457). -/
inductive PanelOutcome where
  | octets (data : List Octet)    -- an answer was read; the record is judged by R459, R460
  | noTag
  | collision
  | badProtocol
  | timeout
  deriving DecidableEq, Repr

/-- The commands of the device, one constructor per row of opcode_table.json.  Log 98 (DESIGN CHOICE). -/
inductive Instr where
  | registerWrite (i : Initiator) (a : Nat) (v : Word)
  | groupLatchRead (i : Initiator) (a : Nat)
  | bridgeTimeout (block : Nat) (i : Initiator) (write : Bool)
  | refclkLoss
  | vioWarning
  | supplyWindowExit
  | marginLow
  | vrfDrop
  | powerOnReset
  | externalReset
  | watchdogReset
  | softwareReset (i : Initiator) (v : Word)
  | debugReset
  | watchdogEnable (i : Initiator) (v : Word)
  | watchdogKick (i : Initiator) (v : Word)
  | modeRequest (writes : List (Initiator × Word))
  | modeTransitionComplete
  | serviceReady (i : Initiator) (v : Word)
  | bootPllLock
  | bootMemoryZeroise
  | bootFuseRead
  | bootImageLoad
  | holdPointRelease (i : Initiator) (v : Word)
  | bootGateArm
  | bootRadioStart
  | startupCalibration (vals : List CalValues)
  | bootTargetEntry
  | blockEnable (i : Initiator) (b : BlockId) (v : Word)
  | blockDisable (i : Initiator) (b : BlockId) (v : Word)
  | blockStartComplete (b : BlockId) (lanes : Fin 16)
  | blockDrainComplete (b : BlockId)
  | sampleCapture (s : Fin 8) (samples : SampleSet) (cands : List Candidate)
  | gainStepUp (p : Fin 64)
  | synthUnlock (s : Fin 8)
  | synthRelock (s : Fin 8)
  | captureResume (s : Fin 8)
  | txCommand (s : Fin 8)
  | blankingStart (s : Fin 8)
  | txStart (s : Fin 8)
  | txEnd (s : Fin 8) (meas : List PortMeas)
  | receiveResume (s : Fin 8)
  | tuneWrite (i : Initiator) (p : Fin 64) (v : Word)
  | portDcMeasureDone (p : Fin 64) (dci dcq : Word)
  | gateRequest (r : GateReq)
  | panelGainApply
  | iq (i : Initiator) (p : Fin 64) (at_ : Bool)
  | fbw (i : Initiator) (p : Fin 64) (at_ : Bool)
  | dcstat (i : Initiator) (p : Fin 64) (at_ : Bool)
  | loleak (i : Initiator) (p : Fin 64) (at_ : Bool)
  | recip (i : Initiator) (s : Fin 8) (at_ : Bool)
  | vcob (i : Initiator) (s : Fin 8) (at_ : Bool)
  | refosc (i : Initiator)
  | calibrationBegin (s : Fin 8)
  | calibrationComplete (s : Fin 8) (vals : CalValues)
  | refoscComplete (err : Word)
  | calResultWrite (i : Initiator) (p : Fin 64) (k : Fin 7) (v : Word)
  | ballDcFault (p : Fin 64) (v : Word)
  | ballDcClear (p : Fin 64) (v : Word)
  | afclr (i : Initiator) (p : Fin 64) (v : Word)
  | headCurrentLimit (n : Fin 8)
  | headShort (n : Fin 8)
  | headOverload (n : Fin 8)
  | headOpen (n : Fin 8)
  | headOpenClear (n : Fin 8)
  | headBackdrive (n : Fin 8)
  | vheadReversed (v : Word)
  | searchStart (s : Fin 8)
  | searchStop (s : Fin 8)
  | groupClose
  | spikeletAllocation
  | channelEstimate (k : Fin 1024)
  | headerDecision (k : Fin 1024) (t : Nat)
  | frameCheck (k : Fin 1024) (t : Nat) (dec : Fin 16) (merge : Int) (upsets : List Upset)
  | decoderDeadlineMiss (k : Fin 1024)
  | ringOverrun (k : Fin 1024)
  | reservationWrite (i : Initiator) (s : Fin 8) (v : Word)
  | summaryReceive (f : Summary)
  | softReceive (f : SoftFrame)
  | mergeBound (k : Fin 1024)
  | usethResend (n : Fin 2) (crc : Bool)
  | usethLaneFault (n : Fin 2) (lane : Fin 4)
  | clusterFormation (census : List CensusChip) (ring : Bool)
  | timingMessage (off rate step : Int)
  | dirReceive (f : DirFrame)
  | handoverEffect
  | handSend (session : Fin 16384)
  | handReceive (f : HandFrame)
  | recordAccept
  | winnowRelease
  | horizonArm (i : Initiator) (v : Word)
  | horizonApply
  | slotBoundary
  | reanchorArm (i : Initiator) (v : Word)
  | reanchorApply
  | bankSwitchArm (i : Initiator) (v : Word)
  | bankSwitch
  | txRequest (core : Fin 33)
  | claimDecision
  | expectedAckTimeout
  | linkStart
  | linkStop
  | admitSession
  | rehashComplete
  | remove
  | setpol
  | setfresh
  | fcres
  | keyderive
  | keyinstall
  | keyclear
  | clrcnt
  | sessionLookup
  | frameJudgement
  | aesMismatch (k : Fin 5)
  | knownAnswerTest (e : Fin 6) (pass : Bool)
  | modesSelfCheckFail
  | cbcEnc
  | cbcDec
  | ctr
  | cfbEnc
  | cfbDec
  | ccmEnc
  | ccmDec
  | derivation (i : Initiator) (v : Word)
  | handleFree (i : Initiator) (v : Word)
  | sesskey (i : Initiator) (v : Word)
  | ownerkey (i : Initiator) (v : Word)
  | ownerlock (i : Initiator) (v : Word)
  | profile (i : Initiator) (v : Word)
  | messageComplete
  | attestationRequest (i : Initiator) (v : Word)
  | attestationComplete
  | localMemoryAccess (i : Initiator) (t : Fin 32) (v : Option Word)
  | bundle (core : Fin 33) (upsets : List Upset)
  | queueStallEnd (core : Fin 33)
  | fabricLoadReturn (core : Fin 33)
  | interruptEntry (core : Fin 33)
  | stallTimeout (core : Fin 33)
  | fenceCommit (i : Initiator) (v : Word)
  | granuleReservation (core : Fin 33)
  | recordReturn (core : Fin 33)
  | epochBoundary
  | moveComplete (session : Fin 16384)
  | ethFrameReceive (n : Fin 2) (frame : List Octet) (ts : Nat) (sub : Fin 16)
  | ethLinkChange (n : Fin 2) (up : Bool)
  | datagramSent (n : Fin 2) (ts : Nat) (sub : Fin 16)
  | flowload (i : Initiator) (v : Word)
  | mgmtRead
  | mgmtWrite
  | rateCommit (i : Initiator) (v : Word)
  | rateApply
  | stepCommit (i : Initiator) (v : Word)
  | stepApply
  | ppsInEdge (sub : Fin 16)
  | ppsLoopUpdate
  | ppsLoss
  | ppsOutEdge
  | hostRead (a : Nat) (n : Fin 256)
  | hostWrite (a : Nat) (data : List Word)
  | hostStatus
  | hostAbort (a : Nat) (data : List Word) (reads : Fin 257)
  | hostBadCommand (octet : Octet)
  | rxpop (i : Initiator)
  | rxret (i : Initiator) (v : Word)
  | hresv (i : Initiator) (v : Word)
  | hsend (i : Initiator) (v : Word)
  | flashRead (i : Initiator)
  | program (i : Initiator)
  | erase4k (i : Initiator)
  | erase64k (i : Initiator)
  | flashOpComplete (o : OpOutcome)
  | patrolScrub (found : List Upset)
  | marchTestComplete (m : Fin 201) (pass : Bool)
  | faultPop (i : Initiator) (v : Word)
  | fullSelftest (i : Initiator) (v : Word)
  | fullSelftestDone (found : FtFound)
  | portLoopSelftestStart (p : Fin 64)
  | portLoopSelftestDone (p : Fin 64) (pass : Bool) (cond : Fin 8)
  | pbadClear (i : Initiator) (n : Fin 4) (v : Word)
  | counterClear (i : Initiator) (a : Nat) (v : Word)
  | peakClear (i : Initiator) (v : Word)
  | minClear (i : Initiator) (v : Word)
  | counterUpdate (n : Fin 32)
  | counterStartAt (n : Fin 32)
  | lfStep
  | capture (n : Fin 32)
  | captureRead (i : Initiator) (n : Fin 32)
  | mainSupplyReturn
  | rtcUnlock (i : Initiator) (v : Word)
  | brownOut
  | subAdvance
  | calendarCommit (i : Initiator) (v : Word)
  | weekdayWrite (i : Initiator) (v : Word)
  | periodicWake
  | trimMeasureStart (i : Initiator) (v : Word)
  | trimMeasureEnd (raw : Option Int)
  | tamper (b : Bool)
  | interruptClaim (core : Fin 33) (fast : Bool)
  | interruptComplete (core : Fin 33) (fast : Bool) (v : Word)
  | externalClaim (i : Initiator) (x : Fin 2)
  | externalComplete (i : Initiator) (x : Fin 2) (v : Word)
  | stolonFire (i : Initiator) (v : Word)
  | fieldOn
  | selectByName
  | selectByFileId (id : Word)
  | readBinary (off len : Nat)
  | updateBinary (off : Nat) (data : List Octet)
  | readWords (a n : Nat)
  | writeWords (a : Nat) (data : List Word)
  | deselect
  | fieldLoss
  | waitingTimeExtension (wtxm : Nat)
  | pageCommitComplete (ok : Bool)
  | backgroundErase
  | windowWrite (i : Initiator) (v : Word)
  | hostPageCommit (i : Initiator) (v : Word)
  | pageBufferDrop (i : Initiator) (v : Word)
  | harvestOn
  | detuningPing (d : Word)
  | reread (i : Initiator) (v : Word)
  | panelFullRead
  | panelReadComplete (o : PanelOutcome)
  | start (i : Initiator) (v : Word)
  | feed (i : Initiator) (v : Word)
  | chunkConsumed
  | applyComplete
  | abort (i : Initiator) (v : Word)
  | activate (i : Initiator) (v : Word)
  | activationComplete
  | confirm (i : Initiator) (v : Word)
  | trialDeadline
  | fallbackComplete
  | refclkReturn
  | resetRelease
  | vrfReturn
  | marginClear
  | vbakLowOnMain
  | headLimitRelease (n : Fin 8)
  | vheadReversalEnd
  | usethRetrainComplete (n : Fin 2)
  | debugResume
  | heldFrameJudgement (session : Fin 16384)
  | reqa
  | anticollision
  | rats
  | tagUnlistedCommand (cla ins : Octet)
  deriving DecidableEq, Repr

end Sys2Proof
end

