-- ==== Sys2Proof/Decode.lean ====
section
/-!
DEFINITION. The command a word spells by the bits of opcode_table.json.
-/

namespace Sys2Proof

/-- The command of an `nbits`-bit word.  No row of the table gives its command bits, so no word spells one.  Log 1 (DESIGN CHOICE). -/
def decodeTableWord (_nbits _w : Nat) : Option Instr := none

end Sys2Proof
end

