-- ==== Sys2Proof/Config.lean ====
section
/-!
DEFINITION. What one part fixes and the specification leaves open: free values (constants without a
body, applied to what they may depend on) and the contents the manual does not print.  Nothing can
be proved about their values; every statement holds for each of them.
-/

namespace Sys2Proof.Config

/-- How much further than 2 ticks the FAB shadow trails the SAMP count at a tick: true for 3 (01 R36).  Log 4 (DESIGN CHOICE). -/
opaque shadowLag : Nat → Bool

/-- Phase of the port sample instants against the tick count, taken modulo 8 (03 R78).  Log 5 (DESIGN CHOICE). -/
opaque samplePhase : Nat → Nat

/-- Contents of boot ROM, by word offset (20 R476: 32 Ki words).  Log 9 (DEDUCED), 16 (DESIGN CHOICE). -/
opaque bootRom : Nat → Word

/-- Ticks a SUN-O-QPSK field lasts, in 1/625 tick, by chip-rate RATE, field and length (06 R154): the tables of
the standard are not in the specification.  Field 0 is the SHR, 1 the sync word, 2 the PHR and PSDU, 3 the PHR.  Log 40 (DESIGN CHOICE). -/
opaque oqpskTicks : (rate field len mode : Nat) → Nat

/-- Whether a rate mode is defined for a SUN-O-QPSK chip rate (06 R154, 08 R206).  Log 40 (DESIGN CHOICE). -/
opaque oqpskModeLegal : (rate mode : Nat) → Bool

/-- The digest of a session lookup key under the seed of a number (09 R225): 29 bits are used.  Log 49 (DESIGN CHOICE). -/
opaque digest : (seed mode pan addr : Nat) → Nat

/-- Which free granule Sage picks, as a position among the free ones (07 R186, R175).  Log 44 (DESIGN CHOICE). -/
opaque granulePick : (choice count : Nat) → Nat

/-- The keyed mix of a granule's number with the per-boot seed of a number (07 R186, 10 R251): its low 4 bits name the Granary bank.
Log 43 (DESIGN CHOICE). -/
opaque bankMix : (seed granule : Nat) → Nat

/-- Random octets from the key tree's source: UID of the tag, RAND, ECDSA is deterministic (10 R251, 12 R314).  Log 7 (DESIGN CHOICE), 84 (DESIGN CHOICE). -/
opaque randomWord : Nat → Word

/-- Which of a stored instant's values the ball voltage or a supply shows (21).  Log 7 (DESIGN CHOICE). -/
opaque supplyReading : Nat → Word

/-- A value the specification leaves open at a place of the model, `site` the number of the rule that leaves it open.  Log 6 (DESIGN CHOICE), 7 (DESIGN CHOICE). -/
opaque openValue : (site index : Nat) → Nat

/-- The dynamic offset estimate that follows an estimate and one component of the sample it was removed from: a first-order
high-pass with a corner at 1.0 kHz, whose arithmetic is not stated (03 R84).  Log 6 (DESIGN CHOICE). -/
opaque dcTrack : (held : Word) → (sample : Int) → Word

/-! ## Signal processing that the specification describes and does not compute (06_demodulation R163 to R165).  Log 100 (DESIGN CHOICE). -/

/-- The known sync-word waveform of a profile, sample `n` of the class's stream, on the scale 2^14 (06 R163). -/
opaque syncWave : (kind rate sync : Nat) → (coded : Bool) → (n : Nat) → Int × Int

/-- A port's stream at an instant in 1/16 tick: its ring samples up to there, shifted by the channel's offset and FOFF, filtered and
decimated to the rate of the class (06 R163). -/
opaque portStream : (cls : Nat) → (off foff : Int) → (samples : List (Nat × BitVec 16 × BitVec 16)) → (at16 : Nat) → Int × Int

/-- The max-log log-likelihood ratio of the bit at a place on air, in 1/65,536, from the combined signal so far and the noise variance
of each of its samples as a fraction; the carrier and timing loops run over the same samples (06 R164, R165). -/
opaque llr : (kind rate place : Nat) → (z : List ((Int × Int) × Nat × Nat)) → Int

/-- The tracking loop's final correction over a frame, in oscillator units (06 R164, R172). -/
opaque carrierFix : (kind rate : Nat) → (z : List ((Int × Int) × Nat × Nat)) → Int

/-- The symbol-clock error that the timing loop ends with, in 0.1 ppm (06 R164, R172). -/
opaque clockDrift : (kind rate : Nat) → (z : List ((Int × Int) × Nat × Nat)) → Int

/-! ## What the profiles take from the standard (06 R153, R154, R166).  Log 40 (DESIGN CHOICE). -/

/-- The K = 4 code of SUN-FSK, NRNSC or RSC: the state after a bit and the two code bits. -/
opaque fskTrellis : (rsc : Bool) → (state : Nat) → (b : Bool) → Nat × Bool × Bool

/-- The place on air of a code bit of SUN-FSK under the standard's interleaver. -/
opaque fskPlace : (position : Nat) → Nat

/-- The tail and pad bits that the standard appends to a coded SUN-FSK frame, for code variant, interleaver and length. -/
opaque fskTail : (rsc ilv : Bool) → (len : Nat) → Nat

/-- The synchronisation header of a profile of the standard as bits on air: preamble of so many octets, and the sync word or SFD. -/
opaque stdShr : (kind rate : Nat) → (sync pre : Nat) → List Bool

/-- The SUN-O-QPSK header as its soft bits decide it, by chip rate: whether it is good, LEN, FCST, MDSSS and RMODE. -/
opaque oqpskPhr : (rate : Nat) → (lam : List Int) → Bool × Nat × Bool × Bool × Nat

/-- The soft-bit positions of the SUN-O-QPSK header of a chip rate. -/
opaque oqpskPhrBits : (rate : Nat) → Nat

/-- The PSDU of a SUN-O-QPSK frame as its soft bits decide it: despread, decoded and de-interleaved by its mode. -/
opaque oqpskPsdu : (rate mode len : Nat) → (lam : List Int) → List (BitVec 8)

/-- The coded bits of a SUN-O-QPSK frame whose soft value differs in sign from the re-encoded decoded stream. -/
opaque oqpskDiffs : (rate mode len : Nat) → (lam : List Int) → Nat

/-- The bits on air of a SUN-O-QPSK frame, header first. -/
opaque oqpskAir : (rate mode : Nat) → (fcst : Bool) → (psdu : List (BitVec 8)) → List Bool

/-! ## Ties of the decoders (06 R168).  Log 100 (DESIGN CHOICE). -/

/-- Whether of two paths with equal metrics into a state the higher-numbered one survives. -/
opaque tieHigh : (state : Nat) → Bool

/-- The bit that a soft value of 0 decides. -/
opaque zeroBit : Bool

end Sys2Proof.Config
end

