-- ==== Sys2Proof/Machine/Bits.lean ====
section
/-!
DEFINITION. Bit fields of words, packing of words and octets into wider quantities (00_scope R3, R4),
two's-complement reading, and the sparse canonical store that holds registers and memories.
-/

namespace Sys2Proof.Machine

/-- Bit `i` of a word. -/
def bit (w : Word) (i : Nat) : Bool := w.getLsbD i

/-- The field `[hi:lo]` of a word as a number. -/
def field (w : Word) (hi lo : Nat) : Nat := (w.toNat / 2 ^ lo) % 2 ^ (hi + 1 - lo)

/-- The mask of the field `[hi:lo]`. -/
def fieldMask (hi lo : Nat) : Word := BitVec.ofNat 16 ((2 ^ (hi + 1 - lo) - 1) * 2 ^ lo)

/-- `w` with the field `[hi:lo]` replaced by `v` (reduced to the field's width). -/
def setField (w : Word) (hi lo v : Nat) : Word :=
  (w &&& ~~~ (fieldMask hi lo)) ||| BitVec.ofNat 16 ((v % 2 ^ (hi + 1 - lo)) * 2 ^ lo)

/-- `w` with bit `i` set to `b`. -/
def setBit (w : Word) (i : Nat) (b : Bool) : Word := setField w i i b.toNat

/-- The one-bit word `2 ^ i`. -/
def bitMask (i : Nat) : Word := BitVec.ofNat 16 (2 ^ i)

/-- A number as a word, modulo 2^16. -/
def w16 (n : Nat) : Word := BitVec.ofNat 16 n

/-- An integer as a two's-complement word. -/
def i16 (n : Int) : Word := BitVec.ofInt 16 n

/-- The low `n` bits of `x` read as a two's-complement number. -/
def sext (n x : Nat) : Int :=
  if x % 2 ^ n < 2 ^ (n - 1) then (x % 2 ^ n : Nat) else ((x % 2 ^ n : Nat) : Int) - (2 ^ n : Nat)

/-- Word `k` (of 16 bits, least significant first) of a number (R4). -/
def wordOf (x k : Nat) : Word := BitVec.ofNat 16 (x / 2 ^ (16 * k))

/-- The `n` words of a number, least significant first (R4). -/
def wordsOf (n x : Nat) : List Word := (List.range n).map (wordOf x)

/-- The number whose words, least significant first, are the list (R4). -/
def ofWords : List Word → Nat
  | [] => 0
  | w :: ws => w.toNat + 65536 * ofWords ws

/-- Octets packed two per word, first octet in bits 7:0 (R3); a last odd octet fills the low half. -/
def packOctets : List Octet → List Word
  | [] => []
  | [a] => [BitVec.ofNat 16 a.toNat]
  | a :: b :: r => BitVec.ofNat 16 (a.toNat + 256 * b.toNat) :: packOctets r

/-- The octets of a list of words, low half first (R3). -/
def unpackOctets : List Word → List Octet
  | [] => []
  | w :: r => BitVec.ofNat 8 w.toNat :: BitVec.ofNat 8 (w.toNat / 256) :: unpackOctets r

/-- The number whose octets, least significant first, are the list. -/
def ofOctetsLE : List Octet → Nat
  | [] => 0
  | a :: r => a.toNat + 256 * ofOctetsLE r

/-- The number whose octets, most significant first, are the list. -/
def ofOctetsBE (l : List Octet) : Nat := ofOctetsLE l.reverse

/-- The `n` octets of a number, least significant first. -/
def octetsLE (n x : Nat) : List Octet := (List.range n).map fun k => BitVec.ofNat 8 (x / 256 ^ k)

/-- The `n` octets of a number, most significant first. -/
def octetsBE (n x : Nat) : List Octet := (octetsLE n x).reverse

/-- `l` cut or padded with zero octets to `n` octets. -/
def padOctets (n : Nat) (l : List Octet) : List Octet := (l ++ List.replicate n 0).take n

/-- Octets `off` to `off + n - 1` of a list. -/
def slice (l : List Octet) (off n : Nat) : List Octet := (l.drop off).take n

/-- The number of leading zero bits of a word. -/
def clz16 (w : Word) : Nat :=
  ((List.range 16).find? fun k => w.getLsbD (15 - k)).getD 16

/-- The number of bits set in the low `n` bits of a number. -/
def popCount (n x : Nat) : Nat := ((List.range n).filter fun k => x.testBit k).length

/-- The integer nearest `a / b`, halves away from zero, `0 < b`.  Log 35 (DESIGN CHOICE). -/
def divRound (a : Int) (b : Nat) : Int :=
  if 0 ≤ a then ((2 * a.toNat + b) / (2 * b) : Nat) else -(((2 * (-a).toNat + b) / (2 * b) : Nat) : Int)

/-- The larger and the smaller bound applied to a number. -/
def clampNat (lo hi x : Nat) : Nat := if x < lo then lo else if hi < x then hi else x

/-- The larger and the smaller bound applied to an integer. -/
def clampInt (lo hi x : Int) : Int := if x < lo then lo else if hi < x then hi else x

/-- The elements of `l` at the positions `f` gives in the list's order: replace the `k`th. -/
def updAt {α : Type} (l : List α) (k : Nat) (f : α → α) : List α := l.modify k f

/-! ## Banks

A fixed number of like things: a list of that length. -/

/-- `n` things of a kind. -/
abbrev Bank (α : Type) (n : Nat) := { l : List α // l.length = n }

/-- `n` equal things. -/
def Bank.rep {α : Type} (n : Nat) (a : α) : Bank α n := ⟨List.replicate n a, List.length_replicate⟩

/-- Number `k`, or `d` where there is none. -/
def Bank.nth {α : Type} {n : Nat} (b : Bank α n) (k : Nat) (d : α) : α := b.val.getD k d

/-- Change number `k`. -/
def Bank.upd {α : Type} {n : Nat} (b : Bank α n) (k : Nat) (f : α → α) : Bank α n :=
  ⟨b.val.modify k f, (List.length_modify ..).trans b.property⟩

/-- Replace number `k`. -/
def Bank.put {α : Type} {n : Nat} (b : Bank α n) (k : Nat) (a : α) : Bank α n :=
  ⟨b.val.set k a, List.length_set.trans b.property⟩

/-- Change every one, with its number. -/
def Bank.each {α : Type} {n : Nat} (b : Bank α n) (f : Nat → α → α) : Bank α n :=
  ⟨b.val.zipIdx.map fun e => f e.2 e.1, List.length_map _ |>.trans (List.length_zipIdx.trans b.property)⟩

/-! ## The sparse store

A store of words keyed by address: addresses strictly rising, and no entry equal to what an
unlisted address reads as.  Registers, Crown RAM, the shared memories and the local memories of
the cores are all stores of this form; only the default (`d`) differs. -/

/-- A sparse store: address and word pairs.  Log 10 (DEDUCED). -/
abbrev SMap := List (Nat × Word)

/-- The word at `a`, where an unlisted address reads as `d a`. -/
def SMap.get (d : Nat → Word) : SMap → Nat → Word
  | [], a => d a
  | (b, v) :: r, a => if a = b then v else SMap.get d r a

/-- `m` without an entry for `a`. -/
def SMap.erase : SMap → Nat → SMap
  | [], _ => []
  | (b, v) :: r, a => if a = b then SMap.erase r a else (b, v) :: SMap.erase r a

/-- `m` with an entry `(a, v)`, replacing one for `a`. -/
def SMap.insert : SMap → Nat → Word → SMap
  | [], a, v => [(a, v)]
  | (b, u) :: r, a, v =>
    if a < b then (a, v) :: (b, u) :: r
    else if a = b then (a, v) :: r
    else (b, u) :: SMap.insert r a v

/-- A write, in canonical form: writing what an unlisted address reads as removes the entry. -/
def SMap.set (d : Nat → Word) (m : SMap) (a : Nat) (v : Word) : SMap :=
  if v = d a then SMap.erase m a else SMap.insert m a v

/-- Every entry's address lies above `a`. -/
def SMap.above (a : Nat) (m : SMap) : Bool := m.all fun e => decide (a < e.1)

/-- The canonical form: addresses strictly rising and no entry at its default. -/
def SMap.wf (d : Nat → Word) : SMap → Bool
  | [] => true
  | (a, v) :: r => decide (v ≠ d a) && SMap.above a r && SMap.wf d r

/-- Writes of consecutive words from `a` upwards (R4). -/
def SMap.setWords (d : Nat → Word) : SMap → Nat → List Word → SMap
  | m, _, [] => m
  | m, a, v :: r => SMap.setWords d (SMap.set d m a v) (a + 1) r

/-- The `n` consecutive words from `a` upwards (R4). -/
def SMap.getWords (d : Nat → Word) (m : SMap) (a n : Nat) : List Word :=
  (List.range n).map fun k => SMap.get d m (a + k)

/-! ## Byte-organised stores (R3) -/

/-- A sparse store of octets in the same canonical form: the tag store and the external flash.  Log 10 (DEDUCED). -/
abbrev BMap := List (Nat × Octet)

/-- The octet at `a`, where an unlisted address reads as `d`. -/
def BMap.get (d : Octet) : BMap → Nat → Octet
  | [], _ => d
  | (b, v) :: r, a => if a = b then v else BMap.get d r a

/-- `m` without an entry for `a`. -/
def BMap.erase : BMap → Nat → BMap
  | [], _ => []
  | (b, v) :: r, a => if a = b then BMap.erase r a else (b, v) :: BMap.erase r a

/-- `m` with an entry `(a, v)`, replacing one for `a`. -/
def BMap.insert : BMap → Nat → Octet → BMap
  | [], a, v => [(a, v)]
  | (b, u) :: r, a, v =>
    if a < b then (a, v) :: (b, u) :: r
    else if a = b then (a, v) :: r
    else (b, u) :: BMap.insert r a v

/-- A write of one octet, in canonical form. -/
def BMap.set (d : Octet) (m : BMap) (a : Nat) (v : Octet) : BMap :=
  if v = d then BMap.erase m a else BMap.insert m a v

/-- The canonical form. -/
def BMap.wf (d : Octet) : BMap → Bool
  | [] => true
  | (a, v) :: r => decide (v ≠ d) && r.all (fun e => decide (a < e.1)) && BMap.wf d r

/-- Writes of consecutive octets. -/
def BMap.setOctets (d : Octet) : BMap → Nat → List Octet → BMap
  | m, _, [] => m
  | m, a, v :: r => BMap.setOctets d (BMap.set d m a v) (a + 1) r

/-- The `n` consecutive octets from `a`. -/
def BMap.getOctets (d : Octet) (m : BMap) (a n : Nat) : List Octet :=
  (List.range n).map fun k => BMap.get d m (a + k)

end Sys2Proof.Machine
end

