-- ==== Sys2Proof/Machine/Crypto.lean ====
section
/-!
DEFINITION. The ciphers, hashes, signatures and checks that the chapters call by the name of their
standard: AES (FIPS 197), AES-CMAC, CCM* (IEEE 802.15.4), SHA-256, HMAC and RFC 6979, ECDSA and ECDH over
P-256 (SEC 1), the key wrap of RFC 3394 and the cyclic checks.  PRESUMED: the specification names the
standards and does not print them.
-/

namespace Sys2Proof.Machine

/-! ## AES (FIPS 197) -/

/-- The S-box, entry `x` in bits `8x + 7 : 8x`. -/
def aesSbox : Nat := 0x16bb54b00f2d99416842e6bf0d89a18cdf2855cee9871e9b948ed9691198f8e19e1dc186b95735610ef6034866b53e708a8bbd4b1f74dde8c6b4a61c2e2578ba08ae7a65eaf4566ca94ed58d6d37c8e779e4959162acd3c25c2406490a3a32e0db0b5ede14b8ee4688902a22dc4f816073195d643d7ea7c41744975fec130ccdd2f3ff1021dab6bcf5389d928f40a351a89f3c507f02f94585334d43fbaaefd0cf584c4a39becb6a5bb1fc20ed00d153842fe329b3d63b52a05a6e1b1a2c830975b227ebe28012079a059618c323c7041531d871f1e5a534ccf73f362693fdb7c072a49cafa2d4adf04759fa7dc982ca76abd7fe2b670130c56f6bf27b777c63

/-- The inverse S-box. -/
def aesInvSbox : Nat := 0x7d0c2155631469e126d677ba7e042b17619953833cbbebc8b0f52aae4d3be0a0ef9cc9939f7ae52d0d4ab519a97f51605fec8027591012b131c7078833a8dd1ff45acd78fec0db9a2079d2c64b3e56fc1bbe18aa0e62b76f89c5291d711af1476edf751ce837f9e28535ade72274ac9673e6b4f0cecff297eadc674f4111913a6b8a130103bdafc1020f3fca8f1e2cd00645b3b80558e4f70ad3bc8c00abd890849d8da75746155edab9edfd5048706c92b6655dcc5ca4d41698688664f6f87225d18b6d49a25b76b224d92866a12e084ec3fa420b954cee3d23c2a632947b54cbe9dec444438e3487ff2f9b8239e37cfbd7f3819ea340bf38a53630d56a0952

/-- Entry `x` of a table of octets. -/
def tableOctet (t x : Nat) : Nat := (t >>> (8 * x)) &&& 0xFF

/-- Multiplication by x in GF(2^8). -/
def xtime (a : Nat) : Nat := if a < 128 then 2 * a else (2 * a) ^^^ 0x11B

/-- Multiplication in GF(2^8) by one of the constants of MixColumns and its inverse (below 16). -/
def gfMul (c a : Nat) : Nat :=
  (if c.testBit 0 then a else 0) ^^^ (if c.testBit 1 then xtime a else 0) ^^^
  (if c.testBit 2 then xtime (xtime a) else 0) ^^^ (if c.testBit 3 then xtime (xtime (xtime a)) else 0)

/-- Octet-wise exclusive or of two lists. -/
def xorList (a b : List Nat) : List Nat := List.zipWith (· ^^^ ·) a b

/-- The key schedule: the words (four octets each) from an expanded prefix in reverse order. -/
def aesExpand (nk : Nat) : Nat → Nat → List (List Nat) → List (List Nat)
  | 0, _, acc => acc
  | n + 1, i, acc =>
    let last := acc.headD []
    let back := acc.getD (nk - 1) []
    let t :=
      if i % nk = 0 then
        let s := (last.drop 1 ++ last.take 1).map (tableOctet aesSbox)
        let rcon := (List.range (i / nk - 1)).foldl (fun r _ => xtime r) 1
        xorList s [rcon, 0, 0, 0]
      else if nk > 6 ∧ i % nk = 4 then last.map (tableOctet aesSbox)
      else last
    aesExpand nk n (i + 1) (xorList back t :: acc)

/-- The round keys, 16 octets each, for a key of 16 or 32 octets. -/
def aesKeys (key : List Nat) : List (List Nat) :=
  let nk := key.length / 4
  let ws := (List.range nk).map fun k => (key.drop (4 * k)).take 4
  let all := (aesExpand nk (4 * (nk + 7) - nk) nk ws.reverse).reverse
  (List.range (nk + 7)).map fun r => ((all.drop (4 * r)).take 4).flatten

/-- ShiftRows on a state held column by column. -/
def shiftRows (s : List Nat) : List Nat := (List.range 16).map fun k => s.getD ((k + 4 * (k % 4)) % 16) 0

/-- The inverse of ShiftRows. -/
def invShiftRows (s : List Nat) : List Nat := (List.range 16).map fun k => s.getD ((k + 12 * (k % 4)) % 16) 0

/-- MixColumns with the first row of its matrix. -/
def mixColumns (m : List Nat) (s : List Nat) : List Nat :=
  (List.range 16).map fun k =>
    let c := k / 4
    let r := k % 4
    (List.range 4).foldl (fun acc j => acc ^^^ gfMul (m.getD ((j + 4 - r) % 4) 0) (s.getD (4 * c + j) 0)) 0

/-- AES encryption of a block of 16 octets.  Log 57 (PRESUMED). -/
def aesEncN (key blk : List Nat) : List Nat :=
  match aesKeys key with
  | [] => blk
  | k0 :: ks =>
    let n := ks.length
    (ks.zipIdx).foldl (fun s e =>
      let t := shiftRows (s.map (tableOctet aesSbox))
      xorList (if e.2 + 1 = n then t else mixColumns [2, 3, 1, 1] t) e.1) (xorList blk k0)

/-- AES decryption of a block of 16 octets. -/
def aesDecN (key blk : List Nat) : List Nat :=
  match (aesKeys key).reverse with
  | [] => blk
  | k0 :: ks =>
    let n := ks.length
    (ks.zipIdx).foldl (fun s e =>
      let t := xorList ((invShiftRows s).map (tableOctet aesInvSbox)) e.1
      if e.2 + 1 = n then t else mixColumns [14, 11, 13, 9] t) (xorList blk k0)

/-- Octets as numbers. -/
def natsOf (l : List Octet) : List Nat := l.map BitVec.toNat

/-- Numbers as octets. -/
def octetsOf (l : List Nat) : List Octet := l.map (BitVec.ofNat 8)

/-- AES encryption of one block under a key of 16 or 32 octets. -/
def aesEnc (key blk : List Octet) : List Octet := octetsOf (aesEncN (natsOf key) (natsOf blk))

/-- AES decryption of one block. -/
def aesDec (key blk : List Octet) : List Octet := octetsOf (aesDecN (natsOf key) (natsOf blk))

/-- Octet-wise exclusive or. -/
def xorOctets (a b : List Octet) : List Octet := List.zipWith (· ^^^ ·) a b

/-- The blocks of 16 octets of a list, the last one as long as it is. -/
def blocksOf (l : List Octet) : List (List Octet) :=
  (List.range ((l.length + 15) / 16)).map fun k => slice l (16 * k) 16

/-- Doubling in the field of CMAC: a shift left with the constant 0x87. -/
def cmacDouble (l : List Octet) : List Octet :=
  let x := ofOctetsBE l
  octetsBE 16 (if x ≥ 2 ^ 127 then ((2 * x) % 2 ^ 128) ^^^ 0x87 else 2 * x)

/-- AES-CMAC.  Log 57 (PRESUMED). -/
def cmac (key msg : List Octet) : List Octet :=
  let k1 := cmacDouble (aesEnc key (List.replicate 16 0))
  let bs := if msg.isEmpty then [[]] else blocksOf msg
  let lastB := bs.getLastD []
  let last :=
    if lastB.length = 16 then xorOctets lastB k1
    else xorOctets (padOctets 16 (lastB ++ [0x80])) (cmacDouble k1)
  (bs.dropLast ++ [last]).foldl (fun c b => aesEnc key (xorOctets c b)) (List.replicate 16 0)

/-! ## Modes of operation -/

/-- The counter block after `c`: a 128-bit big-endian increment. -/
def ctrNext (c : List Octet) : List Octet := octetsBE 16 ((ofOctetsBE c + 1) % 2 ^ 128)

/-- Counter mode over blocks: the output and the next counter block. -/
def ctrBlocks (key : List Octet) : List Octet → List (List Octet) → List Octet
  | _, [] => []
  | c, b :: bs => xorOctets b (aesEnc key c) ++ ctrBlocks key (ctrNext c) bs

/-- CBC encryption of whole blocks. -/
def cbcEncrypt (key : List Octet) : List Octet → List (List Octet) → List Octet
  | _, [] => []
  | iv, b :: bs => let c := aesEnc key (xorOctets iv b); c ++ cbcEncrypt key c bs

/-- CBC decryption of whole blocks. -/
def cbcDecrypt (key : List Octet) : List Octet → List (List Octet) → List Octet
  | _, [] => []
  | iv, b :: bs => xorOctets (aesDec key b) iv ++ cbcDecrypt key b bs

/-- Full-block CFB encryption. -/
def cfbEncrypt (key : List Octet) : List Octet → List (List Octet) → List Octet
  | _, [] => []
  | iv, b :: bs => let c := xorOctets b (aesEnc key iv); c ++ cfbEncrypt key c bs

/-- Full-block CFB decryption. -/
def cfbDecrypt (key : List Octet) : List Octet → List (List Octet) → List Octet
  | _, [] => []
  | iv, b :: bs => xorOctets b (aesEnc key iv) ++ cfbDecrypt key b bs

/-- `l` with zeros to a whole number of blocks. -/
def padBlocks (l : List Octet) : List Octet := padOctets (16 * ((l.length + 15) / 16)) l

/-- The authentication tag of CCM* with an L of 2: `m` octets over `a` and `p` (IEEE 802.15.4).  Log 57 (PRESUMED). -/
def ccmTag (key nonce a p : List Octet) (m : Nat) : List Octet :=
  let flags : Octet := BitVec.ofNat 8 ((if a.isEmpty then 0 else 64) + (if m = 0 then 0 else 8 * ((m - 2) / 2)) + 1)
  let b0 := flags :: nonce ++ octetsBE 2 p.length
  let ad := if a.isEmpty then [] else padBlocks (octetsBE 2 a.length ++ a)
  let x := (blocksOf (b0 ++ ad ++ padBlocks p)).foldl (fun x b => aesEnc key (xorOctets x b)) (List.replicate 16 0)
  let a0 := aesEnc key (1 :: nonce ++ [0, 0])
  (xorOctets x a0).take m

/-- The ciphertext, or the plaintext, of CCM*: counter mode from counter 1. -/
def ccmCrypt (key nonce p : List Octet) : List Octet := ctrBlocks key (1 :: nonce ++ [0, 1]) (blocksOf p)

/-- CCM* decryption and check with an `m`-octet MIC: the plaintext where the MIC is right. -/
def ccmOpen (key nonce a c mic : List Octet) : Option (List Octet) :=
  let p := ccmCrypt key nonce c
  if ccmTag key nonce a p mic.length = mic then some p else none

/-- The key wrap of RFC 3394: six passes over the 64-bit blocks. -/
def wrapStep (kek : List Octet) (n : Nat) (st : List Octet × List (List Octet)) (t : Nat) : List Octet × List (List Octet) :=
  let i := t % n
  let b := aesEnc kek (st.1 ++ st.2.getD i [])
  (xorOctets (b.take 8) (octetsBE 8 (t + 1)), st.2.set i (b.drop 8))

/-- Wrap: the integrity block, then the blocks.  Log 57 (PRESUMED). -/
def keyWrap (kek plain : List Octet) : List Octet :=
  let n := plain.length / 8
  let r := (List.range n).map fun k => slice plain (8 * k) 8
  let st := (List.range (6 * n)).foldl (wrapStep kek n) (List.replicate 8 0xA6, r)
  st.1 ++ st.2.flatten

/-- One step of unwrapping. -/
def unwrapStep (kek : List Octet) (n : Nat) (st : List Octet × List (List Octet)) (t : Nat) : List Octet × List (List Octet) :=
  let i := t % n
  let b := aesDec kek (xorOctets st.1 (octetsBE 8 (t + 1)) ++ st.2.getD i [])
  (b.take 8, st.2.set i (b.drop 8))

/-- Unwrap: the plain octets where the integrity block is right. -/
def keyUnwrap (kek c : List Octet) : Option (List Octet) :=
  let n := c.length / 8 - 1
  let r := (List.range n).map fun k => slice c (8 * k + 8) 8
  let st := (List.range (6 * n)).reverse.foldl (unwrapStep kek n) (c.take 8, r)
  if st.1 = List.replicate 8 0xA6 then some st.2.flatten else none

/-! ## SHA-256, HMAC -/

/-- The round constants, constant `k` in bits `32k + 31 : 32k`. -/
def shaK : Nat := 0xc67178f2bef9a3f7a4506ceb90befffa8cc7020884c8781478a5636f748f82ee682e6ff35b9cca4f4ed8aa4a391c0cb334b0bcb52748774c1e376c0819a4c116106aa070f40e3585d6990624d192e819c76c51a3c24b8b70a81a664ba2bfe8a192722c8581c2c92e766a0abb650a735453380d134d2c6dfc2e1b213827b70a851429296706ca6351d5a79147c6e00bf3bf597fc7b00327c8a831c66d983e515276f988da5cb0a9dc4a7484aa2de92c6f240ca1cc0fc19dc6efbe4786e49b69c1c19bf1749bdc06a780deb1fe72be5d74550c7dc3243185be12835b01d807aa98ab1c5ed5923f82a459f111f13956c25be9b5dba5b5c0fbcf71374491428a2f98

/-- The initial hash value. -/
def shaInit : List Nat := [0x6a09e667, 0xbb67ae85, 0x3c6ef372, 0xa54ff53a, 0x510e527f, 0x9b05688c, 0x1f83d9ab, 0x5be0cd19]

/-- 32-bit rotation right. -/
def rotr (x n : Nat) : Nat := (x >>> n) ||| ((x <<< (32 - n)) % 2 ^ 32)

/-- The message schedule, latest word first. -/
def shaSched : Nat → List Nat → List Nat
  | 0, w => w
  | n + 1, w =>
    let g := fun k => w.getD k 0
    let s0 := rotr (g 14) 7 ^^^ rotr (g 14) 18 ^^^ (g 14 >>> 3)
    let s1 := rotr (g 1) 17 ^^^ rotr (g 1) 19 ^^^ (g 1 >>> 10)
    shaSched n ((g 15 + s0 + g 6 + s1) % 2 ^ 32 :: w)

/-- One round on the working variables a to h. -/
def shaRound (v : List Nat) (kw : Nat) : List Nat :=
  match v with
  | [a, b, c, d, e, f, g, h] =>
    let s1 := rotr e 6 ^^^ rotr e 11 ^^^ rotr e 25
    let ch := (e &&& f) ^^^ ((e ^^^ 0xFFFFFFFF) &&& g)
    let t1 := h + s1 + ch + kw
    let s0 := rotr a 2 ^^^ rotr a 13 ^^^ rotr a 22
    let mj := (a &&& b) ^^^ (a &&& c) ^^^ (b &&& c)
    [(t1 + s0 + mj) % 2 ^ 32, a, b, c, (d + t1) % 2 ^ 32, e, f, g]
  | _ => v

/-- The hash value after one block of 64 octets. -/
def shaBlock (hv : List Nat) (blk : List Octet) : List Nat :=
  let w0 := (List.range 16).map fun k => ofOctetsBE (slice blk (4 * k) 4)
  let w := (shaSched 48 w0.reverse).reverse
  let v := (w.zipIdx).foldl (fun v e => shaRound v (e.1 + ((shaK >>> (32 * e.2)) % 2 ^ 32))) hv
  List.zipWith (fun a b => (a + b) % 2 ^ 32) hv v

/-- SHA-256 of a string of octets.  Log 57 (PRESUMED). -/
def sha256 (m : List Octet) : List Octet :=
  let z := (119 - m.length % 64) % 64
  let p := m ++ [0x80] ++ List.replicate z 0 ++ octetsBE 8 (8 * m.length)
  let bs := (List.range (p.length / 64)).map fun k => slice p (64 * k) 64
  (bs.foldl shaBlock shaInit).flatMap (octetsBE 4)

/-- HMAC with SHA-256. -/
def hmac (key m : List Octet) : List Octet :=
  let k := padOctets 64 (if key.length > 64 then sha256 key else key)
  sha256 (k.map (· ^^^ 0x5C) ++ sha256 (k.map (· ^^^ 0x36) ++ m))

/-! ## P-256 (SEC 1) -/

/-- The field modulus. -/
def ecP : Nat := 0xffffffff00000001000000000000000000000000ffffffffffffffffffffffff

/-- The order of the group. -/
def ecN : Nat := 0xffffffff00000000ffffffffffffffffbce6faada7179e84f3b9cac2fc632551

/-- The constant b of the curve. -/
def ecB : Nat := 0x5ac635d8aa3a93e7b3ebbd55769886bc651d06b0cc53b0f63bce3c3e27d2604b

/-- A point in Jacobian coordinates; `z = 0` is the point at infinity. -/
structure JPoint where
  x : Nat
  y : Nat
  z : Nat
  deriving DecidableEq, Repr

/-- The base point. -/
def ecG : JPoint := ⟨0x6b17d1f2e12c4247f8bce6e563a440f277037d812deb33a0f4a13945d898c296, 0x4fe342e2fe1a7f9b8ee7eb4a7c0f9e162bce33576b315ececbb6406837bf51f5, 1⟩

/-- Modular power by a list of exponent bits, most significant first. -/
def powBits (m b : Nat) : List Bool → Nat → Nat
  | [], acc => acc
  | e :: es, acc => let q := acc * acc % m; powBits m b es (if e then q * b % m else q)

/-- The low 256 bits of a number, most significant first. -/
def bits256 (k : Nat) : List Bool := ((List.range 256).reverse).map k.testBit

/-- The inverse modulo a prime. -/
def modInv (m a : Nat) : Nat := powBits m (a % m) (bits256 (m - 2)) 1

/-- Subtraction modulo the field prime. -/
def subP (a b : Nat) : Nat := (a + ecP - b % ecP) % ecP

/-- Point doubling. -/
def ecDouble (p : JPoint) : JPoint :=
  if p.z = 0 ∨ p.y = 0 then ⟨1, 1, 0⟩
  else
    let yy := p.y * p.y % ecP
    let s := 4 * p.x * yy % ecP
    let zz := p.z * p.z % ecP
    let m := 3 * subP p.x zz * (p.x + zz) % ecP
    let x := subP (m * m) (2 * s)
    ⟨x, subP (m * subP s x) (8 * yy * yy), 2 * p.y * p.z % ecP⟩

/-- Point addition. -/
def ecAdd (p q : JPoint) : JPoint :=
  if p.z = 0 then q
  else if q.z = 0 then p
  else
    let zp := p.z * p.z % ecP
    let zq := q.z * q.z % ecP
    let u1 := p.x * zq % ecP
    let u2 := q.x * zp % ecP
    let s1 := p.y * zq * q.z % ecP
    let s2 := q.y * zp * p.z % ecP
    if u1 = u2 then (if s1 = s2 then ecDouble p else ⟨1, 1, 0⟩)
    else
      let h := subP u2 u1
      let r := subP s2 s1
      let hh := h * h % ecP
      let hhh := h * hh % ecP
      let v := u1 * hh % ecP
      let x := subP (r * r) (hhh + 2 * v)
      ⟨x, subP (r * subP v x) (s1 * hhh), h * p.z * q.z % ecP⟩

/-- Scalar multiplication. -/
def ecMul (k : Nat) (p : JPoint) : JPoint :=
  (bits256 k).foldl (fun acc b => let d := ecDouble acc; if b then ecAdd d p else d) ⟨1, 1, 0⟩

/-- Affine coordinates of a point other than infinity. -/
def ecAffine (p : JPoint) : Nat × Nat :=
  let i := modInv ecP p.z
  let ii := i * i % ecP
  (p.x * ii % ecP, p.y * ii * i % ecP)

/-- The coordinates name a point of the curve. -/
def ecOn (x y : Nat) : Bool :=
  decide (x < ecP ∧ y < ecP) && (y * y % ecP = (x * x * x + (ecP - 3) * x + ecB) % ecP)

/-- The public key of a private one, X ‖ Y, 64 octets. -/
def ecPublic (d : Nat) : List Octet :=
  let a := ecAffine (ecMul d ecG)
  octetsBE 32 a.1 ++ octetsBE 32 a.2

/-- The X coordinate of `d` times a public key: ECDH. -/
def ecdhX (d : Nat) (pub : List Octet) : List Octet :=
  octetsBE 32 (ecAffine (ecMul d ⟨ofOctetsBE (slice pub 0 32), ofOctetsBE (slice pub 32 32), 1⟩)).1

/-- ECDSA verification of `r ‖ s` over a hash.  Log 57 (PRESUMED). -/
def ecdsaVerify (pub hash sig : List Octet) : Bool :=
  let x := ofOctetsBE (slice pub 0 32)
  let y := ofOctetsBE (slice pub 32 32)
  let r := ofOctetsBE (slice sig 0 32)
  let s := ofOctetsBE (slice sig 32 32)
  if ¬ ecOn x y ∨ r = 0 ∨ s = 0 ∨ r ≥ ecN ∨ s ≥ ecN ∨ sig.length ≠ 64 then false
  else
    let w := modInv ecN s
    let q := ecAdd (ecMul (ofOctetsBE hash * w % ecN) ecG) (ecMul (r * w % ecN) ⟨x, y, 1⟩)
    decide (q.z ≠ 0) && (ecAffine q).1 % ecN = r

/-- The candidates for k of RFC 6979, in order; `n` bounds how many are tried. -/
def rfcK : Nat → List Octet → List Octet → Nat
  | 0, _, _ => 1
  | n + 1, k, v =>
    let v := hmac k v
    let c := ofOctetsBE v
    if 1 ≤ c ∧ c < ecN then c
    else
      let k' := hmac k (v ++ [0])
      rfcK n k' (hmac k' v)

/-- The deterministic k of RFC 6979 with SHA-256 (10 R265). -/
def rfc6979 (d : Nat) (hash : List Octet) : Nat :=
  let seed := octetsBE 32 d ++ octetsBE 32 (ofOctetsBE hash % ecN)
  let v : List Octet := List.replicate 32 1
  let k := hmac (List.replicate 32 0) (v ++ [0] ++ seed)
  let v := hmac k v
  let k := hmac k (v ++ [1] ++ seed)
  rfcK 8 k (hmac k v)

/-- An ECDSA signature `r ‖ s` over a hash.  Log 57 (PRESUMED). -/
def ecdsaSign (d : Nat) (hash : List Octet) : List Octet :=
  let k := rfc6979 d hash
  let r := (ecAffine (ecMul k ecG)).1 % ecN
  let s := modInv ecN k * (ofOctetsBE hash + r * d) % ecN
  octetsBE 32 r ++ octetsBE 32 s

/-! ## Cyclic checks -/

/-- A reflected cyclic check over octets: polynomial, initial value.  Log 57 (PRESUMED). -/
def crcReflected (poly init : Nat) (m : List Octet) : Nat :=
  m.foldl (fun c o =>
    (List.range 8).foldl (fun c _ => if c.testBit 0 then (c >>> 1) ^^^ poly else c >>> 1) (c ^^^ o.toNat)) init

/-- CRC-32 of IEEE 802.3. -/
def crc32 (m : List Octet) : Nat := crcReflected 0xEDB88320 0xFFFFFFFF m ^^^ 0xFFFFFFFF

/-- The 16-bit FCS of IEEE 802.15.4. -/
def crc16 (m : List Octet) : Nat := crcReflected 0x8408 0 m

/-- The FCS of a frame, CRC-16 or CRC-32, least significant octet first (06 R168). -/
def fcsOf (short : Bool) (m : List Octet) : List Octet :=
  if short then octetsLE 2 (crc16 m)
  else octetsLE 4 (crc32 (if m.length < 4 then padOctets 4 m else m))

end Sys2Proof.Machine
end

