-- ==== Sys2Proof/Machine/RegMap.lean ====
section
/-!
DEFINITION. The register map: every register of the device with its word address, its reset value,
the bits that software writes (RW), clears by writing one (W1C) and sets by writing one (W1S), and
its place in a register group (20_address_map R477, R478, R480, R481; the register tables of the
chapters; 00_scope R13, R16).  Bits in none of the three masks are read-only, write-only or
reserved: a plain write leaves them.
-/

namespace Sys2Proof.Machine

/-- One line of a register table: the offset of instance 0 in the block's window, its reset value,
the writable masks, two levels of instances (count and stride) and the place in a register group
(word `pos` of `len`). -/
structure RegRow where
  off   : Nat
  reset : Nat
  rw    : Nat
  w1c   : Nat
  w1s   : Nat
  n1    : Nat
  s1    : Nat
  n2    : Nat
  s2    : Nat
  pos   : Nat
  len   : Nat
  deriving DecidableEq, Repr

/-- A register with one instance. -/
def reg1 (off reset rw w1c w1s : Nat) : RegRow := ⟨off, reset, rw, w1c, w1s, 1, 1, 1, 1, 0, 1⟩

/-- A register with `n` instances, `s` words apart. -/
def regN (off reset rw w1c w1s n s : Nat) : RegRow := ⟨off, reset, rw, w1c, w1s, n, s, 1, 1, 0, 1⟩

/-- A register with `n` instances `s` words apart, each of `m` instances `t` words apart. -/
def regNM (off reset rw n s m t : Nat) : RegRow := ⟨off, reset, rw, 0, 0, n, s, m, t, 0, 1⟩

/-- Word `pos` of a register group of `len` words with one instance. -/
def grp1 (off reset rw pos len : Nat) : RegRow := ⟨off, reset, rw, 0, 0, 1, 1, 1, 1, pos, len⟩

/-- Word `pos` of a register group of `len` words with `n` instances, `s` words apart. -/
def grpN (off reset rw pos len n s : Nat) : RegRow := ⟨off, reset, rw, 0, 0, n, s, 1, 1, pos, len⟩

/-- Word `pos` of a register group of `len` words with two levels of instances. -/
def grpNM (off reset rw pos len n s m t : Nat) : RegRow := ⟨off, reset, rw, 0, 0, n, s, m, t, pos, len⟩

/-! ## Addresses (the register index, R480, and the chapters' register tables) -/

namespace Reg

abbrev sysMode : Nat := 0x10000000
abbrev sysModereq : Nat := 0x10000001
abbrev sysModestat : Nat := 0x10000002
abbrev sysBootcfg : Nat := 0x10000004
abbrev sysBootgo : Nat := 0x10000005
abbrev sysBootstat : Nat := 0x10000006
abbrev sysRstcause : Nat := 0x10000008
abbrev sysRstctl : Nat := 0x10000009
abbrev sysWdctl : Nat := 0x1000000A
abbrev sysWdper : Nat := 0x1000000B
abbrev sysWdkick : Nat := 0x1000000C
abbrev sysSvcready : Nat := 0x1000000D
abbrev fenStat : Nat := 0x10010000
abbrev fenCommit : Nat := 0x10010001
abbrev fenEvt : Nat := 0x10010002
abbrev fenNref : Nat := 0x10010003
abbrev fenFaddr : Nat := 0x10010004
abbrev fenFinfo : Nat := 0x10010006
abbrev fenCmtseq : Nat := 0x10010007
abbrev fenBase (n : Nat) : Nat := 0x10010100 + 8 * n
abbrev fenLast (n : Nat) : Nat := 0x10010102 + 8 * n
abbrev fenPerm (n : Nat) : Nat := 0x10010104 + 8 * n
abbrev fenAttr (n : Nat) : Nat := 0x10010105 + 8 * n
abbrev intErr : Nat := 0x10020000
abbrev intPend (n : Nat) : Nat := 0x10020010 + n
abbrev intAct (n : Nat) : Nat := 0x10020020 + n
abbrev intXclaim0 : Nat := 0x10020030
abbrev intXcomp0 : Nat := 0x10020031
abbrev intXclaim1 : Nat := 0x10020032
abbrev intXcomp1 : Nat := 0x10020033
abbrev intCfg (n : Nat) : Nat := 0x10020100 + n
abbrev stlFire : Nat := 0x10030000
abbrev stlErr : Nat := 0x10030001
abbrev stlSrc (n : Nat) : Nat := 0x10030100 + 2 * n
abbrev stlDst (n : Nat) : Nat := 0x10030101 + 2 * n
abbrev stlLut (n : Nat) : Nat := 0x10030400 + 4 * n
abbrev stlCfg (n : Nat) : Nat := 0x10030401 + 4 * n
abbrev stlLfin (n : Nat) : Nat := 0x10030402 + 4 * n
abbrev stlOut (n : Nat) : Nat := 0x10030403 + 4 * n
abbrev tmrCtl : Nat := 0x10040000
abbrev tmrStat : Nat := 0x10040001
abbrev tmrAt : Nat := 0x10040004
abbrev tmrnCtl (n : Nat) : Nat := 0x10040100 + 8 * n
abbrev tmrnStat (n : Nat) : Nat := 0x10040101 + 8 * n
abbrev tmrnEvt (n : Nat) : Nat := 0x10040102 + 8 * n
abbrev tmrnSel (n : Nat) : Nat := 0x10040103 + 8 * n
abbrev tmrnPre (n : Nat) : Nat := 0x10040104 + 8 * n
abbrev tmrnCnt (n : Nat) : Nat := 0x10040200 + n
abbrev tmrnCmp (n : Nat) : Nat := 0x10040220 + n
abbrev tmrnPer (n : Nat) : Nat := 0x10040240 + n
abbrev tmrnCap (n : Nat) : Nat := 0x10040260 + n
abbrev tmrnLfstep (n : Nat) : Nat := 0x10040280 + 2 * n
abbrev rtcStat : Nat := 0x10050000
abbrev rtcEvt : Nat := 0x10050001
abbrev rtcUnlock : Nat := 0x10050002
abbrev rtcTamp : Nat := 0x10050003
abbrev rtcCal : Nat := 0x10050004
abbrev rtcWday : Nat := 0x10050008
abbrev rtcWake : Nat := 0x1005000A
abbrev rtcTrim : Nat := 0x1005000C
abbrev rtcMctl : Nat := 0x1005000D
abbrev rtcMstat : Nat := 0x1005000E
abbrev rtcMerr : Nat := 0x1005000F
abbrev rtcNsw : Nat := 0x10050010
abbrev rtcBkup (n : Nat) : Nat := 0x10050020 + n
abbrev keyStat : Nat := 0x10060000
abbrev keyEvt : Nat := 0x10060001
abbrev keyDevid : Nat := 0x10060002
abbrev keyChipnum : Nat := 0x10060006
abbrev keyCtrimg : Nat := 0x10060007
abbrev keyCtrmsg : Nat := 0x10060008
abbrev keyLockuse : Nat := 0x10060009
abbrev keyDparent : Nat := 0x10060010
abbrev keyDuse : Nat := 0x10060011
abbrev keyDgo : Nat := 0x10060012
abbrev keyDres : Nat := 0x10060013
abbrev keyFree : Nat := 0x10060014
abbrev keyDlabel (n : Nat) : Nat := 0x10060018 + n
abbrev keyMsgaddr : Nat := 0x10060020
abbrev keyMsglen : Nat := 0x10060022
abbrev keyMsggo : Nat := 0x10060023
abbrev keyMsgres (n : Nat) : Nat := 0x10060024 + n
abbrev keyAttaddr : Nat := 0x10060030
abbrev keyAttgo : Nat := 0x10060032
abbrev keyAttres : Nat := 0x10060033
abbrev keyNonce (n : Nat) : Nat := 0x10060040 + n
abbrev keyApub (n : Nat) : Nat := 0x10060100 + n
abbrev keyXpub (n : Nat) : Nat := 0x10060120 + n
abbrev keyHinfo (n : Nat) : Nat := 0x10060200 + n
abbrev keyHgen (n : Nat) : Nat := 0x10060280 + n
abbrev aesCtl : Nat := 0x10070000
abbrev aesEvt : Nat := 0x10070001
abbrev aesMstat : Nat := 0x10070002
abbrev aesStat (n : Nat) : Nat := 0x10070010 + n
abbrev aesNmis (n : Nat) : Nat := 0x10070018 + n
abbrev updStat : Nat := 0x10080000
abbrev updEvt : Nat := 0x10080001
abbrev updAddr : Nat := 0x10080002
abbrev updLen : Nat := 0x10080004
abbrev updGo : Nat := 0x10080005
abbrev updRes : Nat := 0x10080006
abbrev updConfirm : Nat := 0x10080007
abbrev updHealthT : Nat := 0x10080008
abbrev updRemain : Nat := 0x10080009
abbrev fltCtl : Nat := 0x10090000
abbrev fltStat : Nat := 0x10090001
abbrev fltEvt : Nat := 0x10090002
abbrev fltPop : Nat := 0x10090003
abbrev fltScrub : Nat := 0x10090004
abbrev fltSparelow : Nat := 0x10090005
abbrev fltCethr : Nat := 0x10090006
abbrev fltRptmax : Nat := 0x10090007
abbrev fltAesmax : Nat := 0x10090008
abbrev fltSparemin : Nat := 0x10090009
abbrev fltFtsel : Nat := 0x1009000A
abbrev fltFtgo : Nat := 0x1009000B
abbrev fltFtres : Nat := 0x1009000C
abbrev fltNce : Nat := 0x10090010
abbrev fltNue : Nat := 0x10090011
abbrev fltNflit : Nat := 0x10090012
abbrev fltNretire : Nat := 0x10090013
abbrev fltNreturn : Nat := 0x10090014
abbrev fltNlost : Nat := 0x10090015
abbrev fltNport : Nat := 0x10090016
abbrev fltNkat : Nat := 0x10090017
abbrev fltRec (n : Nat) : Nat := 0x10090020 + n
abbrev fltPbad (n : Nat) : Nat := 0x10090030 + n
abbrev fltSpare (n : Nat) : Nat := 0x10090100 + n
abbrev tbsCtl : Nat := 0x100A0000
abbrev tbsStat : Nat := 0x100A0001
abbrev tbsEvt : Nat := 0x100A0002
abbrev tbsPpssub : Nat := 0x100A0003
abbrev tbsNow : Nat := 0x100A0004
abbrev tbsRate : Nat := 0x100A0008
abbrev tbsRateat : Nat := 0x100A000C
abbrev tbsStep : Nat := 0x100A0010
abbrev tbsStepat : Nat := 0x100A0014
abbrev tbsPpscap : Nat := 0x100A0018
abbrev tbsPpsoat : Nat := 0x100A001C
abbrev tbsPpsoper : Nat := 0x100A0020
abbrev tbsOrg : Nat := 0x100A0024
abbrev rglStat : Nat := 0x100B0000
abbrev rglEvt : Nat := 0x100B0001
abbrev rglNrefuse : Nat := 0x100B0002
abbrev rglNclamp : Nat := 0x100B0003
abbrev rglCtl : Nat := 0x100B0004
abbrev rglGain (n : Nat) : Nat := 0x100B0100 + n
abbrev rglProf (n : Nat) : Nat := 0x100B1000 + n
abbrev prtCtl (n : Nat) : Nat := 0x10100000 + 256 * n
abbrev prtStat (n : Nat) : Nat := 0x10100001 + 256 * n
abbrev prtGain (n : Nat) : Nat := 0x10100002 + 256 * n
abbrev prtTxmax (n : Nat) : Nat := 0x10100003 + 256 * n
abbrev prtTune (n : Nat) : Nat := 0x10100004 + 256 * n
abbrev prtFwd (n : Nat) : Nat := 0x10100005 + 256 * n
abbrev prtRefl (n : Nat) : Nat := 0x10100006 + 256 * n
abbrev prtRl (n : Nat) : Nat := 0x10100007 + 256 * n
abbrev prtMmseq (n : Nat) : Nat := 0x10100008 + 256 * n
abbrev prtDci (n : Nat) : Nat := 0x10100009 + 256 * n
abbrev prtDcq (n : Nat) : Nat := 0x1010000A + 256 * n
abbrev prtClips (n : Nat) : Nat := 0x1010000B + 256 * n
abbrev shfCtl (n : Nat) : Nat := 0x10110000 + 256 * n
abbrev shfStat (n : Nat) : Nat := 0x10110001 + 256 * n
abbrev shfLo (n : Nat) : Nat := 0x10110002 + 256 * n
abbrev shfDiv (n : Nat) : Nat := 0x10110004 + 256 * n
abbrev shfNudge (n : Nat) : Nat := 0x10110005 + 256 * n
abbrev shfTxcnt (n : Nat) : Nat := 0x10110006 + 256 * n
abbrev shfEvt (n : Nat) : Nat := 0x10110007 + 256 * n
abbrev calReq : Nat := 0x10120000
abbrev calEvt : Nat := 0x10120001
abbrev calReferr : Nat := 0x10120002
abbrev calRefstat : Nat := 0x10120003
abbrev calAt : Nat := 0x10120004
abbrev calSstat (n : Nat) : Nat := 0x10120010 + n
abbrev calVcob (n : Nat) : Nat := 0x10120018 + n
abbrev calIqg (n : Nat) : Nat := 0x10120100 + 8 * n
abbrev calIqp (n : Nat) : Nat := 0x10120101 + 8 * n
abbrev calFbw (n : Nat) : Nat := 0x10120102 + 8 * n
abbrev calLoi (n : Nat) : Nat := 0x10120103 + 8 * n
abbrev calLoq (n : Nat) : Nat := 0x10120104 + 8 * n
abbrev calRph (n : Nat) : Nat := 0x10120105 + 8 * n
abbrev calValid (n : Nat) : Nat := 0x10120106 + 8 * n
abbrev awnAt : Nat := 0x10130000
abbrev awnPkind (n : Nat) : Nat := 0x10130100 + 16 * n
abbrev awnPthr (n : Nat) : Nat := 0x10130101 + 16 * n
abbrev awnSync (n : Nat) : Nat := 0x10130102 + 16 * n
abbrev awnPndet (n : Nat) : Nat := 0x10130106 + 16 * n
abbrev awnCtl (n : Nat) : Nat := 0x10131000 + 256 * n
abbrev awnStat (n : Nat) : Nat := 0x10131001 + 256 * n
abbrev awnEvt (n : Nat) : Nat := 0x10131002 + 256 * n
abbrev awnNdet (n : Nat) : Nat := 0x10131003 + 256 * n
abbrev awnNmerge (n : Nat) : Nat := 0x10131004 + 256 * n
abbrev awnNdisc (n : Nat) : Nat := 0x10131005 + 256 * n
abbrev awnChOff (n j : Nat) : Nat := 0x10134000 + 256 * n + 4 * j
abbrev awnChCfg (n j : Nat) : Nat := 0x10134002 + 256 * n + 4 * j
abbrev spkCtl : Nat := 0x10140000
abbrev spkStat : Nat := 0x10140001
abbrev spkEvt : Nat := 0x10140002
abbrev spkPeak : Nat := 0x10140003
abbrev spkDecbusy : Nat := 0x10140004
abbrev spkNalloc : Nat := 0x10140010
abbrev spkNpool : Nat := 0x10140011
abbrev spkNgran : Nat := 0x10140012
abbrev spkNhdr : Nat := 0x10140013
abbrev spkNfcs : Nat := 0x10140014
abbrev spkNblank : Nat := 0x10140015
abbrev spkNlate : Nat := 0x10140016
abbrev spkNinteg : Nat := 0x10140017
abbrev spkRes (n : Nat) : Nat := 0x10140100 + 16 * n
abbrev spkCap (n : Nat) : Nat := 0x10140101 + 16 * n
abbrev spkAct (n : Nat) : Nat := 0x10140102 + 16 * n
abbrev spkFec (n : Nat) : Nat := 0x10140200 + n
abbrev winStat : Nat := 0x10150000
abbrev winEvt : Nat := 0x10150001
abbrev winCtl : Nat := 0x10150002
abbrev winHor : Nat := 0x10150003
abbrev winHorat : Nat := 0x10150004
abbrev winSeq : Nat := 0x10150008
abbrev winHeld : Nat := 0x10150009
abbrev winRxmap (n : Nat) : Nat := 0x1015000A + n
abbrev winTxmap : Nat := 0x1015000C
abbrev winNrel : Nat := 0x10150010
abbrev winNcap : Nat := 0x10150011
abbrev winNinteg : Nat := 0x10150012
abbrev winNreg : Nat := 0x10150013
abbrev winNlate : Nat := 0x10150014
abbrev winNsupp : Nat := 0x10150015
abbrev winBase (n : Nat) : Nat := 0x10150100 + 16 * n
abbrev winSize (n : Nat) : Nat := 0x10150101 + 16 * n
abbrev winFree (n : Nat) : Nat := 0x10150102 + 16 * n
abbrev winMin (n : Nat) : Nat := 0x10150103 + 16 * n
abbrev lnkCtl : Nat := 0x10160000
abbrev lnkStat : Nat := 0x10160001
abbrev lnkEvt : Nat := 0x10160002
abbrev lnkSwctl : Nat := 0x10160003
abbrev lnkAt : Nat := 0x10160004
abbrev lnkAsn0 : Nat := 0x10160008
abbrev lnkAsn : Nat := 0x1016000C
abbrev lnkPanid : Nat := 0x10160010
abbrev lnkShort : Nat := 0x10160011
abbrev lnkExt : Nat := 0x10160014
abbrev lnkCh0 : Nat := 0x10160018
abbrev lnkChsp : Nat := 0x1016001A
abbrev lnkFugap : Nat := 0x1016001B
abbrev lnkFuack : Nat := 0x1016001C
abbrev lnkCellbase : Nat := 0x1016001E
abbrev lnkTslen : Nat := 0x10160020
abbrev lnkTstxoff : Nat := 0x10160021
abbrev lnkTstxack : Nat := 0x10160022
abbrev lnkTsrxack : Nat := 0x10160023
abbrev lnkTsackwait : Nat := 0x10160024
abbrev lnkTsmaxtx : Nat := 0x10160025
abbrev lnkSwasn : Nat := 0x10160028
abbrev lnkNack : Nat := 0x10160030
abbrev lnkNbusy : Nat := 0x10160031
abbrev lnkNnotack : Nat := 0x10160032
abbrev lnkNlate : Nat := 0x10160033
abbrev lnkNfilt : Nat := 0x10160034
abbrev lnkNtxlate : Nat := 0x10160035
abbrev lnkNmiss : Nat := 0x10160036
abbrev lnkTxq : Nat := 0x10160037
abbrev lnkPTurn (n : Nat) : Nat := 0x10160100 + 4 * n
abbrev lnkPPwr (n : Nat) : Nat := 0x10160101 + 4 * n
abbrev lnkPRxpre (n : Nat) : Nat := 0x10160102 + 4 * n
abbrev lnkPTxpre (n : Nat) : Nat := 0x10160103 + 4 * n
abbrev lnkAirUsed (n : Nat) : Nat := 0x10160200 + 4 * n
abbrev lnkAirNref (n : Nat) : Nat := 0x10160202 + 4 * n
abbrev lnkHop (n j : Nat) : Nat := 0x10160400 + 64 * n + j
abbrev lnkHoplen (n : Nat) : Nat := 0x10160480 + n
abbrev sesCtl : Nat := 0x10170000
abbrev sesStat : Nat := 0x10170001
abbrev sesEvt : Nat := 0x10170002
abbrev sesNsess : Nat := 0x10170003
abbrev sesRhseq : Nat := 0x10170004
abbrev sesNnosess : Nat := 0x10170010
abbrev sesNaccept : Nat := 0x10170011
abbrev sesNfail : Nat := 0x10170012
abbrev sesNnokey : Nat := 0x10170013
abbrev sesNdup : Nat := 0x10170014
abbrev sesNreplay : Nat := 0x10170015
abbrev sesNlook : Nat := 0x10170016
abbrev sesMb (n : Nat) : Nat := 0x10170100 + n
abbrev sesMbgo : Nat := 0x10170120
abbrev sesMbstat : Nat := 0x10170121
abbrev sesMbres (n : Nat) : Nat := 0x10170124 + n
abbrev sagCtl : Nat := 0x10180000
abbrev sagStat : Nat := 0x10180001
abbrev sagEvt : Nat := 0x10180002
abbrev sagTcap : Nat := 0x10180003
abbrev sagMigmax : Nat := 0x10180004
abbrev sagNe : Nat := 0x10180005
abbrev sagEpoch : Nat := 0x10180006
abbrev sagQsess : Nat := 0x10180008
abbrev sagQres : Nat := 0x10180009
abbrev sagDirn : Nat := 0x1018000A
abbrev sagNmig : Nat := 0x10180010
abbrev sagNmigfail : Nat := 0x10180011
abbrev sagNhin : Nat := 0x10180012
abbrev sagNhout : Nat := 0x10180013
abbrev sagNnotown : Nat := 0x10180014
abbrev sagNhlate : Nat := 0x10180015
abbrev sagLoad (n : Nat) : Nat := 0x10180100 + n
abbrev sagNsess (n : Nat) : Nat := 0x10180140 + n
abbrev tilCstat : Nat := 0x10190000
abbrev tilCsplit : Nat := 0x10190001
abbrev tilStallmax : Nat := 0x10190002
abbrev tilCtl (n : Nat) : Nat := 0x10190100 + 16 * n
abbrev tilStat (n : Nat) : Nat := 0x10190101 + 16 * n
abbrev tilEntry (n : Nat) : Nat := 0x10190102 + 16 * n
abbrev tilTrap (n : Nat) : Nat := 0x10190104 + 16 * n
abbrev tilTrappc (n : Nat) : Nat := 0x10190105 + 16 * n
abbrev tilEvt (n : Nat) : Nat := 0x10190107 + 16 * n
abbrev tilLmaddr (n : Nat) : Nat := 0x10190108 + 16 * n
abbrev tilLmdata (n : Nat) : Nat := 0x10190109 + 16 * n
abbrev tilHeld (n : Nat) : Nat := 0x1019010A + 16 * n
abbrev tilNlost (n : Nat) : Nat := 0x1019010B + 16 * n
abbrev uslCtl : Nat := 0x101A0000
abbrev uslStat : Nat := 0x101A0001
abbrev uslEvt : Nat := 0x101A0002
abbrev uslLm : Nat := 0x101A0003
abbrev uslLmact : Nat := 0x101A0004
abbrev uslSbmax : Nat := 0x101A0005
abbrev uslCkey : Nat := 0x101A0006
abbrev uslToff : Nat := 0x101A0007
abbrev uslNcontrib : Nat := 0x101A0010
abbrev uslNlatesum : Nat := 0x101A0011
abbrev uslNnoann : Nat := 0x101A0012
abbrev uslMap (n : Nat) : Nat := 0x101A0020 + n
abbrev uslnCtl (n : Nat) : Nat := 0x101A0100 + 64 * n
abbrev uslnStat (n : Nat) : Nat := 0x101A0101 + 64 * n
abbrev uslnEvt (n : Nat) : Nat := 0x101A0102 + 64 * n
abbrev uslnPeer (n : Nat) : Nat := 0x101A0103 + 64 * n
abbrev uslnNretry (n : Nat) : Nat := 0x101A0104 + 64 * n
abbrev uslnNcrc (n : Nat) : Nat := 0x101A0105 + 64 * n
abbrev ethCtl : Nat := 0x101B0000
abbrev ethStat : Nat := 0x101B0001
abbrev ethEvt : Nat := 0x101B0002
abbrev ethFlowbase : Nat := 0x101B0004
abbrev ethRxcore : Nat := 0x101B0006
abbrev ethRxpart : Nat := 0x101B0007
abbrev ethMport : Nat := 0x101B0008
abbrev ethMkey : Nat := 0x101B0009
abbrev ethMseq : Nat := 0x101B000A
abbrev ethEvflow : Nat := 0x101B000C
abbrev ethNbadout : Nat := 0x101B0010
abbrev ethNmrej : Nat := 0x101B0011
abbrev ethnCtl (n : Nat) : Nat := 0x101B0100 + 64 * n
abbrev ethnStat (n : Nat) : Nat := 0x101B0101 + 64 * n
abbrev ethnMac (n : Nat) : Nat := 0x101B0104 + 64 * n
abbrev ethnNtx (n : Nat) : Nat := 0x101B0108 + 64 * n
abbrev ethnNrx (n : Nat) : Nat := 0x101B0109 + 64 * n
abbrev ethnNbad (n : Nat) : Nat := 0x101B010A + 64 * n
abbrev ethnNdrop (n : Nat) : Nat := 0x101B010B + 64 * n
abbrev ethnNdown (n : Nat) : Nat := 0x101B010C + 64 * n
abbrev hspCtl : Nat := 0x101C0000
abbrev hspEvt : Nat := 0x101C0001
abbrev hspRxcnt : Nat := 0x101C0002
abbrev hspRxpop : Nat := 0x101C0004
abbrev hspRxret : Nat := 0x101C0008
abbrev hspHresv : Nat := 0x101C0009
abbrev hspHgran : Nat := 0x101C000A
abbrev hspHsend : Nat := 0x101C000B
abbrev xspStat : Nat := 0x101D0000
abbrev xspEvt : Nat := 0x101D0001
abbrev xspFaddr : Nat := 0x101D0002
abbrev xspMaddr : Nat := 0x101D0004
abbrev xspLen : Nat := 0x101D0006
abbrev xspGo : Nat := 0x101D0007
abbrev xspRes : Nat := 0x101D0008
abbrev xspSize : Nat := 0x101D0009
abbrev nftCtl : Nat := 0x101E0000
abbrev nftStat : Nat := 0x101E0001
abbrev nftEvt : Nat := 0x101E0002
abbrev nftWaddr : Nat := 0x101E0003
abbrev nftWdata : Nat := 0x101E0004
abbrev nftPcommit : Nat := 0x101E0005
abbrev nftPstat : Nat := 0x101E0006
abbrev nftNvcfg : Nat := 0x101E0007
abbrev nftFpage : Nat := 0x101E0008
abbrev nfrCtl : Nat := 0x101F0000
abbrev nfrStat : Nat := 0x101F0001
abbrev nfrEvt : Nat := 0x101F0002
abbrev nfrPingper : Nat := 0x101F0003
abbrev nfrDetthr : Nat := 0x101F0004
abbrev nfrDetune : Nat := 0x101F0005
abbrev nfrRefresh : Nat := 0x101F0006
abbrev nfrPanelid : Nat := 0x101F0008
abbrev hedCtl (n : Nat) : Nat := 0x10200000 + 16 * n
abbrev hedStat (n : Nat) : Nat := 0x10200001 + 16 * n
abbrev hedCur (n : Nat) : Nat := 0x10200002 + 16 * n
abbrev hedEvt (n : Nat) : Nat := 0x10200003 + 16 * n
abbrev hedGstat : Nat := 0x10200080
abbrev hedVhead : Nat := 0x10200081
abbrev hedRlwarn : Nat := 0x10200082
abbrev hedAflt (n : Nat) : Nat := 0x10200100 + 4 * n
abbrev hedAfclr (n : Nat) : Nat := 0x10200101 + 4 * n
abbrev hedBalldc (n : Nat) : Nat := 0x10200102 + 4 * n

end Reg

/-! ## The register tables, block by block -/

/-- The registers of the SYS block. -/
def rowsSys : List RegRow := [
  reg1 0x0 0x0 0x0 0x0 0x0, reg1 0x1 0x0 0x0 0x0 0x0, reg1 0x2 0x0 0x0 0x8080 0x0,
  reg1 0x4 0x0 0x1F 0x0 0x0, reg1 0x5 0x0 0x0 0x0 0x0, reg1 0x6 0x0 0x0 0x0 0x0,
  reg1 0x8 0x1 0x0 0x3F 0x0, reg1 0x9 0x0 0x0 0x0 0x0, reg1 0xA 0x0 0x2 0x0 0x1,
  reg1 0xB 0x400 0xFFFF 0x0 0x0, reg1 0xC 0x0 0x0 0x0 0x0, reg1 0xD 0x0 0x0 0x0 0x1]

/-- The registers of the FEN block. -/
def rowsFen : List RegRow := [
  reg1 0x0 0x4000 0x0 0x0 0x0, reg1 0x1 0x0 0x0 0x0 0x0, reg1 0x2 0x0 0x0 0x7 0x0,
  reg1 0x3 0x0 0x0 0x0 0x0, grp1 0x4 0x0 0x0 0 2, grp1 0x5 0x0 0x0 1 2, reg1 0x6 0x0 0x0 0x0 0x0,
  reg1 0x7 0x0 0x0 0x0 0x0, grpN 0x100 0x0 0xFFFF 0 2 64 8, grpN 0x101 0x0 0xFFFF 1 2 64 8,
  grpN 0x102 0x0 0xFFFF 0 2 64 8, grpN 0x103 0x0 0xFFFF 1 2 64 8,
  regN 0x104 0x0 0xFFF 0x0 0x0 64 8, regN 0x105 0x0 0x8003 0x0 0x0 64 8]

/-- The registers of the INT block. -/
def rowsInt : List RegRow := [
  reg1 0x0 0x0 0x0 0x7 0x0, regN 0x10 0x0 0x0 0x0 0x0 16 1, regN 0x20 0x0 0x0 0x0 0x0 16 1,
  reg1 0x30 0xFFFF 0x0 0x0 0x0, reg1 0x31 0x0 0x0 0x0 0x0, reg1 0x32 0xFFFF 0x0 0x0 0x0,
  reg1 0x33 0x0 0x0 0x0 0x0, regN 0x100 0x20 0xE03F 0x0 0x0 256 1]

/-- The registers of the STL block. -/
def rowsStl : List RegRow := [
  reg1 0x0 0x0 0x0 0x0 0x0, reg1 0x1 0x0 0x0 0x1 0x0, regN 0x100 0x0 0x8FFF 0x0 0x0 128 2,
  regN 0x101 0x0 0xFF 0x0 0x0 128 2, regN 0x400 0x0 0xFFFF 0x0 0x0 32 4,
  regN 0x401 0x0 0xFF07 0x0 0x0 32 4, regN 0x402 0x0 0xFFF 0x0 0x0 32 4,
  regN 0x403 0x0 0x0 0x0 0x0 32 4]

/-- The registers of the TMR block. -/
def rowsTmr : List RegRow := [
  reg1 0x0 0x0 0x1 0x0 0x0, reg1 0x1 0x0 0x0 0x0 0x0, grp1 0x4 0x0 0xFFFF 0 4,
  grp1 0x5 0x0 0xFFFF 1 4, grp1 0x6 0x0 0xFFFF 2 4, grp1 0x7 0x0 0xFFFF 3 4,
  regN 0x100 0x0 0xFF 0x0 0x0 32 8, regN 0x101 0x0 0x0 0x0 0x0 32 8,
  regN 0x102 0x0 0x0 0xFF 0x0 32 8, regN 0x103 0x0 0x7FFF 0x0 0x0 32 8,
  regN 0x104 0x0 0xFFFF 0x0 0x0 32 8, regN 0x200 0x0 0xFFFF 0x0 0x0 32 1,
  regN 0x220 0x0 0xFFFF 0x0 0x0 32 1, regN 0x240 0x7FFF 0xFFFF 0x0 0x0 32 1,
  regN 0x260 0x0 0x0 0x0 0x0 32 1, grpN 0x280 0x0 0xFFFF 0 2 32 2,
  grpN 0x281 0xEA6 0xFFFF 1 2 32 2]

/-- The registers of the RTC block. -/
def rowsRtc : List RegRow := [
  reg1 0x0 0x8008 0x0 0x6 0x0, reg1 0x1 0x0 0x0 0xF 0x0, reg1 0x2 0x0 0x0 0x0 0x0,
  reg1 0x3 0x4 0x0 0x7 0x0, grp1 0x4 0x0 0xFF3F 0 4, grp1 0x5 0x0 0x3F1F 1 4,
  grp1 0x6 0x101 0x1F0F 2 4, grp1 0x7 0x0 0xFF 3 4, reg1 0x8 0x0 0x7 0x0 0x0,
  grp1 0xA 0x0 0xFFFF 0 2, grp1 0xB 0x0 0x1FF 1 2, reg1 0xC 0x0 0xFFFF 0x0 0x0,
  reg1 0xD 0x4 0x600F 0x0 0x0, reg1 0xE 0x0 0x0 0x0 0x0, reg1 0xF 0x0 0x0 0x0 0x0,
  grp1 0x10 0x0 0x0 0 2, grp1 0x11 0x0 0x0 1 2, regN 0x20 0x0 0xFFFF 0x0 0x0 16 1]

/-- The registers of the KEY block. -/
def rowsKey : List RegRow := [
  reg1 0x0 0x0 0x0 0x0 0x0, reg1 0x1 0x0 0x0 0xF 0x0, grp1 0x2 0x0 0x0 0 4, grp1 0x3 0x0 0x0 1 4,
  grp1 0x4 0x0 0x0 2 4, grp1 0x5 0x0 0x0 3 4, reg1 0x6 0x0 0x0 0x0 0x0, reg1 0x7 0x0 0x0 0x0 0x0,
  reg1 0x8 0x0 0x0 0x0 0x0, reg1 0x9 0x0 0x0 0x0 0x0, reg1 0x10 0x0 0xFFFF 0x0 0x0,
  reg1 0x11 0x0 0x3F 0x0 0x0, reg1 0x12 0x0 0x0 0x0 0x0, reg1 0x13 0x0 0x0 0x0 0x0,
  reg1 0x14 0x0 0x0 0x0 0x0, regN 0x18 0x0 0xFFFF 0x0 0x0 8 1, grp1 0x20 0x0 0xFFFF 0 2,
  grp1 0x21 0x0 0xFFFF 1 2, reg1 0x22 0x0 0x3FF 0x0 0x0, reg1 0x23 0x0 0x0 0x0 0x0,
  regN 0x24 0x0 0x0 0x0 0x0 2 1, grp1 0x30 0x0 0xFFFF 0 2, grp1 0x31 0x0 0xFFFF 1 2,
  reg1 0x32 0x0 0x0 0x0 0x0, reg1 0x33 0x0 0x0 0x0 0x0, regN 0x40 0x0 0xFFFF 0x0 0x0 16 1,
  regN 0x100 0x0 0x0 0x0 0x0 32 1, regN 0x120 0x0 0x0 0x0 0x0 32 1,
  regN 0x200 0x0 0x0 0x0 0x0 64 1, regN 0x280 0x0 0x0 0x0 0x0 64 1]

/-- The registers of the AES block. -/
def rowsAes : List RegRow := [
  reg1 0x0 0x0 0x0 0x0 0x0, reg1 0x1 0x0 0x0 0x7FF 0x0, reg1 0x2 0x0 0x0 0x0 0x0,
  regN 0x10 0x0 0x0 0x0 0x0 5 1, regN 0x18 0x0 0x0 0x0 0x0 5 1]

/-- The registers of the UPD block. -/
def rowsUpd : List RegRow := [
  reg1 0x0 0x0 0x0 0x0 0x0, reg1 0x1 0x0 0x0 0xF 0x0, grp1 0x2 0x0 0xFFFF 0 2,
  grp1 0x3 0x0 0xFFFF 1 2, reg1 0x4 0x0 0xFFFF 0x0 0x0, reg1 0x5 0x0 0x0 0x0 0x0,
  reg1 0x6 0x0 0x0 0x0 0x0, reg1 0x7 0x0 0x0 0x0 0x0, reg1 0x8 0x12C 0xFFF 0x0 0x0,
  reg1 0x9 0x0 0x0 0x0 0x0]

/-- The registers of the FLT block. -/
def rowsFlt : List RegRow := [
  reg1 0x0 0x1 0x1 0x0 0x0, reg1 0x1 0x0 0x0 0x0 0x0, reg1 0x2 0x0 0x0 0xFF 0x0,
  reg1 0x3 0x0 0x0 0x0 0x0, reg1 0x4 0x3E8 0xFFFF 0x0 0x0, reg1 0x5 0x8 0x7F 0x0 0x0,
  reg1 0x6 0x64 0xFFFF 0x0 0x0, reg1 0x7 0x3 0xF 0x0 0x0, reg1 0x8 0x4 0xF 0x0 0x0,
  reg1 0x9 0x40 0x0 0x0 0x0, reg1 0xA 0x0 0x1F 0x0 0x0, reg1 0xB 0x0 0x0 0x0 0x0,
  reg1 0xC 0x0 0x0 0x0 0x0, reg1 0x10 0x0 0x0 0x0 0x0, reg1 0x11 0x0 0x0 0x0 0x0,
  reg1 0x12 0x0 0x0 0x0 0x0, reg1 0x13 0x0 0x0 0x0 0x0, reg1 0x14 0x0 0x0 0x0 0x0,
  reg1 0x15 0x0 0x0 0x0 0x0, reg1 0x16 0x0 0x0 0x0 0x0, reg1 0x17 0x0 0x0 0x0 0x0,
  regN 0x20 0x0 0x0 0x0 0x0 12 1, regN 0x30 0x0 0x0 0xFFFF 0x0 4 1,
  regN 0x100 0x40 0x0 0x0 0x0 201 1]

/-- The registers of the TBS block. -/
def rowsTbs : List RegRow := [
  reg1 0x0 0x0 0xF 0x0 0x0, reg1 0x1 0x0 0x0 0x0 0x0, reg1 0x2 0x0 0x0 0xF 0x0,
  reg1 0x3 0x0 0x0 0x0 0x0, grp1 0x4 0x0 0x0 0 4, grp1 0x5 0x0 0x0 1 4, grp1 0x6 0x0 0x0 2 4,
  grp1 0x7 0x0 0x0 3 4, grp1 0x8 0x0 0xFFFF 0 2, grp1 0x9 0x0 0xFFFF 1 2, grp1 0xC 0x0 0xFFFF 0 4,
  grp1 0xD 0x0 0xFFFF 1 4, grp1 0xE 0x0 0xFFFF 2 4, grp1 0xF 0x0 0xFFFF 3 4,
  grp1 0x10 0x0 0xFFFF 0 4, grp1 0x11 0x0 0xFFFF 1 4, grp1 0x12 0x0 0xFFFF 2 4,
  grp1 0x13 0x0 0xFFFF 3 4, grp1 0x14 0x0 0xFFFF 0 4, grp1 0x15 0x0 0xFFFF 1 4,
  grp1 0x16 0x0 0xFFFF 2 4, grp1 0x17 0x0 0xFFFF 3 4, grp1 0x18 0x0 0x0 0 4,
  grp1 0x19 0x0 0x0 1 4, grp1 0x1A 0x0 0x0 2 4, grp1 0x1B 0x0 0x0 3 4, grp1 0x1C 0x0 0xFFFF 0 4,
  grp1 0x1D 0x0 0xFFFF 1 4, grp1 0x1E 0x0 0xFFFF 2 4, grp1 0x1F 0x0 0xFFFF 3 4,
  grp1 0x20 0x0 0xFFFF 0 2, grp1 0x21 0x753 0xFFFF 1 2, grp1 0x24 0x0 0xFFFF 0 4,
  grp1 0x25 0x0 0xFFFF 1 4, grp1 0x26 0x0 0xFFFF 2 4, grp1 0x27 0x0 0xFFFF 3 4]

/-- The registers of the RGL block. -/
def rowsRgl : List RegRow := [
  reg1 0x0 0x0 0x0 0x0 0x0, reg1 0x1 0x0 0x0 0x7F 0x0, reg1 0x2 0x0 0x0 0x0 0x0,
  reg1 0x3 0x0 0x0 0x0 0x0, reg1 0x4 0x0 0x0 0x0 0x0, regN 0x100 0x0 0x0 0x0 0x0 64 1,
  regN 0x1000 0x0 0x0 0x0 0x0 202 1]

/-- The registers of the PRT block. -/
def rowsPrt : List RegRow := [
  regN 0x0 0x0 0x3 0x0 0x0 64 256, regN 0x1 0x0 0x0 0x0 0x0 64 256,
  regN 0x2 0x8 0xF 0x0 0x0 64 256, regN 0x3 0x38 0xFF 0x0 0x0 64 256,
  regN 0x4 0x2020 0x3F3F 0x0 0x0 64 256, regN 0x5 0x8000 0x0 0x0 0x0 64 256,
  regN 0x6 0x8000 0x0 0x0 0x0 64 256, regN 0x7 0x0 0x0 0x0 0x0 64 256,
  regN 0x8 0x0 0x0 0x0 0x0 64 256, regN 0x9 0x0 0x0 0x0 0x0 64 256,
  regN 0xA 0x0 0x0 0x0 0x0 64 256, regN 0xB 0x0 0x0 0x0 0x0 64 256]

/-- The registers of the SHF block. -/
def rowsShf : List RegRow := [
  regN 0x0 0x4 0x7 0x0 0x0 8 256, regN 0x1 0x0 0x0 0x0 0x0 8 256, grpN 0x2 0x0 0xFFFF 0 2 8 256,
  grpN 0x3 0x5F00 0xFFFF 1 2 8 256, regN 0x4 0x1 0x3 0x0 0x0 8 256,
  regN 0x5 0x0 0x0 0x0 0x0 8 256, regN 0x6 0x0 0x0 0x0 0x0 8 256, regN 0x7 0x0 0x0 0x3F 0x0 8 256]

/-- The registers of the CAL block. -/
def rowsCal : List RegRow := [
  reg1 0x0 0x0 0x0 0x0 0x0, reg1 0x1 0x0 0x0 0x1FF 0x0, reg1 0x2 0x0 0x0 0x0 0x0,
  reg1 0x3 0x0 0x0 0x0 0x0, grp1 0x4 0x0 0xFFFF 0 4, grp1 0x5 0x0 0xFFFF 1 4,
  grp1 0x6 0x0 0xFFFF 2 4, grp1 0x7 0x0 0xFFFF 3 4, regN 0x10 0x0 0x0 0x0 0x0 8 1,
  regN 0x18 0x0 0x0 0x0 0x0 8 1, regN 0x100 0x0 0xFFFF 0x0 0x0 64 8,
  regN 0x101 0x0 0xFFFF 0x0 0x0 64 8, regN 0x102 0x20 0x3F 0x0 0x0 64 8,
  regN 0x103 0x0 0xFFFF 0x0 0x0 64 8, regN 0x104 0x0 0xFFFF 0x0 0x0 64 8,
  regN 0x105 0x0 0xFFFF 0x0 0x0 64 8, regN 0x106 0x0 0xF 0x0 0x0 64 8]

/-- The registers of the AWN block. -/
def rowsAwn : List RegRow := [
  grp1 0x0 0x0 0xFFFF 0 4, grp1 0x1 0x0 0xFFFF 1 4, grp1 0x2 0x0 0xFFFF 2 4,
  grp1 0x3 0x0 0xFFFF 3 4, regN 0x100 0x0 0x77 0x0 0x0 8 16, regN 0x101 0x30 0xFF 0x0 0x0 8 16,
  grpN 0x102 0x0 0xFFFF 0 4 8 16, grpN 0x103 0x0 0xFFFF 1 4 8 16, grpN 0x104 0x0 0xFFFF 2 4 8 16,
  grpN 0x105 0x0 0xFFFF 3 4 8 16, regN 0x106 0x0 0x0 0x0 0x0 8 16,
  regN 0x1000 0x0 0x7 0x0 0x0 8 256, regN 0x1001 0x0 0x0 0x0 0x0 8 256,
  regN 0x1002 0x0 0x0 0x1F 0x0 8 256, regN 0x1003 0x0 0x0 0x0 0x0 8 256,
  regN 0x1004 0x0 0x0 0x0 0x0 8 256, regN 0x1005 0x0 0x0 0x0 0x0 8 256,
  grpNM 0x4000 0x0 0xFFFF 0 2 8 256 48 4, grpNM 0x4001 0x0 0xFF 1 2 8 256 48 4,
  regNM 0x4002 0x0 0x83FF 8 256 48 4]

/-- The registers of the SPK block. -/
def rowsSpk : List RegRow := [
  reg1 0x0 0x0 0x1 0x0 0x0, reg1 0x1 0x0 0x0 0x0 0x0, reg1 0x2 0x0 0x0 0xFF 0x0,
  reg1 0x3 0x0 0x0 0x0 0x0, reg1 0x4 0x0 0x0 0x0 0x0, reg1 0x10 0x0 0x0 0x0 0x0,
  reg1 0x11 0x0 0x0 0x0 0x0, reg1 0x12 0x0 0x0 0x0 0x0, reg1 0x13 0x0 0x0 0x0 0x0,
  reg1 0x14 0x0 0x0 0x0 0x0, reg1 0x15 0x0 0x0 0x0 0x0, reg1 0x16 0x0 0x0 0x0 0x0,
  reg1 0x17 0x0 0x0 0x0 0x0, regN 0x100 0x0 0x7FF 0x0 0x0 8 16,
  regN 0x101 0x400 0x7FF 0x0 0x0 8 16, regN 0x102 0x0 0x0 0x0 0x0 8 16,
  regN 0x200 0x0 0x3 0x0 0x0 8 1]

/-- The registers of the WIN block. -/
def rowsWin : List RegRow := [
  reg1 0x0 0x0 0x0 0x0 0x0, reg1 0x1 0x0 0x0 0x7F 0x0, reg1 0x2 0x0 0x0 0x0 0x0,
  reg1 0x3 0x808 0x3F 0x0 0x0, grp1 0x4 0x0 0xFFFF 0 4, grp1 0x5 0x0 0xFFFF 1 4,
  grp1 0x6 0x0 0xFFFF 2 4, grp1 0x7 0x0 0xFFFF 3 4, reg1 0x8 0x0 0x0 0x0 0x0,
  reg1 0x9 0x0 0x0 0x0 0x0, regN 0xA 0x0 0xFFFF 0x0 0x0 2 1, reg1 0xC 0x0 0xFFFF 0x0 0x0,
  reg1 0x10 0x0 0x0 0x0 0x0, reg1 0x11 0x0 0x0 0x0 0x0, reg1 0x12 0x0 0x0 0x0 0x0,
  reg1 0x13 0x0 0x0 0x0 0x0, reg1 0x14 0x0 0x0 0x0 0x0, reg1 0x15 0x0 0x0 0x0 0x0,
  regN 0x100 0x0 0x7FF 0x0 0x0 16 16, regN 0x101 0x0 0x7FF 0x0 0x0 16 16,
  regN 0x102 0x0 0x0 0x0 0x0 16 16, regN 0x103 0x0 0x0 0x0 0x0 16 16]

/-- The registers of the LNK block. -/
def rowsLnk : List RegRow := [
  reg1 0x0 0x10 0x1F 0x0 0x0, reg1 0x1 0x0 0x0 0x0 0x0, reg1 0x2 0x0 0x0 0x1FF 0x0,
  reg1 0x3 0x0 0x1 0x0 0x2, grp1 0x4 0x0 0xFFFF 0 4, grp1 0x5 0x0 0xFFFF 1 4,
  grp1 0x6 0x0 0xFFFF 2 4, grp1 0x7 0x0 0xFFFF 3 4, grp1 0x8 0x0 0xFFFF 0 4,
  grp1 0x9 0x0 0xFFFF 1 4, grp1 0xA 0x0 0xFF 2 4, grp1 0xB 0x0 0x0 3 4, grp1 0xC 0x0 0x0 0 4,
  grp1 0xD 0x0 0x0 1 4, grp1 0xE 0x0 0x0 2 4, grp1 0xF 0x0 0x0 3 4,
  reg1 0x10 0xFFFF 0xFFFF 0x0 0x0, reg1 0x11 0xFFFE 0xFFFF 0x0 0x0, grp1 0x14 0x0 0xFFFF 0 4,
  grp1 0x15 0x0 0xFFFF 1 4, grp1 0x16 0x0 0xFFFF 2 4, grp1 0x17 0x0 0xFFFF 3 4,
  grp1 0x18 0xCAC0 0xFFFF 0 2, grp1 0x19 0x3689 0xFFFF 1 2, reg1 0x1A 0x7D0 0xFFFF 0x0 0x0,
  reg1 0x1B 0x190 0xFFFF 0x0 0x0, reg1 0x1C 0x3E8 0xFFFF 0x0 0x0, grp1 0x1E 0x0 0xFFFF 0 2,
  grp1 0x1F 0x118 0xFFFF 1 2, reg1 0x20 0x2710 0xFFFF 0x0 0x0, reg1 0x21 0x848 0xFFFF 0x0 0x0,
  reg1 0x22 0x3E8 0xFFFF 0x0 0x0, reg1 0x23 0x320 0xFFFF 0x0 0x0, reg1 0x24 0x190 0xFFFF 0x0 0x0,
  reg1 0x25 0x10A0 0xFFFF 0x0 0x0, grp1 0x28 0x0 0xFFFF 0 4, grp1 0x29 0x0 0xFFFF 1 4,
  grp1 0x2A 0x0 0xFF 2 4, grp1 0x2B 0x0 0x0 3 4, reg1 0x30 0x0 0x0 0x0 0x0,
  reg1 0x31 0x0 0x0 0x0 0x0, reg1 0x32 0x0 0x0 0x0 0x0, reg1 0x33 0x0 0x0 0x0 0x0,
  reg1 0x34 0x0 0x0 0x0 0x0, reg1 0x35 0x0 0x0 0x0 0x0, reg1 0x36 0x0 0x0 0x0 0x0,
  reg1 0x37 0x0 0x0 0x0 0x0, regN 0x100 0x3E8 0xFFFF 0x0 0x0 8 4,
  regN 0x101 0x38 0xFF 0x0 0x0 8 4, regN 0x102 0x8 0x3FF 0x0 0x0 8 4,
  regN 0x103 0x8 0x3FF 0x0 0x0 8 4, grpN 0x200 0x0 0x0 0 2 8 4, grpN 0x201 0x0 0x0 1 2 8 4,
  regN 0x202 0x0 0x0 0x0 0x0 8 4, regNM 0x400 0x0 0x7F7F 2 64 64 1,
  regN 0x480 0x1 0xFF 0x0 0x0 2 1]

/-- The registers of the SES block. -/
def rowsSes : List RegRow := [
  reg1 0x0 0x0 0x3 0x0 0x0, reg1 0x1 0x0 0x0 0x0 0x0, reg1 0x2 0x0 0x0 0xFF 0x0,
  reg1 0x3 0x0 0x0 0x0 0x0, reg1 0x4 0x0 0x0 0x0 0x0, reg1 0x10 0x0 0x0 0x0 0x0,
  reg1 0x11 0x0 0x0 0x0 0x0, reg1 0x12 0x0 0x0 0x0 0x0, reg1 0x13 0x0 0x0 0x0 0x0,
  reg1 0x14 0x0 0x0 0x0 0x0, reg1 0x15 0x0 0x0 0x0 0x0, reg1 0x16 0x0 0x0 0x0 0x0,
  regN 0x100 0x0 0xFFFF 0x0 0x0 32 1, reg1 0x120 0x0 0x0 0x0 0x0, reg1 0x121 0x0 0x0 0x0 0x0,
  regN 0x124 0x0 0x0 0x0 0x0 4 1]

/-- The registers of the SAG block. -/
def rowsSag : List RegRow := [
  reg1 0x0 0x0 0x5F 0x0 0x0, reg1 0x1 0x0 0x0 0x0 0x0, reg1 0x2 0x0 0x0 0x3F 0x0,
  reg1 0x3 0x30 0x7F 0x0 0x0, reg1 0x4 0x40 0xFF 0x0 0x0, reg1 0x5 0x64 0x0 0x0 0x0,
  grp1 0x6 0x0 0x0 0 2, grp1 0x7 0x0 0x0 1 2, reg1 0x8 0x0 0x3FFF 0x0 0x0,
  reg1 0x9 0x0 0x0 0x0 0x0, reg1 0xA 0x0 0x0 0x0 0x0, reg1 0x10 0x0 0x0 0x0 0x0,
  reg1 0x11 0x0 0x0 0x0 0x0, reg1 0x12 0x0 0x0 0x0 0x0, reg1 0x13 0x0 0x0 0x0 0x0,
  reg1 0x14 0x0 0x0 0x0 0x0, reg1 0x15 0x0 0x0 0x0 0x0, regN 0x100 0x0 0x0 0x0 0x0 32 1,
  regN 0x140 0x0 0x0 0x0 0x0 32 1]

/-- The registers of the TIL block. -/
def rowsTil : List RegRow := [
  reg1 0x0 0x1 0x0 0x0 0x0, reg1 0x1 0x8000 0xFFFF 0x0 0x0, reg1 0x2 0x0 0xFFFF 0x0 0x0,
  regN 0x100 0x2 0x7 0x0 0x0 32 16, regN 0x101 0x0 0x0 0x0 0x0 32 16,
  grpN 0x102 0x0 0xFFFF 0 2 32 16, grpN 0x103 0x100 0xFFFF 1 2 32 16,
  regN 0x104 0x0 0x0 0x0 0x0 32 16, grpN 0x105 0x0 0x0 0 2 32 16, grpN 0x106 0x0 0x0 1 2 32 16,
  regN 0x107 0x0 0x0 0x1F 0x0 32 16, regN 0x108 0x0 0xFFFF 0x0 0x0 32 16,
  regN 0x109 0x0 0x0 0x0 0x0 32 16, regN 0x10A 0x0 0x0 0x0 0x0 32 16,
  regN 0x10B 0x0 0x0 0x0 0x0 32 16]

/-- The registers of the USL block. -/
def rowsUsl : List RegRow := [
  reg1 0x0 0x0 0x1 0x0 0x0, reg1 0x1 0x0 0x0 0x0 0x0, reg1 0x2 0x0 0x0 0x7F 0x0,
  reg1 0x3 0x200 0xFFFF 0x0 0x0, reg1 0x4 0x0 0x0 0x0 0x0, reg1 0x5 0x200 0x1FFF 0x0 0x0,
  reg1 0x6 0x0 0xFFFF 0x0 0x0, reg1 0x7 0x0 0x0 0x0 0x0, reg1 0x10 0x0 0x0 0x0 0x0,
  reg1 0x11 0x0 0x0 0x0 0x0, reg1 0x12 0x0 0x0 0x0 0x0, regN 0x20 0x0 0x0 0x0 0x0 16 1,
  regN 0x100 0x1E 0x1F 0x0 0x0 2 64, regN 0x101 0x0 0x0 0x0 0x0 2 64,
  regN 0x102 0x0 0x0 0xF 0x0 2 64, regN 0x103 0x0 0x0 0x0 0x0 2 64,
  regN 0x104 0x0 0x0 0x0 0x0 2 64, regN 0x105 0x0 0x0 0x0 0x0 2 64]

/-- The registers of the ETH block. -/
def rowsEth : List RegRow := [
  reg1 0x0 0x0 0x0 0x0 0x0, reg1 0x1 0x0 0x0 0x0 0x0, reg1 0x2 0x0 0x0 0x1 0x0,
  grp1 0x4 0xF000 0xFFFF 0 2, grp1 0x5 0x11F 0xFFFF 1 2, reg1 0x6 0x2020 0x3F3F 0x0 0x0,
  reg1 0x7 0x0 0xF 0x0 0x0, reg1 0x8 0xC351 0xFFFF 0x0 0x0, reg1 0x9 0x0 0xFFFF 0x0 0x0,
  grp1 0xA 0x0 0x0 0 2, grp1 0xB 0x0 0x0 1 2, reg1 0xC 0x0 0xF 0x0 0x0, reg1 0x10 0x0 0x0 0x0 0x0,
  reg1 0x11 0x0 0x0 0x0 0x0, regN 0x100 0x0 0x3 0x0 0x0 2 64, regN 0x101 0x0 0x0 0x0 0x0 2 64,
  grpN 0x104 0x0 0xFFFF 0 4 2 64, grpN 0x105 0x0 0xFFFF 1 4 2 64, grpN 0x106 0x0 0xFFFF 2 4 2 64,
  grpN 0x107 0x0 0x0 3 4 2 64, regN 0x108 0x0 0x0 0x0 0x0 2 64, regN 0x109 0x0 0x0 0x0 0x0 2 64,
  regN 0x10A 0x0 0x0 0x0 0x0 2 64, regN 0x10B 0x0 0x0 0x0 0x0 2 64,
  regN 0x10C 0x0 0x0 0x0 0x0 2 64]

/-- The registers of the HSP block. -/
def rowsHsp : List RegRow := [
  reg1 0x0 0x20 0x3FF 0x0 0x0, reg1 0x1 0x0 0x0 0x3F 0x0, reg1 0x2 0x0 0x0 0x0 0x0,
  grp1 0x4 0xFFFF 0x0 0 4, grp1 0x5 0x0 0x0 1 4, grp1 0x6 0x0 0x0 2 4, grp1 0x7 0x0 0x0 3 4,
  reg1 0x8 0x0 0x0 0x0 0x0, reg1 0x9 0x0 0x0 0x0 0x0, reg1 0xA 0xFFFF 0x0 0x0 0x0,
  reg1 0xB 0x0 0x0 0x0 0x0]

/-- The registers of the XSP block. -/
def rowsXsp : List RegRow := [
  reg1 0x0 0x0 0x0 0x0 0x0, reg1 0x1 0x0 0x0 0x3 0x0, grp1 0x2 0x0 0xFFFF 0 2,
  grp1 0x3 0x0 0xFFFF 1 2, grp1 0x4 0x0 0xFFFF 0 2, grp1 0x5 0x0 0xFFFF 1 2,
  reg1 0x6 0x0 0xFFFF 0x0 0x0, reg1 0x7 0x0 0x0 0x0 0x0, reg1 0x8 0x0 0x0 0x0 0x0,
  reg1 0x9 0x0 0x0 0x0 0x0]

/-- The registers of the NFT block. -/
def rowsNft : List RegRow := [
  reg1 0x0 0x0 0x0 0x0 0x0, reg1 0x1 0x0 0x0 0x0 0x0, reg1 0x2 0x0 0x0 0x3F 0x0,
  reg1 0x3 0x0 0xFFF 0x0 0x0, reg1 0x4 0x0 0xFFFF 0x0 0x0, reg1 0x5 0x0 0x0 0x0 0x0,
  reg1 0x6 0x0 0x0 0x0 0x0, reg1 0x7 0x0 0xF 0x0 0x0, reg1 0x8 0x0 0x0 0x0 0x0]

/-- The registers of the NFR block. -/
def rowsNfr : List RegRow := [
  reg1 0x0 0x1 0x1 0x0 0x0, reg1 0x1 0x0 0x0 0x0 0x0, reg1 0x2 0x0 0x0 0xF 0x0,
  reg1 0x3 0xFA 0xFFFF 0x0 0x0, reg1 0x4 0x40 0xFFFF 0x0 0x0, reg1 0x5 0x0 0x0 0x0 0x0,
  reg1 0x6 0x3C 0xFFFF 0x0 0x0, grp1 0x8 0x0 0x0 0 4, grp1 0x9 0x0 0x0 1 4, grp1 0xA 0x0 0x0 2 4,
  grp1 0xB 0x0 0x0 3 4]

/-- The registers of the HED block. -/
def rowsHed : List RegRow := [
  regN 0x0 0x4 0x7 0x0 0x0 8 16, regN 0x1 0x0 0x0 0x0 0x0 8 16, regN 0x2 0x0 0x0 0x0 0x0 8 16,
  regN 0x3 0x0 0x0 0x1F 0x0 8 16, reg1 0x80 0x0 0x0 0x0 0x0, reg1 0x81 0x0 0x0 0x0 0x0,
  reg1 0x82 0x28 0xFF 0x0 0x0, regN 0x100 0x0 0x0 0x0 0x0 64 4, regN 0x101 0x0 0x0 0x0 0x0 64 4,
  regN 0x102 0x0 0x0 0x0 0x0 64 4]

/-- The blocks of the register index: window number, (base − 0x1000_0000) / 0x1_0000, and rows (R480). -/
def regBlocks : List (Nat × List RegRow) := [
  (0x0, rowsSys),
  (0x1, rowsFen),
  (0x2, rowsInt),
  (0x3, rowsStl),
  (0x4, rowsTmr),
  (0x5, rowsRtc),
  (0x6, rowsKey),
  (0x7, rowsAes),
  (0x8, rowsUpd),
  (0x9, rowsFlt),
  (0xA, rowsTbs),
  (0xB, rowsRgl),
  (0x10, rowsPrt),
  (0x11, rowsShf),
  (0x12, rowsCal),
  (0x13, rowsAwn),
  (0x14, rowsSpk),
  (0x15, rowsWin),
  (0x16, rowsLnk),
  (0x17, rowsSes),
  (0x18, rowsSag),
  (0x19, rowsTil),
  (0x1A, rowsUsl),
  (0x1B, rowsEth),
  (0x1C, rowsHsp),
  (0x1D, rowsXsp),
  (0x1E, rowsNft),
  (0x1F, rowsNfr),
  (0x20, rowsHed)]

/-- Offset `o` of a window is instance `(i, j)` of the row. -/
def RegRow.inst (r : RegRow) (o : Nat) : Option (Nat × Nat) :=
  if o < r.off then none
  else
    let d := o - r.off
    let i := d / r.s1
    let e := d % r.s1
    if r.n2 = 1 then
      if i < r.n1 ∧ e = 0 then some (i, 0) else none
    else if r.n1 = 1 then
      if d / r.s2 < r.n2 ∧ d % r.s2 = 0 then some (0, d / r.s2) else none
    else
      if i < r.n1 ∧ e / r.s2 < r.n2 ∧ e % r.s2 = 0 then some (i, e / r.s2) else none

/-- The first row of a list that lists offset `o`, with its instance. -/
def findRow : List RegRow → Nat → Option (RegRow × Nat)
  | [], _ => none
  | r :: rs, o =>
    match r.inst o with
    | some (i, _) => some (r, i)
    | none => findRow rs o

/-- The rows of the block whose window holds address `a`; none outside every window. -/
def rowsAt (a : Nat) : List (Nat × List RegRow) → Option (List RegRow)
  | [] => none
  | (k, rs) :: r => if a / 0x10000 = 0x1000 + k then some rs else rowsAt a r

/-- Address `a` lies in a block's window (R477). -/
def inWindow (a : Nat) : Bool := (rowsAt a regBlocks).isSome

/-- The register listed at address `a`, with its instance number; none where R14 applies.  Log 95 (DESIGN CHOICE), 96 (DESIGN CHOICE). -/
def regAt (a : Nat) : Option (RegRow × Nat) :=
  match rowsAt a regBlocks with
  | none => none
  | some rs => findRow rs (a % 0x10000)

/-- The edge sources of the interrupt controller (R424). -/
def edgeSource (i : Nat) : Bool := (48 ≤ i ∧ i ≤ 51) ∨ (128 ≤ i ∧ i ≤ 143)

/-- Reset values that differ between the instances of one register: `KEY_HINFOh`, `KEY_HGENh`,
`AESk_STAT.HOST`, `WINn_BASE`, `WINn_SIZE` and `INTs_CFG.KIND` (an edge source, R424). -/
def instReset (a : Nat) (r : RegRow) (i : Nat) : Nat :=
  match a / 0x10000 with
  | 0x1006 => if r.off = 0x200 then (if i = 0 then 0x83F0 else 0)
              else if r.off = 0x280 then (if i = 0 then 0 else 1) else r.reset
  | 0x1007 => if r.off = 0x10 then i * 16 else r.reset
  | 0x1015 => if r.off = 0x100 then (if i = 15 then 0x7C0 else 0)
              else if r.off = 0x101 then (if i = 0 then 0x7C0 else if i = 15 then 0x40 else 0)
              else r.reset
  | 0x1002 => if r.off = 0x100 then (if edgeSource i then 0x1020 else 0x20) else r.reset
  | _ => r.reset

/-- The reset value of the register at `a` (R15, R482); 0 where no register is listed (R14).  Log 8 (DESIGN CHOICE), 95 (DESIGN CHOICE). -/
def resetVal (a : Nat) : Word :=
  match regAt a with
  | some (r, i) => w16 (instReset a r i)
  | none => 0

/-- What a write of `v` leaves in a register that holds `old`: RW bits take `v`, ones clear W1C
bits and set W1S bits, every other bit stays (R13, R16).  Log 96 (DESIGN CHOICE). -/
def RegRow.apply (r : RegRow) (old v : Word) : Word :=
  let kept := (old &&& ~~~ (w16 r.rw)) ||| (v &&& w16 r.rw)
  (kept &&& ~~~ (v &&& w16 r.w1c)) ||| (v &&& w16 r.w1s)

/-- How many registers a row lists (R481). -/
def RegRow.count (r : RegRow) : Nat := r.n1 * r.n2

/-- How many registers the device has (R481). -/
def regCount : Nat := (regBlocks.flatMap fun b => b.2.map RegRow.count).sum

/-- The base address and length of the register group that holds `a` (R4); `(a, 1)` outside groups. -/
def groupOf (a : Nat) : Nat × Nat :=
  match regAt a with
  | some (r, _) => (a - r.pos, r.len)
  | none => (a, 1)

end Sys2Proof.Machine
end

