-- ==== Sys2Proof/WellFormed.lean ====
section
/-!
DEFINITION. Which operand lists a command may carry: the lengths the specification gives.  Every other operand is bounded by its type.
-/

namespace Sys2Proof

/-- A gate request gives the power of each of the eight ports (04_calibration_regulatory R109). -/
def GateReq.wf (r : GateReq) : Bool := decide (r.power.length = 8)

/-- A candidate gives the signal and the noise power of each of the eight ports (05_search R146). -/
def Candidate.wf (c : Candidate) : Bool := decide (c.sig.length = 8 ∧ c.noise.length = 8)

/-- A row in error names a macro, 203 for a flit on the path or 204 for a marker word of the tag store, and flipped bits of the 137-bit
row or of the 22 bits of the marker (15_faults R381, R385, R386; 18_field R448). -/
def Upset.wf (u : Upset) : Bool := decide (u.unit ≤ 204) && u.flips.all fun i => decide (i ≤ if u.unit = 204 then 21 else 136)

/-- A sample instant gives a sample of each of the eight ports (03_ports_and_sheaves R79).  Log 6 (DESIGN CHOICE). -/
def capturesWf (samples : SampleSet) (cands : List Candidate) : Bool :=
  decide (samples.ports.length = 8) && samples.upsets.all Upset.wf && cands.all Candidate.wf

/-- A transmission's measurements name each of the eight ports (03_ports_and_sheaves R100). -/
def measWf (l : List PortMeas) : Bool := decide (l.length = 8)

/-- A host write carries 1 to 256 words (14_backhaul_host R373). -/
def hostDataWf (l : List Word) : Bool := decide (1 ≤ l.length ∧ l.length ≤ 256)

/-- The words of an abandoned transaction are at most 256 (14_backhaul_host R375). -/
def abortDataWf (l : List Word) : Bool := decide (l.length ≤ 256)

/-- A command is well formed.  Log 14 (DESIGN CHOICE). -/
def Instr.wf : Instr → Bool
  | .gateRequest r => r.wf
  | .sampleCapture _ samples cands => capturesWf samples cands
  | .frameCheck _ _ _ _ upsets => upsets.all Upset.wf
  | .txEnd _ meas => measWf meas
  | .bundle _ upsets => upsets.all Upset.wf
  | .patrolScrub found => found.all Upset.wf
  | .hostWrite _ data => hostDataWf data
  | .hostAbort _ data _ => abortDataWf data
  | _ => true

end Sys2Proof
end

