-- ==== Sys2Proof/Machine/State.lean ====
section
/-!
DEFINITION. The state of the device as plain data: the register file, the memories, and every piece
of state that the chapters name beside their registers, the queue of waiting commands, the ways a
step can stop, and the state right after a power-on reset.
-/

namespace Sys2Proof.Machine

/-- The ways the model stops on a command that no sender could form. -/
inductive Fault where
  /-- An operand list has the wrong length (`Instr.wf` fails).  Raised by `exec` on every command whose
  list operands do not have the lengths the specification gives.  Safe: no such command exists. -/
  | illFormed (what : String)
  deriving DecidableEq, Repr

/-- Why a command has no meaning here. -/
inductive Refusal where
  /-- The command has no meaning yet.  Raised by `exec` only.  Safe: the machine stops. -/
  | notModelled (mnemonic : String)
  deriving DecidableEq, Repr

/-! ## Time, power, reset and boot (files 01, 02, 14, 21) -/

/-- The system timebase (R17, R36, R367 to R371): the SAMP count, whether it runs, and what disciplines it. -/
structure TimeSt where
  now      : Nat := 0
  running  : Bool := false
  rateAt   : Option Nat := none      -- an armed rate change (R368)
  rateNew  : Int := 0
  rate     : Int := 0                -- the trim in force, in 0.01 ppb
  stepAt   : Option Nat := none      -- an armed step (R369)
  stepBy   : Int := 0
  ppsPrev  : Option Nat := none      -- previous PPS_IN capture, in 1/16 ticks (R370)
  ppsErr   : Option (Nat × Int) := none   -- a capture's tick and its error in 1/16 tick, awaiting the loop update
  ppsGood  : Nat := 0                -- consecutive edges with a small error
  ppsOut   : Option Nat := none      -- tick of the last PPS_OUT edge (R371)
  refosc   : Nat := 0                -- tick at which a REFOSC measurement begins (04 R115, R122)
  deriving DecidableEq, Repr

/-- Pins, supplies and clocks (R38, R58, R64, R65, R493 to R496). -/
structure PowerSt where
  resetLow  : Bool := false          -- RESET_N held low
  refLost   : Bool := false          -- REFCLK declared lost (R38)
  pllHold   : Bool := false          -- the PLLs hold their last control values
  relock    : Bool := false          -- REFCLK is back and a synthesiser has still to relock (R38)
  quiet     : Bool := true           -- outputs quiet (R64)
  vrfLow    : Bool := false          -- VRF below its limit (R496)
  marginLow : Bool := false          -- a supply margin monitor reports low (R495)
  lost      : Bool := false          -- core supply lost: RETAIN entered (R58)
  deriving DecidableEq, Repr

/-- The boot sequence (R69 to R72) and the image running. -/
structure BootSt where
  armed    : Bool := true            -- load of SYS_BOOTCFG armed by a power-on reset (R71)
  step     : Nat := 1                -- last step completed
  target   : Nat := 0                -- target mode read at the hold point
  startcal : Bool := false
  radio    : Bool := false           -- boot ROM has made the writes of R509
  failed   : Bool := false           -- a failure of R72 has been judged
  entry    : Nat := 0                -- ENTRY of the running image (R462)
  bank     : Nat := 0
  mrom     : List Octet := []        -- measurement of boot ROM
  mimg     : List Octet := []        -- measurement of the running image
  deriving DecidableEq, Repr

/-- The watchdog's count and 32-cycle divider (R68). -/
structure WatchdogSt where
  div     : Nat := 0
  count   : Nat := 0
  restart : Bool := false            -- a restart waits for the next LF edge
  deriving DecidableEq, Repr

/-- A mode transition in progress (R54, R508). -/
structure Transition where
  target  : Nat
  restart : Bool        -- its restarted sheaves must reach ON first
  up      : Bool := false   -- they have
  cores   : Bool        -- it restarts the cores (R55)
  init    : Nat
  deriving DecidableEq, Repr

/-! ## Radio (files 03, 04, 05) -/

/-- A port beside its registers: gain history (R81), own static DC measurement (R103), tuner code in
force (R99), calibration values applied to the stream (R121) and the aerial fault counters (R125). -/
structure PortSt where
  highs     : List Nat := []         -- ticks of recent samples at −1 dB or more
  midSince  : Nat := 0               -- tick of the last sample above −13 dB, or of the last step
  liveSince : Option Nat := none     -- tick since which the port is live without a break (R146)
  atStart   : Bool := false          -- measured within its sheaf's start (R103)
  dcPend    : Bool := false          -- own static DC measurement waiting or running
  tuneAct   : Word := 0x2020
  tuneAtE   : Bool := false          -- PRTp_TUNE was written during a transmission (R99)
  applied   : List Word := [0, 0, 0x20, 0, 0, 0]
  okRun     : Nat := 0
  badRun    : Nat := 0
  dcOver    : Option Nat := none     -- tick since which the DC estimate exceeds 4,096 in magnitude (15 R395)
  faint     : Nat := 0               -- consecutive detection records in which the port is 20 dB below the others (15 R395)
  faultFrom : List (Nat × Nat) := [] -- fault states with the instant, in fifths, they apply from (R126)
  deriving DecidableEq, Repr

/-- What a transmission answers to. -/
inductive TxFor where
  | ack (frame : Nat)
  | request (id : Nat) (followUp : Bool)
  | other
  deriving DecidableEq, Repr

/-- A port's transmit weight v/|v|, v the complex number `re` + j `im` turned by −2π · `rph` / 2¹⁶ (13 R336). -/
structure Weight where
  re  : Int
  im  : Int
  rph : Word
  deriving DecidableEq, Repr

/-- A transmission command at a sheaf (R86, R87): instants in fifths of a tick, the streams (nominal centre and
Δf, in units of 1/98,304 Hz), and the granted power of each port (none: zero weight). -/
structure TxCmd where
  t5      : Nat
  e5      : Nat
  streams : List (Int × Int)
  power  : List (Option Int)
  for_   : TxFor
  octets : List Octet
  air    : List Bool := []           -- the bits on air: synchronisation header, header and PSDU (08 R206)
  osc    : List Int := []            -- the digital oscillator's share of each stream's Δf, in 3,750/4,096 Hz, from T on (R97)
  weights : List (Option Weight) := []   -- of each port; none where it is excluded (13 R336)
  deriving DecidableEq, Repr

/-- A calibration pending or running on a sheaf (R114 to R121). -/
structure CalJob where
  kind     : Nat
  port     : Nat            -- port number within the sheaf, port kinds
  start    : Nat            -- begins at the first sample at or after this tick
  running  : Bool := false
  begun    : Nat := 0       -- attempts begun
  ends     : Nat := 0       -- latest end of the attempt running, in ticks
  own      : Bool := false  -- the own static DC measurement of a port (R103)
  deriving DecidableEq, Repr

/-- A sample of a sheaf's ring (R80, R162): its instant, which ports give samples of their own (the others are marked held, draining
or excluded, R164), and the eight complex samples. -/
structure RingRow where
  tick : Nat
  live : List Bool
  x    : List (Word × Word)
  deriving DecidableEq, Repr

/-- An interval of a sheaf whose samples were discarded (R28), and the number of its fault record. -/
structure LostRun where
  first : Nat
  last  : Nat
  seq   : Nat
  deriving DecidableEq, Repr

/-- A sheaf beside its registers. -/
structure SheafSt where
  lo       : Nat := 0                -- INT × 2^24 + FRAC as started
  div      : Nat := 4
  band     : Bool := false
  relockAt : Option Nat := none      -- resume instant after an unlock, in ticks (R92)
  resume5  : Nat := 0                -- E + 40.0 µs of the last transmission, in fifths
  capture  : Option Nat := none      -- tick of the first sample of the present run of captured samples
  cmds     : List TxCmd := []        -- from the gate, not yet at the scheduler
  accepted : List TxCmd := []        -- accepted, in order of start
  onAir    : Option TxCmd := none
  nudge    : Int := 0                -- FRAC change in force (R98)
  nudged   : Bool := false
  job      : Option CalJob := none
  ring     : List RingRow := []
  lost     : List LostRun := []      -- newest first
  blankAt5 : Nat := 0                -- instant of the last begin of blanking, in fifths (R167)
  beams    : List (Int × Int) := []
  ready    : Bool := false           -- blanking has begun for the next accepted transmission
  deriving DecidableEq, Repr

/-- One entry of a search copy (R133). -/
structure ChanCopy where
  chan  : Nat
  off   : Int
  cls   : Nat
  pmask : Nat
  deriving DecidableEq, Repr

/-- One profile slot of a search copy (R135, R136). -/
structure SlotCopy where
  kind  : Nat
  rate  : Nat
  thr   : Nat
  sync  : Nat
  legal : Bool
  fec   : Word
  deriving DecidableEq, Repr

/-- A sheaf's Awn search beside its registers (R148 to R151). -/
structure SearchSt where
  entries  : List ChanCopy := []
  slots    : List SlotCopy := []
  bmode    : Bool := false
  startAt  : Option Nat := none      -- start instant while STARTING
  heldStop : Option Nat := none
  stopAt   : Option Nat := none      -- S: no candidate with SYNCT at or after it
  began    : Nat := 0                -- first sample of the search, from empty state
  seq      : Nat := 0
  deriving DecidableEq, Repr

/-- A candidate in a duplicate-suppression group (R142), with the ports that contribute (R146); one that R150 discards
stays as `gone`, since its group keeps its window. -/
structure GroupCand where
  sheaf : Nat
  cand  : Candidate
  ports : List Bool
  cls   : Nat
  gone  : Bool := false
  deriving DecidableEq, Repr

/-- An open duplicate-suppression group (R142); its centre in units of 1/98,304 Hz. -/
structure DupGroup where
  prof   : Nat
  centre : Int
  a      : Nat
  w      : Nat
  cands  : List GroupCand
  deriving DecidableEq, Repr

/-- A detection record (R144) as its fields; `detWords` lays it out. -/
structure Det where
  synct : Nat
  subt  : Nat
  prof  : Nat
  beam  : Nat
  sheaf : Nat
  cls   : Nat
  coded : Bool
  ports : Nat
  chan  : Nat
  foff  : Int
  rss   : List Nat
  rssc  : Int
  snr   : Int
  noise : Int
  seq   : Nat
  deriving DecidableEq, Repr

/-! ## Demodulation, Winnow (files 06, 07) -/

/-- A header as soft bits decide it (06_demodulation R165, R166): the fields the profile's header gives, or why it fails. -/
inductive Header where
  | bad
  | modeSwitch
  | sunFsk (len : Nat) (fcst dw : Bool)
  | sunOqpsk (len : Nat) (fcst mdsss : Bool) (rmode : Nat)
  | oqpsk (len : Nat)
  | longfield (bits : Nat)        -- the 24 header bits, bit 0 first (R158)
  deriving DecidableEq, Repr

/-- What a spikelet has measured by the end of its frame (R172). -/
structure FrameMeas where
  snrc   : Int
  ffin   : Int
  tdrift : Int
  ncorr  : Nat
  chips  : Word
  h      : List Word     -- H0 to H7, real then imaginary, 16 words
  deriving DecidableEq, Repr

/-- A Granary holding: the granules of one reservation (R184). -/
structure Holding where
  gmeta : Nat
  data  : List Nat
  part  : Nat
  owner : Nat          -- 0–32 a core, 33 host, 34 spikelet, 35 Winnow, 36 link timing, 37 Ethernet
  deriving DecidableEq, Repr

/-- A contribution announced by another chip (R347, R348, R350): its SYNCT and SNR, the positions it announced and how
many have arrived. -/
structure Ann where
  chip  : Nat
  synct : Nat
  snr   : Int
  first : Nat
  count : Nat
  got   : Nat := 0
  late  : Bool := false
  deriving DecidableEq, Repr

/-- What a spikelet forms over the sync word (R163): the number of samples N; for each port Σ x·conj(r) and Σ |x·N·2²⁸ − Σ x·conj(r)·r|²
(zero and one for a port that PORTS does not name); the weights in Q15, the component and the largest value that give their common
scale; and H0 to H7, real then imaginary. -/
structure Est where
  n     : Nat
  named : List Bool
  gain  : List (Int × Int)
  noise : List Nat
  w     : List (Int × Int)
  top   : Nat
  most  : Nat
  h     : List Word
  deriving DecidableEq, Repr

/-- A spikelet in use (R152, R160 to R172). -/
structure Spikelet where
  id     : Nat
  det    : Det
  slot   : SlotCopy
  lo     : Nat := 0
  div    : Nat := 4
  off    : Int := 0
  buf    : List RingRow := []        -- samples read from the ring, oldest first (R162)
  est    : Option Est := none
  dec    : Option Nat := none        -- the trellis decoder that holds its job (R168)
  header : Option Header := none
  endt   : Nat := 0
  len    : Nat := 0
  fcst   : Bool := false
  dw     : Bool := false
  hold   : Option Holding := none
  lam    : List Int := []            -- sum of the contributions' soft values, by position (R170)
  late   : Bool := false             -- DECODE verdict emitted
  ann    : List Ann := []
  bound  : Bool := false             -- the merge bound has passed (R350)
  chips  : Nat := 0                  -- FSEQ of its summary plus 1 where it was announced; 0 otherwise
  own    : Bool := true              -- has a local detection
  origin : Nat := 0
  deriving DecidableEq, Repr

/-- An acknowledgement that steps 1 to 3 of R214 leave due (08 R209, R212, R215): the claim's D in ticks, T in fifths, E
in 1/10,000 tick, the octets less the FCS it will have, and the frame counter it takes. -/
structure AckPlan where
  d       : Nat
  t5      : Nat
  e       : Nat
  enh     : Bool
  tsch    : Bool
  secured : Bool
  counter : Nat := 0
  tc      : Option Int := none
  deriving DecidableEq, Repr

/-- A frame handed on by a spikelet, on its way through session engine and link timing unit. -/
structure Frame where
  id      : Nat
  det     : Det
  slot    : SlotCopy
  endt    : Nat
  good    : Bool
  fcst    : Bool
  psdu    : List Octet
  hold    : Holding
  fm      : FrameMeas
  lo      : Nat
  div     : Nat
  off     : Int
  late    : Bool
  origin  : Nat
  pass    : Bool := true             -- address filter (R204)
  session : Nat := 0
  looked  : Bool := false
  snap    : List Word := []          -- configuration snapshot (R231)
  key     : List Octet := []
  bad     : Bool := false            -- poisoned key column or record (R43)
  judged  : Bool := false
  mode    : Nat := 0                 -- 16 × MDSSS + RMODE of its header
  dw      : Bool := false            -- the DW bit of its header
  sec     : Nat := 0                 -- SEC (07 R190)
  fresh   : Nat := 0                 -- FRESH of its record
  deliver : Bool := true
  ackCode : Nat := 0                 -- ACK (07 R190)
  plan    : Option AckPlan := none   -- the acknowledgement's claim
  answers : Option Nat := none       -- the request it acknowledges (R217)
  own     : Bool := true             -- has a local detection (R355)
  missing : List Nat := []           -- chips whose announced contribution was missing at its bound (R350)
  snrs    : List (Nat × Int) := []   -- SNR by chip, for R353
  deriving DecidableEq, Repr

/-- A record at Winnow (R188 to R191): its 32 words, and its granules. -/
structure Rec where
  words : List Word
  hold  : Option Holding
  h     : List Word                  -- words 48–63 of the metadata granule
  order : Nat := 0                   -- acceptance order, the last part of the key
  due   : Bool := false              -- late: released at once (R180)
  deriving DecidableEq, Repr

/-- Winnow beside its registers (R177 to R187). -/
structure WinSt where
  inbox    : List Rec := []          -- produced, not yet accepted
  held     : List Rec := []          -- in key order
  rp       : Nat := 0
  seq      : Nat := 0
  lost     : Nat := 0                -- verdicts lost since the last verdict stored
  parts    : List (Nat × Nat) := []  -- partitions in force: first granule, granules
  horAt    : Option (Nat × Nat) := none   -- armed horizon: tick and value
  order    : Nat := 0
  released : List Rec := []          -- released, waiting for a core
  mix      : Nat := 0                -- number of the per-boot seed of the bank mix (R186, 10 R251)
  stopped  : Bool := false
  deriving DecidableEq, Repr

/-! ## Link timing (file 08) -/

/-- The anchor of R193 in force from a tick. -/
structure Anchor where
  from_ : Nat
  tick  : Nat
  asn   : Nat
  deriving DecidableEq, Repr

/-- A follow-up claim waiting for its decision (R216): T in fifths, the poll's sheaf, channel, offset and gains. -/
structure Follow where
  d     : Nat
  t5    : Nat
  sheaf : Nat
  chan  : Nat
  df    : Int
  h     : Option (List Word)         -- H0 to H7, or equal weights
  deriving DecidableEq, Repr

/-- A transmit request held (R205) with the frame its granules describe (R206). -/
structure Req where
  id       : Nat
  core     : Nat
  nb       : Nat
  mode     : Nat
  session  : Nat
  ar       : Bool
  prof     : Nat
  attempts : Nat
  chv      : Bool
  chan     : Nat
  gran     : Nat
  pwr      : Int
  slot     : SlotCopy
  coded    : Bool
  fcst     : Bool
  dw       : Bool := false     -- whiten the PSDU (R206)
  rmode    : Nat               -- 16 × MDSSS + RMODE
  psdu     : List Octet        -- with the FCS
  made     : Nat := 0
  after    : Nat := 0          -- no decision before this tick (R217)
  granted  : Bool := false     -- the present attempt is granted, or waits for its acknowledgement
  viaCell  : Bool := false
  follow   : Option Follow := none
  lastT    : Nat := 0          -- T and E of the last attempt, in whole ticks
  lastE    : Nat := 0
  deriving DecidableEq, Repr

/-- A claim granted on a sheaf: [T, E) in fifths. -/
structure Grant where
  sheaf : Nat
  t5    : Nat
  e5    : Nat
  deriving DecidableEq, Repr

/-- An expected acknowledgement (R217): its window in units of 1/10,000 tick. -/
structure Expect where
  req     : Nat
  lo      : Nat
  hi      : Nat
  deriving DecidableEq, Repr

/-- The link timing unit beside its registers. -/
structure LnkSt where
  anchors  : List Anchor := []       -- newest first
  since    : Nat := 0                -- start instant
  stopAt   : Option Nat := none      -- the instant at which the unit last left ON (R194)
  atSel    : Option Nat := none      -- LNK_AT as the start with ATSEL = 1 took it (R220)
  startAt  : Option Nat := none
  tpl      : List Nat := [10000, 2120, 1000, 800, 400, 4256]
  bank     : Nat := 0
  panid    : Word := 0xFFFF
  short    : Word := 0xFFFE
  ext      : Nat := 0
  coord    : Bool := false
  promisc  : Bool := false
  immack   : Bool := true
  base     : Nat := 0
  reanchor : Option Anchor := none
  switch   : Option Nat := none      -- armed switch: the slot boundary's ASN
  heldStop : Option Nat := none
  reqs     : List Req := []
  plan     : List Grant := []
  expected : List Expect := []
  nextId   : Nat := 0
  lastE5   : Nat := 0                -- end of the last granted transmission, in fifths
  charges  : List (Nat × Nat × Nat) := []   -- band, bucket, µs (R218)
  deriving DecidableEq, Repr

/-! ## Sessions, keys, cipher engines (files 09, 10) -/

/-- A session command held until its AT (R231, R232): where it came from (0–32 a core, 33 the mailbox),
the level it carries, and its 32 words. -/
structure SesCmd where
  from_ : Nat
  level : Nat
  words : List Word
  dup   : Bool := false              -- one with the same AT, SESSION and OP was held when it came (R230)
  deriving DecidableEq, Repr

/-- A lookup key (R225): mode, PAN ID and address. -/
structure LookKey where
  mode : Nat
  pan  : Nat
  addr : Nat
  deriving DecidableEq, Repr

/-- The session engine beside its registers and session memory (R223 to R241). -/
structure SesSt where
  held    : List SesCmd := []
  stash   : List (LookKey × Nat) := []
  rehash  : Bool := false
  build   : Option (Nat × List (LookKey × Nat)) := none   -- the build of the rehash that runs: seed and build stash
  gen     : Nat := 0
  seedNo  : Nat := 0                 -- number of the seed in force (R251)
  other   : Nat := 0                 -- number of the seed of the generation not in force
  drawn   : Nat := 0                 -- number of the last seed drawn
  mail    : Option SesCmd := none    -- a mailbox command that waits for room (R232)
  deriving DecidableEq, Repr

/-- An AES block that a core has pushed (12 R313): core, direction, key source, selector, input. -/
structure AesReq where
  core  : Nat
  kop   : Bool
  ksrc  : Bool
  sel   : Word
  block : List Word
  deriving DecidableEq, Repr

/-- A modes-engine descriptor waiting (R246): issuing core, level, words. -/
structure ModesDesc where
  core  : Nat
  level : Nat
  words : List Word
  deriving DecidableEq, Repr

/-- A cipher pair, or the modes engine, and its mismatch history (R243, R393, R394). -/
structure PairSt where
  svc  : Nat := 0                    -- 0 SERVICE, 1 QUARANTINE, 2 RETIRED
  host : Nat
  fails : List Nat := []             -- ticks of recent mismatches
  key   : List Octet := List.replicate 16 0  -- its key register (R242)
  deriving DecidableEq, Repr

/-- A handle slot's key (R252, R253); its kind, depth, USE and generation stand in the KEY registers. -/
structure Handle where
  slot : Nat
  key  : List Octet
  deriving DecidableEq, Repr

/-- An update message in progress (R259 to R262): where it lies, whose it is, and its octets once it has passed. -/
structure MsgJob where
  addr   : Nat
  len    : Nat
  init   : Nat
  level  : Nat
  passed : Option (List Octet) := none
  deriving DecidableEq, Repr

/-- An attestation in progress: the statement's signed octets, address, initiator and level (R263). -/
structure AttJob where
  octets : List Octet
  addr   : Nat
  init   : Nat
  level  : Nat
  deriving DecidableEq, Repr

/-- The key tree (R248 to R265). -/
structure KeySt where
  handles : List Handle := []
  filled  : List Nat := []           -- slots filled at least once since the reset (R252)
  msg     : Option MsgJob := none
  att     : Option AttJob := none
  modes   : List ModesDesc := []
  blocks  : List AesReq := []        -- blocks that wait while the modes engine is tested (15 R394)
  deriving DecidableEq, Repr

/-- One-time fuses (R105, R248, R255 to R257).  Log 8 (DESIGN CHOICE). -/
structure FuseSt where
  root     : List Octet := []        -- 32 octets of the root device key
  devid    : Nat := 0
  chipnum  : Nat := 0
  image    : Nat := 0                -- value of the IMAGE counter
  msg      : Nat := 0                -- value of the MSG counter
  lock     : Nat := 0                -- blown lock bits
  maker    : List Octet := []        -- maker key X ‖ Y, empty while unprogrammed
  owner    : List Octet := []
  profiles : List (List Word) := [[], [], [], []]   -- four slots of 202 words; an empty slot is all zero
  intact   : Bool := true            -- fuse integrity and random-source health as read at step 4
  deriving DecidableEq, Repr

/-! ## Cores (files 11, 12) -/

/-- A released record on its way to a core (R275): its metadata granule, and REDO (R281). -/
structure SageRec where
  gran    : Nat
  session : Nat
  seq     : Nat
  kind    : Nat
  endt    : Nat
  redo    : Bool := false
  deriving DecidableEq, Repr

/-- A core's reason to hold (R309, R326). -/
inductive CoreHold where
  | none
  | queue (q : Nat)
  | fabric
  | wait
  | halted
  | stopped
  deriving DecidableEq, Repr

/-- One core: 0 to 31 the Tillers, 32 the Crown core (R293, R314). -/
structure CoreSt where
  w      : Bank Word 32 := .rep 32 0
  p      : Bank Bool 8 := ⟨true :: List.replicate 7 false, rfl⟩
  x      : Bank DWord 8 := .rep 8 0
  a      : Bank (BitVec 40) 2 := .rep 2 0
  fw     : Bank Word 8 := .rep 8 0              -- fast bank w24–w31
  fx     : Bank DWord 2 := .rep 2 0             -- fast bank x6–x7
  fp     : Bank Bool 2 := .rep 2 false          -- fast bank p6–p7
  pc     : DWord := 0
  sr     : Word := 0
  tcause : Word := 0
  tpc    : DWord := 0
  tnpc   : DWord := 0
  tsr    : Word := 0
  taddr  : DWord := 0
  tvec   : DWord := 0
  epcn   : DWord := 0
  esrn   : Word := 0
  epcf   : DWord := 0
  esrf   : Word := 0
  ivecn  : DWord := 0
  ivecf  : DWord := 0
  qst    : Word := 0
  cycle  : Nat := 0
  bcnt   : Nat := 0
  scnt   : Nat := 0
  svec   : DWord := 0
  spc    : DWord := 0
  ssr    : Word := 0
  sivecn : DWord := 0
  sivecf : DWord := 0
  crLatch : List (Nat × Word) := []             -- group latches of control registers (R314)
  crStage : List (Nat × Word) := []
  qin    : Bank (List (List Word × Bool × Word)) 8 := .rep 8 []  -- inbound queues: entry, poisoned, side status
  qout   : Bank (List (List Word)) 8 := .rep 8 []   -- outbound queues 8 to 15, entries not yet consumed
  past   : Bank Nat 8 := .rep 8 0               -- of those, entries at the head that were pushed before the last stop (R281)
  resv   : Bank Nat 8 := .rep 8 0               -- completion entries reserved (R274)
  hold   : CoreHold := .stopped
  stallAt : Nat := 0                            -- tick at which the present stall began
  bundle : List Word := []                      -- words of the bundle that holds (R309)
  popped : List SageRec := []                   -- records of Sage's popped and not returned
  svc    : Bool := false                        -- SVC as read at the start (R280)
  deriving DecidableEq, Repr

/-- A core after a start with status `sr` (R293, R315): every other register 0.  Log 8 (DESIGN CHOICE). -/
def CoreSt.mk0 (sr : Word) : CoreSt := { sr := sr }

/-- A descriptor of the fence's set in force (R288). -/
structure FenceDesc where
  base : Nat
  last : Nat
  perm : Nat
  attr : Word
  deriving DecidableEq, Repr

/-- The fence's set in force; none while the reset set is in force (R291). -/
structure FenceSt where
  force : Option (List FenceDesc) := none
  deriving DecidableEq, Repr

/-! ## Sage, clusters (file 13) -/

/-- A session's placement and its records in the current epoch (R328, R329); the carry granule of a TAKE still to be
placed, 0xFFFF for none (R331). -/
structure Placement where
  session : Nat
  core    : Nat
  count   : Nat := 0
  take    : Option Nat := none
  deriving DecidableEq, Repr

/-- A move of a session (R331).  Stage 1: its last record may still come; 2: RELEASE placed; 3: popped; 4: the next QPOP
or QTRY of RXREC issued. -/
structure Move where
  session : Nat
  from_   : Nat
  dest    : Nat
  carry   : Nat
  e       : Nat
  stage   : Nat := 1
  deriving DecidableEq, Repr

/-- What Sage keeps of a released frame record that may count for a claim (R335): key, sheaf, channel,
frequencies and gains. -/
structure RefRec where
  session : Nat
  endt    : Nat
  key     : List Nat
  sheaf   : Nat
  lo      : Nat
  div     : Nat
  off     : Int
  ffin    : Int
  h       : List Word
  deriving DecidableEq, Repr

/-- A handover decided (R353, R354), given (`out`) or received: the session's index on this chip (0 before E′ on the
new owner), the other chip, E′, Th, and the lookup key. -/
structure Handover where
  session : Nat
  peer    : Nat
  e       : Nat
  th      : Nat := 0
  out     : Bool
  key     : LookKey
  eff     : Bool := false            -- E′ has passed
  arrived : Bool := false            -- the HAND frame has arrived
  done    : Bool := false            -- given: the HAND frame is sent; received: the held frames are judged
  deriving DecidableEq, Repr

/-- Sage beside its registers. -/
structure SageSt where
  places  : List Placement := []
  waiting : List SageRec := []       -- released records waiting for a core
  moves   : List Move := []
  load    : Bank Nat 33 := .rep 33 0          -- records routed to each core in the current epoch
  last    : Nat := 0                 -- tick of the epoch boundary taken last (R327)
  refs    : List RefRec := []
  scores  : List (Nat × Nat × List (Nat × Int)) := []   -- session, J, SNR by chip
  hands   : List Handover := []
  markers : List (Nat × Nat) := []   -- ARRIVE and DEPART markers to be placed: session and MARK
  dir     : List (LookKey × Nat) := []   -- directory: key and owner's chip number
  dirPend : List (Nat × LookKey × Option Nat) := []   -- entries awaiting their AT
  deriving DecidableEq, Repr

/-- The Useth link and the cluster (R338 to R355). -/
structure UslSt where
  chips   : List (Nat × Bool) := []  -- by position: chip number, decoding
  pos     : Nat := 0
  laneOff : List (Nat × Nat) := []   -- excluded lanes: port, lane
  faults  : List (Nat × Nat × Nat) := []   -- lane faults: port, lane, tick
  fseq    : Nat × Nat := (0, 0)      -- FSEQ of the two classes
  sums    : List Summary := []       -- summaries without a local detection yet
  softs   : List SoftFrame := []     -- SOFT frames of those summaries
  trained : Bank Nat 2 := .rep 2 0      -- lanes trained at each port's start, a bit mask
  deriving DecidableEq, Repr

/-! ## Backhaul, host, flash, faults (files 14, 15) -/

/-- A NETOUT entry at an interface. -/
structure NetOut where
  core  : Nat
  words : List Word
  hold  : Holding
  deriving DecidableEq, Repr

/-- The backhaul lanes, the management engine and the host port's queues (R357 to R377). -/
structure EthSt where
  tx      : Bank (List NetOut) 2 := .rep 2 []
  flows   : List (List Word) := []   -- 16 entries of 32 words once copied
  dseq    : List Nat := List.replicate 16 0
  mgmtq   : List (List Octet × Nat) := []   -- authenticated requests waiting, with the lane
  evSeq   : Nat := 0
  evDue   : Bool := false            -- target 34 has an enabled pending source and none active (R433)
  hostq   : List NetOut := []
  aborted : Bool := false
  deriving DecidableEq, Repr

/-- An XSP operation running (R379, R380). -/
structure XspJob where
  op    : Nat
  faddr : Nat
  maddr : Nat
  len   : Nat
  init  : Nat
  level : Nat
  deriving DecidableEq, Repr

/-- The external flash and its interface.  Log 8 (DESIGN CHOICE). -/
structure XspSt where
  flash : BMap := []                 -- an unlisted byte reads 0xFF (erased)
  mib   : Nat := 16                  -- size in MiB
  slow  : Bool := false              -- SFDP limit below FAB/5
  job   : Option XspJob := none
  deriving DecidableEq, Repr

/-- A row moved to a spare whose march test is pending or running (R387), with what its record will say. -/
structure RowTest where
  unit : Nat
  row  : Nat
  synd : Nat
  sub  : Nat
  init : Nat
  at_  : Nat
  deriving DecidableEq, Repr

/-- A port loop self-test pending or running (R395, R396). -/
structure LoopTest where
  port    : Nat
  begun   : Nat := 0
  running : Bool := false
  deriving DecidableEq, Repr

/-- The fault manager (R386 to R400). -/
structure FltSt where
  recs    : List (List Word) := []   -- record queue, 12 words each
  seq     : Nat := 0
  counts  : List ((Nat × Nat) × Nat) := []   -- records so far for a unit and ADDR
  tests   : List RowTest := []       -- in the order of the reports
  retired : List (Nat × Nat) := []   -- rows served by a spare for good: macro, row
  returned : List (Nat × Nat × Nat) := []   -- the 128 rows most recently returned: macro, row, times
  bad     : List (Nat × Nat) := []   -- poisoned rows: macro, row
  badRows : List Nat := []           -- rows of the map that hold a copy of poisoned data (R43), by address
  ceAt    : Nat := 0                 -- number of the present second, and corrected errors in it
  ceCount : Nat := 0
  loops   : List LoopTest := []
  ft      : Option Nat := none       -- full self-test running, with its selection
  ended   : List (Nat × Nat × Bool) := []   -- accesses that ended by timeout (01 R31): initiator, block, whether a write
  deriving DecidableEq, Repr

/-! ## Timers, Rosemary, interrupts, Stolon (files 16, 17) -/

/-- A counter beside its registers (R401 to R411). -/
structure TmrSt where
  pre     : Nat := 0                 -- prescaler: source events since the last update
  lfAcc   : Nat := 0                 -- fraction of the LF step accumulator, 16 bits
  caps    : List Nat := []           -- capture buffer, head first
  capLast : Nat := 0                 -- last value removed from it
  armed   : Bool := false            -- compare armed
  wrote   : Bool := false            -- the count was written since the last update (R406)
  startAt : Option Nat := none
  width   : Nat := 1                 -- members of the group this counter heads
  member  : Bool := false
  deriving DecidableEq, Repr

/-- The Rosemary domain beside its registers (R412 to R423). -/
structure RtcSt where
  onVbak  : Bool := false
  stopped : Bool := false            -- calendar stopped by a brown-out until the main supply is valid (R416)
  acc     : Int := 0                 -- trim accumulator (R421)
  div     : Nat := 0                 -- trimmed LF cycles counted toward the next SUB
  wakeCnt : Nat := 0                 -- SUB advances since the last wake
  running : Bool := false            -- a trim measurement runs (R422)
  discLost : Bool := false           -- DISC has read 0 within it
  sec     : Bool := false            -- SEC pulse not yet seen by an LF cell
  wake    : Bool := false            -- wake pulse not yet seen by an LF cell
  half    : Bool := false            -- LF clock divided by 2
  deriving DecidableEq, Repr

/-- The interrupt controller beside its registers (R424 to R433). -/
structure IntSt where
  edge   : List Nat := []            -- edge sources pending
  again  : List Nat := []            -- edge sources with one further occurrence held
  active : List (Nat × Nat) := []    -- active sources, with the target that claimed them
  deriving DecidableEq, Repr

/-- A Stolon logic cell's registered value and filter (R440). -/
structure CellSt where
  ff    : Bool := false
  cand  : Bool := false
  held  : Nat := 0
  out   : Bool := false
  deriving DecidableEq, Repr

/-- The Stolon router: cells, and the channels that carry a pulse now (R434 to R442). -/
structure StlSt where
  cells  : Bank CellSt 32 := .rep 32 {}
  pulses : List Nat := []
  levels : List Nat := []            -- channels last seen high
  caps   : List Nat := []            -- counters whose capture input has an edge not yet taken
  counts : List Nat := []            -- counters whose EVENT input has an edge not yet taken
  deriving DecidableEq, Repr

/-! ## Field, update (files 18, 19) -/

/-- A page commit of the tag store (R449): logical page, who asked (0 the field, 1 the host, 2 hardware), the 32
octets, and the physical page taken for it once it has begun. -/
structure PageCommit where
  page : Nat
  src  : Nat
  data : List Octet
  phys : Nat := 0
  deriving DecidableEq, Repr

/-- The tag (R443 to R455).  Physical pages are LIVE, released, or free in the order they were erased; data octets
of an unlisted address read 0x00.  Log 8 (DESIGN CHOICE). -/
structure TagSt where
  store    : BMap := []              -- data octets: 32 × physical page + offset
  live     : List (Nat × Nat × Nat) := []   -- LIVE pages: logical page, physical page, GEN
  freeq    : List Nat := List.range 274     -- erased pages, the one erased longest ago first
  erase    : List Nat := []          -- released pages
  marks    : List (Option Nat × Nat × List Nat) := []   -- marker words with flipped bits (R448): logical page, none where FREE; physical page; bits
  nv       : Word := 0               -- NFT_NVCFG as committed
  busy     : Option PageCommit := none
  queue    : List PageCommit := []   -- commits not yet begun
  field    : Bool := false
  active   : Nat := 0                -- 0 IDLE, 1 READY, 2 ACTIVE, 3 ISO-DEP
  uid      : List Octet := []
  app      : Bool := false           -- NDEF Tag Application selected: a field session (R453)
  file     : Nat := 0                -- FFILE
  buf      : Option (Nat × List Octet) := none    -- host page buffer
  waiting  : Option Instr := none    -- field command that waits for a host commit (R453)
  due      : Bool := false           -- an answer is owed to the field once its commits end
  harv     : Bool := false           -- the HARV output supplies 1.8 V (R455)
  wtx      : Nat := 0                -- FWT that S(WTX) has granted to the answer owed (R444)
  deriving DecidableEq, Repr

/-- The panel reader (R456 to R461). -/
structure ReaderSt where
  record  : List Octet := []         -- record held, empty for none
  shown   : List Octet := []         -- record in force at the gate, empty for none (R461)
  pend    : List (Nat × List Octet) := []   -- changes to apply (04 R111): the tick of each validation or withdrawal, and the record from it on
  due     : Bool := false            -- a full read is due (R456)
  reading : Bool := false
  fails   : Nat := 0                 -- reads in a row that ended other than VALID or NOTAG (R459)
  dref    : Nat := 0                 -- D of the last full read
  readAt  : Nat := 0                 -- tick of the last full read, and of the last ping (R456)
  pingAt  : Nat := 0
  failed  : Bool := false            -- a read since the last VALID has failed
  deriving DecidableEq, Repr

/-- The update control beside its registers (R462 to R475). -/
structure UpdSt where
  chunk    : Option (Nat × Nat × Nat × Nat) := none   -- chunk accepted: address, octets, initiator, level
  stream   : List Octet := []        -- delta octets consumed and not yet interpreted
  header   : Option (Nat × Nat) := none   -- BASELEN and NEWLEN, once the header is read
  written  : Nat := 0                -- octets of the target bank written
  newHash  : Option (List Octet) := none  -- NEWHASH, once END is read
  imgHash  : List Octet := []        -- hash of the staged image, as checked at apply
  deadline : Nat := 0                -- tick of the trial's deadline (R473)
  cause    : Nat := 0                -- result that a fall-back under way records
  deriving DecidableEq, Repr

/-- What the device drives outwards: the last response of each interface.  Log 93 (DESIGN CHOICE). -/
structure OutSt where
  host    : List Octet := []         -- octets returned by the last host port transaction
  hostSt  : Word := 0                -- its status word (R375)
  mgmt    : List Octet := []         -- last management response (R365)
  events  : List (List Octet) := []  -- management EVENT messages sent (R366)
  tag     : List Octet := []         -- last answer of the tag on the air
  read    : Word := 0                -- value returned by the last register read
  dbgSt   : Word := 0                -- status word of the last debug access (R374)
  txs     : List (Nat × TxCmd) := [] -- transmissions started: sheaf and command
  net     : List (Nat × List Octet) := []  -- frames sent on the backhaul lanes
  usl     : List (Nat × Nat × List Octet) := []  -- Useth frames sent: port, kind and octets
  wakeN   : Nat := 0                 -- WAKE_N pulses
  deriving DecidableEq, Repr

/-- The state of the device: registers, memories, the chapters' other state, and the commands waiting. -/
structure State where
  pending  : List Instr := []        -- waiting commands, first in, first out
  regs     : SMap := []              -- the register file, against `resetVal`
  latches  : List ((Nat × Nat) × Word) := []   -- group latches: initiator, word address (R5, R9)
  staged   : List ((Nat × Nat) × Word) := []   -- staged group words (R7, R9)
  mem      : SMap := []              -- the memories of the device map (R476)
  tlm      : SMap := []              -- Tiller local memories: 65,536 t + address
  time     : TimeSt := {}
  power    : PowerSt := {}
  boot     : BootSt := {}
  wdog     : WatchdogSt := {}
  trans    : Option Transition := none
  ports    : Bank PortSt 64 := .rep 64 {}
  sheaves  : Bank SheafSt 8 := .rep 8 {}
  searches : Bank SearchSt 8 := .rep 8 {}
  groups   : List DupGroup := []
  samplePhase : Nat := 0             -- phase of the sample instants, modulo 8 (R78)
  detq     : List Det := []
  spks     : List Spikelet := []
  frames   : List Frame := []
  nextFrame : Nat := 0
  holds    : List Holding := []
  win      : WinSt := {}
  lnk      : LnkSt := {}
  fuses    : FuseSt := {}
  ses      : SesSt := {}
  pairs    : Bank PairSt 6 := ⟨[{ host := 0 }, { host := 1 }, { host := 2 }, { host := 3 }, { host := 4 }, { host := 5 }], rfl⟩
  key      : KeySt := {}
  cores    : Bank CoreSt 33 := ⟨List.replicate 32 (CoreSt.mk0 0x3000) ++ [CoreSt.mk0 0x8000], rfl⟩
  fence    : FenceSt := {}
  sage     : SageSt := {}
  usl      : UslSt := {}
  eth      : EthSt := {}
  xsp      : XspSt := {}
  flt      : FltSt := {}
  tmrs     : Bank TmrSt 32 := .rep 32 {}
  rtc      : RtcSt := {}
  int      : IntSt := {}
  stl      : StlSt := {}
  tag      : TagSt := {}
  reader   : ReaderSt := {}
  upd      : UpdSt := {}
  free     : Nat := 0                -- the model's own: index of the next free value
  out      : OutSt := {}
  deriving DecidableEq, Repr

/-- The state right after a power-on reset (R62, R63, R69 step 1).  Log 8 (DESIGN CHOICE). -/
def State.reset : State := {}

end Sys2Proof.Machine
end

