-- ==== Sys2Proof/Machine/Ops.lean ====
section
/-!
DEFINITION. The named operations over registers, memories, events, interrupts, Stolon channels, fault
records and granules that the meanings share.
-/

namespace Sys2Proof.Machine

/-! ## Initiators and levels (00 R9, 01 privilege table) -/

/-- The number of an initiator, as FEN_FINFO.INIT codes it (11). -/
def initIndex : Initiator → Nat
  | .tiller t => t.val
  | .crown => 32
  | .host => 33
  | .mgmt => 34
  | .debug => 35
  | .tag => 38

/-- Core `k` of the state; a core that is not there reads as a stopped one. -/
def State.core (s : State) (k : Nat) : CoreSt := s.cores.nth k {}

/-- Port, sheaf, search, counter and Tiller state by number. -/
def State.port (s : State) (p : Nat) : PortSt := s.ports.nth p {}
/-- Sheaf `n`. -/
def State.sheaf (s : State) (n : Nat) : SheafSt := s.sheaves.nth n {}
/-- The Awn search of sheaf `n`. -/
def State.search (s : State) (n : Nat) : SearchSt := s.searches.nth n {}
/-- Counter `n`. -/
def State.tmr (s : State) (n : Nat) : TmrSt := s.tmrs.nth n {}

/-- Change port `p`. -/
def State.updPort (s : State) (p : Nat) (f : PortSt → PortSt) : State := { s with ports := s.ports.upd p f }
/-- Change sheaf `n`. -/
def State.updSheaf (s : State) (n : Nat) (f : SheafSt → SheafSt) : State := { s with sheaves := s.sheaves.upd n f }
/-- Change the search of sheaf `n`. -/
def State.updSearch (s : State) (n : Nat) (f : SearchSt → SearchSt) : State := { s with searches := s.searches.upd n f }
/-- Change core `k`. -/
def State.updCore (s : State) (k : Nat) (f : CoreSt → CoreSt) : State := { s with cores := s.cores.upd k f }
/-- Change counter `n`. -/
def State.updTmr (s : State) (n : Nat) (f : TmrSt → TmrSt) : State := { s with tmrs := s.tmrs.upd n f }

/-- The level a transaction of the initiator carries now (01, "Privilege").  Log 12 (DESIGN CHOICE). -/
def levelOf (s : State) : Initiator → Nat
  | .crown => if bit (s.core 32).sr 15 then 0 else 1
  | .tiller _ => 1
  | .host => 2
  | .mgmt => 2
  | .debug => 2
  | .tag => 3

/-! ## The register file -/

/-- The value a register holds. -/
def rget (s : State) (a : Nat) : Word := SMap.get resetVal s.regs a

/-- Hold `v` in a register, in canonical form. -/
def rset (s : State) (a : Nat) (v : Word) : State := { s with regs := SMap.set resetVal s.regs a v }

/-- The field `[hi:lo]` of a register. -/
def rfld (s : State) (a hi lo : Nat) : Nat := field (rget s a) hi lo

/-- Bit `i` of a register. -/
def rbit (s : State) (a i : Nat) : Bool := bit (rget s a) i

/-- Replace the field `[hi:lo]` of a register. -/
def rsetFld (s : State) (a hi lo v : Nat) : State := rset s a (setField (rget s a) hi lo v)

/-- Replace bit `i` of a register. -/
def rsetBit (s : State) (a i : Nat) (b : Bool) : State := rset s a (setBit (rget s a) i b)

/-- The quantity of a group of `n` words (R4). -/
def rgroup (s : State) (a n : Nat) : Nat := ofWords ((List.range n).map fun k => rget s (a + k))

/-- Hold a quantity in a group of `n` words. -/
def rsetGroup (s : State) (a n v : Nat) : State :=
  (List.range n).foldl (fun s k => rset s (a + k) (wordOf v k)) s

/-- A counter register modulo 2^16 advances by `n`. -/
def bump (s : State) (a : Nat) (n : Nat := 1) : State := rset s a (rget s a + w16 n)

/-- A counter register that stops at 0xFFFF advances by `n`. -/
def bumpStop (s : State) (a : Nat) (n : Nat := 1) : State :=
  rset s a (w16 (min 0xFFFF ((rget s a).toNat + n)))

/-- A plain software write to one register word: RW, W1C and W1S bits act (R13, R16); an unlisted
address ignores it (R14).  Log 96 (DESIGN CHOICE). -/
def rwrite (s : State) (a : Nat) (v : Word) : State :=
  match regAt a with
  | some (r, _) => rset s a (r.apply (rget s a) v)
  | none => s

/-! ## Time (01 R36, 14 R367) -/

/-- The FAB shadow of the timebase: 2 or 3 ticks behind (R36).  Log 4 (DESIGN CHOICE). -/
def shadow (s : State) : Nat := s.time.now - 2 - (Config.shadowLag s.time.now).toNat

/-- The timebase stands at `t` or later.  Log 3 (DESIGN CHOICE), 97 (DESIGN CHOICE). -/
def reach (s : State) (t : Nat) : State := { s with time := { s.time with now := max s.time.now t } }

/-- Fifths of a tick of a duration in 1/10 µs (R86: 1 µs is 614.4 fifths), halves up (R196).  Log 35 (DESIGN CHOICE). -/
def usFifths (us : Nat) : Nat := (us * 6144 + 5) / 10

/-- 40.0 µs in fifths: 4,915 ticks and 1 fifth (R93). -/
def turn5 : Nat := 24576

/-- Phase of the sample instants (R78), held in the state once the PLLs lock. -/
def State.phase (s : State) : Nat := s.samplePhase % 8

/-- The first sample instant at or after tick `t`.  Log 5 (DESIGN CHOICE). -/
def sampleAt (s : State) (t : Nat) : Nat := t + (s.phase + 8 - t % 8) % 8

/-- The last port sample instant earlier than the instant `n/d` ticks. -/
def lastSampleBefore (s : State) (n d : Nat) : Nat :=
  let c := (n + d - 1) / d        -- first tick at or after the instant
  let t := sampleAt s c
  if t * d < n then t else t - 8

/-- The timebase is disciplined: DISC reads 1 (14 R367); with SRC PPS the loop of R370 keeps the bit. -/
def disciplined (s : State) : Bool :=
  match rfld s Reg.tbsCtl 1 0 with
  | 0 => false
  | 1 => rbit s Reg.tbsCtl 3
  | 2 => rbit s Reg.tbsStat 0
  | _ => rbit s Reg.uslStat 13

/-- A trim measurement against the timebase that runs notes that DISC reads 0 (16 R422). -/
def noteDisc (s : State) : State := if s.rtc.running ∧ ¬ disciplined s then { s with rtc := { s.rtc with discLost := true } } else s

/-! ## Modes (02 R49, R50) -/

/-- The present mode. -/
def modeOf (s : State) : Nat := rfld s Reg.sysMode 2 0

/-- The receive path of a mode is on (R50). -/
def rxOn (m : Nat) : Bool := m = 2 ∨ m = 3 ∨ m = 4 ∨ m = 5

/-- A mode whose transmit column reads Sealed (R50). -/
def txSealed (m : Nat) : Bool := m = 0 ∨ m = 1 ∨ m = 6 ∨ m = 7

/-- A mode whose receive column reads Sealed outright: enables of sheaves and searches are ignored (R102). -/
def rxSealed (s : State) : Bool :=
  let m := modeOf s
  m = 1 ∨ m = 7 ∨ (m = 0 ∧ ¬ (s.boot.step ≥ 7 ∧ rxOn s.boot.target))

/-- A unit of R50, given by the modes that run it, runs now: in a transition one that the target stops has stopped, and
one that only the target runs starts once the restarted sheaves are ON, or when TRANS clears (R508). -/
def unitOn (s : State) (runs : Nat → Bool) : Bool :=
  match s.trans with
  | none => runs (modeOf s)
  | some t => runs t.target && (runs (modeOf s) || t.restart && t.up)

/-- As `unitOn`, for what keeps its terms throughout a transition between HOSTED, AUTONOMOUS and MEMBER (R59). -/
def serviceOn (s : State) (runs : Nat → Bool) : Bool :=
  match s.trans with
  | some t => if decide (2 ≤ modeOf s ∧ modeOf s ≤ 4 ∧ 2 ≤ t.target ∧ t.target ≤ 4) then runs (modeOf s) else unitOn s runs
  | none => runs (modeOf s)

/-- The receive path runs: its mode, or start-up from step 7 when the target mode's receive path is on (R50, R508). -/
def rxRuns (s : State) : Bool :=
  unitOn s rxOn || (decide (modeOf s = 0) && decide (s.boot.step ≥ 7) && rxOn s.boot.target)

/-! ## Interrupt sources (17 R424 to R426) -/

/-- The event register of a level source (R424). -/
def sourceReg (n : Nat) : Option Nat :=
  if n = 0 then some Reg.fltEvt else if n = 1 then some Reg.rglEvt else if n = 2 then some Reg.calEvt
  else if n = 3 then some Reg.spkEvt else if n = 4 then some Reg.winEvt else if n = 5 then some Reg.lnkEvt
  else if n = 6 then some Reg.sesEvt else if n = 7 then some Reg.aesEvt else if n = 8 then some Reg.keyEvt
  else if n = 9 then some Reg.fenEvt else if n = 10 then some Reg.sagEvt else if n = 11 then some Reg.uslEvt
  else if n = 12 then some Reg.ethEvt else if n = 13 then some Reg.tbsEvt else if n = 14 then some Reg.hspEvt
  else if n = 15 then some Reg.xspEvt else if n = 16 then some Reg.rtcEvt
  else if n = 17 then some (Reg.uslnEvt 0) else if n = 18 then some (Reg.uslnEvt 1)
  else if n = 19 then some Reg.updEvt
  else if 24 ≤ n ∧ n < 32 then some (Reg.shfEvt (n - 24))
  else if 32 ≤ n ∧ n < 40 then some (Reg.awnEvt (n - 32))
  else if 40 ≤ n ∧ n < 48 then some (Reg.hedEvt (n - 40))
  else if 64 ≤ n ∧ n < 96 then some (Reg.tilEvt (n - 64))
  else if 96 ≤ n ∧ n < 128 then some (Reg.tmrnEvt (n - 96))
  else none

/-- The source whose event register is at `a` (R424). -/
def sourceOf (a : Nat) : Option Nat := (List.range 128).find? fun n => sourceReg n = some a

/-- Source `n` is enabled. -/
def srcEnabled (s : State) (n : Nat) : Bool := rbit s (Reg.intCfg n) 15

/-- Source `n` is active. -/
def srcActive (s : State) (n : Nat) : Bool := s.int.active.any fun e => e.1 = n

/-- The request bits of a level source's register: USL and RESULT fields that are not events are masked.  Log 90 (DESIGN CHOICE). -/
def srcAsserted (s : State) (n : Nat) : Bool :=
  match sourceReg n with
  | some a =>
    match regAt a with
    | some (r, _) => (rget s a &&& w16 r.w1c) ≠ 0
    | none => false
  | none => false

/-- Source `n` is pending (R425). -/
def srcPending (s : State) (n : Nat) : Bool :=
  if edgeSource n then s.int.edge.contains n
  else srcEnabled s n && srcAsserted s n && !srcActive s n

/-- An edge source's event occurs (R425): pending, or one further occurrence held.  Log 90 (DESIGN CHOICE). -/
def edgeOccur (s : State) (n : Nat) : State :=
  if ¬ srcEnabled s n then s
  else if s.int.edge.contains n ∨ srcActive s n then
    { s with int := { s.int with again := if s.int.again.contains n then s.int.again else n :: s.int.again } }
  else { s with int := { s.int with edge := n :: s.int.edge } }

/-- The target of a source: the Crown core for a secure one (R426). -/
def srcTarget (s : State) (n : Nat) : Nat :=
  if rbit s (Reg.intCfg n) 14 then 32 else rfld s (Reg.intCfg n) 5 0

/-! ## Stolon (17 R434 to R442) -/

/-- Channel `c` is enabled. -/
def chEnabled (s : State) (c : Nat) : Bool := rbit s (Reg.stlSrc c) 15

/-- The consumer a channel names; 0 for none. -/
def chDst (s : State) (c : Nat) : Nat := rfld s (Reg.stlDst c) 7 0

/-- The channel that serves a consumer: the lowest-numbered enabled one that names it (R439). -/
def servingCh (s : State) (dst : Nat) : Option Nat :=
  (List.range 128).find? fun c => chEnabled s c && chDst s c = dst

/-- A producer that is a level: a cell output, field present, constant 1 (R436). -/
def levelHigh (s : State) (src : Nat) : Bool :=
  if 0x800 ≤ src ∧ src ≤ 0x81F then (s.stl.cells.nth (src - 0x800) {}).out
  else if src = 0x835 then s.tag.field
  else src = 0x836

/-- The present signal of a channel: its level producer, or a pulse this cycle (R437). -/
def chHigh (s : State) (c : Nat) : Bool :=
  chEnabled s c && (levelHigh s (rfld s (Reg.stlSrc c) 11 0) || s.stl.pulses.contains c)

/-- A rising edge of channel `c` at the consumer it serves (R438, R439).  Log 70 (DESIGN CHOICE). -/
def chEdge (s : State) (c : Nat) : State :=
  let d := chDst s c
  if servingCh s d ≠ some c then s
  else if 0x10 ≤ d ∧ d ≤ 0x1F then edgeOccur s (128 + (d - 0x10))
  else if 0x20 ≤ d ∧ d ≤ 0x3F then
    if rfld s (Reg.tmrnSel (d - 0x20)) 14 8 = c then
      { s with stl := { s.stl with counts := s.stl.counts ++ [d - 0x20] } }
    else s
  else if 0x40 ≤ d ∧ d ≤ 0x5F then
    if rfld s (Reg.tmrnSel (d - 0x40)) 6 0 = c ∧ rbit s (Reg.tmrnSel (d - 0x40)) 7 then
      { s with stl := { s.stl with caps := s.stl.caps ++ [d - 0x40] } }
    else s
  else s

/-- Rising edges of every channel whose signal has gone high since it was last seen.  Log 90 (DESIGN CHOICE). -/
def chSettle (s : State) : State :=
  let high := (List.range 128).filter (chHigh s)
  let rise := high.filter fun c => !s.stl.levels.contains c
  let s := { s with stl := { s.stl with levels := high } }
  rise.foldl chEdge s

/-- Input `k` of cell `l` from its channel; a consumer without a channel sees 0 (R439). -/
def cellInput (s : State) (l k : Nat) : Bool :=
  match servingCh s (0x80 + 4 * l + k) with
  | some c => chHigh s c
  | none => false

/-- One cycle of a cell's clock on the four inputs (R440).  Log 91 (DESIGN CHOICE). -/
def cellCycle (s : State) (l : Nat) (ins : List Bool) (c : CellSt) : CellSt :=
  let cfg := rget s (Reg.stlCfg l)
  if ¬ bit cfg 0 then { c with out := false }
  else
    let i := (ins.zipIdx.map fun e => e.1.toNat * 2 ^ e.2).sum
    let v := bit (rget s (Reg.stlLut l)) i
    let now := if bit cfg 1 then c.ff else v
    let filt := field cfg 15 8
    let held := if now = c.cand then c.held + 1 else 1
    let out := if filt ≤ 1 then now else if held ≥ filt then now else c.out
    { ff := v, cand := now, held := min held 256, out := out }

/-- One FAB cycle of the cells that select the FAB clock (R441), and the edges their outputs make.  Log 91 (DESIGN CHOICE). -/
def stlCycle (s : State) : State :=
  let cells := s.stl.cells.each fun l c =>
    if bit (rget s (Reg.stlCfg l)) 2 then c
    else cellCycle s l ((List.range 4).map (cellInput s l)) c
  chSettle { s with stl := { s.stl with cells := cells } }

/-- A pulse on channel `c` for one cycle (R437): the consumer sees it, the cells see it high for a cycle.  Log 91 (DESIGN CHOICE). -/
def chPulse (s : State) (cs : List Nat) : State :=
  if cs.isEmpty then s
  else
    let s := chSettle { s with stl := { s.stl with pulses := cs } }
    let s := stlCycle s
    chSettle { s with stl := { s.stl with pulses := [] } }

/-! ## Key handles (10 R252, R253) -/

/-- The slot of a handle that is neither stale nor free (R252); handle 0x0000 is the root. -/
def handleSlot (s : State) (h : Word) : Option Nat :=
  let k := h.toNat % 64
  if field (rget s (Reg.keyHgen k)) 9 0 = h.toNat / 64 ∧ rbit s (Reg.keyHinfo k) 15 then some k else none

/-- The key of a slot: 32 octets of a node of the tree, 16 of an installed key.  Log 58 (PRESUMED). -/
def slotKey (s : State) (k : Nat) : List Octet :=
  if k = 0 then s.fuses.root
  else ((s.key.handles.find? fun e => e.slot = k).map Handle.key).getD []

/-- The key of a handle that carries USE bit `u` (R253); the root serves only as a parent (R248).  Log 58 (PRESUMED). -/
def handleKey (s : State) (h : Word) (u : Nat) : Option (List Octet) :=
  match handleSlot s h with
  | some k => if k ≠ 0 ∧ rbit s (Reg.keyHinfo k) (4 + u) then some (slotKey s k) else none
  | none => none

/-- The key that a KEYINSTALL takes: that of an INSTALLED handle, which a verified update message has delivered (R253, R261). -/
def installKey (s : State) (h : Word) : Option (List Octet) :=
  match handleSlot s h with
  | some k => if rbit s (Reg.keyHinfo k) 14 then handleKey s h 5 else none
  | none => none

/-! ## The management EVENT (14 R366, 17 R433) -/

/-- The enabled pending sources of target `t`, lowest number first. -/
def pendingFor (s : State) (t : Nat) : List Nat :=
  (List.range 144).filter fun n => !rbit s (Reg.intCfg n) 14 && rfld s (Reg.intCfg n) 5 0 = t && srcEnabled s n && srcPending s n

/-- Some source is active at target `t`. -/
def activeAt (s : State) (t : Nat) : Bool := s.int.active.any fun e => e.2 = t

/-- A management message: header, data and MAC under a key (R364). -/
def mgmtMessage (key : List Octet) (op seq addr count status : Nat) (data : List Octet) : List Octet :=
  let m := [0x51, 0x4D, 1, BitVec.ofNat 8 op] ++ octetsLE 4 seq ++ octetsLE 4 addr ++
    [BitVec.ofNat 8 count, BitVec.ofNat 8 status, 0, 0] ++ data
  m ++ (cmac (key.take 16) m).take 8

/-- The key of handle `ETH_MKEY`; none while it is 0x0000 or names no usable key (R364). -/
def mgmtKey (s : State) : Option (List Octet) :=
  let h := rget s Reg.ethMkey
  if h = 0 then none else handleKey s h 4

/-- Send an EVENT when target 34 comes to have an enabled pending source while none is active (R366, R433):
on the first lane that has link, under the key of `ETH_MKEY`.  Log 66 (DESIGN CHOICE). -/
def mgmtEvent (s : State) : State :=
  match pendingFor s 34 with
  | n :: _ =>
    if activeAt s 34 then { s with eth := { s.eth with evDue := false } }
    else if s.eth.evDue then s
    else
      let s := { s with eth := { s.eth with evDue := true } }
      if ¬ (rbit s (Reg.ethnStat 0) 2 || rbit s (Reg.ethnStat 1) 2) then s
      else
        match mgmtKey s with
        | some key =>
          let lane := if rbit s (Reg.ethnStat 0) 2 then 0 else 1
          bump { s with
            eth := { s.eth with evSeq := s.eth.evSeq + 1 }
            out := { s.out with events := s.out.events ++ [mgmtMessage key 3 s.eth.evSeq n 0 0 []] } } (Reg.ethnNtx lane)
        | none => s
  | [] => { s with eth := { s.eth with evDue := false } }

/-- Registers that an event may change beside its event register: the lanes' counts of frames sent, by a management EVENT (R366). -/
def ntxRegs : List Nat := [Reg.ethnNtx 0, Reg.ethnNtx 1]

/-- What target 34 has asked for is over once no source is pending there: the next one to come asks anew.  Log 66 (DESIGN CHOICE). -/
def eventSettle (s : State) : State :=
  if (pendingFor s 34).isEmpty then { s with eth := { s.eth with evDue := false } } else s

/-- A pulse of a producer (R436): every enabled channel that names it carries it. -/
def stolon (s : State) (src : Nat) : State :=
  mgmtEvent (chPulse (eventSettle s) ((List.range 128).filter fun c => chEnabled s c && rfld s (Reg.stlSrc c) 11 0 = src))

/-- Hardware sets event bits (the mask) of an event register; each bit is a Stolon event (R424, R436). -/
def setEvt (s : State) (a : Nat) (mask : Word) : State :=
  let s := rset (eventSettle s) a (rget s a ||| mask)
  match sourceOf a with
  | some n =>
    mgmtEvent (chPulse s ((List.range 128).filter fun c =>
      let src := rfld s (Reg.stlSrc c) 11 0
      chEnabled s c && src / 16 = n && bit mask (src % 16)))
  | none => s

/-- Hardware sets event bit `i` of an event register. -/
def evt (s : State) (a i : Nat) : State := setEvt s a (bitMask i)

/-! ## Fault records (15 R398, R399) -/

/-- What a fault record says beside its time, number and count (R398). -/
structure FaultInfo where
  cls     : Nat
  lasting : Bool
  sub     : Nat := 0
  action  : Nat
  typ     : Nat
  inst    : Nat
  addr    : Nat := 0
  spare   : Nat := 0
  synd    : Nat := 0
  init    : Nat := 0x3F
  time    : Option Nat := none      -- detection instant, where it is not the present one
  deriving DecidableEq, Repr

/-- A fault record is lasting. -/
def recLasting (r : List Word) : Bool := bit (r.getD 5 0) 11

/-- The record queue with a record offered, and whether one is lost: it holds 128; a lasting record then takes the place of
the oldest one that is not, and any other is lost (R399). -/
def recPush (recs : List (List Word)) (r : List Word) (lasting : Bool) : List (List Word) × Bool :=
  if recs.length < 128 then (recs ++ [r], false)
  else if lasting then
    match recs.findIdx? fun q => !recLasting q with
    | some k => (recs.eraseIdx k ++ [r], true)
    | none => (recs, true)
  else (recs, true)

/-- The twelve words of a record (R398), with its number and how often its unit and ADDR have reported. -/
def recWords (t seq n : Nat) (i : FaultInfo) : List Word :=
  wordsOf 4 t ++
    [w16 seq,
     w16 (i.cls * 4096 + i.lasting.toNat * 2048 + (i.sub % 16) * 16 + i.action % 16),
     w16 (i.typ * 4096 + i.inst % 4096), wordOf i.addr 0, wordOf i.addr 1,
     w16 ((i.spare % 64) * 512 + i.synd % 512), w16 i.init, w16 (min 0xFFFF n)]

/-- The fault manager's queue, numbers and counts after a record (R398, R399). -/
def FltSt.put (f : FltSt) (t : Nat) (i : FaultInfo) : FltSt × Bool :=
  let unit := i.typ * 4096 + i.inst
  let old := ((f.counts.find? fun e => e.1 = (unit, i.addr)).map Prod.snd).getD 0
  let q := recPush f.recs (recWords t f.seq (old + 1) i) i.lasting
  ({ f with
      seq := f.seq + 1
      counts := ((unit, i.addr), old + 1) :: f.counts.filter fun e => e.1 ≠ (unit, i.addr)
      recs := q.1 }, q.2)

/-- Write a fault record (R398); the queue holds 128 and loses as R399 states. -/
def fault (s : State) (i : FaultInfo) : State :=
  let q := s.flt.put (i.time.getD (shadow s)) i
  let s := { s with flt := q.1 }
  let s := if q.2 then evt (bump s Reg.fltNlost) Reg.fltEvt 5 else s
  setEvt s Reg.fltEvt (bitMask 0 ||| (if i.lasting then bitMask 1 else 0))

/-- Registers that a fault record may change (R398, R399). -/
def fltRegs : List Nat := Reg.fltEvt :: Reg.fltNlost :: ntxRegs

/-! ## Blocks with an enable (02 R73 to R77) -/

/-- The control register of a block. -/
def ctlReg : BlockId → Nat
  | .prt p => Reg.prtCtl p
  | .shf n => Reg.shfCtl n
  | .awn n => Reg.awnCtl n
  | .hed n => Reg.hedCtl n
  | .lnk => Reg.lnkCtl
  | .til t => Reg.tilCtl t
  | .eth n => Reg.ethnCtl n
  | .usl n => Reg.uslnCtl n
  | .tmr n => Reg.tmrnCtl n
  | .nfr => Reg.nfrCtl

/-- The status register of a block; its STATE is bits 1:0 (R73). -/
def statReg : BlockId → Nat
  | .prt p => Reg.prtStat p
  | .shf n => Reg.shfStat n
  | .awn n => Reg.awnStat n
  | .hed n => Reg.hedStat n
  | .lnk => Reg.lnkStat
  | .til t => Reg.tilStat t
  | .eth n => Reg.ethnStat n
  | .usl n => Reg.uslnStat n
  | .tmr n => Reg.tmrnStat n
  | .nfr => Reg.nfrStat

/-- STATE of a block: 0 OFF, 1 STARTING, 2 ON, 3 DRAINING (R73). -/
def stateOf (s : State) (b : BlockId) : Nat := rfld s (statReg b) 1 0

/-- EN of a block. -/
def enOf (s : State) (b : BlockId) : Bool := rbit s (ctlReg b) 0

/-- Put a block in a STATE. -/
def setState (s : State) (b : BlockId) (v : Nat) : State := rsetFld s (statReg b) 1 0 v

/-- Set or clear EN of a block. -/
def setEn (s : State) (b : BlockId) (v : Bool) : State := rsetBit s (ctlReg b) 0 v

/-- What every stop of a block does (R75, R76): EN clears, and STARTING or ON becomes DRAINING. -/
def drainState (s : State) (b : BlockId) : State :=
  let s := setEn s b false
  if stateOf s b = 1 ∨ stateOf s b = 2 then setState s b 3 else s

/-! ## Memories (20 R476) -/

/-- What holds an address of the device map. -/
inductive Region where
  | shared
  | session
  | granary
  | bootRom
  | crownRam
  | block
  | unmapped
  | local_
  deriving DecidableEq, Repr

/-- The region of a word address (R476, R477). -/
def regionOf (a : Nat) : Region :=
  if a ≤ 0x1FFFF then .local_
  else if 0x01000000 ≤ a ∧ a ≤ 0x011FFFFF then .shared
  else if 0x02000000 ≤ a ∧ a ≤ 0x0207FFFF then .session
  else if 0x03000000 ≤ a ∧ a ≤ 0x033FFFFF then .granary
  else if 0x04000000 ≤ a ∧ a ≤ 0x04007FFF then .bootRom
  else if 0x04010000 ≤ a ∧ a ≤ 0x0401FFFF then .crownRam
  else if inWindow a then .block
  else .unmapped

/-- What a memory word that nothing has written reads as: memories are zeroised at boot (R63).  Log 9 (DEDUCED). -/
def memDefault : Nat → Word := fun _ => 0

/-- A word of the mapped memories: boot ROM holds its fixed contents.  Log 9 (DEDUCED). -/
def mget (s : State) (a : Nat) : Word :=
  if regionOf a = .bootRom then Config.bootRom (a - 0x04000000) else SMap.get memDefault s.mem a

/-- Write a word of the mapped memories; boot ROM keeps its contents.  Log 10 (DEDUCED). -/
def mset (s : State) (a : Nat) (v : Word) : State :=
  if regionOf a = .bootRom then s else { s with mem := SMap.set memDefault s.mem a v }

/-- Consecutive words. -/
def mgets (s : State) (a n : Nat) : List Word := (List.range n).map fun k => mget s (a + k)

/-- Write consecutive words. -/
def msets (s : State) (a : Nat) : List Word → State
  | [] => s
  | v :: r => msets (mset s a v) (a + 1) r

/-- A word of a Tiller's local memory.  Log 9 (DEDUCED). -/
def lget (s : State) (t a : Nat) : Word := SMap.get memDefault s.tlm (65536 * t + a % 65536)

/-- Write a word of a Tiller's local memory.  Log 10 (DEDUCED). -/
def lset (s : State) (t a : Nat) (v : Word) : State :=
  { s with tlm := SMap.set memDefault s.tlm (65536 * t + a % 65536) v }

/-- The address of granule `g` (R476). -/
def granAddr (g : Nat) : Nat := 0x03000000 + 64 * (g % 65536)

/-! ## Granules (07 R182 to R187) -/

/-- The partition that acts for a map entry: partition 15 and one of size 0 act as partition 0 (R183). -/
def partFor (s : State) (n : Nat) : Nat :=
  if n = 15 ∨ (s.win.parts.getD n (0, 0)).2 = 0 then 0 else n

/-- Granules in use. -/
def usedGranules (s : State) : List Nat := s.holds.flatMap fun h => h.gmeta :: h.data

/-- The free granules of a partition in force. -/
def freeGranules (s : State) (p : Nat) : List Nat :=
  let b := s.win.parts.getD p (0, 0)
  let used := usedGranules s
  ((List.range b.2).map (b.1 + ·)).filter fun g => !used.contains g

/-- Take `n` granules of a list of free ones, the choice left to Sage (R186).  Log 44 (DESIGN CHOICE). -/
def pickGranules (choice : Nat) : Nat → List Nat → List Nat
  | 0, _ => []
  | n + 1, free =>
    let k := Config.granulePick choice free.length % max 1 free.length
    match free[k]? with
    | some g => g :: pickGranules (choice + 1) n (free.eraseIdx k)
    | none => []

/-- Number of free granules of a partition in force, as WINn_FREE shows it; granules that a start of Winnow has moved to another
partition while they are held count where they lie now. -/
def freeCount (s : State) (p : Nat) : Nat :=
  let b := s.win.parts.getD p (0, 0)
  b.2 - ((usedGranules s).filter fun g => decide (b.1 ≤ g ∧ g < b.1 + b.2)).length

/-- Note the lowest value of WINn_FREE. -/
def noteMin (s : State) (p : Nat) : State :=
  if freeCount s p < (rget s (Reg.winMin p)).toNat then rset s (Reg.winMin p) (w16 (freeCount s p)) else s

/-- Reserve one metadata granule and `nd` data granules in partition `p`, all at once or not at all
(R184); none when Winnow accepts no reservation or the partition lacks them.  Log 44 (DESIGN CHOICE). -/
def reserve (s : State) (p nd owner : Nat) : Option (State × Holding) :=
  if s.win.stopped ∨ freeCount s p < nd + 1 then none
  else
    match pickGranules s.free (nd + 1) (freeGranules s p) with
    | m :: d =>
      let h : Holding := { gmeta := m, data := d, part := p, owner := owner }
      some (noteMin { s with holds := h :: s.holds, free := s.free + nd + 1 } p, h)
    | [] => none

/-- Granules return to their partition (R184). -/
def release (s : State) (h : Holding) : State := { s with holds := s.holds.filter fun k => k.gmeta ≠ h.gmeta }

/-- The holding of a metadata granule by an owner. -/
def holdOf (s : State) (g owner : Nat) : Option Holding :=
  s.holds.find? fun h => h.gmeta = g && h.owner = owner

/-- Pass a holding to another owner. -/
def passHold (s : State) (g owner : Nat) : State :=
  { s with holds := s.holds.map fun h => if h.gmeta = g then { h with owner := owner } else h }

/-- The `n` octets held in the data granules that words 32 to 47 of a metadata granule list. -/
def readData (s : State) (g n : Nat) : List Octet :=
  let idx := mgets s (granAddr g + 32) 16
  let data := idx.filter (· ≠ 0xFFFF)
  (unpackOctets (data.flatMap fun d => mgets s (granAddr d.toNat) 64)).take n

/-! ## The model's own free values -/

/-- Move to the next free value.  Log 7 (DESIGN CHOICE). -/
def bumpFree (s : State) (n : Nat := 1) : State := { s with free := s.free + n }

end Sys2Proof.Machine
end

