-- ==== Sys2Proof/Machine/Groups.lean ====
section
/-!
DEFINITION. Register groups: the latches of R5 and R6, the staging of R7 and R8, each initiator's own (R9), and
the groups that counters form while they are cascaded (16_timekeeping R403).
-/

namespace Sys2Proof.Machine

/-! ## Counter groups (16 R403) -/

/-- The head of the group that counter `n` belongs to: itself unless it is a member. -/
def tmrHead (s : State) (n : Nat) : Nat :=
  if ¬ (s.tmr n).member then n
  else if ¬ (s.tmr (n - 1)).member then n - 1
  else if ¬ (s.tmr (n - 2)).member then n - 2
  else n - 3

/-- The members of the group that counter `n` heads, while the group exists. -/
def tmrWidth (s : State) (n : Nat) : Nat := (s.tmr n).width

/-- The base of the words `TMRn_CNT`, `CMP`, `PER` or `CAP` that holds `a`, with the counter's number. -/
def tmrWordAt (a : Nat) : Option (Nat × Nat) :=
  let b := [Reg.tmrnCnt 0, Reg.tmrnCmp 0, Reg.tmrnPer 0, Reg.tmrnCap 0]
  match b.find? (fun x => x ≤ a ∧ a < x + 32) with
  | some x => some (x, a - x)
  | none => none

/-- The register group that holds `a`: its lowest word and its length (R4, R403).  Log 15 (DESIGN CHOICE). -/
def groupAt (s : State) (a : Nat) : Nat × Nat :=
  match tmrWordAt a with
  | some (b, n) => let h := tmrHead s n; (b + h, tmrWidth s h)
  | none => groupOf a

/-! ## Latches (R5, R6) -/

/-- The latched word of an initiator, where it has read the group's lowest word.  Log 15 (DESIGN CHOICE). -/
def latched (s : State) (i : Initiator) (a : Nat) : Option Word :=
  (s.latches.find? fun e => e.1 = (initIndex i, a)).map Prod.snd

/-- Latch the higher words of a group for an initiator: words 1 and up of the list.  Log 15 (DESIGN CHOICE). -/
def latchWords (s : State) (i : Initiator) (base : Nat) (ws : List Word) : State :=
  let keep := s.latches.filter fun e => !(decide (e.1.1 = initIndex i) && decide (base < e.1.2) && decide (e.1.2 < base + ws.length))
  { s with latches := ((ws.zipIdx).drop 1).map (fun e => ((initIndex i, base + e.2), e.1)) ++ keep }

/-- Read word `k` of a group whose words stand at `ws`: the lowest word latches the others (R5), a higher word
reads as latched, and live before the initiator's first latching read (R6). -/
def groupRead (s : State) (i : Initiator) (base k : Nat) (ws : List Word) : Word × State :=
  if k = 0 then (ws.getD 0 0, latchWords s i base ws)
  else ((latched s i (base + k)).getD (ws.getD k 0), s)

/-! ## Staging (R7, R8) -/

/-- Stage a lower word for an initiator (R7).  Log 15 (DESIGN CHOICE). -/
def stageWord (s : State) (i : Initiator) (a : Nat) (v : Word) : State :=
  { s with staged := ((initIndex i, a), v) :: s.staged.filter fun e => e.1 ≠ (initIndex i, a) }

/-- The words that a commit of the group at `base` writes: the staged words, the value written to the highest
one, and the present value of every lower word not staged since the initiator's last commit (R7). -/
def commitWords (s : State) (i : Initiator) (base len : Nat) (top : Word) : List Word :=
  (List.range len).map fun k =>
    if k + 1 = len then top
    else ((s.staged.find? fun e => e.1 = (initIndex i, base + k)).map Prod.snd).getD (rget s (base + k))

/-- The initiator's staged words of a group are used up. -/
def clearStaged (s : State) (i : Initiator) (base len : Nat) : State :=
  { s with staged := s.staged.filter fun e => !(decide (e.1.1 = initIndex i) && decide (base ≤ e.1.2) && decide (e.1.2 < base + len)) }

/-- A plain commit of a group: each word keeps the bits that software does not write. -/
def commitPlain (s : State) (base : Nat) (ws : List Word) : State :=
  (ws.zipIdx).foldl (fun s e => rwrite s (base + e.2) e.1) s

/-- A write of `v` to word `a` of a group with plain fields: it stages or commits (R7). -/
def groupWrite (s : State) (i : Initiator) (a : Nat) (v : Word) : State :=
  let g := groupAt s a
  if a + 1 = g.1 + g.2 then
    commitPlain (clearStaged s i g.1 g.2) g.1 (commitWords s i g.1 g.2 v)
  else stageWord s i a v

/-- The 32-bit address or count of a group of two words as numbers. -/
def rlong (s : State) (a : Nat) : Nat := rgroup s a 2

/-- Forget the latches and the staging of an initiator (R9: the tag's end with its session).  Log 15 (DESIGN CHOICE). -/
def dropLatches (s : State) (i : Initiator) : State :=
  { s with
    latches := s.latches.filter fun e => e.1.1 ≠ initIndex i
    staged := s.staged.filter fun e => e.1.1 ≠ initIndex i }

end Sys2Proof.Machine
end

