-- ==== Sys2Proof/Machine/Panel.lean ====
section
/-!
DEFINITION. The panel reader and the panel record (18_field R456 to R460).
-/

namespace Sys2Proof.Machine

/-- Entry `i` of a panel record: its six octets (R460). -/
def panelEntry (r : List Octet) (i : Nat) : List Octet := slice r (16 + 6 * i) 6

/-- The number of entries of a record. -/
def panelCount (r : List Octet) : Nat := (r.getD 5 0).toNat

/-- An entry's reserved bits and the fields of its unflagged bands are 0, and its port is below 64 (R460). -/
def panelEntryOk (e : List Octet) : Bool :=
  let f := (e.getD 1 0).toNat
  decide ((e.getD 0 0).toNat < 64 ∧ f < 4) &&
  (f.testBit 0 || (e.getD 2 0 = 0 && e.getD 3 0 = 0)) && (f.testBit 1 || (e.getD 4 0 = 0 && e.getD 5 0 = 0))

/-- The PORT values rise strictly. -/
def risesStrictly : List Nat → Bool
  | [] => true
  | [_] => true
  | a :: b :: r => decide (a < b) && risesStrictly (b :: r)

/-- The layout checks of R460. -/
def panelFormOk (r : List Octet) : Bool :=
  let n := panelCount r
  r.take 4 = [0x51, 0x50, 0x4E, 0x4C] && r.getD 4 0 = 1 && decide (1 ≤ n ∧ n ≤ 64) &&
  decide (ofOctetsLE (slice r 6 2) = 80 + 6 * n) && decide (r.length = 80 + 6 * n) &&
  ((List.range n).all fun i => panelEntryOk (panelEntry r i)) &&
  risesStrictly ((List.range n).map fun i => ((panelEntry r i).getD 0 0).toNat)

/-- The result of reading a record in full (R457): 1 VALID, 6 FORMAT, 8 NOKEY, 7 SIG. -/
def panelJudge (s : State) (r : List Octet) : Nat :=
  if ¬ panelFormOk r then 6
  else if s.fuses.maker.isEmpty then 8
  else if ecdsaVerify s.fuses.maker (sha256 (r.take (r.length - 64))) (r.drop (r.length - 64)) then 1
  else 7

/-- The entry of a port in a record: GAIN less LOSS of a band in 0.25 dB units; none where the record has no entry
for it or the band is not flagged (R461). -/
def panelGain (r : List Octet) (port : Nat) (high : Bool) : Option Int :=
  (List.range (panelCount r)).findSome? fun i =>
    let e := panelEntry r i
    if (e.getD 0 0).toNat = port ∧ (e.getD 1 0).toNat.testBit high.toNat then
      some ((e.getD (2 + 2 * high.toNat) 0).toInt - ((e.getD (3 + 2 * high.toNat) 0).toNat : Int))
    else none

/-- Change the reader's state. -/
def updReader (s : State) (f : ReaderSt → ReaderSt) : State := { s with reader := f s.reader }

/-- Withdraw the record held (R459). -/
def panelWithdraw (s : State) : State :=
  if s.reader.record.isEmpty then s
  else
    let s := updReader s fun r => { r with record := [], pend := r.pend ++ [(s.time.now, [])] }
    setEvt (rsetGroup s Reg.nfrPanelid 4 0) Reg.nfrEvt (bitMask 1)

/-- A record is validated (R459): identical contents change nothing.  Log 87 (DESIGN CHOICE). -/
def panelAccept (s : State) (d : List Octet) : State :=
  let s := updReader s fun r => { r with fails := 0, failed := false }
  if s.reader.record = d then s
  else
    let s := updReader s fun r => { r with record := d, pend := r.pend ++ [(s.time.now, d)] }
    setEvt (rsetGroup s Reg.nfrPanelid 4 (ofOctetsLE (slice d 8 8))) Reg.nfrEvt (bitMask 0)

/-- A read ends other than VALID (R459).  Log 87 (DESIGN CHOICE). -/
def panelFail (s : State) (res : Nat) : State :=
  let s := setEvt s Reg.nfrEvt (bitMask 2)
  let s := updReader s fun r => { r with fails := r.fails + 1, failed := true }
  if res = 2 ∨ s.reader.fails ≥ 3 then panelWithdraw s else s

/-- The reader leaves ON (R459). -/
def readerOff (s : State) : State :=
  panelWithdraw (updReader s fun r => { r with due := false, reading := false, fails := 0 })

/-- `NFR_STAT` as it reads. -/
def nfrStat (s : State) : Word :=
  let r := s.reader.record
  w16 (16 * (if r.isEmpty then 0 else panelCount r) + 8 * (!r.isEmpty).toNat + 4 * s.reader.failed.toNat + stateOf s .nfr)

/-- A full read is asked for by software (R456). -/
def readerReread (s : State) : State := if stateOf s .nfr = 2 then updReader s fun r => { r with due := true } else s

/-! ## The commands -/

/-- The next ping measures detuning, `NFR_PINGPER` ms after the last (R456).  Log 87 (DESIGN CHOICE). -/
def execDetuningPing (d : Word) (s : State) : Host.Outcome State Fault Refusal :=
  .next (
    if stateOf s .nfr ≠ 2 then s
    else
      let s := reach s (s.reader.pingAt + 122880 * clampNat 10 10000 (rget s Reg.nfrPingper).toNat)
      let s := rset (updReader s fun r => { r with pingAt := s.time.now }) Reg.nfrDetune d
      let gap := ((d.toNat : Int) - s.reader.dref).natAbs
      if gap > (rget s Reg.nfrDetthr).toNat then
        setEvt (updReader s fun r => { r with due := true }) Reg.nfrEvt (bitMask 3)
      else s)

/-- A full read starts: one that is due, or else the one that comes `NFR_REFRESH` seconds after the end of the last (R456, R457).
Log 87 (DESIGN CHOICE). -/
def execPanelFullRead (s : State) : Host.Outcome State Fault Refusal :=
  .next (
    if stateOf s .nfr = 2 ∧ ¬ s.reader.reading then
      let s := if s.reader.due then s else reach s (s.reader.readAt + 122880000 * max 1 (rget s Reg.nfrRefresh).toNat)
      updReader s fun r => { r with due := false, reading := true }
    else s)

/-- A full read ends (R457 to R460). -/
def execPanelReadComplete (o : PanelOutcome) (s : State) : Host.Outcome State Fault Refusal :=
  .next (
    if ¬ s.reader.reading then s
    else
      let s := updReader s fun r => { r with reading := false, dref := (rget s Reg.nfrDetune).toNat, readAt := s.time.now }
      let res := match o with
        | .octets d => panelJudge s d
        | .noTag => 2
        | .collision => 3
        | .badProtocol => 4
        | .timeout => 5
      let s := rsetFld s Reg.nfrEvt 7 4 res
      match o, res with
      | .octets d, 1 => panelAccept s d
      | _, r => panelFail s r)

end Sys2Proof.Machine
end

