-- ==== Sys2Proof/Machine/Irq.lean ====
section
/-!
DEFINITION. The interrupt controller's configuration, claim and complete (17_interrupts_events R426 to R433) and the
writes to the Stolon router (R434 to R442).
-/

namespace Sys2Proof.Machine

/-! ## Selection, claim, complete -/

/-- A source of the class and security that R427 selects at a core: the lowest-numbered enabled pending one. -/
def selectFor (s : State) (core : Nat) (fast secure : Bool) : Option Nat :=
  (List.range 144).find? fun n =>
    srcEnabled s n && srcPending s n && rbit s (Reg.intCfg n) 13 == fast &&
    (if core = 32 then (rbit s (Reg.intCfg n) 14 == secure) && (secure || rfld s (Reg.intCfg n) 5 0 = 32)
     else !rbit s (Reg.intCfg n) 14 && rfld s (Reg.intCfg n) 5 0 = core)

/-- The source active at a core in a class. -/
def activeClass (s : State) (core : Nat) (fast : Bool) : Option Nat :=
  (s.int.active.find? fun e => e.2 = core && rbit s (Reg.intCfg e.1) 13 == fast).map Prod.fst

/-- A source becomes active at a target: an edge source's pending occurrence is taken (R425, R429). -/
def activate (s : State) (n t : Nat) : State :=
  mgmtEvent { s with int := { s.int with active := (n, t) :: s.int.active, edge := s.int.edge.filter (· ≠ n) } }

/-- A read of a claim register by a core (R429); the Crown core claims by its state.  Log 74 (DESIGN CHOICE). -/
def intClaim (s : State) (core : Nat) (fast : Bool) : Word × State :=
  match activeClass s core fast with
  | some n => (w16 (0x8000 + n), s)
  | none =>
    match selectFor s core fast (decide (core = 32) && bit (s.core 32).sr 15) with
    | some n => (w16 n, activate s n core)
    | none => (0xFFFF, s)

/-- The active state of source `n` ends and the source is re-sampled (R430, R428): a held occurrence of an edge
source that is still enabled is pending again. -/
def endActive (s : State) (n : Nat) : State :=
  let s := { s with int := { s.int with active := s.int.active.filter fun e => e.1 ≠ n } }
  let s :=
    if s.int.again.contains n then
      { s with int := { s.int with
          again := s.int.again.filter (· ≠ n)
          edge := if srcEnabled s n then n :: s.int.edge else s.int.edge } }
    else s
  mgmtEvent s

/-- A write to a complete register by a core (R430).  Log 74 (DESIGN CHOICE). -/
def intComplete (s : State) (core : Nat) (fast : Bool) (v : Word) : State :=
  if activeClass s core fast = some v.toNat then endActive s v.toNat else rsetBit s Reg.intErr 0 true

/-- A read of `INT_XCLAIMx`: target 33 or 34 (R433). -/
def extClaim (s : State) (x : Nat) : Word × State :=
  match (s.int.active.find? fun e => e.2 = 33 + x).map Prod.fst with
  | some n => (w16 (0x8000 + n), s)
  | none =>
    match pendingFor s (33 + x) with
    | n :: _ => (w16 n, activate s n (33 + x))
    | [] => (0xFFFF, s)

/-- A write to `INT_XCOMPx` (R433, R430). -/
def extComplete (s : State) (x : Nat) (v : Word) : State :=
  if (s.int.active.find? fun e => e.2 = 33 + x).map Prod.fst = some v.toNat then endActive s v.toNat
  else rsetBit s Reg.intErr 0 true

/-- INT_N is driven low: target 33 has an enabled pending source and none is active, past the quiet state (R433). -/
def intN (s : State) : Bool := !s.power.quiet && !(pendingFor s 33).isEmpty && !activeAt s 33

/-- A write to `INTs_CFG` (R426, R428): TARGET 35 to 63 is refused, SEC changes only at L0, and TARGET, CLASS and
SEC stay while the source is active. Disabling an edge source clears its pending state (R425). -/
def intCfgWrite (lvl n : Nat) (v : Word) (s : State) : State :=
  let s := eventSettle s
  let a := Reg.intCfg n
  let old := rget s a
  let s :=
    if srcActive s n then
      rsetBit (rset s a (setBit old 15 (bit v 15))) Reg.intErr 1 true
    else
      let bad := decide (35 ≤ field v 5 0)
      let w := setBit (setBit old 15 (bit v 15)) 13 (bit v 13)
      let w := if lvl = 0 then setBit w 14 (bit v 14) else w
      let w := if bad then w else setField w 5 0 (field v 5 0)
      let s := rset s a w
      if bad then rsetBit s Reg.intErr 2 true else s
  let s :=
    if edgeSource n ∧ ¬ bit v 15 then
      { s with int := { s.int with edge := s.int.edge.filter (· ≠ n), again := s.int.again.filter (· ≠ n) } }
    else s
  mgmtEvent s

/-! ## The Stolon router's registers -/

/-- An enable or a DST write of channel `c` clashes with a lower-numbered channel that serves its consumer (R439). -/
def clashes (s : State) (c : Nat) : Bool :=
  let d := chDst s c
  let real := decide ((0x10 ≤ d ∧ d ≤ 0x5F) ∨ 0x80 ≤ d)
  real && chEnabled s c &&
    (List.range 128).any fun k => decide (k ≠ c) && chEnabled s k && decide (chDst s k = d)

/-- A write to `STLc_SRC` or `STLc_DST`. -/
def stlChWrite (c : Nat) (dst : Bool) (v : Word) (s : State) : State :=
  let a := if dst then Reg.stlDst c else Reg.stlSrc c
  let s := rwrite (eventSettle s) a v
  mgmtEvent (chSettle (if clashes s c then rsetBit s Reg.stlErr 0 true else s))

/-- A write to a cell's `LUT`, `CFG` or `LFIN`; a write to `CFG` restarts the filter and clears the flip-flop (R442). -/
def stlCellWrite (l k : Nat) (v : Word) (s : State) : State :=
  let s := rwrite s (Reg.stlLut l + k) v
  if k = 1 then
    { s with stl := { s.stl with cells := s.stl.cells.upd l fun c => { c with ff := false, held := 0 } } }
  else s

/-- A write to `STL_FIRE`: a pulse on the channel, if it is enabled (R437). -/
def stlFire (v : Word) (s : State) : State :=
  let c := field v 6 0
  if chEnabled s c then mgmtEvent (chPulse (eventSettle s) [c]) else s

/-- The LF-domain input of a cell (R441).  Log 71 (DESIGN CHOICE). -/
def lfInput (s : State) (l code : Nat) : Bool :=
  match code with
  | 1 => s.rtc.sec
  | 2 => s.rtc.wake
  | 3 => Config.openValue 441 (2 * s.free) % 2 = 1
  | 4 => Config.openValue 441 (2 * s.free + 1) % 2 = 1
  | 5 => decide (0 < l) && bit (rget s (Reg.stlCfg (l - 1))) 2 && (s.stl.cells.nth (l - 1) {}).out
  | 6 => s.rtc.half
  | 7 => true
  | _ => false

/-- One LF cycle of the cells that select the LF clock (R440, R441); TAMPA_N and TAMPB_N are free inputs.  Log 91 (DESIGN CHOICE). -/
def lfCells (s : State) : State :=
  let cells := s.stl.cells.each fun l c =>
    let cfg := rget s (Reg.stlCfg l)
    if bit cfg 2 then
      let lf := rget s (Reg.stlLfin l)
      cellCycle s l ((List.range 4).map fun k => lfInput s l (field lf (3 * k + 2) (3 * k))) c
    else c
  mgmtEvent (chSettle (bumpFree { eventSettle s with
    stl := { s.stl with cells := cells }
    rtc := { s.rtc with sec := false, wake := false, half := !s.rtc.half } }))

/-- A write to any register of the STL block. -/
def stlWrite (a : Nat) (v : Word) (s : State) : State :=
  let o := a - 0x10030000
  if o = 0 then stlFire v s
  else if 0x100 ≤ o ∧ o < 0x200 then stlChWrite ((o - 0x100) / 2) (decide (o % 2 = 1)) v s
  else if 0x400 ≤ o ∧ o < 0x480 then
    (if o % 4 = 3 then s else stlCellWrite ((o - 0x400) / 4) (o % 4) v s)
  else rwrite s a v

/-! ## The commands -/

/-- A read of `INT_XCLAIMx` (R433). -/
def execExternalClaim (_i : Initiator) (x : Fin 2) (s : State) : Host.Outcome State Fault Refusal :=
  let r := extClaim s x.val
  .next { r.2 with out := { r.2.out with read := r.1 } }

/-- A write of `INT_XCOMPx` (R433). -/
def execExternalComplete (_i : Initiator) (x : Fin 2) (v : Word) (s : State) : Host.Outcome State Fault Refusal :=
  .next (extComplete s x.val v)

/-- A write to `STL_FIRE` (R437). -/
def execStolonFire (_i : Initiator) (v : Word) (s : State) : Host.Outcome State Fault Refusal := .next (stlFire v s)

end Sys2Proof.Machine
end

