-- ==== Sys2Proof/Machine/Timer.lean ====
section
/-!
DEFINITION. The counters (16_timekeeping R401 to R412): groups, period and compare, starts, LF running and captures;
and the LF step pulse, which also clocks the watchdog (02_modes_and_start R68) and the LF-domain Stolon cells.
-/

namespace Sys2Proof.Machine

/-- The Crown core is in debug halt. -/
def crownHalted (s : State) : Bool := (s.core 32).hold = .halted

/-- LF running is in force: debug halt, or `TMR_CTL.SLEEP` (R408). -/
def lfRunning (s : State) : Bool := crownHalted s || rbit s Reg.tmrCtl 0

/-- Leaving LF running discards every accumulator (R408). -/
def lfLeave (s : State) : State :=
  if lfRunning s then s else { s with tmrs := s.tmrs.each fun _ t => { t with lfAcc := 0 } }

/-- The count, period or compare of the group that counter `n` heads. -/
def tmrQty (s : State) (base n : Nat) : Nat := rgroup s (base + n) (tmrWidth s n)

/-- The width of the group in bits. -/
def tmrBits (s : State) (n : Nat) : Nat := 16 * tmrWidth s n

/-- The state of a counter's group after one update by `k` (R404 to R406); `lf` is LF running.  Log 70 (DESIGN CHOICE). -/
def tmrUpdate (s : State) (n k : Nat) (lf : Bool) : State :=
  let t := s.tmr n
  let m := 2 ^ tmrBits s n
  let h := 2 ^ (tmrBits s n - 1)
  let c := tmrQty s (Reg.tmrnCnt 0) n
  let per := min (tmrQty s (Reg.tmrnPer 0) n) (h - 1)
  let cmp := tmrQty s (Reg.tmrnCmp 0) n
  let mode := rfld s (Reg.tmrnCtl n) 5 4
  let c1 := if t.wrote then c else (c + k) % m
  let r := (c1 + m - (per + 1)) % m
  let period := decide (mode ≠ 0 ∧ r < h)
  let c2 := if period then (if lf ∧ r ≤ per then r else 0) else c1
  let perskip := period && !(lf && decide (r ≤ per)) && decide (r ≠ 0)
  let armed := t.armed || period
  let d := (c2 + m - cmp) % m
  let fire := decide (d < h) && armed
  let armed := if h ≤ d then true else if armed then false else armed
  let cmpskip := fire && !lf && decide (c2 ≠ cmp)
  let s := rsetGroup s (Reg.tmrnCnt n) (tmrWidth s n) c2
  let s := s.updTmr n fun t => { t with armed := armed, wrote := false }
  let s := if period ∧ mode = 2 then drainState s (.tmr ⟨n % 32, Nat.mod_lt _ (by decide)⟩) else s
  let mask := (period.toNat + 2 * fire.toNat + 4 * perskip.toNat + 8 * cmpskip.toNat)
  if mask = 0 then s else setEvt s (Reg.tmrnEvt n) (w16 mask)

/-- Counter `n` heads a group that counts: ON, and past its start instant. -/
def tmrCounting (s : State) (n : Nat) : Bool :=
  !(s.tmr n).member && decide (stateOf s (.tmr (Fin.ofNat 32 n)) = 2) && decide ((s.tmr n).startAt = none)

/-- One source event at the prescaler; every PRE + 1 events make an update (R402). -/
def tmrEvent (s : State) (n : Nat) : State :=
  let pre := (rget s (Reg.tmrnPre n)).toNat
  if (s.tmr n).pre ≥ pre then tmrUpdate (s.updTmr n fun t => { t with pre := 0 }) n 1 false
  else s.updTmr n fun t => { t with pre := t.pre + 1 }

/-- The members of the group of a head that starts now (R403): the chain of counters above it in its quad with
`CASC` = 1 that are OFF.  Log 70 (DESIGN CHOICE). -/
def tmrChain (s : State) : Nat → Nat → Nat
  | 0, _ => 0
  | k + 1, n =>
    if n % 4 ≠ 0 ∧ n < 32 ∧ rbit s (Reg.tmrnCtl n) 6 ∧ stateOf s (.tmr (Fin.ofNat 32 n)) = 0 ∧ ¬ (s.tmr n).member then
      1 + tmrChain s k (n + 1)
    else 0

/-- The start of counter `n`, whose STATE is STARTING: a value outside the tables fails it (R401), the group is fixed
(R403), and a start at `TMR_AT` is judged (R407). -/
def tmrStart (s : State) (n : Fin 32) : State :=
  let ctl := rget s (Reg.tmrnCtl n)
  if field ctl 3 1 > 3 ∨ field ctl 5 4 = 3 then evt (drainState s (.tmr n)) (Reg.tmrnEvt n) 7
  else
    let w := 1 + tmrChain s 3 (n + 1)
    let s := (List.range (w - 1)).foldl (fun s k => s.updTmr (n + 1 + k) fun t => { t with member := true }) s
    let s := s.updTmr n fun t => { t with width := w, pre := 0, lfAcc := 0, caps := [], wrote := false, startAt := none }
    if bit ctl 7 ∧ field ctl 3 1 = 1 then
      let at_ := rgroup s Reg.tmrAt 4
      if shadow s + 8 ≥ at_ then evt s (Reg.tmrnEvt n) 6
      else s.updTmr n fun t => { t with startAt := some at_ }
    else s

/-- Counter `n` enters OFF: its group ends, and nothing of the run but the registers is kept (R77, R403). -/
def tmrOff (s : State) (n : Fin 32) : State :=
  let w := tmrWidth s n
  let s := (List.range (w - 1)).foldl (fun s k => s.updTmr (n + 1 + k) fun t => { t with member := false }) s
  s.updTmr n fun t => { t with width := 1, armed := false, wrote := false, startAt := none }

/-- A write to a register of the TMR block other than `TMRn_CTL` (R403, R405, R406, R408). -/
def tmrWrite (i : Initiator) (a : Nat) (v : Word) (s : State) : State :=
  match tmrWordAt a with
  | some (b, n) =>
    if b = Reg.tmrnCap 0 then s
    else
      let g := groupAt s a
      let k := tmrHead s n
      let s1 := groupWrite s i a v
      if a + 1 = g.1 + g.2 then
        if b = Reg.tmrnCmp 0 then s1.updTmr k fun t => { t with armed := true }
        else if b = Reg.tmrnCnt 0 ∧ tmrCounting s k then s1.updTmr k fun t => { t with wrote := true }
        else s1
      else s1
  | none =>
    if a = Reg.tmrCtl then lfLeave (rwrite s a v)
    else if (groupOf a).2 > 1 then groupWrite s i a v
    else rwrite s a v

/-- `TMRn_STAT` as it reads: a member shows its head's STATE (R403). -/
def tmrStat (s : State) (n : Nat) : Word :=
  let k := tmrHead s n
  let t := s.tmr n
  let lf := lfRunning s && decide (rfld s (Reg.tmrnCtl k) 3 1 ≤ 1)
  w16 (stateOf s (.tmr (Fin.ofNat 32 k)) + 4 * t.armed.toNat + 8 * lf.toNat + 16 * t.caps.length +
    64 * (t.width - 1) + 256 * t.member.toNat)

/-- A read of `TMRn_CAP` (R410): the head's word removes the buffer's head entry and latches the higher words. -/
def capRead (i : Initiator) (n : Nat) (s : State) : Word × State :=
  let k := tmrHead s n
  let t := s.tmr k
  let q := t.caps.headD t.capLast
  let ws := wordsOf (tmrWidth s k) q
  let r := groupRead s i (Reg.tmrnCap k) (n - k) ws
  if n = k then (r.1, r.2.updTmr k fun t => { t with caps := t.caps.drop 1, capLast := q }) else r

/-- A pulse of the capture channel (R409, R411).  Log 70 (DESIGN CHOICE). -/
def tmrCapture (s : State) (n : Nat) : State :=
  let c := tmrQty s (Reg.tmrnCnt 0) n
  if (s.tmr n).caps.length ≥ 2 then evt s (Reg.tmrnEvt n) 5
  else evt (s.updTmr n fun t => { t with caps := t.caps ++ [c] }) (Reg.tmrnEvt n) 4

/-- One LF cycle of the watchdog's divider and count (02 R68).  Log 23 (DESIGN CHOICE), 92 (DESIGN CHOICE). -/
def wdTick (s : State) : State :=
  if ¬ rbit s Reg.sysWdctl 0 then s
  else if s.wdog.restart then { s with wdog := { div := 0, count := 0, restart := false } }
  else if crownHalted s ∧ rbit s Reg.sysWdctl 1 then s
  else if s.wdog.div ≥ 31 then { s with wdog := { s.wdog with div := 0, count := s.wdog.count + 1 } }
  else { s with wdog := { s.wdog with div := s.wdog.div + 1 } }

/-- The LF step of counter `n` (R408): the whole part of the accumulator is one update; LF counters get an event.  Log 92 (DESIGN CHOICE). -/
def tmrLf (s : State) (n : Nat) : State :=
  let src := rfld s (Reg.tmrnCtl n) 3 1
  if ¬ tmrCounting s n then s
  else if src = 2 then { s with stl := { s.stl with counts := s.stl.counts ++ [n] } }
  else if src ≤ 1 ∧ lfRunning s then
    let acc := (s.tmr n).lfAcc + rgroup s (Reg.tmrnLfstep n) 2
    let s := s.updTmr n fun t => { t with lfAcc := acc % 65536 }
    if acc / 65536 = 0 then s else tmrUpdate s n (acc / 65536) true
  else s

/-! ## The commands -/

/-- A source event of counter `n` (R402, R404).  With SRC FAB or TICK the command is the event; with SRC LF or EVENT
it takes one that the LF step or the counter's channel has left. -/
def execCounterUpdate (n : Fin 32) (s : State) : Host.Outcome State Fault Refusal :=
  .next (
    let src := rfld s (Reg.tmrnCtl n) 3 1
    if ¬ tmrCounting s n then s
    else if src ≤ 1 then (if lfRunning s then s else tmrEvent s n)
    else if s.stl.counts.contains n.val then
      tmrEvent { s with stl := { s.stl with counts := s.stl.counts.erase n.val } } n
    else s)

/-- The tick held in `TMR_AT` at the start is the first that the counter counts (R407). -/
def execCounterStartAt (n : Fin 32) (s : State) : Host.Outcome State Fault Refusal :=
  .next (
    match (s.tmr n).startAt with
    | some t =>
      if stateOf s (.tmr n) = 2 then
        let s := reach (s.updTmr n fun t => { t with startAt := none }) t
        if lfRunning s then s else tmrEvent s n
      else s
    | none => s)

/-- An LF step pulse (R408, R34): counters, the watchdog, the LF-domain cells and producer 0x834.  Log 92 (DESIGN CHOICE). -/
def execLfStep (s : State) : Host.Outcome State Fault Refusal :=
  .next (
    let s := (List.range 32).foldl tmrLf s
    let s := wdTick s
    let s := lfCells s
    stolon s 0x834)

/-- A pulse on the capture channel of counter `n`, left by the Stolon router (R409). -/
def execCapture (n : Fin 32) (s : State) : Host.Outcome State Fault Refusal :=
  .next (
    if s.stl.caps.contains n.val then
      let s := { s with stl := { s.stl with caps := s.stl.caps.erase n.val } }
      if (s.tmr n).member ∨ stateOf s (.tmr n) ≠ 2 then s else tmrCapture s n
    else s)

/-- A read of `TMRn_CAP` (R410). -/
def execCaptureRead (i : Initiator) (n : Fin 32) (s : State) : Host.Outcome State Fault Refusal :=
  let r := capRead i n s
  .next { r.2 with out := { r.2.out with read := r.1 } }

end Sys2Proof.Machine
end

