-- ==== Sys2Proof/Machine/Radio.lean ====
section
/-!
DEFINITION. Ports and sheaves (03_ports_and_sheaves R78 to R104): frequencies, start checks, gain states, tuner, the
sheaf's blanking interval and which ports serve.  Frequencies are integers in units of 1/98,304 Hz: an LO of word N and
divider D is N × 225,000 / D of them, exact for D = 2, 4, 6 and 8.
-/

namespace Sys2Proof.Machine

/-- 1 Hz in the model's frequency unit.  Log 34 (DEDUCED). -/
abbrev hz : Int := 98304

/-- One unit of an offset register: 3,750 / 4,096 Hz.  Log 34 (DEDUCED). -/
abbrev offUnit : Int := 90000

/-- The divider of a DIV code (R89). -/
def divOf (code : Nat) : Nat := 2 * (code + 1)

/-- The LO frequency of a word INT × 2^24 + FRAC and a divider (R88). -/
def loFreq (n d : Nat) : Int := ((n * 225000 / d : Nat) : Int)

/-- The LO that a sheaf was started with. -/
def sheafLo (s : State) (n : Nat) : Int := loFreq (s.sheaf n).lo (s.sheaf n).div

/-- The sheaf of a port, and its number within the sheaf. -/
def sheafOf (p : Nat) : Nat := p / 8

/-- The ports of a sheaf. -/
def portsOf (n : Nat) : List Nat := (List.range 8).map (8 * n + ·)

/-- `p` as a port number. -/
def finPort (p : Nat) : Fin 64 := Fin.ofNat 64 p

/-- `n` as a sheaf number. -/
def finSheaf (n : Nat) : Fin 8 := Fin.ofNat 8 n

/-- STATE of a sheaf. -/
def shfState (s : State) (n : Nat) : Nat := stateOf s (.shf (finSheaf n))

/-- STATE of a port. -/
def prtState (s : State) (p : Nat) : Nat := stateOf s (.prt (finPort p))

/-- The LO check of a start (R89): VCO frequency 38.4 MHz × N / 2^24 from 3,280 to 5,000 MHz, and the LO in the
range of the band and divider. -/
def loOk (band : Bool) (code n : Nat) : Bool :=
  let d := divOf code
  let vco := n * 38400000
  let inLo := fun (lo hi : Nat) => decide (lo * 16777216 * d ≤ vco ∧ vco ≤ hi * 16777216 * d)
  decide (3280000000 * 16777216 ≤ vco ∧ vco ≤ 5000000000 * 16777216) &&
  (if band then decide (code = 0) && inLo 2400000000 2500000000
   else if code = 3 then inLo 410000000 625000000
   else if code = 2 then inLo 546700000 833300000
   else if code = 1 then inLo 820000000 1010000000
   else false)

/-- The sheaf's receive stream is blanked (R95): `SHFs_STAT.BLANK`. -/
def blanked (s : State) (n : Nat) : Bool := rbit s (Reg.shfStat n) 4

/-- The sheaf transmits: `SHFs_STAT.TX`. -/
def transmitting (s : State) (n : Nat) : Bool := rbit s (Reg.shfStat n) 3

/-- The sheaf captures samples (R78, R92, R95, R102). -/
def capturing (s : State) (n : Nat) : Bool := (s.sheaf n).capture.isSome && !blanked s n

/-- Set or clear BLANK. -/
def setBlank (s : State) (n : Nat) (b : Bool) : State := rsetBit s (Reg.shfStat n) 4 b

/-- The gain state of a port. -/
def gainOf (s : State) (p : Nat) : Nat := rfld s (Reg.prtStat p) 7 5

/-- Put a port in a gain state: `PRTp_STAT.GAIN` and `PRTp_GAIN.CUR`. -/
def setGain (s : State) (p g : Nat) : State :=
  (rsetFld (rsetFld s (Reg.prtStat p) 7 5 g) (Reg.prtGain p) 7 5 g).updPort p fun q => { q with highs := [] }

/-- A write to `PRTp_GAIN` (R81): with AUTO = 0 the port is in GSET, and no state of higher gain than GSET is used. -/
def gainWrite (p : Nat) (v : Word) (s : State) : State :=
  let s := rwrite s (Reg.prtGain p) v
  let set := field v 2 0
  if ¬ bit v 3 ∨ gainOf s p < set then setGain s p set else s

/-- The gain control and clip count of one ADC sample (R81 to R83).  After a step the count of large samples and the 50.0 ms both
start anew, which the rule does not say: log 37 (DESIGN CHOICE). -/
def adcSample (s : State) (p t : Nat) (l : AdcLevel) : State :=
  let s := if l = .full then bumpStop s (Reg.prtClips p) else s
  let s := if l = .low then s else s.updPort p fun q => { q with midSince := t }
  if l = .high ∨ l = .full then
    let hs := t :: (s.port p).highs.filter fun h => decide (t < h + 8 * 64)
    if rbit s (Reg.prtGain p) 3 ∧ hs.length ≥ 4 ∧ gainOf s p < 7 then
      (setGain s p (gainOf s p + 1)).updPort p fun q => { q with midSince := t }
    else s.updPort p fun q => { q with highs := hs.take 3 }
  else s

/-- The port's ADC samples: a port that is not OFF, whatever replaces its samples downstream (R81, R83, R103). -/
def adcOn (s : State) (p : Nat) : Bool := decide (prtState s p ≠ 0)

/-- The DC estimate of a port exceeds 4,096 in magnitude (15 R395). -/
def dcLarge (s : State) (p : Nat) : Bool :=
  decide (4096 < (rget s (Reg.prtDci p)).toInt.natAbs ∨ 4096 < (rget s (Reg.prtDcq p)).toInt.natAbs)

/-- The offset tracker of a receiving port after one sample at tick `t`: it goes on from the estimate held (R84), and notes since when the
estimate is large (15 R395).  Log 6 (DESIGN CHOICE). -/
def dcStep (s : State) (p t : Nat) (i q : Int) : State :=
  let s := rset (rset s (Reg.prtDci p) (Config.dcTrack (rget s (Reg.prtDci p)) i)) (Reg.prtDcq p) (Config.dcTrack (rget s (Reg.prtDcq p)) q)
  s.updPort p fun h => { h with dcOver := if dcLarge s p then some (h.dcOver.getD t) else none }

/-- The port is held out of service by calibration (R104, R117). -/
def portHeld (s : State) (p : Nat) : Bool := rbit s (Reg.prtStat p) 3

/-- The port is excluded by a loop self-test (15 R397). -/
def portBad (s : State) (p : Nat) : Bool := rbit s (Reg.fltPbad (p / 16)) (p % 16)

/-- The port's receive samples reach the stream (R103, R104, R117, R397): it is ON, not held and not excluded. -/
def portLive (s : State) (p : Nat) : Bool := decide (prtState s p = 2) && !portHeld s p && !portBad s p

/-- The port may transmit: ON, TXEN, no aerial fault, not held (R103, R104, R117). -/
def portMayTx (s : State) (p : Nat) : Bool :=
  decide (prtState s p = 2) && rbit s (Reg.prtCtl p) 1 && !rbit s (Reg.prtStat p) 2 && !portHeld s p && !portBad s p

/-- The ports of a sheaf that are held. -/
def heldPorts (s : State) (n : Nat) : List Nat := (portsOf n).filter (portHeld s)

/-- Hold a port out of service or return it (R117). -/
def holdPort (s : State) (p : Nat) (b : Bool) : State :=
  let s := rsetBit s (Reg.prtStat p) 3 b
  s.updPort p fun q => { q with liveSince := if b then none else q.liveSince }

/-- Return every held port of a sheaf to service from tick `t` (R119). -/
def releasePorts (s : State) (n t : Nat) : State :=
  (heldPorts s n).foldl (fun s p => (holdPort s p false).updPort p fun q => { q with liveSince := some t }) s

/-- The tuner codes written for a port take effect (R99). -/
def tunePort (s : State) (p : Nat) : State :=
  s.updPort p fun q => { q with tuneAct := rget s (Reg.prtTune p), tuneAtE := false }

/-- A write to `PRTp_TUNE` (R99): at once while the sheaf receives, at E where it comes during a transmission, and otherwise at the
port's next transmission. -/
def tuneWrite (p : Nat) (v : Word) (s : State) : State :=
  let s := rwrite s (Reg.prtTune p) v
  if capturing s (sheafOf p) then tunePort s p
  else if transmitting s (sheafOf p) then s.updPort p fun q => { q with tuneAtE := true }
  else s

/-- Instant E: the codes written during the transmission take effect (R99). -/
def tuneAtEnd (s : State) (n : Nat) : State :=
  (portsOf n).foldl (fun s p => if (s.port p).tuneAtE then tunePort s p else s) s

/-- The lowest-numbered port of a sheaf with EN = 1: the reference port (04 R114). -/
def refPort (s : State) (n : Nat) : Option Nat := (portsOf n).find? fun p => rbit s (Reg.prtCtl p) 0

/-- The lower of the two upper power bounds of a port, in 0.25 dBm units (R85): `TXMAX` and the band's maximum. -/
def portBound (s : State) (p : Nat) : Int :=
  let m := sext 8 (rfld s (Reg.prtTxmax p) 7 0)
  min (max m (-80)) (if (s.sheaf (sheafOf p)).band then 40 else 56)

/-- The nudge of a frequency offset (R98): round(Δf × D × 2^24 / 38.4 MHz), halves away from zero, Δf in the model's
unit. -/
def nudgeOf (df : Int) (d : Nat) : Int := divRound (df * d) 225000

/-- The nudge as `SHFs_NUDGE` shows it, in units of 8 Hz (R98); that the unit is rounded to nearest, halves away from zero, is the
model's choice: log 35 (DESIGN CHOICE). -/
def nudgeShown (nudge : Int) (d : Nat) : Int := divRound (nudge * 225000) (d * 8 * 98304)

/-- The frequency of the nudge in force at a sheaf, in the model's unit; 0 while none is (R98). -/
def nudgeFreq (s : State) (n : Nat) : Int :=
  if (s.sheaf n).nudged then (s.sheaf n).nudge * 225000 / ((s.sheaf n).div : Nat) else 0

/-- Apply a nudge to the synthesiser, or remove it (R98). -/
def setNudge (s : State) (n : Nat) (df : Int) (on : Bool) : State :=
  let d := (s.sheaf n).div
  let g := if on then nudgeOf df d else 0
  let s := s.updSheaf n fun h => { h with nudge := g, nudged := on }
  rsetBit (rset s (Reg.shfNudge n) (i16 (nudgeShown g d))) (Reg.shfStat n) 5 on

/-- What a disabled or stopping port's transmission leaves: the port reaches OFF (R103). -/
def portOff (s : State) (p : Nat) : State :=
  let s := setState s (.prt (finPort p)) 0
  s.updPort p fun q => { q with liveSince := none, atStart := false, dcPend := false }

/-- The first sample of a blanked sheaf after its turnaround to receive: at or after E + 40.0 µs, and at least 40.0 µs after lock
returned (R92, R94). -/
def resumeTick (s : State) (n : Nat) : Nat :=
  let h : SheafSt := s.sheaf n
  sampleAt s (max ((h.resume5 + 4) / 5) (match h.relockAt with
    | some t => t + 4916
    | none => 0))

/-- A sample at tick `c` is not in [B, E + 40.0 µs) of a transmission on air, accepted or about to start (R95). -/
def clearOfTx (s : State) (n c : Nat) : Bool :=
  let h : SheafSt := s.sheaf n
  h.onAir.isNone && !h.ready && (match h.accepted with
    | a :: _ => decide (5 * c + turn5 < a.t5)
    | [] => true)

/-- The ports that a RECIP attempt holds at tick `t` (04 R114): the reference port throughout, and each other enabled port for 0.25 ms in
turn; that the turns follow port numbers without a gap is the model's choice: log 102 (DESIGN CHOICE). -/
def recipTurn (s : State) (n t : Nat) : State :=
  match (s.sheaf n).job with
  | some j =>
    if j.kind = 5 ∧ j.running then
      let others := (portsOf n).filter fun p => rbit s (Reg.prtCtl p) 0 && decide (p ≠ 8 * n + j.port)
      let cur := others[(t + 245760 - j.ends) / 30720]?
      others.foldl (fun s p =>
        if some p = cur then (if portHeld s p then s else holdPort s p true)
        else if portHeld s p then (holdPort s p false).updPort p fun q => { q with liveSince := some t }
        else s) s
    else s
  | none => s

/-- The own static DC measurement of a port enabled while its sheaf is ON begins when no other calibration is pending
or running on the sheaf (R103): the port is held out of service. -/
def dcBegin (s : State) (n : Nat) : State :=
  if (s.sheaf n).job.isSome ∨ blanked s n ∨ shfState s n ≠ 2 ∨ s.flt.loops.any (fun l => l.port / 8 = n && l.running) then s
  else
    match (portsOf n).find? fun p => (s.port p).dcPend with
    | some p => holdPort (s.updSheaf n fun h => { h with
        job := some { kind := 3, port := p % 8, start := s.time.now, running := true, begun := 1, own := true } }) p true
    | none => s

/-! ## The commands -/

/-- 50.0 ms have passed in which no sample exceeded −13 dB of full scale: one state towards GSET (R81). -/
def execGainStepUp (p : Fin 64) (s : State) : Host.Outcome State Fault Refusal :=
  .next (
    if rbit s (Reg.prtGain p) 3 ∧ rfld s (Reg.prtGain p) 2 0 < gainOf s p then
      let t := (s.port p).midSince + 6144000
      (setGain (reach s t) p (gainOf s p - 1)).updPort p fun q => { q with midSince := t }
    else s)

/-- A write to `PRTp_TUNE` (R99). -/
def execTuneWrite (_i : Initiator) (p : Fin 64) (v : Word) (s : State) : Host.Outcome State Fault Refusal :=
  .next (tuneWrite p v s)

/-- The own static DC measurement of a port completes with the estimates it found: the port reads ON from that sample
(R103). -/
def execPortDcMeasureDone (p : Fin 64) (dci dcq : Word) (s : State) : Host.Outcome State Fault Refusal :=
  .next (
    let n := sheafOf p
    match (s.sheaf n).job with
    | some j =>
      if j.own ∧ j.running ∧ 8 * n + j.port = p.val then
        let s := s.updSheaf n fun h => { h with job := none }
        let s := holdPort s p false
        let s := rset (rset s (Reg.prtDci p) dci) (Reg.prtDcq p) dcq
        let s := s.updPort p fun q => { q with dcPend := false, liveSince := some (sampleAt s s.time.now) }
        dcBegin (if enOf s (.prt p) then setState s (.prt p) 2 else portOff s p) n
      else s
    | none => s)

end Sys2Proof.Machine
end

