-- ==== Sys2Proof/Machine/Slots.lean ====
section
/-!
DEFINITION. The slot clock of the link timing unit (08_link_timing R193 to R196): anchors, slot numbers, slot starts,
the template in fifths of a tick, and the placement epochs that follow it (13_sage_cluster R327).
-/

namespace Sys2Proof.Machine

/-- The link timing unit is ON. -/
def lnkOn (s : State) : Bool := stateOf s .lnk = 2

/-- A template value in force, in µs (R197): 0 TSLEN, 1 TSTXOFF, 2 TSTXACK, 3 TSRXACK, 4 TSACKWAIT, 5 TSMAXTX. -/
def tplUs (s : State) (k : Nat) : Nat := s.lnk.tpl.getD k 0

/-- A template value in fifths of a tick (R196). -/
def tpl5 (s : State) (k : Nat) : Nat := usFifths (tplUs s k)

/-- The timeslot length in ticks (R196): a multiple of 25 µs is a whole number of them. -/
def slotTicks (s : State) : Nat := max 1 (tplUs s 0 * 12288 / 100)

/-- The anchor in force at tick `t`: an armed re-anchor is one from its tick on (R195). -/
def anchorAt (s : State) (t : Nat) : Option Anchor := (s.lnk.reanchor.toList ++ s.lnk.anchors).find? fun a => a.from_ ≤ t

/-- The slot number at tick `t` (R193); 0 before the first anchor. -/
def asnAt (s : State) (t : Nat) : Nat :=
  match anchorAt s t with
  | some a => (a.asn + (t - a.tick) / slotTicks s) % 2 ^ 40
  | none => 0

/-- The first tick of the slot that holds tick `t` (R193). -/
def slotStart (s : State) (t : Nat) : Nat :=
  match anchorAt s t with
  | some a => a.tick + (t - a.tick) / slotTicks s * slotTicks s
  | none => 0

/-- The first tick at or after `t` from which an anchor counts, armed or past. -/
def nextAnchor (s : State) (t : Nat) : Option Nat :=
  (((s.lnk.reanchor.toList ++ s.lnk.anchors).map Anchor.from_).filter fun b => decide (t ≤ b)).min?

/-- The first slot boundary at or after tick `t` (R193, R195): a slot that a re-anchor ends, or has ended, is shorter. -/
def nextBoundary (s : State) (t : Nat) : Nat :=
  match anchorAt s t with
  | some a =>
    let b := a.tick + ((t - a.tick + slotTicks s - 1) / slotTicks s) * slotTicks s
    min b ((nextAnchor s t).getD b)
  | none => (nextAnchor s t).getD t

/-- The unit was ON at tick `t`, in its present run or in the last one (R194). -/
def lnkOnAt (s : State) (t : Nat) : Bool :=
  decide (s.lnk.since ≤ t) && (match s.lnk.stopAt with
    | some e => decide (t < e)
    | none => lnkOn s)

/-- The SLOT field of a frame (R194): 0 for a SYNCT before the unit's start, or in a time in which it was not ON. -/
def slotOf (s : State) (synct : Nat) : Nat := if lnkOnAt s synct then asnAt s synct else 0

/-- The first tick of the slot of a frame that has a SLOT. -/
def frameSlotStart (s : State) (synct : Nat) : Nat := slotStart s synct

/-- Ne (13 R327). -/
def sageNe (s : State) : Nat := min 1024 (122880000 / slotTicks s)

/-- The placement epoch that holds tick `t` (13 R327). -/
def epochAt (s : State) (t : Nat) : Nat := (if lnkOn s then asnAt s t / max 1 (sageNe s) else t / 122880000) % 2 ^ 32

/-- The next slot start after tick `t`: the end of the slot that holds it. -/
def slotEnd (s : State) (t : Nat) : Nat := nextBoundary s (t + 1)

end Sys2Proof.Machine
end

