-- ==== Sys2Proof/Machine/Tag.lean ====
section
/-!
DEFINITION. The commissioning tag (18_field R443 to R455): the air protocol's states, files and commands, the tag
store with its page commits, the host's window, and the energy harvest output.
-/

namespace Sys2Proof.Machine

/-! ## The tag store -/

/-- The marker word of a LIVE page (R448): logical page, physical page, GEN. -/
def liveMarker (e : Nat × Nat × Nat) : Word := w16 (128 * (e.1 % 512) + 2 * (e.2.2 % 64) + 1)

/-- The bits that have flipped in a marker word since it was written: data bits 0 to 15, check bits 16 to 21. -/
def markFlips (t : TagSt) (page : Option Nat) (phys : Nat) : List Nat :=
  ((t.marks.find? fun m => decide (m.1 = page ∧ m.2.1 = phys)).map fun m => m.2.2).getD []

/-- The data bits among flipped bits, as a mask. -/
def flipMask (fl : List Nat) : Word := fl.foldl (fun w i => if i < 16 then w ^^^ bitMask i else w) 0

/-- A LIVE marker reads as LIVE (R448): its data bits are not those of FREE or RELEASED, and a single-bit error is corrected.  Log 85 (DESIGN CHOICE). -/
def liveReads (t : TagSt) (e : Nat × Nat × Nat) : Bool :=
  let fl := markFlips t (some e.1) e.2.1
  let raw := liveMarker e ^^^ flipMask fl
  decide (raw ≠ 0xFFFF ∧ raw ≠ 0 ∧ fl.length ≤ 1)

/-- A FREE marker reads as FREE: by its 16 data bits alone (R448). -/
def freeReads (t : TagSt) (f : Nat) : Bool := decide (flipMask (markFlips t none f) = 0)

/-- The marker of physical page `f` is written afresh or erased: nothing of it is flipped. -/
def freshMark (t : TagSt) (f : Nat) : TagSt := { t with marks := t.marks.filter fun m => m.2.1 ≠ f }

/-- Bits of the marker word of physical page `f` flip; a bit that flips again reads as written.  RELEASED stays RELEASED or becomes
INVALID, which acts alike. -/
def markUpset (t : TagSt) (f : Nat) (bits : List Nat) : TagSt :=
  let flip := fun (p : Option Nat) =>
    let fl := bits.foldl (fun l i => if l.contains i then l.erase i else i :: l) (markFlips t p f)
    { t with marks := (p, f, fl) :: t.marks.filter fun m => !decide (m.1 = p ∧ m.2.1 = f) }
  match t.live.find? fun e => e.2.1 = f with
  | some e => flip (some e.1)
  | none => if t.freeq.contains f then flip none else t

/-- The LIVE physical page of a logical page, with its GEN; one whose marker cannot be corrected is not LIVE (R448). -/
def livePage (s : State) (p : Nat) : Option (Nat × Nat) :=
  (s.tag.live.find? fun e => decide (e.1 = p) && liveReads s.tag e).map Prod.snd

/-- The 32 committed octets of a logical page; one with no LIVE page reads as zeros (R451). -/
def pageData (s : State) (p : Nat) : List Octet :=
  match livePage s p with
  | some (f, _) => BMap.getOctets 0 s.tag.store (32 * f) 32
  | none => List.replicate 32 0

/-- A logical page whose rows hold an uncorrectable error (R452): macro 202, two rows a page. -/
def pageBad (s : State) (p : Nat) : Bool :=
  match livePage s p with
  | some (f, _) => s.flt.bad.contains (202, 2 * f) || s.flt.bad.contains (202, 2 * f + 1)
  | none => false

/-- The tag has power: from VIO or from the field. -/
def tagPowered (s : State) : Bool := !s.power.lost || s.tag.field

/-- Change the tag's state. -/
def updTag (s : State) (f : TagSt → TagSt) : State := { s with tag := f s.tag }

/-- Begin the first waiting commit when none runs (R449 step 1): the free page erased longest ago, or, when there is
none, a released page that is erased first.  Log 85 (DESIGN CHOICE). -/
def beginCommit (s : State) : State :=
  match s.tag.busy, s.tag.queue with
  | none, c :: r =>
    match s.tag.freeq, s.tag.erase with
    | f :: fs, _ => updTag s fun t => { t with busy := some { c with phys := f }, queue := r, freeq := fs }
    | [], f :: es => updTag s fun t => freshMark { t with busy := some { c with phys := f }, queue := r, erase := es } f
    | [], [] => s
  | _, _ => s

/-- A commit is asked for: one of the field goes ahead of those of the host (R453).  Log 85 (DESIGN CHOICE). -/
def askCommit (s : State) (c : PageCommit) : State :=
  beginCommit (updTag s fun t =>
    { t with queue :=
        if c.src = 0 then t.queue.filter (fun q => q.src = 0) ++ [c] ++ t.queue.filter (fun q => q.src ≠ 0)
        else t.queue ++ [c] })

/-- Steps 2 to 4 of a commit that is verified: F is LIVE with GEN one above the old page's modulo 63, and the old
page is released (R449). -/
def finishCommit (s : State) (c : PageCommit) : State :=
  let old := livePage s c.page
  let gen := match old with | some (_, g) => (g + 1) % 63 | none => 0
  updTag s fun t =>
    { t with
      store := BMap.setOctets 0 t.store (32 * c.phys) (padOctets 32 c.data)
      live := (c.page, c.phys, gen) :: t.live.filter fun e => e.1 ≠ c.page
      marks := t.marks.filter fun m => !decide (m.1 = some c.page ∨ m.1 = none ∧ m.2.1 = c.phys)
      erase := match old with
        | some (f, _) => t.erase ++ [f]
        | none => t.erase ++ (t.live.filter fun e => e.1 = c.page).map fun e => e.2.1
      nv := if c.page = 259 then w16 (ofOctetsLE (c.data.take 2) % 16) else t.nv }

/-- The pages that a commit whose verifies fail uses up: F and up to two further free pages (R449 step 2).  Log 85 (DESIGN CHOICE). -/
def failCommit (s : State) (c : PageCommit) : State :=
  updTag s fun t => { t with freeq := t.freeq.drop 2, erase := t.erase ++ [c.phys] ++ t.freeq.take 2 }

/-- The scan of R451 at a power-up of the tag: an INVALID marker counts as RELEASED (R448); of two LIVE pages that name one logical
page, the one whose GEN exceeds the other's by 1 to 31 modulo 63 wins, and the loser is released.  Log 85 (DESIGN CHOICE). -/
def scanMarkers (t : TagSt) : TagSt :=
  let dead := (t.live.filter fun e => !liveReads t e).map (fun e => e.2.1) ++ t.freeq.filter fun f => !freeReads t f
  let t := { t with live := t.live.filter (liveReads t), freeq := t.freeq.filter (freeReads t), erase := t.erase ++ dead }
  let beats := fun (a b : Nat × Nat × Nat) => a.1 = b.1 ∧ a.2.1 ≠ b.2.1 ∧ 1 ≤ (a.2.2 + 63 - b.2.2) % 63 ∧ (a.2.2 + 63 - b.2.2) % 63 ≤ 31
  let lost := t.live.filter fun b => t.live.any fun a => decide (beats a b)
  { t with live := t.live.filter (fun b => !lost.contains b), erase := t.erase ++ lost.map fun e => e.2.1 }

/-! ## The air interface -/

/-- The tag's answer on the air. -/
def answer (s : State) (o : List Octet) : State := { s with out := { s.out with tag := o } }

/-- A status word, most significant octet first. -/
def statusWord (x : Nat) : List Octet := octetsBE 2 x

/-- A field session ends (R453, R446): the latch and staging set of the tag is cleared. -/
def endSession (s : State) : State :=
  let s := if s.tag.app then setEvt s Reg.nftEvt (bitMask 2) else s
  dropLatches (updTag s fun t => { t with app := false, file := 0, active := 0, waiting := none, due := false }) .tag

/-- The octets of the file the field has selected (FFILE): CC, NDEF, IDENT, COMM, LOG. -/
def fileSize : Nat → Nat
  | 1 => 15
  | 2 => 4096
  | 3 => 74
  | 4 => 2048
  | 5 => 2048
  | _ => 0

/-- The first logical page of a file. -/
def filePage : Nat → Nat
  | 3 => 256
  | 4 => 128
  | 5 => 192
  | _ => 0

/-- The number of logical pages of a file. -/
def filePages : Nat → Nat
  | 2 => 128
  | 3 => 3
  | 4 => 64
  | 5 => 64
  | _ => 0

/-- The capability container (R446): write access 0xFF while `NDEFRO` = 1. -/
def ccFile (s : State) : List Octet :=
  [0x00, 0x0F, 0x20, 0x00, 0xF0, 0x00, 0xF0, 0x04, 0x06, 0xE1, 0x04, 0x10, 0x00, 0x00, if bit s.tag.nv 1 then 0xFF else 0x00]

/-- Octets of a file. -/
def fileOctets (s : State) (f off n : Nat) : List Octet :=
  if f = 1 then slice (ccFile s) off n
  else
    let p0 := off / 32
    let p1 := (off + n + 31) / 32
    slice ((List.range (p1 - p0)).flatMap fun k => pageData s (filePage f + p0 + k)) (off % 32) n

/-- A page of the range that a read touches cannot be corrected (R452). -/
def fileBad (s : State) (f off n : Nat) : Bool :=
  f ≠ 1 && (List.range ((off + n + 31) / 32 - off / 32)).any fun k => pageBad s (filePage f + off / 32 + k)

/-- The field may write a file (R446). -/
def fieldMayWrite (s : State) (f : Nat) : Bool :=
  (f = 2 && !bit s.tag.nv 1) || (f = 4 && !bit s.tag.nv 2)

/-- SELECT by name: the application, and a field session (R446, R453). -/
def tagSelectName (s : State) : State :=
  answer (updTag s fun t => { t with app := true, file := 0 }) (statusWord 0x9000)

/-- SELECT by file ID (R446). -/
def tagSelectFile (id : Word) (s : State) : State :=
  let k := id.toNat
  if ¬ s.tag.app ∨ k < 0xE103 ∨ 0xE107 < k then answer s (statusWord 0x6A82)
  else answer (updTag s fun t => { t with file := k - 0xE102 }) (statusWord 0x9000)

/-- READ BINARY (R446, R452). -/
def tagRead (off len : Nat) (s : State) : State :=
  let f := s.tag.file
  if f = 0 then answer s (statusWord 0x6985)
  else if fileSize f ≤ off then answer s (statusWord 0x6B00)
  else if 240 < len ∨ fileSize f < off + len then answer s (statusWord 0x6700)
  else if fileBad s f off len then answer (setEvt s Reg.nftEvt (bitMask 5)) (statusWord 0x6581)
  else answer s (fileOctets s f off len ++ statusWord 0x9000)

/-- The page commits of an UPDATE BINARY, in ascending order (R447). -/
def updateCommits (s : State) (f off : Nat) (data : List Octet) : List PageCommit :=
  let p0 := off / 32
  let p1 := (off + data.length + 31) / 32
  (List.range (p1 - p0)).map fun k =>
    let old := pageData s (filePage f + p0 + k)
    let new := (List.range 32).map fun j =>
      let o := 32 * (p0 + k) + j
      if off ≤ o ∧ o < off + data.length then data.getD (o - off) 0 else old.getD j 0
    { page := filePage f + p0 + k, src := 0, data := new }

/-- UPDATE BINARY (R446, R447): it answers 0x9000 only after every page it touches is committed. -/
def tagUpdate (off : Nat) (data : List Octet) (s : State) : State :=
  let f := s.tag.file
  if f = 0 then answer s (statusWord 0x6985)
  else if ¬ fieldMayWrite s f then answer s (statusWord 0x6982)
  else if fileSize f ≤ off then answer s (statusWord 0x6B00)
  else if 240 < data.length ∨ fileSize f < off + data.length then answer s (statusWord 0x6700)
  else if data.isEmpty then answer s (statusWord 0x9000)
  else (updateCommits s f off data).foldl askCommit (updTag s fun t => { t with due := true })

/-- A field command may be served now: ISO-DEP is active, no earlier one is being answered.  Log 86 (DESIGN CHOICE). -/
def tagListens (s : State) : Bool := s.tag.field && s.tag.active = 3 && s.tag.waiting.isNone && !s.tag.due

/-- A field command that arrives during a commit of the host or of hardware waits (R453); otherwise it is served. -/
def tagServe (c : Instr) (f : State → State) (s : State) : State :=
  if ¬ tagListens s then s
  else if s.tag.busy.isSome then updTag s fun t => { t with waiting := some c, wtx := 0 }
  else f (updTag s fun t => { t with wtx := 0 })

/-! ## The host's window -/

/-- A write to `NFT_WDATA` (R453, R454). -/
def windowWrite (v : Word) (s : State) : State :=
  let a := rfld s Reg.nftWaddr 11 0
  let s := rsetFld s Reg.nftWaddr 11 0 (a + 1)
  let p := a / 16
  let put := fun (b : List Octet) =>
    (b.set (2 * (a % 16)) (BitVec.ofNat 8 v.toNat)).set (2 * (a % 16) + 1) (BitVec.ofNat 8 (v.toNat / 256))
  match s.tag.buf with
  | none => updTag s fun t => { t with buf := some (p, put (pageData s p)) }
  | some (q, b) =>
    if q = p then updTag s fun t => { t with buf := some (p, put b) }
    else setEvt s Reg.nftEvt (bitMask 4)

/-- A read of `NFT_WDATA`: committed contents; poisoned where the page cannot be corrected (R452, R453). -/
def windowRead (s : State) : Word × Bool × State :=
  let a := rfld s Reg.nftWaddr 11 0
  let p := a / 16
  let d := pageData s p
  let s1 := rsetFld s Reg.nftWaddr 11 0 (a + 1)
  let v := w16 ((d.getD (2 * (a % 16)) 0).toNat + 256 * (d.getD (2 * (a % 16) + 1) 0).toNat)
  if pageBad s p then (v, true, setEvt s1 Reg.nftEvt (bitMask 5)) else (v, false, s1)

/-- A write to `NFT_PCOMMIT` (R449, R453). -/
def hostCommit (v : Word) (s : State) : State :=
  if v ≠ 0x5047 then s
  else
    match s.tag.buf with
    | none => rsetFld s Reg.nftPstat 2 0 4
    | some (p, b) =>
      let f := s.tag.file
      if s.tag.app ∧ f ≠ 0 ∧ filePage f ≤ p ∧ p < filePage f + filePages f then rsetFld s Reg.nftPstat 2 0 2
      else askCommit (rsetFld (updTag s fun t => { t with buf := none }) Reg.nftPstat 2 0 5) { page := p, src := 1, data := b }

/-- A write to `NFT_NVCFG`, at L0 only: a commit of the configuration page (R449, R455). -/
def nvcfgWrite (lvl : Nat) (v : Word) (s : State) : State :=
  if lvl = 0 then askCommit s { page := 259, src := 2, data := octetsLE 2 (field v 3 0) ++ List.replicate 30 0 } else s

/-- `NFT_STAT` as it reads. -/
def nftStat (s : State) : Word :=
  let b := s.tag.buf
  w16 (((b.map Prod.fst).getD 0) * 256 + 128 * b.isSome.toNat + 64 * s.tag.busy.isSome.toNat + 8 * s.tag.file +
    4 * s.tag.app.toNat + 2 * s.tag.field.toNat)

/-- A write to a register of the NFT block; the registers do not exist while VIO is absent. -/
def nftWrite (lvl a : Nat) (v : Word) (s : State) : State :=
  if s.power.lost then s
  else if a = Reg.nftCtl then (if bit v 0 then updTag s fun t => { t with buf := none } else s)
  else if a = Reg.nftWdata then windowWrite v s
  else if a = Reg.nftPcommit then hostCommit v s
  else if a = Reg.nftNvcfg then nvcfgWrite lvl v s
  else rwrite s a v

/-! ## The commands -/

/-- A field reaches operating level (R443, R451): a new UID, and the scan where the tag was without power.  Log 86 (DESIGN CHOICE). -/
def execFieldOn (s : State) : Host.Outcome State Fault Refusal :=
  .next (
    if s.tag.field then s
    else
      let r := Config.randomWord s.free
      let q := Config.randomWord (s.free + 1)
      let uid : List Octet := [0x08, BitVec.ofNat 8 r.toNat, BitVec.ofNat 8 (r.toNat / 256), BitVec.ofNat 8 q.toNat]
      let s := if s.power.lost then updTag s scanMarkers else s
      mgmtEvent (chSettle (bumpFree (updTag (eventSettle s) fun t => { t with field := true, active := 0, uid := uid }) 2)))

/-- REQA: the tag answers ATQA 0x0004 (R443). -/
def execReqa (s : State) : Host.Outcome State Fault Refusal :=
  .next (if s.tag.field ∧ s.tag.active = 0 then answer (updTag s fun t => { t with active := 1 }) [0x04, 0x00] else s)

/-- Anticollision and selection: the UID with its check octet, then SAK 0x20 (R443). -/
def execAnticollision (s : State) : Host.Outcome State Fault Refusal :=
  .next (
    if s.tag.field ∧ s.tag.active = 1 then
      answer (updTag s fun t => { t with active := 2 }) (s.tag.uid ++ [s.tag.uid.foldl (· ^^^ ·) 0, 0x20])
    else s)

/-- RATS: the tag answers its ATS and enters ISO-DEP (R443). -/
def execRats (s : State) : Host.Outcome State Fault Refusal :=
  .next (
    if s.tag.field ∧ s.tag.active = 2 then
      answer (updTag s fun t => { t with active := 3 }) [0x05, 0x78, 0x80, 0x20, 0x00]
    else s)

/-- SELECT by name (R446). -/
def execSelectByName (s : State) : Host.Outcome State Fault Refusal := .next (tagServe .selectByName tagSelectName s)

/-- SELECT by file ID (R446). -/
def execSelectByFileId (id : Word) (s : State) : Host.Outcome State Fault Refusal :=
  .next (tagServe (.selectByFileId id) (tagSelectFile id) s)

/-- READ BINARY (R446). -/
def execReadBinary (off len : Nat) (s : State) : Host.Outcome State Fault Refusal :=
  .next (tagServe (.readBinary off len) (tagRead off len) s)

/-- UPDATE BINARY (R446, R447). -/
def execUpdateBinary (off : Nat) (data : List Octet) (s : State) : Host.Outcome State Fault Refusal :=
  .next (tagServe (.updateBinary off data) (tagUpdate off data) s)

/-- S(DESELECT): the session ends (R446, R453). -/
def execDeselect (s : State) : Host.Outcome State Fault Refusal :=
  .next (if s.tag.field ∧ s.tag.active = 3 then answer (endSession s) [0xC2] else s)

/-- The comparator trips (R450): without VIO a page program in progress is abandoned and its page must be erased; the
answer is never sent, commits of the field not yet begun are dropped, and the session ends. -/
def execFieldLoss (s : State) : Host.Outcome State Fault Refusal :=
  .next (
    if ¬ s.tag.field then s
    else
      let s := endSession s
      let s := updTag s fun t => { t with queue := t.queue.filter (fun c => c.src ≠ 0), harv := false }
      let s :=
        match s.power.lost, s.tag.busy with
        | true, some c => updTag s fun t => { t with busy := none, erase := t.erase ++ [c.phys] }
        | _, _ => s
      mgmtEvent (chSettle (setEvt (updTag s fun t => { t with field := false }) Reg.nftEvt (bitMask 1))))

/-- An answer that is not ready: S(WTX) with a WTXM of at most 59, until 60 ms have been granted, which are 49 FWT; an answer that needs
more is SW 0x6581 (R444).  Log 86 (DESIGN CHOICE). -/
def execWaitingTimeExtension (wtxm : Nat) (s : State) : Host.Outcome State Fault Refusal :=
  .next (
    if s.tag.field ∧ (s.tag.due ∨ s.tag.waiting.isSome) then
      if 49 ≤ s.tag.wtx then answer (updTag s fun t => { t with due := false, waiting := none, wtx := 0 }) (statusWord 0x6581)
      else answer (updTag s fun t => { t with wtx := t.wtx + min wtxm 59 }) [0xF2, BitVec.ofNat 8 (min wtxm 59)]
    else s)

/-- The commit in progress ends, verified or FAIL (R449); then the next one begins, an answer that is ready is sent,
and a field command that waited is served.  Log 85 (DESIGN CHOICE). -/
def commitDone (ok : Bool) (s : State) : State :=
  match s.tag.busy with
  | none => s
  | some c =>
    let s := updTag s fun t => { t with busy := none }
    let s := if ok then finishCommit s c else failCommit s c
    let s := if s.tag.harv ∧ ¬ bit s.tag.nv 0 then updTag s fun t => { t with harv := false } else s
    let s :=
      if c.src = 1 then setEvt (rsetFld s Reg.nftPstat 2 0 (if ok then 1 else 3)) Reg.nftEvt (bitMask 0)
      else if c.src = 0 then
        let s := if ok then setEvt (rset s Reg.nftFpage (w16 (c.page % 256))) Reg.nftEvt (bitMask 3)
                 else updTag s fun t => { t with queue := t.queue.filter fun q => q.src ≠ 0 }
        if s.tag.due ∧ ¬ (s.tag.queue.any fun q => q.src = 0) then
          answer (updTag s fun t => { t with due := false }) (statusWord (if ok then 0x9000 else 0x6581))
        else s
      else s
    beginCommit s

/-- A field command that waited for a commit is served as soon as no commit of another runs (R453). -/
def serveWaiting (s : State) : State :=
  if s.tag.busy.isSome then s
  else
    let s1 := updTag s fun t => { t with waiting := none }
    match s.tag.waiting with
    | some .selectByName => tagSelectName s1
    | some (.selectByFileId id) => tagSelectFile id s1
    | some (.readBinary off len) => tagRead off len s1
    | some (.updateBinary off data) => tagUpdate off data s1
    | _ => s

/-- A released page is erased in the background while no commit is pending (R449). -/
def execBackgroundErase (s : State) : Host.Outcome State Fault Refusal :=
  .next (
    match s.tag.busy, s.tag.queue, s.tag.erase with
    | none, [], f :: es =>
      if tagPowered s then updTag s fun t => freshMark { t with erase := es, freeq := t.freeq ++ [f] } f else s
    | _, _, _ => s)

/-- A write to `NFT_WDATA` (R453, R454). -/
def execWindowWrite (i : Initiator) (v : Word) (s : State) : Host.Outcome State Fault Refusal :=
  .next (nftWrite (levelOf s i) Reg.nftWdata v s)

/-- A write to `NFT_PCOMMIT` (R449, R453). -/
def execHostPageCommit (i : Initiator) (v : Word) (s : State) : Host.Outcome State Fault Refusal :=
  .next (nftWrite (levelOf s i) Reg.nftPcommit v s)

/-- A write to `NFT_CTL` (R454). -/
def execPageBufferDrop (i : Initiator) (v : Word) (s : State) : Host.Outcome State Fault Refusal :=
  .next (nftWrite (levelOf s i) Reg.nftCtl v s)

/-- After 1.0 ms of field with HARVEN set, the HARV output supplies 1.8 V (R455). -/
def execHarvestOn (s : State) : Host.Outcome State Fault Refusal :=
  .next (if s.tag.field ∧ bit s.tag.nv 0 then updTag s fun t => { t with harv := true } else s)

/-- A command that the tag does not list: SW 0x6D00 for its INS, 0x6E00 for its CLA (R446). -/
def execTagUnlistedCommand (cla ins : Octet) (s : State) : Host.Outcome State Fault Refusal :=
  .next (
    if ¬ tagListens s then s
    else if cla ≠ 0x00 ∧ cla ≠ 0x80 then answer s (statusWord 0x6E00)
    else if cla = 0x00 ∧ (ins = 0xA4 ∨ ins = 0xB0 ∨ ins = 0xD6) then s
    else if cla = 0x80 ∧ (ins = 0x3A ∨ ins = 0x3C) then s
    else answer s (statusWord 0x6D00))

end Sys2Proof.Machine
end

