-- ==== Sys2Proof/Machine/Rows.lean ====
section
/-!
DEFINITION. The rows of every memory (01_architecture R40 to R43, 15_faults R381 to R390, R392): the code, the macros, poison, moves
and march tests.
-/

namespace Sys2Proof.Machine

/-! ## The code (R381 to R383) -/

/-- The nine-bit values of a weight, ascending. -/
def weightVals (n : Nat) : List Nat := (List.range 512).filter fun v => decide (popCount 9 v = n)

/-- The column of a code bit: data bits 0 to 127, check bits 128 to 136 (R381). -/
def codeColumn (i : Nat) : Nat :=
  if 128 ≤ i then 2 ^ (i - 128) else if i < 84 then (weightVals 3).getD i 0 else (weightVals 5).getD (i - 84) 0

/-- The syndrome of a set of flipped bits. -/
def flipSyndrome (flips : List Nat) : Nat := flips.foldl (fun x i => x ^^^ codeColumn i) 0

/-- The code bit whose column is `synd`. -/
def codeBit (synd : Nat) : Option Nat := (List.range 137).find? fun i => codeColumn i = synd

/-! ## Rows and macros (15, "Memory macros") -/

/-- Rows of macro `m`, its spares apart. -/
def macroRows (m : Nat) : Nat := if m ≤ 136 then 8192 else if m ≤ 200 then 7680 else if m = 201 then 4096 else 548

/-- The Granary bank of granule `g` under the seed of this boot (07 R186). -/
def granuleBank (s : State) (g : Nat) : Nat := Config.bankMix s.win.mix g % 16

/-- The granules of a bank, in ascending order. -/
def bankGranules (s : State) (b : Nat) : List Nat := (List.range 65536).filter fun g => granuleBank s g = b

/-- Row `k` of bank `b` (8,192 rows in each of its four macros): its granules lie in ascending order, eight rows each.
Log 43 (DESIGN CHOICE). -/
def bankRow (s : State) (b k : Nat) : Nat := 8 * (bankGranules s b).getD (k / 8) 65536 + k % 8

/-- The address of row `r` of macro `m` in the device map, and of a Tiller's row in its own space; which address of the
Granary a bank's row holds follows the keyed mix of 07 R186.  Log 43 (DESIGN CHOICE). -/
def rowAddr (s : State) (m r : Nat) : Nat :=
  if m ≤ 31 then 8 * r
  else if m = 32 then 0x04010000 + 8 * r
  else if m ≤ 64 then 0x01000000 + 8 * (8192 * (m - 33) + r)
  else if m ≤ 72 then 0x02000000 + 8 * (8192 * (m - 65) + r)
  else if m ≤ 136 then 0x03000000 + 8 * bankRow s ((m - 73) / 4) (8192 * ((m - 73) % 4) + r)
  else if m ≤ 200 then r
  else if m = 201 then 0x04000000 + 8 * r
  else r

/-- The row at a fabric address is poisoned. -/
def badAt (s : State) (a : Nat) : Bool :=
  s.flt.badRows.contains (a / 8 * 8) ||
  s.flt.bad.any fun e => decide ((32 ≤ e.1 ∧ e.1 ≤ 136) ∨ e.1 = 201) && decide (rowAddr s e.1 e.2 = a / 8 * 8)

/-- The row at a local address of Tiller `t` is poisoned. -/
def badLocal (s : State) (t a : Nat) : Bool := s.flt.bad.contains (t, a % 65536 / 8)

/-- Some row of a range of the fabric is poisoned.  Log 89 (DESIGN CHOICE). -/
def badRange (s : State) (a n : Nat) : Bool := (List.range (n / 8 + 2)).any fun k => decide (a / 8 * 8 + 8 * k < a + n) && badAt s (a / 8 * 8 + 8 * k)

/-- Whole rows written afresh are poisoned no more (R41): the rows that lie wholly in the range.  Log 89 (DESIGN CHOICE). -/
def healRange (s : State) (a n : Nat) : State :=
  { s with flt := { s.flt with
      badRows := s.flt.badRows.filter fun r => !decide (a ≤ r ∧ r + 8 ≤ a + n)
      bad := s.flt.bad.filter fun e =>
        !((decide ((32 ≤ e.1 ∧ e.1 ≤ 136) ∨ e.1 = 201)) && decide (a ≤ rowAddr s e.1 e.2 ∧ rowAddr s e.1 e.2 + 8 ≤ a + n)) } }

/-- Words written at an address: rows written whole are poisoned no more (R41). -/
def storeRows (s : State) (a : Nat) (ws : List Word) : State := healRange (msets s a ws) a ws.length

/-- Write the record words, data granule list and gains of a metadata granule (07 R188). -/
def writeMeta (s : State) (h : Holding) (words gains : List Word) : State :=
  let idx := (List.range 16).map fun k => match h.data[k]? with | some g => w16 g | none => 0xFFFF
  storeRows s (granAddr h.gmeta) ((words ++ List.replicate 32 0).take 32 ++ idx ++ (gains ++ List.replicate 16 0).take 16)

/-- The 64 words of data granule `k` of a PSDU, zeros after the last octet (07 R188). -/
def dataWords (octets : List Octet) (k : Nat) : List Word :=
  (((packOctets octets).drop (64 * k)).take 64 ++ List.replicate 64 0).take 64

/-- Write octets into the data granules of a holding. -/
def writeData (s : State) (h : Holding) (octets : List Octet) : State :=
  (h.data.zipIdx).foldl (fun s e => storeRows s (granAddr e.1) (dataWords octets e.2)) s

/-- The rows of a range take poisoned data (R43, R383).  Log 89 (DESIGN CHOICE). -/
def poisonRange (s : State) (a n : Nat) : State :=
  let rows := ((List.range (n / 8 + 2)).map fun k => a / 8 * 8 + 8 * k).filter fun r => decide (r < a + n) && !s.flt.badRows.contains r
  { s with flt := { s.flt with badRows := rows ++ s.flt.badRows } }

/-- Flip bit `i` of the data of a row held at address `a` of the map, or of a Tiller's local memory. -/
def flipBit (s : State) (m r i : Nat) : State :=
  if 128 ≤ i then s
  else if m ≤ 31 then lset s m (8 * r + i / 16) (lget s m (8 * r + i / 16) ^^^ bitMask (i % 16))
  else if m ≤ 136 then mset s (rowAddr s m r + i / 16) (mget s (rowAddr s m r + i / 16) ^^^ bitMask (i % 16))
  else s

/-! ## Spares, moves and march tests (R387 to R390) -/

/-- Free spares of macro `m`. -/
def spares (s : State) (m : Nat) : Nat := (rget s (Reg.fltSpare m)).toNat

/-- A spare of macro `m` is taken. -/
def takeSpare (s : State) (m : Nat) : State :=
  let n := spares s m - 1
  let s := rset s (Reg.fltSpare m) (w16 n)
  if n = rfld s Reg.fltSparelow 6 0 then evt s Reg.fltEvt 4 else s

/-- `FLT_SPAREMIN`: the lowest-numbered macro with the fewest free spares. -/
def spareMin (s : State) : Word :=
  let low := (List.range 201).foldl (fun m k => min m (spares s k)) 64
  w16 (((List.range 201).find? fun k => spares s k = low).getD 0 * 256 + low)

/-- The record of an error in a row.  Log 43 (DESIGN CHOICE). -/
def rowRecord (s : State) (t : RowTest) (lasting : Bool) (action : Nat) : State :=
  fault s { cls := 1, lasting := lasting, sub := t.sub, action := action, typ := 0, inst := t.unit, addr := rowAddr s t.unit t.row,
            spare := if t.unit ≤ 200 then Config.openValue 387 t.at_ % 64 else 0, synd := t.synd, init := t.init, time := some t.at_ }

/-- A corrected error is counted, against the rate of one second of the timebase.  Log 88 (DESIGN CHOICE). -/
def countCorrected (s : State) : State :=
  let sec := s.time.now / 122880000
  let n := if s.flt.ceAt = sec then s.flt.ceCount + 1 else 1
  let s := bump { s with flt := { s.flt with ceAt := sec, ceCount := n } } Reg.fltNce
  if n = (rget s Reg.fltCethr).toNat + 1 then evt s Reg.fltEvt 3 else s

/-- A reported row of a macro with spares is moved and its test queued; one already moved is counted only (R387, R388,
R390). -/
def moveRow (s : State) (t : RowTest) (corrected : Bool) : State :=
  if s.flt.tests.any fun x => x.unit = t.unit && x.row = t.row then s
  else if spares s t.unit = 0 then rowRecord s t true (if corrected then 3 else 4)
  else if s.flt.retired.contains (t.unit, t.row) then bump (rowRecord (takeSpare s t.unit) t true (if corrected then 2 else 4)) Reg.fltNretire
  else
    let s := takeSpare s t.unit
    { s with flt := { s.flt with tests := s.flt.tests ++ [t] } }

/-- A row with flipped bits is read (R382, R384, R390): corrected, or poisoned; a marker word of the tag store carries check bits of its
own and acts when the tag reads it (18 R448). -/
def rowError (s : State) (u : Upset) (init : Nat) (scrub : Bool) : State :=
  if u.unit = 204 then (if u.row < 274 then updTag s fun t => markUpset t u.row u.flips else s)
  else if 202 < u.unit ∨ macroRows u.unit ≤ u.row then s
  else
    let was := s.flt.bad.contains (u.unit, u.row) || (decide (32 ≤ u.unit ∧ u.unit ≤ 136) && s.flt.badRows.contains (rowAddr s u.unit u.row))
    let synd := flipSyndrome u.flips ^^^ (if was then 0x1FF else 0)
    let sub := fun k => k + (if scrub then 8 else 0)
    let t : RowTest := { unit := u.unit, row := u.row, synd := synd, sub := sub 0, init := init, at_ := shadow s }
    if synd = 0 then u.flips.foldl (fun s i => flipBit s u.unit u.row i) s
    else
      match codeBit synd with
      | some i =>
        let s := countCorrected ((u.flips ++ [i]).foldl (fun s i => flipBit s u.unit u.row i) s)
        let s := { s with flt := { s.flt with bad := s.flt.bad.filter (· ≠ (u.unit, u.row)) } }
        if u.unit ≤ 200 then moveRow s t true else rowRecord s t false 0
      | none =>
        let t := { t with sub := sub (if synd = 0x1FF then 2 else 1) }
        let s := evt (bump { s with flt := { s.flt with bad := if was then s.flt.bad else (u.unit, u.row) :: s.flt.bad } } Reg.fltNue) Reg.fltEvt 2
        if u.unit ≤ 200 then moveRow s t false else rowRecord s t true 4

/-- Times a row has been returned, as the 128 most recent ones are kept (R389). -/
def timesReturned (s : State) (m r : Nat) : Nat :=
  ((s.flt.returned.find? fun e => e.1 = m && e.2.1 = r).map fun e => e.2.2).getD 0

/-- The march test of the row first reported in macro `m` ends (R387 to R390).  Log 88 (DESIGN CHOICE). -/
def marchEnd (s : State) (m : Nat) (pass : Bool) : State :=
  match s.flt.tests.find? fun t => t.unit = m with
  | none => s
  | some t =>
    let poison := decide (t.sub % 8 ≠ 0)
    let n := timesReturned s m t.row + 1
    let back := pass && decide (n < max 1 (rfld s Reg.fltRptmax 3 0))
    let s := { s with flt := { s.flt with tests := s.flt.tests.erase t } }
    let s := rowRecord s t (!back) (if poison then 4 else if back then 1 else 2)
    if back then
      let s := { s with flt := { s.flt with
        returned := ((m, t.row, n) :: s.flt.returned.filter fun e => !(decide (e.1 = m) && decide (e.2.1 = t.row))).take 128 } }
      bump (rset s (Reg.fltSpare m) (w16 (min 64 (spares s m + 1)))) Reg.fltNreturn
    else bump { s with flt := { s.flt with retired := (m, t.row) :: s.flt.retired } } Reg.fltNretire

/-- A consumer meets poisoned data and writes its own record (R392); answers the record's number.  Log 64 (DESIGN CHOICE). -/
def poisonMet (s : State) (consumer a : Nat) : Nat × State :=
  let n := s.flt.seq % 65536
  (n, evt (fault s { cls := 1, lasting := false, sub := 2, action := 4, typ := 8, inst := consumer, addr := a / 8 * 8,
                     synd := 0x1FF, init := consumer }) Reg.fltEvt 2)

end Sys2Proof.Machine
end

