-- ==== Sys2Proof/Machine/Winnow.lean ====
section
/-!
DEFINITION. Winnow: record layouts, order, release, late records, the horizon and the partitions (07_winnow R174 to
R192).
-/

namespace Sys2Proof.Machine

/-! ## Records (R177, R188 to R191) -/

/-- A field of a record's word. -/
def recFld (r : Rec) (w hi lo : Nat) : Nat := field (r.words.getD w 0) hi lo

/-- A 64-bit field of a record. -/
def recLong (r : Rec) (w : Nat) : Nat := ofWords ((r.words.drop w).take 4)

/-- ENDT of a record. -/
def recEndt (r : Rec) : Nat := recLong r 0

/-- KIND of a record: 1 FRAME, 2 CAPACITY, 3 INTEGRITY, 4 REGULATORY. -/
def recKind (r : Rec) : Nat := recFld r 8 2 0

/-- The ordering key (R177), the order of acceptance last. -/
def recKey (r : Rec) : List Nat :=
  let v := decide (recKind r ≠ 1)
  [recEndt r, recLong r 4, recFld r 8 15 12, recFld r 8 5 3, recFld r 8 8 6, recFld r 8 11 9, recFld r 10 5 0,
   recFld r 9 13 0, recKind r, if v then recFld r 12 3 0 else 0, if v then recFld r 13 15 0 else 0,
   if v then recFld r 15 13 0 else 0, r.order]

/-- Lexicographic order of keys. -/
def keyLt : List Nat → List Nat → Bool
  | a :: x, b :: y => decide (a < b) || (decide (a = b) && keyLt x y)
  | _, _ => false

/-- Insert a record in key order. -/
def insertRec (r : Rec) : List Rec → List Rec
  | [] => [r]
  | h :: t => if keyLt (recKey r) (recKey h) then r :: h :: t else h :: insertRec r t

/-- The header fields that a record takes from a detection or a request (R189). -/
structure RecHead where
  endt   : Nat
  synct  : Nat
  subt   : Nat := 0
  prof   : Nat := 0
  beam   : Nat := 0
  sheaf  : Nat := 0
  chan   : Nat := 0
  origin : Nat := 0

/-- Words 0 to 11 of a record of a kind (R189); SEQ and OOO are written at the release. -/
def headWords (h : RecHead) (kind : Nat) : List Word :=
  wordsOf 4 h.endt ++ wordsOf 4 h.synct ++
  [w16 (h.subt * 4096 + h.prof * 512 + h.beam * 64 + h.sheaf * 8 + kind), w16 (h.origin % 16384), w16 (h.chan % 64), 0]

/-- The words of a verdict (R191): kind, code, DETAIL, LENV with LEN, SESSION. -/
def verdictWords (h : RecHead) (kind code detail : Nat) (len : Word) (session : Nat) : List Word :=
  headWords h kind ++ [w16 (code % 16), w16 (min 0xFFFF detail), len, w16 (session % 16384)] ++ List.replicate 16 0

/-- The chip's own number. -/
def chipNum (s : State) : Nat := s.fuses.chipnum

/-- A record is produced and goes to Winnow (R179). -/
def emit (s : State) (r : Rec) : State := { s with win := { s.win with inbox := s.win.inbox ++ [r] } }

/-- A verdict is produced. -/
def verdict (s : State) (h : RecHead) (kind code detail : Nat) (len : Word) (session : Nat) : State :=
  emit s { words := verdictWords h kind code detail len session, hold := none, h := [] }

/-- The head of a detection's records. -/
def detHead (s : State) (d : Det) (endt : Nat) : RecHead :=
  { endt := endt, synct := d.synct, subt := d.subt, prof := d.prof, beam := d.beam, sheaf := d.sheaf, chan := d.chan, origin := chipNum s }

/-! ## State, horizon and partitions (R178, R181, R182, R192) -/

/-- STATE of Winnow. -/
def winState (s : State) : Nat := rfld s Reg.winStat 1 0

/-- Hk, the horizon in ticks. -/
def horizon (s : State) : Nat := rfld s Reg.winHor 13 8 * 61440

/-- The partitions as the registers give them: first granule and granules. -/
def partsWritten (s : State) : List (Nat × Nat) :=
  (List.range 16).map fun n => (32 * rfld s (Reg.winBase n) 10 0, 32 * rfld s (Reg.winSize n) 10 0)

/-- The partitions of the reset configuration. -/
def partsReset : List (Nat × Nat) := (0, 63488) :: List.replicate 14 (0, 0) ++ [(63488, 2048)]

/-- The configuration is legal (R182). -/
def partsLegal (l : List (Nat × Nat)) : Bool :=
  decide (32 ≤ (l.getD 15 (0, 0)).2) && l.all (fun e => decide (e.1 + e.2 ≤ 65536)) &&
  (List.range 16).all fun i => (List.range i).all fun j =>
    let a := l.getD i (0, 0)
    let b := l.getD j (0, 0)
    decide (a.2 = 0 ∨ b.2 = 0 ∨ a.1 + a.2 ≤ b.1 ∨ b.1 + b.2 ≤ a.1)

/-- Winnow starts (R182, R192): partitions read, SEQ from 0. -/
def winStart (s : State) : State :=
  let p := partsWritten s
  let ok := partsLegal p
  let s := rset (rsetFld s Reg.winStat 1 0 2) Reg.winSeq 0
  let s := { s with win := { s.win with parts := if ok then p else partsReset, seq := 0, stopped := false } }
  let s := (List.range 16).foldl (fun s n => rset s (Reg.winMin n) (w16 (freeCount s n))) s
  if ok then s else evt s Reg.winEvt 6

/-- Winnow leaves ON (R192): it accepts no new reservation. -/
def winStop (s : State) : State :=
  if winState s = 0 then s else { rsetFld s Reg.winStat 1 0 3 with win := { s.win with stopped := true } }

/-- Winnow's drain ends once nothing is held or on its way (R192). -/
def winDrain (s : State) : State :=
  if winState s = 3 ∧ s.win.held.isEmpty ∧ s.win.inbox.isEmpty ∧ s.frames.isEmpty ∧ s.spks.isEmpty then rsetFld s Reg.winStat 1 0 0
  else s

/-! ## Verdicts not stored (R187) -/

/-- A verdict is lost: counted, and carried by the next verdict stored. -/
def suppress (s : State) : State :=
  evt (bump { s with win := { s.win with lost := min 0xFFFF (s.win.lost + 1) } } Reg.winNsupp) Reg.winEvt 4

/-- A verdict takes a granule of partition 15 and the count of verdicts lost before it. -/
def storeVerdict (s : State) (r : Rec) : Option (Rec × State) :=
  match freeGranules s 15 with
  | [] => none
  | free =>
    match pickGranules s.free 1 free with
    | g :: _ =>
      let h : Holding := { gmeta := g, data := [], part := 15, owner := 35 }
      let s := noteMin { s with holds := h :: s.holds, free := s.free + 1 } 15
      some ({ r with words := r.words.set 16 (w16 s.win.lost), hold := some h }, { s with win := { s.win with lost := 0 } })
    | [] => none

/-! ## Release (R178, R180) -/

/-- The counters and events of a record's kind when it is released. -/
def relCount (s : State) (kind : Nat) : State :=
  let s := bump s Reg.winNrel
  match kind with
  | 2 => evt (bump s Reg.winNcap) Reg.winEvt 0
  | 3 => evt (bump s Reg.winNinteg) Reg.winEvt 1
  | 4 => evt (bump s Reg.winNreg) Reg.winEvt 2
  | _ => s

/-- Release one record: SEQ, OOO, the granule's words, and on to Sage (R178, R188, R328). -/
def releaseRec (s : State) (r : Rec) (ooo : Bool) : State :=
  let ws := (r.words.set 11 (w16 s.win.seq)).set 10 (setBit (r.words.getD 10 0) 15 ooo)
  let r := { r with words := ws }
  let s := match r.hold with
    | some h => if recKind r = 1 then writeMeta s h ws r.h else storeRows s (granAddr h.gmeta) (ws ++ List.replicate 32 0)
    | none => s
  let s := { s with
    win := { s.win with seq := s.win.seq + 1, released := s.win.released ++ [r] }
    boot := { s.boot with step := if s.boot.step = 10 then 11 else s.boot.step } }
  let s := rset s Reg.winSeq (w16 s.win.seq)
  stolon (relCount s (recKind r)) 0x823

/-- The candidate point has reached `p`: the release point never moves back (R178). -/
def reachRp (s : State) (p : Nat) : State := { s with win := { s.win with rp := max s.win.rp p } }

/-- Release every held record whose ENDT the release point has reached, in key order. -/
def releaseDue (s : State) : State :=
  let rp := max s.win.rp (shadow s - horizon s)
  let due := s.win.held.filter fun r => decide (recEndt r ≤ rp)
  let s := { s with win := { s.win with rp := rp, held := s.win.held.filter fun r => !decide (recEndt r ≤ rp) } }
  winDrain (due.foldl (fun s r => releaseRec s r false) s)

/-- A late record is released at once, ahead of any not yet released; a frame brings a HORIZON verdict (R180). -/
def releaseLate (s : State) (r : Rec) : State :=
  let late := shadow s - (recEndt r + horizon s)
  let s := evt (bump (releaseRec s r true) Reg.winNlate) Reg.winEvt 3
  if recKind r = 1 then
    let h : RecHead := { endt := recEndt r, synct := recLong r 4, subt := recFld r 8 15 12, prof := recFld r 8 11 9,
                         beam := recFld r 8 8 6, sheaf := recFld r 8 5 3, chan := recFld r 10 5 0, origin := recFld r 9 13 0 }
    let v : Rec := { words := verdictWords h 2 4 late (w16 (0x8000 + recFld r 12 10 0)) (recFld r 22 13 0), hold := none, h := [] }
    match storeVerdict s v with
    | some (v, s) => releaseRec s v true
    | none => suppress s
  else s

/-- Winnow accepts a record (R179, R180, R187, R192). -/
def acceptRec (s : State) (r : Rec) : State :=
  if winState s = 0 then
    suppress (match r.hold with
      | some h => release s h
      | none => s)
  else
    let st := if recKind r = 1 then some (r, s) else storeVerdict s r
    match st with
    | none => suppress s
    | some (r, s) =>
      let r := { r with order := s.win.order }
      let s := { s with win := { s.win with order := s.win.order + 1 } }
      if recEndt r + horizon s ≤ shadow s then releaseLate s r
      else { s with win := { s.win with held := insertRec r s.win.held } }

/-! ## Registers -/

/-- A write to `WIN_HOR` arms a change of the horizon (R181). -/
def winHorWrite (v : Word) (s : State) : State :=
  let next := clampNat 2 40 (field v 5 0)
  let s := rsetFld s Reg.winHor 5 0 (field v 5 0)
  let t := rgroup s Reg.winHorat 4
  if t < shadow s then
    let s := releaseDue s
    let s := rsetFld (rsetBit s Reg.winHor 15 false) Reg.winHor 13 8 next
    evt (releaseDue { s with win := { s.win with horAt := none } }) Reg.winEvt 5
  else { rsetBit s Reg.winHor 15 true with win := { s.win with horAt := some (t, next) } }

/-- A write to `WIN_CTL`. -/
def winCtlWrite (v : Word) (s : State) : State :=
  let s := if bit v 0 then (List.range 6).foldl (fun s k => rset s (Reg.winNrel + k) 0) s else s
  if bit v 1 then (List.range 16).foldl (fun s n => rset s (Reg.winMin n) (w16 (freeCount s n))) s else s

end Sys2Proof.Machine
end

