-- ==== Sys2Proof/Machine/Gate.lean ====
section
/-!
DEFINITION. The regional profile, the regulatory gate and the airtime account (04_calibration_regulatory R105 to R113,
R118, R511; 08_link_timing R218, R219; 18_field R461).
-/

namespace Sys2Proof.Machine

/-! ## Profile slots (R105, R106, R108) -/

/-- A word of a profile slot. -/
def slotW (p : List Word) (k : Nat) : Nat := (p.getD k 0).toNat

/-- A 32-bit field of a profile slot. -/
def slotL (p : List Word) (k : Nat) : Nat := slotW p k + 65536 * slotW p (k + 1)

/-- A slot is programmed when its FORMAT word is not 0 (R105). -/
def slotUsed (p : List Word) : Bool := slotW p 0 ≠ 0

/-- The programmed slots as the USED mask shows them. -/
def usedSlots (s : State) : List Nat := (List.range 4).filter fun k => slotUsed (s.fuses.profiles.getD k [])

/-- One band record of a slot satisfies R106. -/
def bandOk (p : List Word) (b : Nat) : Bool :=
  let o := 8 + 24 * b
  if (slotW p 4).testBit b then
    decide (slotW p o = 1 ∧ slotL p (o + 1) < slotL p (o + 3) ∧ slotW p (o + 7) ≠ 0 ∧
      1 ≤ slotW p (o + 8) ∧ slotW p (o + 8) ≤ 128 ∧ 1 ≤ slotW p (o + 22) ∧ slotW p (o + 22) ≤ 3600 ∧ slotW p (o + 23) = 0) &&
    decide (ofWords ((p.drop (o + 9)).take 8) < 2 ^ slotW p (o + 8))
  else (List.range 24).all fun k => slotW p (o + k) = 0

/-- The checks of R106 on one slot alone. -/
def slotFormOk (p : List Word) : Bool :=
  decide (slotW p 0 = 1 ∧ 0 < slotW p 4 ∧ slotW p 4 < 256 ∧ slotW p 5 < 2 ∧ slotW p 6 = 0 ∧ slotW p 7 = 0 ∧ p.length = 202) &&
  decide (slotL p 200 = crc32 (unpackOctets (p.take 200))) &&
  (List.range 8).all (bandOk p)

/-- A list of numbers rises strictly. -/
def risingNat : List Nat → Bool
  | [] => true
  | [_] => true
  | a :: b :: r => decide (a < b) && risingNat (b :: r)

/-- Every programmed slot passes, PROFSEQ rising strictly (R106). -/
def profilesOk (l : List (List Word)) : Bool :=
  let u := l.filter slotUsed
  u.all slotFormOk && risingNat (u.map fun p => slotL p 2)

/-- The slot in force: the highest-numbered programmed one (R105). -/
def slotInForce (s : State) : Option Nat := (usedSlots s).getLast?

/-! ## The profile in force (R107) -/

/-- A word of the profile in force: `RGL_PROF` mirrors the slot. -/
def profW (s : State) (k : Nat) : Nat := (rget s (Reg.rglProf k)).toNat

/-- A 32-bit field of the profile in force. -/
def profL (s : State) (k : Nat) : Nat := profW s k + 65536 * profW s (k + 1)

/-- Band `b` is defined. -/
def bandDef (s : State) (b : Nat) : Bool := (profW s 4).testBit b

/-- Offset of field `k` of band `b`. -/
def bandOff (b k : Nat) : Nat := 8 + 24 * b + k

/-- FLOW and FHIGH of a band in the model's frequency unit. -/
def bandEdges (s : State) (b : Nat) : Int × Int :=
  ((profL s (bandOff b 1) : Int) * 1000 * hz, (profL s (bandOff b 3) : Int) * 1000 * hz)

/-- The defined bands. -/
def bandsDef (s : State) : List Nat := (List.range 8).filter (bandDef s)

/-- The lowest-numbered defined band that holds the whole range (R109). -/
def bandOf (s : State) (centre half : Int) : Option Nat :=
  (bandsDef s).find? fun b => (bandEdges s b).1 ≤ centre - half && centre + half ≤ (bandEdges s b).2

/-- A signed field of a band. -/
def bandInt (s : State) (b k : Nat) : Int := (rget s (Reg.rglProf (bandOff b k))).toInt

/-! ## Aerial gain (R111, R461) -/

/-- The GWORST that stands for a port without a panel entry (R461). -/
def worstGain (s : State) (n : Nat) : Int :=
  let lo := sheafLo s n
  let near := (bandsDef s).filter fun b => (bandEdges s b).1 ≤ lo + 6000000 * hz && lo - 6000000 * hz ≤ (bandEdges s b).2
  let l := (if near.isEmpty then bandsDef s else near).map fun b => bandInt s b 19
  match l with
  | [] => 0
  | a :: r => r.foldl max a

/-- `RGL_GAINp` of a port from the panel record in force (R461). -/
def gainOfPort (s : State) (p : Nat) : Int :=
  let n := sheafOf p
  match panelGain s.reader.shown p (s.sheaf n).band with
  | some g => g
  | none => worstGain s n

/-- Write `RGL_GAINp` of a sheaf's ports. -/
def gainRefresh (s : State) (n : Nat) : State :=
  (portsOf n).foldl (fun s p => rset s (Reg.rglGain p) (i16 (gainOfPort s p))) s

/-! ## Aerial fault states at an instant (R112, R125, R126) -/

/-- The aerial fault state of a port as it applies to a transmission that starts at `t5` (R126). -/
def faultAt (s : State) (p t5 : Nat) : Nat :=
  (((s.port p).faultFrom.find? fun e => decide (e.2 ≤ t5)).map Prod.fst).getD 0

/-- The head output of a sheaf excludes its ports (R128). -/
def headBlocks (s : State) (n : Nat) : Bool :=
  rbit s (Reg.hedEvt n) 0 || rbit s (Reg.hedEvt n) 2 || (rbit s (Reg.hedStat n) 2 && rbit s (Reg.hedCtl n) 2)

/-- A port takes part in a transmission that starts at `t5` (R103, R104, R112, R397). -/
def portServes (s : State) (p t5 : Nat) : Bool :=
  decide (prtState s p = 2) && rbit s (Reg.prtCtl p) 1 && decide (faultAt s p t5 ≠ 2) && !headBlocks s (sheafOf p)
    && !portBad s p

/-- The power bound of a port at `t5`: TXMAX, the band's maximum, and the cap in CHECK (R109, R126). -/
def portCap (s : State) (p t5 : Nat) : Int := if faultAt s p t5 = 3 then min (portBound s p) 0 else portBound s p

/-! ## EIRP (R110) -/

/-- floor(10^(r/80) × 10^40) for r from 0 to 79. -/
def ampTable : List Nat :=
  [10000000000000000000000000000000000000000, 10292005271944281698621196197862884401574,
   10592537251772888788092803732781086199794, 10901844923851276457076033885665913473827,
   11220184543019634355910389464779057367223, 11547819846894581796664828872955082815669,
   11885022274370184377301224648921772712021, 12232071190499315483781908707418353172604,
   12589254117941672104239541063958006060936, 12956866975170194723025086926842232052122,
   13335214321633240256759317152953310924156, 13724609610075619688248582419373608533290,
   14125375446227543021556078639302409297897, 14537843856076618336326030951713622265727,
   14962356560944334118802851143878871577713, 15399265260594919895704859949453961883927] ++
  [15848931924611134852021013733915070132694, 16311729092278383088139558501174679866566,
   16788040181225603139719500804155830107699, 17278259805078634185299585872185567711169,
   17782794100389228012254211951926848447357, 18302061063110560487308772877204321520285,
   18836490894898005350008911502087496850681, 19386526359522073168797490163016602615865,
   19952623149688796013524553967395355579862, 20535250264571460746057523482956120765736,
   21134890398366467955603453173793280104874, 21752040340195226819426563239557596744143,
   22387211385683396119549508524657423337072, 23040929760558456079424938865294765677412,
   23713737056616552616517527574788898385679, 24406190680419803286352551919993709266460] ++
  [25118864315095801110850320677993273941585, 25852348395621907376573316882274229368649,
   26607250597988096349913117026305600070355, 27384196342643612941886969873891580469260,
   28183829312644538191019236991551107186830, 29006811986931536822832463698311496891739,
   29853826189179596179132769625215725377687, 30725573652674466874554638681891251261082,
   31622776601683793319988935444327185337195, 32546178349804587752915730386080768471256,
   33496543915782765954877261908973733971195, 34474660657314938068529097268224467222998,
   35481338923357545843321870226449062049134, 36517412725483770582499525660451060365373,
   37583740428844416737771095915030739979055, 38681205463305217575674807461976877932849] ++
  [39810717055349725077025230508775204348767, 40973210981354150076549801784484931485068,
   42169650342858224856901335950940637825096, 43401026364474383648894784353335425132619,
   44668359215096311855625052431937661637730, 45972698853087217850500573813091230200477,
   47315125896148047890327111201985926819403, 48696752516586311493529748503439657522713,
   50118723362727228500155418688494576806047, 51582216507230567388850289109482671407499,
   53088444423098835220046186836774826896406, 54638654988185421271567653815702879799295,
   56234132519034908039495103977648123146825, 57876198834912064355104761591239790822820,
   59566214352901046050979828252716554822054, 61305579214982070616768980395973663203391] ++
  [63095734448019324943436013662234386467294, 64938163157621131512803284069782165599262,
   66834391756861460836257446738761346050899, 68785991230880759831800532318339605760158,
   70794578438413791080221494218931270935443, 72861817451322771145772928837183385841339,
   74989420933245582730218427561513643844186, 77179151558501241437433965411959178033692,
   79432823472428150206591828283638793258896, 81752303794365000656984491342740297129669,
   84139514164519509115274189380047643286240, 86596432336006535235316918342022998193981,
   89125093813374552995310868107829696398587, 91727593538977958470087508027281331757699,
   94406087628592338036438049660226718126591, 97162795157710617416734286616884269869883]

/-- The amplitude of a level of `q` quarter decibels, 10^(q/80), on one common scale. -/
def ampOf (q : Int) : Nat := ampTable.getD (q % 80).toNat 0 * 10 ^ (q / 80 + 1024).toNat

/-- The EIRP of port levels `P + g` in quarter decibels, rounded up to the next multiple of 0.25 dB (R110). -/
def eirpOf (l : List Int) : Int :=
  match l with
  | [] => 0
  | a :: r =>
    let top := r.foldl max a
    let sum := (l.map ampOf).sum
    top + (((List.range 74).find? fun (k : Nat) => decide (sum ≤ ampOf (top + (k : Int)))).getD 74 : Nat)

/-! ## Occupied bandwidth (R511) -/

/-- Half the occupied bandwidth of a profile kind and rate, in Hz. -/
def halfObw (kind rate : Nat) : Nat :=
  match kind, rate with
  | 1, 0 => 50000
  | 1, 1 => 75000
  | 1, 2 => 112500
  | 1, 3 => 150000
  | 1, 4 => 100000
  | 1, 5 => 150000
  | 1, 6 => 200000
  | 2, 0 => 75000
  | 2, 1 => 750000
  | 2, 2 => 1500000
  | 3, 0 => 1500000
  | 4, 0 => 28125
  | 4, 1 => 56250
  | _, _ => 0

/-- Half the occupied bandwidth of a waveform. -/
def waveHalf : Waveform → Int
  | .profile k r => (halfObw k r : Int) * hz
  | .cw => 0
  | .loop => 0

/-! ## Airtime (R218, R219) -/

/-- The bucket length of a band, in ticks. -/
def bucketTicks (s : State) (b : Nat) : Nat := max 1 (profW s (bandOff b 22)) * 1920000

/-- The charges of band `b` in buckets `k − 63` to `k`. -/
def airUsed (s : State) (b k : Nat) : Nat :=
  (s.lnk.charges.filterMap fun c => if c.1 = b ∧ k < c.2.1 + 64 ∧ c.2.1 ≤ k then some c.2.2 else none).sum

/-- A request in bucket `k` has the charges of buckets up to `k − 64` of its band forgotten (R219). -/
def airForget (s : State) (b k : Nat) : State :=
  { s with lnk := { s.lnk with charges := s.lnk.charges.filter fun c => !(decide (c.1 = b) && decide (c.2.1 + 64 ≤ k)) } }

/-- The remaining budget of band `b` in bucket `k` takes an airtime (R218). -/
def airFits (s : State) (b k us : Nat) : Bool :=
  decide (profL s (bandOff b 20) = 0xFFFFFFFF) || decide (airUsed s b k + us ≤ profL s (bandOff b 20))

/-- Charge an airtime to bucket `k` (R218).  Log 35 (DESIGN CHOICE). -/
def airCharge (s : State) (b k us : Nat) : State := { s with lnk := { s.lnk with charges := (b, k, us) :: s.lnk.charges } }

/-- Airtime in µs of fifths of a tick, rounded up (R218).  Log 35 (DESIGN CHOICE). -/
def airUs (d5 : Nat) : Nat := (10 * d5 + 6143) / 6144

/-! ## The gate (R109 to R113, R118) -/

/-- A request at the gate; frequencies in units of 1/98,304 Hz, `us` and `tick` what step 5 charges and where. -/
structure GateArgs where
  sheaf   : Nat
  streams : List (Int × Int)
  wave    : Waveform
  t5      : Nat
  us      : Nat
  tick    : Nat
  power   : List (Option Int)

/-- The gate's answer: the granted power of each port, or the code of the reason (07 R191) and the band found. -/
structure GateOut where
  power  : Option (List (Option Int))
  reason : Nat := 0
  band   : Option Nat := none

/-- A refusal: the reason's bit of `RGL_EVT`, counted once (R109).  Log 34 (DEDUCED). -/
def gateRefuse (s : State) (b : Nat) (band : Option Nat := none) : GateOut × State :=
  ({ power := none, reason := [3, 2, 4, 5, 1].getD b 0, band := band }, evt (bump s Reg.rglNrefuse) Reg.rglEvt b)

/-- Step 1: the ports and their powers.  The rule bounds a power from above only: one requested below −20.0 dBm passes as it is, which is
the model's choice: log 103 (DESIGN CHOICE). -/
def gatePorts (s : State) (a : GateArgs) : List (Option Int) :=
  if a.wave = .loop then a.power.map fun o => o.map fun _ => -200
  else (List.range 8).map fun k =>
    let p := 8 * a.sheaf + k
    match a.power.getD k none with
    | some w => if portServes s p a.t5 then some (min w (portCap s p a.t5)) else none
    | none => none

/-- The channel conditions of one stream in band `b` (R109 step 2, second pass). -/
def channelOk (s : State) (b : Nat) (st : Int × Int) : Bool :=
  let ch0 := (profL s (bandOff b 5) : Int) * hz
  let sp := profW s (bandOff b 7) * 100
  let n := divRound (st.1 - ch0) (max 1 sp * 98304)
  let map := ofWords ((List.range 8).map fun k => rget s (Reg.rglProf (bandOff b (9 + k))))
  decide (0 ≤ n ∧ n < profW s (bandOff b 8)) && map.testBit n.toNat &&
  decide ((st.1 - (ch0 + n * sp * hz)).natAbs ≤ 1000 * 98304) && decide (st.2.natAbs * 10000 ≤ st.1.natAbs)

/-- Steps 3 to 5 in band `b`, and the counts of a request that passes. -/
def gateLevels (s : State) (a : GateArgs) (b : Nat) (ports : List (Option Int)) : GateOut × State :=
  let pcond := bandInt s b 17
  let clampc := ports.any fun o => match o with | some w => decide (pcond < w) | none => false
  let ports := ports.map fun o => o.map fun w => min w pcond
  let lvl := ports.zipIdx.filterMap fun e => e.1.map fun w => w + (rget s (Reg.rglGain (8 * a.sheaf + e.2))).toInt
  let d := eirpOf lvl - bandInt s b 18
  let clampe := decide (0 < d)
  let ports := if clampe then ports.map fun o => o.map fun w => w - d else ports
  if clampe ∧ ports.any (fun o => match o with | some w => decide (w < -80) | none => false) then gateRefuse s 2 (some b)
  else
    let k := a.tick / bucketTicks s b
    let s := airForget s b k
    if ¬ airFits s b k a.us then gateRefuse (bump s (Reg.lnkAirNref b)) 3 (some b)
    else
      let s := airCharge s b k a.us
      if clampc ∨ clampe then
        ({ power := some ports, band := some b }, setEvt (bump s Reg.rglNclamp) Reg.rglEvt (w16 (32 * clampc.toNat + 64 * clampe.toNat)))
      else ({ power := some ports, band := some b }, s)

/-- The gate's decision (R109).  That a request which R351 of file 13 keeps from sending in MEMBER gets the reason NOPORT is the model's
choice: log 103 (DESIGN CHOICE). -/
def gateJudge (s : State) (a : GateArgs) : GateOut × State :=
  let loop := decide (a.wave = .loop)
  if ¬ rbit s Reg.rglStat 0 ∨ (¬ loop ∧ ¬ serviceOn s fun m => !txSealed m && m ≠ 4) then gateRefuse s 4
  else
    let ports := gatePorts s a
    if ports.all Option.isNone ∨ a.streams.isEmpty then gateRefuse s 4
    else
      let bands := a.streams.map fun st => bandOf s st.1 (waveHalf a.wave)
      match bands with
      | some b :: r =>
        if r.any (fun x => x ≠ some b) then gateRefuse s 1
        else if ¬ loop ∧ ((a.wave = .cw ∧ ¬ (profW s 5).testBit 0) ∨ ¬ a.streams.all (channelOk s b)) then gateRefuse s 0 (some b)
        else gateLevels s a b ports
      | _ => gateRefuse s 1

/-- A loop burst of `us` µs on a port, taken now (R118): whether the gate passes it.  The tone lies at the sheaf's LO.  Log 34 (DEDUCED). -/
def gateLoop (s : State) (p us : Nat) : Bool × State :=
  let r := gateJudge s { sheaf := sheafOf p, streams := [(sheafLo s (sheafOf p), 0)], wave := .loop, t5 := 5 * s.time.now,
                         us := us, tick := s.time.now,
                         power := (List.range 8).map fun k => if k = p % 8 then some 0 else none }
  (r.1.power.isSome, r.2)

/-! ## The commands -/

/-- The regulatory verdict of a refusal (07 R177, R191): the request's T in whole ticks, its airtime in 100 µs. -/
def gateVerdict (s : State) (a : GateArgs) (o : GateOut) (session : Nat) : State :=
  let h : RecHead := { endt := a.t5 / 5, synct := a.t5 / 5, sheaf := a.sheaf, origin := chipNum s }
  verdict s h 4 o.reason (o.band.getD 0xFFFF) (w16 (min 0x7FFF ((a.us + 99) / 100))) session

/-- A transmit request at the gate (R109); a request that passes enters the sheaf's transmit queue. -/
def execGateRequest (r : GateReq) (s : State) : Host.Outcome State Fault Refusal :=
  if ¬ r.wf then .fault (.illFormed "eight powers")
  else .next (
    let streams := r.streams.map fun g => (g.centre * hz, g.df * hz)
    let a : GateArgs := { sheaf := r.sheaf, streams := streams, wave := r.wave, t5 := r.t5, us := airUs (r.e5 - r.t5),
                          tick := if r.wave = .loop then s.time.now else r.t5 / 5, power := r.power }
    let (o, s) := gateJudge s a
    match o.power with
    | none => if r.wave = .loop ∨ r.wave = .cw then s else gateVerdict s a o r.session
    | some p =>
      if r.wave = .loop then s
      else s.updSheaf r.sheaf fun h => { h with cmds := h.cmds ++ [{ t5 := r.t5, e5 := r.e5, streams := streams, power := p, for_ := .other, octets := [] }] })

/-- The oldest change of the panel record still to apply reaches the gate at the first slot boundary at least 1 ms after its validation
or withdrawal, or at the first tick at least 1 ms later while the link timing unit is not ON (R111, R461).  Log 87 (DESIGN CHOICE). -/
def execPanelGainApply (s : State) : Host.Outcome State Fault Refusal :=
  .next (
    match s.reader.pend with
    | (t, rec) :: later =>
      let at_ := if lnkOn s then nextBoundary s (t + 122880) else t + 122880
      let s := updReader (reach s at_) fun r => { r with shown := rec, pend := later }
      let s := rsetBit (rsetBit s Reg.rglStat 1 (!rec.isEmpty)) Reg.sysBootstat 7 (!rec.isEmpty)
      (List.range 8).foldl gainRefresh s
    | [] => s)

end Sys2Proof.Machine
end

