-- ==== Sys2Proof/Machine/Coding.lean ====
section
/-!
DEFINITION. The bits of a frame on air (06_demodulation R153 to R159, R168): whitening, the trellis codes and their soft-input
decoder, the interleavers of Longfield, and the headers.  A soft value favours 0 when it is positive (R165).
-/

namespace Sys2Proof.Machine

/-! ## Octets and bits -/

/-- The bits of octets, each least significant bit first (R159). -/
def octetBits (l : List Octet) : List Bool := l.flatMap fun o => (List.range 8).map o.getLsbD

/-- The number whose bits, least significant first, are the list. -/
def ofBits (l : List Bool) : Nat := (l.zipIdx.map fun e => e.1.toNat * 2 ^ e.2).sum

/-- The `n` octets whose bits, least significant first, are the list. -/
def bitOctets (n : Nat) (l : List Bool) : List Octet := (List.range n).map fun k => BitVec.ofNat 8 (ofBits ((l.drop (8 * k)).take 8))

/-- The `n` bits of a number, most significant first. -/
def bitsBE (n x : Nat) : List Bool := (List.range n).map fun k => x.testBit (n - 1 - k)

/-! ## PN9 (R153, R159) -/

/-- The next `n` bits of the sequence x⁹ + x⁵ + 1 after the nine in `reg`, newest in bit 0.  Log 101 (PRESUMED). -/
def pn9 : Nat → Nat → List Bool
  | 0, _ => []
  | n + 1, reg =>
    let b := reg.testBit 8 != reg.testBit 3
    b :: pn9 n (reg * 2 % 512 + b.toNat)

/-- Bits whitened, or the whitening of bits removed: the sequence starts from a register of ones. -/
def whiten (l : List Bool) : List Bool := List.zipWith (· != ·) l (pn9 l.length 511)

/-! ## The codes (R153, R157, R159, R168) -/

/-- A trellis step: the state after a bit and the code bits it emits. -/
abbrev Trellis := Nat → Bool → Nat × List Bool

/-- The Longfield code, rate 1/3 and K = 7, generators 133, 171 and 165 octal in that order: the state is the last six bits, the newest
in bit 5 (R157, R159).  The generators' highest bit takes the newest bit: log 104 (DESIGN CHOICE). -/
def lfTrellis : Trellis := fun st b =>
  let reg := b.toNat * 64 + st
  (reg / 2, [0o133, 0o171, 0o165].map fun g => decide (popCount 7 (Nat.land reg g) % 2 = 1))

/-- The SUN-FSK code, rate 1/2 and K = 4 (R153). -/
def fskCode (rsc : Bool) : Trellis := fun st b =>
  let r := Config.fskTrellis rsc st b
  (r.1 % 8, [r.2.1, r.2.2])

/-- Bits encoded from a state. -/
def encodeFrom (tr : Trellis) : Nat → List Bool → List Bool
  | _, [] => []
  | st, b :: r => (tr st b).2 ++ encodeFrom tr (tr st b).1 r

/-- Bits encoded from the zero state. -/
def encode (tr : Trellis) (l : List Bool) : List Bool := encodeFrom tr 0 l

/-! ## The decoder (R168) -/

/-- A path into a state: its metric, 16 bits with modulo normalisation, and its bits, newest first. -/
abbrev Path := Word × List Bool

/-- One metric is above another, modulo 2^16. -/
def metricAbove (a b : Word) : Bool := (b - a).msb

/-- The metric that soft values add to a branch with given code bits. -/
def branchMetric (lam : List Int) (out : List Bool) : Int :=
  ((List.zipWith (fun l b => if b then -l else l) lam out).foldl (· + ·) 0)

/-- The better of two paths into a state; of two equal ones a fixed one.  Log 100 (DESIGN CHOICE). -/
def survivor (st : Nat) (a b : Path) : Path :=
  if metricAbove b.1 a.1 then b else if metricAbove a.1 b.1 then a else if Config.tieHigh st then b else a

/-- The best of a nonempty list of paths. -/
def bestPath (st : Nat) : List Path → Path
  | [] => (0, [])
  | p :: r => r.foldl (survivor st) p

/-- One trellis step: each state keeps the better of the paths into it. -/
def trellisStep (tr : Trellis) (ps : List Path) (lam : List Int) : List Path :=
  (List.range ps.length).map fun j =>
    bestPath j (ps.zipIdx.flatMap fun e => [false, true].filterMap fun b =>
      let t := tr e.2 b
      if t.1 = j then some (e.1.1 + BitVec.ofInt 16 (branchMetric lam t.2), b :: e.1.2) else none)

/-- The paths before the first step: the zero state well above the others. -/
def firstPaths (states : Nat) : List Path := (0, []) :: List.replicate (states - 1) (0xC000, [])

/-- The soft values of each trellis step, `rate` to a step. -/
def stepsOf (rate : Nat) : Nat → List Int → List (List Int)
  | 0, _ => []
  | n + 1, l => l.take rate :: stepsOf rate n (l.drop rate)

/-- Decode, with the trace-back depth: each step past the depth decides one bit from the best path, and the last ones are decided from
`final`'s path at a forced end, or from the best one. -/
def decodeFrom (tr : Trellis) (depth : Nat) (final : Option Nat) : List Path → List Bool → List (List Int) → List Bool
  | ps, out, [] =>
    let p := match final with
      | some j => ps.getD j (0, [])
      | none => bestPath ps.length ps
    out.reverse ++ p.2.reverse.drop out.length
  | ps, out, lam :: r =>
    let qs := trellisStep tr ps lam
    let best := bestPath qs.length qs
    decodeFrom tr depth final qs (if depth < best.2.length then best.2.getD depth false :: out else out) r

/-- `n` information bits of a coded stream (R168): the trace-back is forced at a terminated end (`closed`), or where the stream is cut. -/
def viterbi (tr : Trellis) (states rate depth : Nat) (closed : Bool) (n : Nat) (lam : List Int) : List Bool :=
  decodeFrom tr depth (if closed then some 0 else none) (firstPaths states) [] (stepsOf rate n lam)

/-- A Longfield block or header of `n` information bits with the six tail bits; depth 42. -/
def lfDecode (n : Nat) (lam : List Int) : List Bool := (viterbi lfTrellis 64 3 42 true (n + 6) lam).take n

/-- A SUN-FSK stream of `n` information bits, terminated (`closed`) or cut; depth 24. -/
def fskDecode (rsc closed : Bool) (n : Nat) (lam : List Int) : List Bool := viterbi (fskCode rsc) 8 2 24 closed n lam

/-- The bit that a soft value decides. -/
def hardBit (l : Int) : Bool := decide (l < 0) || (decide (l = 0) && Config.zeroBit)

/-- Soft values whose sign differs from a code stream (R172). -/
def signDiffs (lam : List Int) (code : List Bool) : Nat := ((List.zipWith (fun l b => hardBit l != b) lam code).filter id).length

/-! ## Longfield on air (R158, R159) -/

/-- The place on air, from the end of the sync word, of the coded symbol at a position: 9 rows of 10, then blocks of 16 rows of 24. -/
def lfPlace (pos : Nat) : Nat :=
  if pos < 90 then 9 * (pos % 10) + pos / 10
  else
    let i := (pos - 90) % 384
    90 + (pos - 90) / 384 * 384 + 16 * (i % 24) + i / 24

/-- Coded symbols sent in the order of their places. -/
def lfInterleave (l : List Bool) : List Bool :=
  (List.range l.length).map fun k => ((List.range l.length).find? fun p => lfPlace p = k).elim false fun p => l.getD p false

/-- Coded payload blocks of a Longfield frame (R159). -/
def lfBlocks (len : Nat) : Nat := (3 * (8 * len + 6) + 383) / 384

/-- The pad symbols 1, 0, 1, 0, … that fill the last block (R159). -/
def lfPad (n : Nat) : List Bool := (List.range n).map fun k => decide (k % 2 = 0)

/-- The HCRC register after a bit (R158). -/
def hcrcStep (reg : Nat) (b : Bool) : Nat :=
  let fb := b != reg.testBit 0
  let r := reg / 2
  if fb then r ^^^ 0xE0 else r

/-- The register after the first 16 header bits. -/
def hcrc (bits : Nat) : Nat := ((List.range 16).map bits.testBit).foldl hcrcStep 0

/-- The 24 header bits of a length and FCST (R158). -/
def lfHeader (len : Nat) (fcst : Bool) : Nat :=
  let low := len % 2048 + 2048 * fcst.toNat
  low + 65536 * hcrc low

/-- A Longfield frame's symbols after the sync word: header block and payload blocks (R158, R159). -/
def lfAir (len : Nat) (fcst : Bool) (psdu : List Octet) : List Bool :=
  let head := encode lfTrellis ((List.range 24).map (lfHeader len fcst).testBit ++ List.replicate 6 false)
  let code := encode lfTrellis (whiten (octetBits (padOctets len psdu)) ++ List.replicate 6 false)
  lfInterleave (head ++ code ++ lfPad (384 * lfBlocks len - code.length))

/-! ## SUN-FSK and O-QPSK on air (R153, R155; 08 R206) -/

/-- The 16 bits of the SUN-FSK PHR in the order sent: mode switch, two reserved bits, FCS type, data whitening, and LEN from its highest
bit.  Log 101 (PRESUMED). -/
def fskPhr (len : Nat) (fcst dw : Bool) : List Bool := [false, false, false, fcst, dw] ++ bitsBE 11 len

/-- Information bits of a SUN-FSK frame: PHR and PSDU, whitened when DW says so. -/
def fskInfo (len : Nat) (fcst dw : Bool) (psdu : List Octet) : List Bool :=
  let b := octetBits (padOctets len psdu)
  fskPhr len fcst dw ++ if dw then whiten b else b

/-- Bits on air of a SUN-FSK PHR and PSDU; coded, with the tail and pad bits of the standard for the code variant and the interleaver
(R166).  Log 40 (DESIGN CHOICE). -/
def fskAirBits (coded rsc ilv : Bool) (len : Nat) : Nat :=
  let info := 16 + 8 * len
  if coded then 2 * (info + Config.fskTail rsc ilv len) else info

/-- The place on air of a SUN-FSK code bit. -/
def fskPlace (coded ilv : Bool) (pos : Nat) : Nat := if coded && ilv then Config.fskPlace pos else pos

/-- A SUN-FSK frame's bits after the SFD: uncoded, or coded with zero tail and pad bits and interleaved.  Log 40 (DESIGN CHOICE). -/
def fskAir (coded rsc ilv : Bool) (len : Nat) (fcst dw : Bool) (psdu : List Octet) : List Bool :=
  let info := fskInfo len fcst dw psdu
  if ¬ coded then info
  else
    let code := encode (fskCode rsc) (info ++ List.replicate (Config.fskTail rsc ilv len) false)
    (List.range code.length).map fun k => ((List.range code.length).find? fun p => fskPlace coded ilv p = k).elim false fun p => code.getD p false

/-- An O-QPSK frame's bits after the SFD: the 7-bit frame length with its reserved bit, and the PSDU (R155). -/
def oqpskBits (len : Nat) (psdu : List Octet) : List Bool := octetBits (BitVec.ofNat 8 (len % 128) :: padOctets len psdu)

end Sys2Proof.Machine
end

