-- ==== Sys2Proof/Machine/Search.lean ====
section
/-!
DEFINITION. Beams, channels, the Awn search, duplicate suppression and detection records (05_search R129 to R151).
-/

namespace Sys2Proof.Machine

/-! ## Beamformer (R129 to R131) -/

/-- cos(πm/4) as `a + b·√2/2`. -/
def cosEighth (m : Nat) : Int × Int :=
  match m % 8 with
  | 0 => (1, 0)
  | 1 => (0, 1)
  | 2 => (0, 0)
  | 3 => (0, -1)
  | 4 => (-1, 0)
  | 5 => (0, -1)
  | 6 => (0, 0)
  | _ => (0, 1)

/-- floor(√2 × 2^64): enough to round any `A + B·√2/2` with |B| below 2^20 correctly. -/
def rootTwo : Int := 26087635650665564424

/-- (A + B·√2/2)/8 rounded to the nearest integer, halves away from zero, and saturated. -/
def beamRound (a b : Int) : Int := clampInt (-32768) 32767 (divRound (2 * a * 2 ^ 64 + b * rootTwo) (16 * 2 ^ 64))

/-- Beam `b` of eight samples in DFT mode (R129). -/
def dftBeam (x : List (Int × Int)) (b : Nat) : Int × Int :=
  let terms := x.zipIdx.map fun e =>
    let c := cosEighth (e.2 * b)
    let sn := cosEighth (e.2 * b + 6)
    (e.1.1 * c.1 + e.1.2 * sn.1, e.1.1 * c.2 + e.1.2 * sn.2, e.1.2 * c.1 - e.1.1 * sn.1, e.1.2 * c.2 - e.1.1 * sn.2)
  let sum := fun (f : Int × Int × Int × Int → Int) => (terms.map f).foldl (· + ·) 0
  (beamRound (sum fun t => t.1) (sum fun t => t.2.1), beamRound (sum fun t => t.2.2.1) (sum fun t => t.2.2.2))

/-- The eight beams of a sheaf (R129, R130). -/
def beamsOf (portMode : Bool) (x : List (Int × Int)) : List (Int × Int) :=
  if portMode then x else (List.range 8).map (dftBeam x)

/-! ## Classes and profiles (R132, R135, R136) -/

/-- Half the passband of a class, in Hz. -/
def classHalf (c : Nat) : Int :=
  match c with
  | 0 => 100000
  | 1 => 250000
  | 2 => 500000
  | _ => 1500000

/-- The stream sample period of a class, in ticks: 480, 960, 1,920 and 3,840 ksps (R132). -/
def classPeriod (c : Nat) : Nat := 256 / 2 ^ c

/-- The port sample at tick `t` completes a sample of the streams of a class; which of the class's port samples does is not stated.
Log 37 (DESIGN CHOICE). -/
def streamSample (s : State) (c t : Nat) : Bool := decide (((t - s.phase) / 8 + Config.openValue 132 c) % (classPeriod c / 8) = 0)

/-- The duplicate-suppression window of a class, in ticks. -/
def classWindow (c : Nat) : Nat := 4096 / 2 ^ c

/-- The acquisition range of a class, in Hz. -/
def classAcq (c : Nat) : Int :=
  match c with
  | 0 => 30000
  | 1 => 60000
  | 2 => 100000
  | _ => 150000

/-- The class of a legal kind and rate; none for one the table does not list (R135). -/
def profClass (kind rate : Nat) : Option Nat :=
  match kind, rate with
  | 1, 0 => some 0
  | 1, 1 => some 1
  | 1, 2 => some 1
  | 1, 3 => some 2
  | 1, 4 => some 1
  | 1, 5 => some 2
  | 1, 6 => some 2
  | 2, 0 => some 1
  | 2, 1 => some 3
  | 2, 2 => some 3
  | 3, 0 => some 3
  | 4, 0 => some 0
  | 4, 1 => some 0
  | _, _ => none

/-- The symbol rate of SUN-FSK, in symbols per second (R153). -/
def fskRate (rate : Nat) : Nat := [50000, 100000, 150000, 200000, 100000, 150000, 200000].getD rate 50000

/-- The sync words a slot uses, as one number (R136). -/
def usedSync (kind sync : Nat) : Nat :=
  match kind with
  | 1 => sync % 2 ^ 32
  | 4 => sync
  | _ => 0

/-- The slots as copied, lower numbers first, each judged against the legal ones before it (R136). -/
def judgeSlots : List SlotCopy → List SlotCopy → List SlotCopy
  | done, [] => done
  | done, p :: r =>
    let ok := (profClass p.kind p.rate).isSome && !((p.kind = 1 || p.kind = 4) && usedSync p.kind p.sync = 0) &&
      !(done.any fun q => q.legal && q.kind = p.kind && q.rate = p.rate && usedSync q.kind q.sync = usedSync p.kind p.sync)
    judgeSlots (done ++ [{ p with legal := ok }]) r

/-- The eight profile slots as a search copies them (R135, R136, R140, SPKq_FEC). -/
def slotCopies (s : State) : List SlotCopy :=
  judgeSlots [] ((List.range 8).map fun q =>
    { kind := rfld s (Reg.awnPkind q) 2 0, rate := rfld s (Reg.awnPkind q) 6 4,
      thr := clampNat 0x20 0x50 (rfld s (Reg.awnPthr q) 7 0), sync := rgroup s (Reg.awnSync q) 4, legal := false,
      fec := rget s (Reg.spkFec q) })

/-- The sync word's duration or 1.0 ms, whichever is shorter, in hundredths of a tick: Tm of R146. -/
def tmHundredths (p : SlotCopy) : Nat :=
  min 12288000
    (match p.kind with
     | 1 => 16 * 12288000000 / fskRate p.rate
     | 2 => Config.oqpskTicks p.rate 1 0 0 * 100 / 625
     | 3 => 393216
     | _ => if p.rate = 0 then 20971520 else 10485760)

/-! ## The search copy (R133, R148) -/

/-- A channel entry as a search copies it: what survives, and whether it was rejected or reduced (R133). -/
def copyEntry (s : State) (slots : List SlotCopy) (n c : Nat) : Option ChanCopy × Bool :=
  let cfg := rget s (Reg.awnChCfg n c)
  if ¬ bit cfg 15 then (none, false)
  else
    let off := sext 24 (rgroup s (Reg.awnChOff n c) 2)
    let cls := field cfg 9 8
    if 6000000 * hz < (off.natAbs : Int) * offUnit + classHalf cls * hz then (none, true)
    else
      let keep := (List.range 8).filter fun q =>
        bit cfg q && (match slots[q]? with
          | some p => p.legal && profClass p.kind p.rate = some cls
          | none => false)
      let lost := (List.range 8).any fun q => bit cfg q && !keep.contains q
      let mask := (keep.map (2 ^ ·)).sum
      (if mask = 0 then none else some { chan := c, off := off, cls := cls, pmask := mask }, lost)

/-- Take the search copy, mark the entries, count the survivors (R133, R136, R148). -/
def searchCopy (s : State) (n : Nat) : State :=
  let slots := slotCopies s
  let es := (List.range 48).map (copyEntry s slots n)
  let s := es.zipIdx.foldl (fun s e => rsetBit s (Reg.awnChCfg n e.2) 14 e.1.2) s
  let live := es.filterMap Prod.fst
  let s := rsetFld s (Reg.awnStat n) 9 4 live.length
  let badSlot := slots.any fun p => decide (p.kind ≠ 0) && !p.legal
  let badCh := es.any Prod.snd
  let s := s.updSearch n fun a => { a with entries := live, slots := slots, bmode := rbit s (Reg.awnCtl n) 2 }
  if badSlot ∨ badCh then setEvt s (Reg.awnEvt n) (w16 (16 * badSlot.toNat + 8 * badCh.toNat)) else s

/-- 2 µs have not passed between the arrival of a write and tick `t` (R148, R149, R220).  Log 37 (DESIGN CHOICE). -/
def within2us (s : State) (t : Nat) : Bool := decide (100 * t < 100 * shadow s + 24576)

/-- The search enters STARTING with its copy; `ats` is ATSEL as it acts (R148, R150). -/
def searchBegin (s : State) (n : Nat) (ats : Bool) : State :=
  let s := setState (searchCopy s n) (.awn (finSheaf n)) 1
  let t := sampleAt s (rgroup s Reg.awnAt 4)
  let late := ats && within2us s t
  let s := s.updSearch n fun a => { a with startAt := some (if ats ∧ ¬ late then t else s.time.now), stopAt := none, heldStop := none }
  if late then evt s (Reg.awnEvt n) 2 else s

/-- A stop acts with S its first sample excluded (R149). -/
def searchStopAt (s : State) (n S : Nat) : State :=
  let s := drainState s (.awn (finSheaf n))
  (rsetBit s (Reg.awnStat n) 2 false).updSearch n fun a => { a with stopAt := some S, heldStop := none, startAt := none }

/-- A write of 0 to EN of a search that runs (R149). -/
def searchDisable (s : State) (n : Nat) (ats : Bool) : State :=
  let t := sampleAt s (rgroup s Reg.awnAt 4)
  if ats ∧ ¬ within2us s t then
    (rsetBit s (Reg.awnStat n) 2 true).updSearch n fun a => { a with heldStop := some t }
  else
    let s := searchStopAt s n (sampleAt s (s.time.now + 1))
    if ats then evt s (Reg.awnEvt n) 2 else s

/-- A write to `AWNs_CTL` (R73 to R76, R102, R148, R149). -/
def awnCtlWrite (n : Nat) (v : Word) (s : State) : State :=
  let b : BlockId := .awn (finSheaf n)
  let wasEn := enOf s b
  let s := rsetFld s (Reg.awnCtl n) 2 1 (field v 2 1)
  let s := if bit v 3 then rset (rset (rset s (Reg.awnNdet n) 0) (Reg.awnNmerge n) 0) (Reg.awnNdisc n) 0 else s
  let st := stateOf s b
  if bit v 0 then
    if rbit s (Reg.awnStat n) 2 then (rsetBit s (Reg.awnStat n) 2 false).updSearch n fun a => { a with heldStop := none }
    else if wasEn ∨ rxSealed s then s
    else if st = 0 then searchBegin (setEn s b true) n (bit v 1)
    else setEn s b true
  else if ¬ wasEn then s
  else if st = 3 ∨ st = 0 then setEn s b false
  else searchDisable s n (bit v 1)

/-! ## Groups (R138 to R143, R150) -/

/-- The sync word that a candidate's form is searched with is not zero: a zero SFD word of SUN-FSK is not searched, and only SUN-FSK
has a coded form (R136). -/
def wordSearched (p : SlotCopy) (coded : Bool) : Bool :=
  if p.kind = 1 then decide ((if coded then p.sync / 65536 else p.sync) % 65536 ≠ 0) else !coded

/-- A candidate found at the port sample `t` by a search that is ON arises (R132, R136, R138, R139, R141, R148, R149). -/
def candidateOk (s : State) (n t : Nat) (c : Candidate) : Option (ChanCopy × SlotCopy) :=
  let a := s.search n
  match a.entries.find? (fun e => e.chan = c.chan.val), a.slots[c.prof.val]? with
  | some e, some p =>
    let tm := tmHundredths p
    let start := max a.began ((s.sheaf n).capture.getD 0)
    if e.pmask.testBit c.prof.val && wordSearched p c.coded && streamSample s e.cls t && decide ((p.thr : Int) ≤ c.m) &&
       decide ((c.foff.natAbs : Int) * offUnit ≤ classAcq e.cls * hz) &&
       (match a.stopAt with | some S => decide (c.synct < S) | none => true) &&
       decide (100 * start + tm ≤ 100 * c.synct) && (!a.bmode || portLive s (8 * n + c.beam.val))
    then some (e, p) else none
  | _, _ => none

/-- The ports live over the whole measurement interval (R146). -/
def livePorts (s : State) (n tm synct : Nat) : List Bool :=
  (portsOf n).map fun p => portLive s p && (match (s.port p).liveSince with
    | some t => decide (100 * t + tm ≤ 100 * synct)
    | none => false)

/-- Candidates in order of SYNCT, later arrivals after equal ones.  Log 37 (DESIGN CHOICE). -/
def insertCand (g : GroupCand) : List GroupCand → List GroupCand
  | [] => [g]
  | h :: r => if g.cand.synct < h.cand.synct then g :: h :: r else h :: insertCand g r

/-- The group that a candidate opens: A is its SYNCT and W that of its class (R142). -/
def openGroup (prof : Nat) (centre : Int) (c : GroupCand) : DupGroup :=
  { prof := prof, centre := centre, a := c.cand.synct, w := classWindow c.cls, cands := [c] }

/-- Groups of candidates in order of SYNCT: the earliest not yet in a group opens one (R142). -/
def groupUp (prof : Nat) (centre : Int) : List DupGroup → List GroupCand → List DupGroup
  | acc, [] => acc.reverse
  | [], c :: r => groupUp prof centre [openGroup prof centre c] r
  | g :: acc, c :: r =>
    if c.cand.synct < g.a + g.w then groupUp prof centre ({ g with cands := g.cands ++ [c] } :: acc) r
    else groupUp prof centre (openGroup prof centre c :: g :: acc) r

/-- A candidate joins the groups of its set: same profile slot, centres within 1 kHz (R142).  Log 37 (DESIGN CHOICE). -/
def joinGroups (s : State) (n : Nat) (e : ChanCopy) (p : SlotCopy) (c : Candidate) : State :=
  let centre := sheafLo s n + e.off * offUnit
  let g : GroupCand := { sheaf := n, cand := c, ports := livePorts s n (tmHundredths p) c.synct, cls := e.cls }
  let mine := fun (d : DupGroup) => decide (d.prof = c.prof.val) && decide ((d.centre - centre).natAbs ≤ 1000 * 98304)
  let set := (s.groups.filter mine)
  let centre := match set with
    | d :: _ => d.centre
    | [] => centre
  let cands := insertCand g (set.foldl (fun l d => d.cands.foldl (fun l x => insertCand x l) l) [])
  { s with groups := s.groups.filter (fun d => !mine d) ++ groupUp c.prof.val centre [] cands }

/-- A candidate of a sample: it joins a group when it arises. -/
def offerCandidate (n t : Nat) (s : State) (c : Candidate) : State :=
  match candidateOk s n t c with
  | some (e, p) => joinGroups s n e p c
  | none => s

/-- `a` beats `b` for a group's record (R143). -/
def beats (a b : GroupCand) : Bool :=
  if a.cand.m ≠ b.cand.m then decide (b.cand.m < a.cand.m)
  else if a.sheaf ≠ b.sheaf then decide (a.sheaf < b.sheaf)
  else if a.cand.beam ≠ b.cand.beam then decide (a.cand.beam.val < b.cand.beam.val)
  else if a.cand.chan ≠ b.cand.chan then decide (a.cand.chan.val < b.cand.chan.val)
  else decide (16 * a.cand.synct + a.cand.subt.val < 16 * b.cand.synct + b.cand.subt.val)

/-- The candidates of a group that may win (R143, R146, R150). -/
def contenders (g : DupGroup) : List GroupCand := g.cands.filter fun c => !c.gone && c.ports.any id

/-- The winner of a group. -/
def winner (g : DupGroup) : Option GroupCand :=
  match contenders g with
  | [] => none
  | a :: r => some (r.foldl (fun w c => if beats c w then c else w) a)

/-! ## Strength fields (R146, R147) -/

/-- The largest `k` below 2^`n` with `p k`, for a `p` that holds up to some point (0 if none). -/
def searchMax (p : Nat → Bool) : Nat → Nat → Nat
  | 0, acc => acc
  | n + 1, acc => searchMax p n (if p (acc + 2 ^ n) then acc + 2 ^ n else acc)

/-- A mean square on the scale of R79, in units of 2^-32, as power at the ball in mW × 10^1064 (R146).  Log 37 (DESIGN CHOICE). -/
def mwOf (p : Nat) : Nat := p * 10 ^ 1064 / (10 * 2 ^ 32 * 32767 ^ 2)

/-- A power in mW × 10^1064 as dBm rounded to 0.25 dB, halves away from zero, in 0.25 dBm units.  Log 37 (DESIGN CHOICE). -/
def dbmOf (x : Nat) : Int := (searchMax (fun k => decide (ampOf (2 * ((k : Int) - 2048) - 1) ≤ x)) 12 0 : Int) - 2048

/-- A port too weak for a measured byte: −139.5 dBm or less, or a per-port SNR below −10 dB (R147). -/
def weakPort (sig noise : Nat) : Bool := decide (10 * sig < noise) || decide (mwOf sig ≤ ampOf (-1116))

/-- RSSk of a contributing port (R147). -/
def rssOf (sig noise : Nat) : Nat :=
  if 10 * sig < noise then 1
  else clampNat 1 255 (searchMax (fun v => decide (ampOf (4 * (v : Int) - 1122) ≤ mwOf sig)) 8 0)

/-- The sum of the contributing ports' powers for RSSC (R147). -/
def rsscOf (l : List (Nat × Nat)) : Int :=
  dbmOf ((l.map fun e => if weakPort e.1 e.2 then ampOf (-1116) else mwOf e.1).sum)

/-- NOISE: the mean noise power of the contributing ports (R147). -/
def noiseOf (l : List (Nat × Nat)) : Int := dbmOf ((l.map fun e => mwOf e.2).sum / max 1 l.length)

/-- The detection record of a winner (R144). -/
def detOf (s : State) (w : GroupCand) : Det :=
  let c := w.cand
  let each := (List.range 8).map fun k => (w.ports.getD k false, c.sig.getD k 0, c.noise.getD k 0)
  let live := (each.filter fun e => e.1).map fun e => e.2
  { synct := c.synct, subt := c.subt.val, prof := c.prof.val, beam := c.beam.val, sheaf := w.sheaf, cls := w.cls,
    coded := c.coded, ports := ((w.ports.zipIdx.filter fun e => e.1).map fun e => 2 ^ e.2).sum, chan := c.chan.val,
    foff := c.foff, rss := each.map fun e => if e.1 then rssOf e.2.1 e.2.2 else 0, rssc := rsscOf live, snr := c.m,
    noise := noiseOf live, seq := (s.search w.sheaf).seq % 65536 }

/-- The 16 words of a detection record (R144); wider fields follow R4. -/
def detWords (d : Det) : List Word :=
  let b := fun k => d.rss.getD k 0 % 256
  wordsOf 4 d.synct ++
  [w16 (d.subt % 16 * 4096 + d.prof % 8 * 512 + d.beam % 8 * 64 + d.sheaf % 8 * 8 + d.cls % 4 * 2 + d.coded.toNat),
   w16 (d.ports % 256 * 256 + d.chan % 64)] ++ wordsOf 2 (BitVec.ofInt 32 d.foff).toNat ++
  [w16 (b 0 + 256 * b 1), w16 (b 2 + 256 * b 3), w16 (b 4 + 256 * b 5), w16 (b 6 + 256 * b 7), i16 d.rssc, i16 d.snr, i16 d.noise, w16 d.seq]

/-- Insert a number into a rising list. -/
def insertNat (x : Nat) : List Nat → List Nat
  | [] => [x]
  | y :: r => if x ≤ y then x :: y :: r else y :: insertNat x r

/-- Port `k` contributes to a record at least 20 dB below the median of the other contributing ports (15 R395); of an even number the
median is the mean of the middle two: log 88 (DESIGN CHOICE). -/
def faintIn (d : Det) (k : Nat) : Bool :=
  let others := (((List.range 8).filter fun j => decide (j ≠ k) && d.ports.testBit j).map fun j => d.rss.getD j 0).foldr insertNat []
  let m := others.length
  decide (d.ports.testBit k ∧ 0 < m ∧ 2 * d.rss.getD k 0 + 80 ≤ others.getD ((m - 1) / 2) 0 + others.getD (m / 2) 0)

/-- The ports' runs of faint records after one more record of their sheaf (15 R395). -/
def countFaint (s : State) (d : Det) : State :=
  (List.range 8).foldl (fun s k => s.updPort (8 * d.sheaf + k) fun h => { h with faint := if faintIn d k then h.faint + 1 else 0 }) s

/-- A group closes (R142, R143): one record from its winner, and a count for each candidate that loses. -/
def closeGroup (s : State) (g : DupGroup) : State :=
  let s := { s with groups := s.groups.filter fun d => d ≠ g }
  match winner g with
  | none => s
  | some w =>
    let s := ((contenders g).erase w).foldl (fun s c => bump s (Reg.awnNmerge c.sheaf)) s
    let d := detOf s w
    let s := countFaint { s with detq := s.detq ++ [d] } d
    let s := s.updSearch w.sheaf fun a => { a with seq := a.seq + 1 }
    evt (bump (bump s (Reg.awnNdet w.sheaf)) (Reg.awnPndet d.prof)) (Reg.awnEvt w.sheaf) 0

/-- The sheaf leaves ON (R150): its candidates in open groups are discarded, and its search, unless OFF, drains with a restart as if EN
had been written 0 and then 1, also where it drained already. -/
def searchSheafOff (s : State) (n : Nat) : State :=
  let b : BlockId := .awn (finSheaf n)
  if stateOf s b = 0 then s
  else
    let lost := (s.groups.flatMap fun g => g.cands.filter fun c => decide (c.sheaf = n) && !c.gone).length
    let gs := s.groups.map fun g => { g with cands := g.cands.map fun c => if c.sheaf = n then { c with gone := true } else c }
    let s := { s with groups := gs.filter fun g => g.cands.any fun c => !c.gone }
    let s := if lost = 0 then s else evt (bump s (Reg.awnNdisc n) lost) (Reg.awnEvt n) 1
    let s := setEn (drainState s b) b true
    (rsetBit s (Reg.awnStat n) 2 false).updSearch n fun a => { a with heldStop := none, startAt := none, stopAt := some 0 }

/-- No group holds a candidate of the sheaf: the search's drain may complete (R149). -/
def searchDrained (s : State) (n : Nat) : Bool :=
  s.groups.all fun g => g.cands.all fun c => decide (c.sheaf ≠ n) || c.gone

/-! ## The commands -/

/-- A search reaches its start instant while its sheaf is ON (R148). -/
def execSearchStart (n : Fin 8) (s : State) : Host.Outcome State Fault Refusal :=
  .next (
    match (s.search n).startAt with
    | some t =>
      if stateOf s (.awn n) = 1 ∧ shfState s n = 2 then
        let b := sampleAt s (max t s.time.now)
        (setState (reach s b) (.awn n) 2).updSearch n fun a => { a with startAt := none, stopAt := none, began := b, seq := 0 }
      else s
    | none => s)

/-- A held stop acts at its sample instant (R149). -/
def execSearchStop (n : Fin 8) (s : State) : Host.Outcome State Fault Refusal :=
  .next (
    match (s.search n).heldStop with
    | some t => searchStopAt (reach s t) n t
    | none => s)

/-- The open group that ends first closes (R142, R143). -/
def execGroupClose (s : State) : Host.Outcome State Fault Refusal :=
  .next (
    match s.groups with
    | [] => s
    | g :: r =>
      let f := r.foldl (fun a b => if b.a + b.w < a.a + a.w then b else a) g
      closeGroup (reach s (f.a + f.w)) f)

end Sys2Proof.Machine
end

