-- ==== Sys2Proof/Machine/Combine.lean ====
section
/-!
DEFINITION. From a spikelet's ring samples to its bits (06_demodulation R153 to R159, R163 to R166, R168, R170, R172): the channel
estimates and weights, the combined signal, the soft values, the header and the decoded PSDU.  Durations are in units of 1/10,000 tick.
Log 100 (DESIGN CHOICE).
-/

namespace Sys2Proof.Machine

/-! ## Durations (R153 to R159, R166, R168) -/

/-- A symbol of SUN-FSK. -/
def fskSymbol (rate : Nat) : Nat := 1228800000000 / fskRate rate

/-- Bits carried by a SUN-FSK symbol.  Log 40 (DESIGN CHOICE). -/
def fskBits (rate : Nat) : Nat := if 4 ≤ rate then 2 else 1

/-- A Longfield symbol. -/
def lfSymbol (rate : Nat) : Nat := if rate = 0 then 32768000 else 16384000

/-- `SPKq_FEC.SCHEME` of a slot: the RSC code. -/
def SlotCopy.rsc (p : SlotCopy) : Bool := bit p.fec 0

/-- `SPKq_FEC.ILV` of a slot: the interleaver is used. -/
def SlotCopy.ilv (p : SlotCopy) : Bool := bit p.fec 1

/-- Duration from the end of the sync word to the end of the last symbol (R166).  Log 40 (DESIGN CHOICE). -/
def bodyTime (p : SlotCopy) (coded : Bool) (len mode : Nat) : Nat :=
  match p.kind with
  | 1 => (fskAirBits coded p.rsc p.ilv len + fskBits p.rate - 1) / fskBits p.rate * fskSymbol p.rate
  | 2 => Config.oqpskTicks p.rate 2 len mode * 16
  | 3 => (1 + len) * 39321600
  | _ => (90 + 384 * lfBlocks len) * lfSymbol p.rate

/-- Duration of the synchronisation header (08, "Frames on the slot grid"), with `pre` preamble octets.  Log 40 (DESIGN CHOICE). -/
def shrTime (p : SlotCopy) (pre : Nat) : Nat :=
  match p.kind with
  | 1 => (8 * clampNat 4 1000 pre + 16) * fskSymbol p.rate
  | 2 => Config.oqpskTicks p.rate 0 0 0 * 16
  | 3 => 196608000
  | _ => 128 * lfSymbol p.rate

/-- Ld of a frame, in ticks (R168). -/
def ldTicks (p : SlotCopy) (coded : Bool) : Nat :=
  match p.kind with
  | 1 => if coded then 6144 else 3072
  | 2 => if p.rate = 0 then 7680 else 3840
  | 3 => 2304
  | _ => 7680

/-- Soft-bit positions of a frame (R170, R347); those of SUN-O-QPSK follow the standard.  Log 41 (DESIGN CHOICE). -/
def softCount (p : SlotCopy) (coded : Bool) (len mode : Nat) : Nat :=
  match p.kind with
  | 1 => fskAirBits coded p.rsc p.ilv len
  | 2 => Config.openValue 170 (65536 * p.rate + 2048 * mode + len)
  | 3 => 8 * (1 + len)
  | _ => 90 + 3 * (8 * len + 6)

/-- Soft-bit positions of a header: 16 bits, or 40 information bits of a coded stream (R153, R168); 8 bits; a Longfield header block. -/
def headBits (p : SlotCopy) (coded : Bool) : Nat :=
  match p.kind with
  | 1 => if coded then 80 else 16
  | 2 => Config.oqpskPhrBits p.rate
  | 3 => 8
  | _ => 90

/-- The place on air of a soft-bit position: positions are counted in de-interleaved order (R170). -/
def bitPlace (p : SlotCopy) (coded : Bool) (pos : Nat) : Nat :=
  match p.kind with
  | 1 => fskPlace coded p.ilv pos
  | 4 => lfPlace pos
  | _ => pos

/-- From the end of the sync word to the end of the symbol at a place on air; the whole field for SUN-O-QPSK, whose spreading is the
standard's. -/
def placeTime (p : SlotCopy) (len mode place : Nat) : Nat :=
  match p.kind with
  | 1 => (place / fskBits p.rate + 1) * fskSymbol p.rate
  | 2 => if place < Config.oqpskPhrBits p.rate then Config.oqpskTicks p.rate 3 0 0 * 16 else Config.oqpskTicks p.rate 2 len mode * 16
  | 3 => (place / 4 + 1) * 19660800
  | _ => (place + 1) * lfSymbol p.rate

/-- From the end of the sync word to the end of the header (06, "Life of a spikelet", step 3). -/
def headTime (p : SlotCopy) (coded : Bool) : Nat :=
  ((List.range (headBits p coded)).map fun i => placeTime p 0 0 (bitPlace p coded i)).foldl max 0

/-! ## Estimates and weights (R163) -/

/-- Product of complex integers. -/
def cmul (a b : Int × Int) : Int × Int := (a.1 * b.1 - a.2 * b.2, a.1 * b.2 + a.2 * b.1)

/-- Complex conjugate. -/
def conj (a : Int × Int) : Int × Int := (a.1, -a.2)

/-- Squared magnitude. -/
def sqMag (a : Int × Int) : Nat := (a.1 * a.1 + a.2 * a.2).toNat

/-- Sum of complex integers. -/
def csum (l : List (Int × Int)) : Int × Int := l.foldl (fun a b => (a.1 + b.1, a.2 + b.2)) (0, 0)

/-- The larger component magnitude among complex integers. -/
def topOf (l : List (Int × Int)) : Nat := l.foldl (fun m a => max m (max a.1.natAbs a.2.natAbs)) 0

/-- One component in Q15 when the largest magnitude `most` of its set takes the value `top`; where every component is zero the scale is
not stated, and the value is free. -/
def q15 (top most : Nat) (v : Int) : Int :=
  if most = 0 then sext 16 (Config.openValue 163 0) else clampInt (-32768) 32767 (divRound (v * (top : Int)) most)

/-- The largest component's value after a common scaling: in [0.5, 1), the specification does not say where. -/
def topValue (index : Nat) : Nat := 16384 + Config.openValue 163 index % 16384

/-- Stream samples over the sync word: N. -/
def syncSamples (x : Spikelet) : Nat := tmHundredths x.slot / (100 * classPeriod x.det.cls)

/-- Instant of stream sample `j` after SYNCT, in 1/16 tick; negative `j` count back from it. -/
def instantOf (x : Spikelet) (j : Int) : Nat := (16 * (x.det.synct : Int) + x.det.subt + j * (16 * classPeriod x.det.cls : Nat)).toNat

/-- Port `k`'s stream at an instant: its ring samples to there, shifted by FOFF, filtered and decimated. -/
def streamAt (x : Spikelet) (k at16 : Nat) : Int × Int :=
  Config.portStream x.det.cls x.off x.det.foff
    ((x.buf.filter fun r => decide (16 * r.tick ≤ at16)).map fun r => (r.tick, r.x.getD k (0, 0))) at16

/-- PORTS names port `k` of the sheaf. -/
def Spikelet.namesPort (x : Spikelet) (k : Nat) : Bool := x.det.ports.testBit k

/-- h_k as Σ x·conj(r), and σ_k² as Σ |x·N·2²⁸ − Σ x·conj(r)·r|². -/
def portEst (x : Spikelet) (k : Nat) : (Int × Int) × Nat :=
  let n := syncSamples x
  let l := (List.range n).map fun (j : Nat) =>
    (streamAt x k (instantOf x ((j : Int) - n)), Config.syncWave x.slot.kind x.slot.rate x.slot.sync x.det.coded j)
  let h := csum (l.map fun e => cmul e.1 (conj e.2))
  let c : Int := n * 2 ^ 28
  (h, (l.map fun e => let m := cmul h e.2; sqMag (e.1.1 * c - m.1, e.1.2 * c - m.2)).sum)

/-- Product of the noise variances of a set of ports. -/
def noiseProd (noise : List Nat) (ports : List Nat) : Nat := (ports.map fun k => noise.getD k 1).foldl (· * ·) 1

/-- Σ |h_k|² × the product of the other ports' noise: γ over the ports is N × 2²⁸ times this, by the product of all their noise. -/
def gainSum (gain : List (Int × Int)) (noise : List Nat) (ports : List Nat) : Nat :=
  (ports.map fun k => sqMag (gain.getD k (0, 0)) * noiseProd noise (ports.filter (· ≠ k))).sum

/-- The ports of a mask of eight. -/
def portsIn (l : List Bool) : List Nat := (List.range 8).filter fun k => l.getD k false

/-- Channel estimates, noise variances, weights and H0 to H7 (R163).  Where a port's noise variance comes out as zero the specification
states no weights: a free value stands in its place. -/
def estimate (x : Spikelet) : Est :=
  let named := (List.range 8).map x.namesPort
  let e := (List.range 8).map fun k => if x.namesPort k then portEst x k else ((0, 0), 1)
  let gain := e.map Prod.fst
  let noise := e.zipIdx.map fun a => if a.1.2 = 0 then 1 + Config.openValue 163 (16 + a.2) else a.1.2
  let ports := portsIn named
  let raw := (List.range 8).map fun k =>
    if x.namesPort k then
      let p : Nat := noiseProd noise (ports.filter (· ≠ k)) * syncSamples x * 2 ^ 14
      let c := conj (gain.getD k (0, 0))
      (c.1 * (p : Int), c.2 * (p : Int))
    else (0, 0)
  let most := topOf raw
  let top := topValue 1
  let hMost := topOf gain
  { n := syncSamples x, named := named, gain := gain, noise := noise, top := top, most := most
    w := (List.range 8).map fun k => if x.namesPort k then let v := raw.getD k (0, 0); (q15 top most v.1, q15 top most v.2) else (0, 0)
    h := (List.range 8).flatMap fun k =>
      if x.namesPort k then let v := gain.getD k (0, 0); [i16 (q15 (topValue 2) hMost v.1), i16 (q15 (topValue 2) hMost v.2)] else [0, 0] }

/-- 10 log₁₀ γ in 0.25 dB, to nearest; of γ = 0 the specification states none (R172). -/
def snrOf (e : Est) : Int :=
  let p := portsIn e.named
  let g := e.n * 2 ^ 28 * gainSum e.gain e.noise p
  if g = 0 then sext 16 (Config.openValue 172 0) else dbmOf (g * 10 ^ 1064 / noiseProd e.noise p)

/-! ## The combined signal (R163, R164) -/

/-- The ports whose weight is not yet zeroed at an instant: named, and marked by no sample of the ring up to there (R164). -/
def weighted (x : Spikelet) (e : Est) (at16 : Nat) : List Nat :=
  (portsIn e.named).filter fun k => x.buf.all fun r => decide (at16 < 16 * r.tick) || r.live.getD k false

/-- The combined signal at an instant with the variance of its noise, 1/γ over the ports still weighted on the scale of the weights. -/
def combinedAt (x : Spikelet) (e : Est) (at16 : Nat) : (Int × Int) × Nat × Nat :=
  let ports := weighted x e at16
  let all := gainSum e.gain e.noise (portsIn e.named)
  (csum (ports.map fun k => cmul (e.w.getD k (0, 0)) (streamAt x k at16)),
   e.top ^ 2 * all ^ 2 * noiseProd e.noise ports, e.most ^ 2 * e.n * 2 ^ 28 * gainSum e.gain e.noise ports)

/-- The combined signal from SYNCT for a duration. -/
def combined (x : Spikelet) (e : Est) (time : Nat) : List ((Int × Int) × Nat × Nat) :=
  (List.range (time / (10000 * classPeriod x.det.cls) + 1)).map fun (j : Nat) => combinedAt x e (instantOf x j)

/-! ## Soft values (R165, R170) -/

/-- λ of a position (R165): the log-likelihood ratio of its bit by 4, rounded and clamped. -/
def softAt (x : Spikelet) (e : Est) (len mode pos : Nat) : Int :=
  let place := bitPlace x.slot x.det.coded pos
  clampInt (-127) 127 (divRound (4 * Config.llr x.slot.kind x.slot.rate place (combined x e (placeTime x.slot len mode place))) 65536)

/-- The spikelet's own soft values of its first `n` positions: zero for a frame known from contributions alone (R171). -/
def ownSoft (x : Spikelet) (len mode n : Nat) : List Int :=
  match x.est with
  | some e => if x.own then (List.range n).map (softAt x e len mode) else List.replicate n 0
  | none => List.replicate n 0

/-- The merge (R170): the exact sum of the spikelet's own soft values and the contributions', clamped once. -/
def mergedSoft (own lam : List Int) : List Int := own.zipIdx.map fun e => clampInt (-127) 127 (e.1 + lam.getD e.2 0)

/-! ## Header (R153 to R158, R165) -/

/-- What a header decision fixes. -/
structure HeadInfo where
  len  : Nat
  fcst : Bool
  dw   : Bool
  mode : Nat

/-- FCS octets. -/
def fcsLen (fcst : Bool) : Nat := if fcst then 2 else 4

/-- A length is in range: at least its FCS plus one octet, at most what the profile carries (R156, R158, R165). -/
def lenOk (kind len : Nat) (fcst : Bool) : Bool :=
  decide (fcsLen fcst + 1 ≤ len ∧ len ≤ 2047) && (decide (kind ≠ 3) || decide (len ≤ 127))

/-- The header as decided: none for a header failure. -/
def headInfo (p : SlotCopy) (h : Header) : Option HeadInfo :=
  let r : Option HeadInfo := match p.kind, h with
    | 1, .sunFsk len fcst dw => some ⟨len, fcst, dw, 0⟩
    | 2, .sunOqpsk len fcst md rm => if Config.oqpskModeLegal p.rate (16 * md.toNat + rm) then some ⟨len, fcst, false, 16 * md.toNat + rm⟩ else none
    | 3, .oqpsk len => some ⟨len, true, false, 0⟩
    | 4, .longfield bits =>
      if bits / 65536 % 256 = hcrc bits ∧ bits / 4096 % 16 = 0 then some ⟨bits % 2048, bits.testBit 11, false, 0⟩ else none
    | _, _ => none
  match r with
  | some i => if lenOk p.kind i.len i.fcst then some i else none
  | none => none

/-- The rate mode of a decided SUN-O-QPSK header, as 16 × MDSSS + RMODE. -/
def headMode (h : Option Header) : Nat :=
  match h with
  | some (.sunOqpsk _ _ md rm) => 16 * md.toNat + rm
  | _ => 0

/-- The SUN-FSK PHR of 16 bits: a mode switch, a failure for a reserved bit, or its fields.  Log 101 (PRESUMED). -/
def fskHeader (b : List Bool) : Header :=
  if b.getD 0 false then .modeSwitch
  else if b.getD 1 false || b.getD 2 false then .bad
  else .sunFsk (ofBits ((b.drop 5).take 11).reverse) (b.getD 3 false) (b.getD 4 false)

/-- The header decided from soft values (R153 to R158, R165): of a coded SUN-FSK frame by a forced trace-back after 40 information bits. -/
def headerOf (p : SlotCopy) (coded : Bool) (lam : List Int) : Header :=
  match p.kind with
  | 1 => fskHeader (if coded then (fskDecode p.rsc false 40 lam).take 16 else (lam.take 16).map hardBit)
  | 2 =>
    let r := Config.oqpskPhr p.rate lam
    if r.1 then .sunOqpsk (r.2.1 % 2048) r.2.2.1 r.2.2.2.1 (r.2.2.2.2 % 16) else .bad
  | 3 => let v := ofBits ((lam.take 8).map hardBit); if 128 ≤ v then .bad else .oqpsk v
  | _ => .longfield (ofBits (lfDecode 24 lam))

/-! ## The decoded frame (R153 to R159, R168, R172) -/

/-- What decoding a frame gives: whether the PHR of the full decode is the one decided, the PSDU with its FCS, and NCORR. -/
structure Decoded where
  phr   : Bool
  psdu  : List Octet
  ncorr : Nat

/-- The frame of a decided length from its merged soft values: trellis decoding or signs, whitening removed. -/
def decodeFrame (p : SlotCopy) (coded : Bool) (len : Nat) (fcst dw : Bool) (mode : Nat) (lam : List Int) : Decoded :=
  match p.kind with
  | 1 =>
    if coded then
      let n := fskAirBits true p.rsc p.ilv len / 2
      let info := fskDecode p.rsc true n lam
      let b := (info.drop 16).take (8 * len)
      { phr := decide (info.take 16 = fskPhr len fcst dw), psdu := bitOctets len (if dw then whiten b else b)
        ncorr := signDiffs lam (encode (fskCode p.rsc) info) }
    else
      let b := ((lam.drop 16).take (8 * len)).map hardBit
      { phr := true, psdu := bitOctets len (if dw then whiten b else b), ncorr := 0 }
  | 2 => { phr := true, psdu := padOctets len (Config.oqpskPsdu p.rate mode len lam), ncorr := Config.oqpskDiffs p.rate mode len lam }
  | 3 => { phr := true, psdu := bitOctets len (((lam.drop 8).take (8 * len)).map hardBit), ncorr := 0 }
  | _ =>
    let tail := List.replicate 6 false
    let b := lfDecode (8 * len) (lam.drop 90)
    { phr := true, psdu := bitOctets len (whiten b)
      ncorr := signDiffs lam (encode lfTrellis (lfDecode 24 (lam.take 90) ++ tail) ++ encode lfTrellis (b ++ tail)) }

/-! ## A frame to be sent (R157 to R159; 08 R206) -/

/-- The bits on air after the synchronisation header: the header built from the frame's fields, and the PSDU with its FCS. -/
def airBody (p : SlotCopy) (coded fcst dw : Bool) (mode : Nat) (psdu : List Octet) : List Bool :=
  match p.kind with
  | 1 => fskAir coded p.rsc p.ilv psdu.length fcst dw psdu
  | 2 => Config.oqpskAir p.rate mode fcst psdu
  | 3 => oqpskBits psdu.length psdu
  | _ => lfAir psdu.length fcst psdu

/-- The synchronisation header on air: the Longfield preamble 0, 1, 0, 1, … and sync word, bit 0 first (R157), or the standard's. -/
def airShr (p : SlotCopy) (coded : Bool) (pre : Nat) : List Bool :=
  match p.kind with
  | 4 => (List.range 64).map (fun k => decide (k % 2 = 1)) ++ (List.range 64).map p.sync.testBit
  | k => Config.stdShr k p.rate (if coded then p.sync / 65536 % 65536 else p.sync % 65536) pre

end Sys2Proof.Machine
end

