-- ==== Sys2Proof/Machine/Usl.lean ====
section
/-!
DEFINITION. Useth frames and the cluster's view of its chips (13_sage_cluster R338 to R349).
-/

namespace Sys2Proof.Machine

/-- The cluster is formed. -/
def inCluster (s : State) : Bool := rbit s Reg.uslStat 15

/-- The mode makes the chip a decoding chip: HOSTED or AUTONOMOUS (R340). -/
def decodes (s : State) : Bool := modeOf s = 2 ∨ modeOf s = 3

/-- The chip is a MEMBER of a formed cluster. -/
def memberOnly (s : State) : Bool := modeOf s = 4

/-- The position of a chip number. -/
def posOf (s : State) (chip : Nat) : Option Nat := s.usl.chips.findIdx? fun c => c.1 = chip

/-- The chip is the default chip (R340). -/
def isDefault (s : State) : Bool := rfld s Reg.uslStat 11 8 = s.usl.pos

/-- The merge bound in force, in ticks: 0 outside a cluster (R349). -/
def mergeBound (s : State) : Nat := if inCluster s then (rget s Reg.uslLmact).toNat else 0

/-- DMASK of the decoding chips other than this one (R347). -/
def decoderMask (s : State) : Nat :=
  ((s.usl.chips.zipIdx.filter fun e => e.1.2 && decide (e.2 ≠ s.usl.pos)).map fun e => 2 ^ e.2).sum

/-- A Useth frame (R341): TYPE, class, DMASK, ARG words, payload cut to whole flits. -/
def uslFrame (s : State) (typ vc mask arg0 arg1 : Nat) (pay : List Octet) : List Octet :=
  let npay := (pay.length + 15) / 16
  let body := padOctets (16 * npay) pay
  let seq := if vc = 0 then s.usl.fseq.1 else s.usl.fseq.2
  let hd := unpackOctets [w16 (typ * 4096 + vc * 2048 + npay), w16 (chipNum s), w16 mask, w16 seq, w16 arg0, w16 arg1]
  hd ++ octetsLE 4 (crc32 (hd ++ body)) ++ body

/-- The ports by which a frame leaves, each with the positions it serves that way (R338, R341, R343): in a ring one of the ports that carry
frames, which of two is left open; in a line, by port 0 to the positions above this one and by port 1 to those below. -/
def uslWays (s : State) (mask : Nat) : List (Nat × Nat) :=
  if rbit s Reg.uslStat 14 then
    let up := [0, 1].filter fun n => rbit s (Reg.uslnStat n) 2
    ((if up.length = 2 then [Config.openValue 341 s.free % 2] else up).map fun n => (n, mask))
  else
    let low := mask % 2 ^ s.usl.pos
    [(0, mask - low), (1, low)].filter fun e => decide (e.2 ≠ 0)

/-- Send a frame when some position is to receive it; the source's frame number advances, and is the same both ways (R341).
Log 93 (DESIGN CHOICE). -/
def uslSend (s : State) (typ vc mask arg0 arg1 : Nat) (pay : List Octet) : State :=
  if mask = 0 then s
  else
    { s with
      free := s.free + 1
      out := { s.out with usl := s.out.usl ++ (uslWays s mask).map fun e => (e.1, typ, uslFrame s typ vc e.2 arg0 arg1 pay) }
      usl := { s.usl with fseq := if vc = 0 then (s.usl.fseq.1 + 1, s.usl.fseq.2) else (s.usl.fseq.1, s.usl.fseq.2 + 1) } }

/-- The flits of a contribution of `p` soft bits: its summary and its SOFT frames (R345, R347).  Log 41 (DESIGN CHOICE). -/
def contribFlits (p : Nat) : Nat := 2 + (p + 255) / 256 + (p + 15) / 16

/-- The backlog limit, between 64 and 4,096 flits.  Log 38 (DESIGN CHOICE). -/
def sbMax (s : State) : Nat := clampNat 64 4096 (rfld s Reg.uslSbmax 12 0)

/-- The SOFT frames of a contribution, 256 positions to a frame (R347).  Log 38 (DESIGN CHOICE). -/
def sendSoft (s : State) (fseq : Nat) (lam : List Int) : State :=
  let pay := lam.map fun v => BitVec.ofInt 8 (clampInt (-127) 127 v)
  (List.range ((pay.length + 255) / 256)).foldl (fun s b =>
    uslSend s 2 0 (decoderMask s) (fseq % 65536) b (slice pay (256 * b) 256)) s

/-! ## The directory (R351, R352) -/

/-- An entry of the directory is entered or removed; a key that finds it full is not entered.  Log 68 (DESIGN CHOICE). -/
def dirApply (s : State) (k : LookKey) (owner : Option Nat) : State :=
  let rest := s.sage.dir.filter fun e => e.1 ≠ k
  match owner with
  | none => { s with sage := { s.sage with dir := rest } }
  | some c =>
    if rest.length ≥ 65536 then evt s Reg.sagEvt 4
    else { s with sage := { s.sage with dir := (k, c) :: rest } }

/-- The entries whose AT is at or before `t` apply, in the order they came. -/
def dirUpTo (t : Nat) (s : State) : State :=
  let due := s.sage.dirPend.filter fun e => decide (e.1 ≤ t)
  let s := { s with sage := { s.sage with dirPend := s.sage.dirPend.filter fun e => !decide (e.1 ≤ t) } }
  due.foldl (fun s e => dirApply s e.2.1 e.2.2) s

/-- A DIR frame to the other decoding chips: the specification gives its content, the place of each part is the model's. -/
def dirSend (s : State) (k : LookKey) (owner : Nat) (remove : Bool) (at_ : Nat) : State :=
  uslSend s 3 1 (decoderMask s) 0 0
    (octetsLE 8 at_ ++ octetsLE 2 owner ++ octetsLE 1 remove.toNat ++ octetsLE 1 k.mode ++ octetsLE 2 k.pan ++ octetsLE 8 k.addr)

end Sys2Proof.Machine
end

