-- ==== Sys2Proof/Machine/Spike.lean ====
section
/-!
DEFINITION. Spikelets (06_demodulation R152 to R173) and contributions from other chips (13_sage_cluster R347, R348, R350); the sample
instant of a sheaf, whose ring they read (03_ports_and_sheaves R78 to R84).
-/

namespace Sys2Proof.Machine

/-! ## The pool (R152, R160, R161) -/

/-- Spikelets held for sheaf `n`. -/
def actOf (s : State) (n : Nat) : Nat := (s.spks.filter fun k => decide (k.det.sheaf = n)).length

/-- RES of a sheaf, at most 1,024. -/
def resOf (s : State) (n : Nat) : Nat := min 1024 (rfld s (Reg.spkRes n) 10 0)

/-- CAP of a sheaf, at most 1,024. -/
def capOf (s : State) (n : Nat) : Nat := min 1024 (rfld s (Reg.spkCap n) 10 0)

/-- The conditions of R160 for a record of sheaf `n`. -/
def mayAllocate (s : State) (n : Nat) : Bool :=
  let others := (((List.range 8).filter (· ≠ n)).map fun t => resOf s t - actOf s t).sum
  decide (actOf s n < capOf s n) && decide (s.spks.length < 1024) &&
  (decide (actOf s n < resOf s n) || decide (others < 1024 - s.spks.length))

/-- The lowest free spikelet.  Log 39 (DESIGN CHOICE). -/
def freeSpike (s : State) : Nat := ((List.range 1024).find? fun k => s.spks.all fun x => x.id ≠ k).getD 0

/-- Spikelet `k`. -/
def spikeOf (s : State) (k : Nat) : Option Spikelet := s.spks.find? fun x => x.id = k

/-- Change spikelet `k`. -/
def updSpike (s : State) (k : Nat) (f : Spikelet → Spikelet) : State :=
  { s with spks := s.spks.map fun x => if x.id = k then f x else x }

/-! ## Trellis decoders (R152, R168) -/

/-- A spikelet has a job for a trellis decoder: a coded SUN-FSK frame, or a Longfield header block and then its payload (R168). -/
def wantsDecoder (s : State) (x : Spikelet) : Bool :=
  ((decide (x.slot.kind = 1) && x.det.coded) || decide (x.slot.kind = 4)) && (x.est.isSome || !x.own) && (x.header.isNone || !memberOnly s)

/-- The order in which jobs are served (R168): the deadline ENDT + Ld + Lm, then sheaf, then SYNCT.  A header still to be decided counts
by the latest instant of its decision.  Log 100 (DESIGN CHOICE). -/
def jobKey (s : State) (x : Spikelet) : List Nat :=
  let due := if x.header.isSome then x.endt + ldTicks x.slot x.det.coded + mergeBound s
    else x.det.synct + headTime x.slot x.det.coded / 10000 + 2458
  [due, x.det.sheaf, x.det.synct, x.id]

/-- Jobs in the order they are served. -/
def insertJob (s : State) (x : Spikelet) : List Spikelet → List Spikelet
  | [] => [x]
  | h :: r => if keyLt (jobKey s x) (jobKey s h) then x :: h :: r else h :: insertJob s x r

/-- The jobs that the 16 decoders hold. -/
def servedJobs (s : State) : List Nat := (((s.spks.filter (wantsDecoder s)).foldl (fun l x => insertJob s x l) []).take 16).map Spikelet.id

/-- The decoders that hold no job. -/
def freeDecoders (s : State) : List Nat := (List.range 16).filter fun d => s.spks.all fun x => x.dec ≠ some d

/-- A job takes a free decoder; which one is not specified. -/
def takeDecoder (s : State) (k : Nat) : State :=
  let l := freeDecoders s
  let d := l[Config.openValue 168 s.free % max 1 l.length]?
  bumpFree (updSpike s k fun x => { x with dec := d })

/-- The decoders take up work in order of the deadlines (R168): a job past the first sixteen leaves its decoder, and one among them
without a decoder takes one. -/
def serveJobs (s : State) : State :=
  let ids := servedJobs s
  let s := { s with spks := s.spks.map fun x => if ids.contains x.id then x else { x with dec := none } }
  (ids.filter fun k => (spikeOf s k).any fun x => x.dec.isNone).foldl takeDecoder s

/-- `SPK_DECBUSY`: bit d while decoder d holds a job. -/
def decBusy (s : State) : Word := w16 ((s.spks.filterMap fun x => x.dec.map (2 ^ ·)).sum)

/-! ## Taking and freeing a spikelet -/

/-- Spikelet `k` is freed (R184), and its decoder with it. -/
def freeSpikelet (s : State) (k : Nat) (keep : Bool) : State :=
  let s := match spikeOf s k with
    | some x => (match x.hold with
      | some h => if keep then s else release s h
      | none => s)
    | none => s
  serveJobs { s with spks := s.spks.filter fun x => x.id ≠ k }

/-- Take a spikelet for a record; the conditions hold.  Log 39 (DESIGN CHOICE). -/
def takeSpike (s : State) (x : Spikelet) : State :=
  let s := { s with spks := { x with id := freeSpike s } :: s.spks }
  let s := bump s Reg.spkNalloc
  serveJobs (if (rget s Reg.spkPeak).toNat < s.spks.length then rset s Reg.spkPeak (w16 s.spks.length) else s)

/-- A record finds no spikelet (R160). -/
def poolVerdict (s : State) (d : Det) (origin : Nat) : State :=
  let s := evt (bump s Reg.spkNpool) Reg.spkEvt 0
  verdict s { detHead s d d.synct with origin := origin } 2 1 d.sheaf 0 0

/-- A write to `SPKs_RES` (R161). -/
def spkResWrite (n : Nat) (v : Word) (s : State) : State :=
  let sum := (((List.range 8).filter (· ≠ n)).map (resOf s)).sum + min 1024 (field v 10 0)
  if 1024 < sum then evt s Reg.spkEvt 7 else rwrite s (Reg.spkRes n) v

/-- A write to `SPK_CTL`. -/
def spkCtlWrite (v : Word) (s : State) : State :=
  let s := rwrite s Reg.spkCtl v
  let s := if bit v 1 then (List.range 8).foldl (fun s k => rset s (Reg.spkNalloc + k) 0) s else s
  if bit v 2 then rset s Reg.spkPeak (w16 s.spks.length) else s

/-! ## Endings (R165) -/

/-- LENV with LEN for a verdict. -/
def lenWord (x : Spikelet) : Word := if x.header.isSome then w16 (0x8000 + x.len) else 0

/-- The head of a spikelet's records. -/
def spikeHead (_s : State) (x : Spikelet) : RecHead :=
  { endt := x.endt, synct := x.det.synct, subt := x.det.subt, prof := x.det.prof, beam := x.det.beam,
    sheaf := x.det.sheaf, chan := x.det.chan, origin := x.origin }

/-- The DECODE verdict of a late frame of a cluster that ends without a record (R169); a frame with a record has its own from its owner,
and outside a cluster the verdict came with the deadline.  Log 69 (DESIGN CHOICE). -/
def lateVerdict (s : State) (x : Spikelet) : State :=
  if x.late && inCluster s then verdict s (spikeHead s x) 2 3 0 (lenWord x) 0 else s

/-- The spikelet ends HDRBAD or MSWITCH. -/
def endHeader (s : State) (x : Spikelet) : State := freeSpikelet (evt (bump (lateVerdict s x) Reg.spkNhdr) Reg.spkEvt 4) x.id false

/-- The spikelet ends BLANKED (R167).  Log 42 (DESIGN CHOICE). -/
def endBlanked (s : State) (x : Spikelet) : State := freeSpikelet (evt (bump s Reg.spkNblank) Reg.spkEvt 6) x.id false

/-- Blanking of a sheaf begins at `b5`, in fifths (R95, R167): a frame that has not reached its last sample ends, and one whose record
still waits ends when it is taken.  Log 42 (DESIGN CHOICE). -/
def spikeBlank (s : State) (n b5 : Nat) : State :=
  let s := s.updSheaf n fun h => { h with blankAt5 := b5 }
  (s.spks.filter fun x => decide (x.det.sheaf = n) && x.own && (x.header.isNone || decide (b5 ≤ 5 * x.endt))).foldl endBlanked s

/-- The spikelet ends INTEG: an integrity verdict of a cause (07 R191) with the number of the fault's record. -/
def endInteg (s : State) (x : Spikelet) (cause detail : Nat) : State :=
  let s := evt (bump s Reg.spkNinteg) Reg.spkEvt 3
  let h := spikeHead s x
  let h := if x.header.isNone then { h with endt := x.det.synct } else h
  freeSpikelet (verdict s h 3 cause detail (lenWord x) 0) x.id false

/-- The spikelet ends INTEG with a fault of class clock: its read point is overtaken (R162).  Log 43 (DESIGN CHOICE). -/
def endRing (s : State) (x : Spikelet) : State :=
  let seq := s.flt.seq
  let s := fault s { cls := 5, lasting := true, action := 10, typ := 2, inst := x.det.sheaf, addr := Config.openValue 162 s.free % 2 ^ 32 }
  endInteg (bumpFree s) x 2 (seq % 65536)

/-! ## The sample ring (01 R28, R43; R162) -/

/-- The rows of the ring that hold the sample of tick `t`, as macro and row of the macro (15, "Memory macros"): eight macros to a sheaf,
two rows to a sample.  Log 43 (DESIGN CHOICE). -/
def ringRows (n t : Nat) : List (Nat × Nat) :=
  let r := 2 * (t / 8 % 30720)
  [r, r + 1].map fun r => (137 + 8 * n + r / 7680, r % 7680)

/-- A poisoned row of the ring among those of some samples. -/
def ringPoison (s : State) (n : Nat) (rows : List RingRow) : Option (Nat × Nat) :=
  (rows.flatMap fun r => ringRows n r.tick).find? fun e => s.flt.bad.contains e

/-- Poisoned data read by a spikelet end it INTEG, with the consumer's own record (01 R43, 15 R392). -/
def endPoison (s : State) (x : Spikelet) (row : Nat × Nat) : State :=
  let seq := s.flt.seq % 65536
  let addr := (row.1 - 137) % 8 * 7680 + row.2
  let s := evt (fault s { cls := 1, lasting := false, sub := 2, action := 4, typ := 8, inst := 40, addr := addr, synd := 0x1FF, init := 40 }) Reg.fltEvt 2
  endInteg s x 1 seq

/-- Rows of a sheaf's ring found in error as spikelets read them (15 R382 to R384, R390). -/
def ringErrors (s : State) (n : Nat) (upsets : List Upset) : State :=
  (upsets.filter fun u => decide (137 + 8 * n ≤ u.unit ∧ u.unit ≤ 144 + 8 * n)).foldl (fun s u => rowError s u 40 false) s

/-- The first sample of a spikelet's estimation interval [SYNCT − Tm, SYNCT), in hundredths of a tick (R163). -/
def firstSample (x : Spikelet) : Nat := 100 * x.det.synct - tmHundredths x.slot

/-- The discarded interval that holds samples of a spikelet, if one does (01 R28). -/
def lostOf (s : State) (x : Spikelet) : Option LostRun :=
  (s.sheaf x.det.sheaf).lost.find? fun l => decide (firstSample x ≤ 100 * l.last) && (x.header.isNone || decide (l.first ≤ x.endt))

/-- The sample queue of a sheaf has no credit at tick `t` (01 R28): the sample is discarded, with one lasting record for the interval,
and every spikelet whose samples fall in it ends with an integrity verdict that names the record. -/
def loseSample (s : State) (n t : Nat) : State :=
  let h := s.sheaf n
  let s := match h.lost with
    | l :: r =>
      if l.last + 8 = t then s.updSheaf n fun h => { h with lost := { l with last := t } :: r }
      else fault (s.updSheaf n fun h => { h with lost := ⟨t, t, s.flt.seq % 65536⟩ :: h.lost })
        { cls := 5, lasting := true, action := 10, typ := 2, inst := n }
    | [] => fault (s.updSheaf n fun h => { h with lost := [⟨t, t, s.flt.seq % 65536⟩] }) { cls := 5, lasting := true, action := 10, typ := 2, inst := n }
  (s.spks.filter fun x => x.own && decide (x.det.sheaf = n)).foldl
    (fun s x => match lostOf s x with
      | some l => endInteg s x 3 l.seq
      | none => s) s

/-- A spikelet still reads its sheaf's ring at tick `t`: its weights are formed and its frame has not ended. -/
def reading (x : Spikelet) (n t : Nat) : Bool :=
  x.own && x.est.isSome && decide (x.det.sheaf = n) && (x.header.isNone || decide (t ≤ x.endt))

/-- A sample enters the ring and goes on to the spikelets that read it (R162); the rows it fills are stored whole, and poisoned no
more (01 R41). -/
def storeSample (s : State) (n : Nat) (row : RingRow) (upsets : List Upset) : State :=
  let rows := ringRows n row.tick
  let s := { s with flt := { s.flt with bad := s.flt.bad.filter fun e => !rows.contains e } }
  let s := s.updSheaf n fun h => { h with ring := (h.ring.filter fun r => decide (row.tick < r.tick + 245760)) ++ [row] }
  let s := ringErrors s n upsets
  let s := { s with spks := s.spks.map fun x => if reading x n row.tick then { x with buf := x.buf ++ [row] } else x }
  match ringPoison s n [row] with
  | some e => (s.spks.filter fun x => reading x n row.tick).foldl (fun s x => endPoison s x e) s
  | none => s

/-! ## Contributions (13 R347, R348, R350) -/

/-- A spikelet and a summary name the same frame: PROF, SHEAF, CHAN, and SYNCT within W (R348). -/
def sameFrame (x : Spikelet) (f : Summary) : Bool :=
  decide (x.det.prof = f.prof.val ∧ x.det.sheaf = f.sheaf.val ∧ x.det.chan = f.chan.val) &&
  decide (x.det.synct < f.synct + classWindow x.det.cls ∧ f.synct < x.det.synct + classWindow x.det.cls)

/-- Distance in SYNCT. -/
def gap (a b : Nat) : Nat := (a - b) + (b - a)

/-- A matching summary is noted at a spikelet: of two from one source the closer in SYNCT, then the earlier (R348). -/
def attach (x : Spikelet) (f : Summary) (late : Bool) : Spikelet :=
  let a : Ann := { chip := f.src, synct := f.synct, snr := f.snr, first := f.first, count := f.count, late := late }
  match x.ann.find? fun o => o.chip = f.src with
  | some o =>
    let d := gap x.det.synct f.synct
    let e := gap x.det.synct o.synct
    if d < e ∨ (d = e ∧ f.synct < o.synct) then { x with ann := a :: x.ann.filter fun o => o.chip ≠ f.src } else x
  | none => { x with ann := a :: x.ann }

/-- A spikelet for a frame known from contributions alone (R171): charged to the sheaf of the summary, reading no ring.  Log 69 (DESIGN CHOICE). -/
def contribSpike (s : State) (f : Summary) : State :=
  let n := f.sheaf.val
  let slot := (s.search n).slots.getD f.prof.val { kind := 0, rate := 0, thr := 0, sync := 0, legal := false, fec := 0 }
  let d : Det := { synct := f.synct, subt := f.subt.val, prof := f.prof.val, beam := f.beam.val, sheaf := n,
                   cls := (profClass slot.kind slot.rate).getD 0, coded := f.coded, ports := 0, chan := f.chan.val, foff := 0,
                   rss := List.replicate 8 0, rssc := -558, snr := f.snr, noise := 0, seq := 0 }
  if mayAllocate s n then
    takeSpike s (attach { id := 0, det := d, slot := slot, lo := (s.sheaf n).lo, div := (s.sheaf n).div,
                          off := (((s.search n).entries.find? fun e => e.chan = f.chan.val).map ChanCopy.off).getD 0,
                          own := false, origin := f.src, endt := f.endt, len := f.len } f false)
  else poolVerdict s d f.src

/-- The timestamps of a frame without a local detection are those of the contribution from the lowest-numbered chip (R171); a summary
that announced no positions, or came late, brings none. -/
def takeStamps (x : Spikelet) (f : Summary) (late : Bool) : Spikelet :=
  if x.own ∨ x.origin ≤ f.src ∨ late ∨ f.count = 0 then x
  else { x with origin := f.src, endt := f.endt, det := { x.det with synct := f.synct, subt := f.subt.val, beam := f.beam.val } }

/-- A summary meets the spikelets (R348): one whose header is decided with its LEN, one still to be decided, or none. -/
def meetSummary (s : State) (f : Summary) (late : Bool) : State :=
  match s.spks.find? fun x => sameFrame x f && (x.header.isSome || !x.own) && decide (x.len = f.len) with
  | some x => updSpike s x.id fun x => attach (takeStamps x f late) f late
  | none =>
    if s.spks.any (fun x => sameFrame x f && x.own && x.header.isNone) then
      { s with usl := { s.usl with sums := s.usl.sums ++ [f] } }
    else if late then verdict s { endt := f.endt, synct := f.synct, subt := f.subt.val, prof := f.prof.val, beam := f.beam.val,
                                  sheaf := f.sheaf.val, chan := f.chan.val, origin := f.src } 2 6 f.src (w16 (0x8000 + f.len)) 0
    else if f.count = 0 then s
    else contribSpike s f

/-- A SOFT frame belongs to a contribution that a spikelet takes: announced, in time, and not past the merge bound (R170, R350). -/
def softFor (f : SoftFrame) (x : Spikelet) : Bool :=
  decide (x.det.sheaf = f.sheaf.val) && !x.bound && x.ann.any fun a => a.chip = f.src && a.synct = f.synct && decide (a.count ≠ 0) && !a.late

/-- The positions of a SOFT frame that its summary announced, with their values (R170). -/
def softTaken (a : Ann) (f : SoftFrame) : List (Nat × Int) :=
  (f.lam.zipIdx f.first).filterMap fun e => if a.first ≤ e.2 ∧ e.2 < a.first + a.count then some (e.2, clampInt (-127) 127 e.1) else none

/-- The values of a SOFT frame join the sum by position (R170). -/
def takeSoft (f : SoftFrame) (x : Spikelet) : Spikelet :=
  match x.ann.find? fun a => a.chip = f.src && a.synct = f.synct with
  | some a =>
    let l := softTaken a f
    { x with
      ann := x.ann.map fun b => if b.chip = f.src then { b with got := min b.count (b.got + l.length) } else b
      lam := (List.range (max x.lam.length (a.first + a.count))).map fun p => x.lam.getD p 0 + ((l.find? fun e => e.1 = p).map Prod.snd).getD 0 }
  | none => x

/-- A SOFT frame meets the spikelets; one whose summary waits for a header waits with it. -/
def meetSoft (s : State) (f : SoftFrame) : State :=
  match s.spks.find? (softFor f) with
  | some x => updSpike s x.id (takeSoft f)
  | none =>
    if s.usl.sums.any fun g => decide (g.src = f.src ∧ g.synct = f.synct ∧ g.sheaf = f.sheaf) then
      { s with usl := { s.usl with softs := s.usl.softs ++ [f] } }
    else s

/-- The summaries kept for undecided headers are tried again, and then the SOFT frames that came after them. -/
def retrySums (s : State) : State :=
  let l := s.usl.sums
  let soft := s.usl.softs
  let s := l.foldl (fun s f => meetSummary s f (decide (f.endt + mergeBound s < f.arrive))) { s with usl := { s.usl with sums := [], softs := [] } }
  soft.foldl meetSoft s

/-- The SUMMARY of a header decided here (R345, R347). -/
def sendSummary (s : State) (x : Spikelet) : State :=
  if ¬ inCluster s ∨ ¬ x.own then s
  else
    let d := x.det
    let ann := decide (contribFlits (softCount x.slot d.coded x.len 0) ≤ sbMax s)
    let s := if ann then s else evt (bump s Reg.uslNnoann) Reg.uslEvt 5
    let w := (detWords d).take 5 ++ [w16 x.len, w16 (32768 * ann.toNat + d.chan), i16 d.snr]
    let seq := s.usl.fseq.1
    updSpike (uslSend s 1 0 (decoderMask s) 0 0 (unpackOctets w)) x.id fun y => { y with chips := if ann then seq + 1 else 0 }

/-- The chips whose contribution was announced and did not arrive in full (R350). -/
def missingOf (x : Spikelet) : List Nat := (x.ann.filter fun a => a.late || decide (a.got < a.count)).map Ann.chip

/-- CHIPS: positions whose contribution was merged in full (R350). -/
def chipsMask (s : State) (x : Spikelet) : Word :=
  w16 ((x.ann.filterMap fun a => if a.count ≠ 0 ∧ ¬ a.late ∧ a.count ≤ a.got then (posOf s a.chip).map (2 ^ ·) else none).sum)

/-! ## The commands -/

/-- A detection record is taken from the queue (R160); one whose sheaf began blanking after its SYNCT ends at once (R167). -/
def execSpikeletAllocation (s : State) : Host.Outcome State Fault Refusal :=
  .next (
    match s.detq with
    | d :: rest =>
      let s := { s with detq := rest }
      if mayAllocate s d.sheaf then
        let sh := s.sheaf d.sheaf
        let se := s.search d.sheaf
        let k := freeSpike s
        let s := takeSpike s {
          id := k, det := d, lo := sh.lo, div := sh.div, origin := chipNum s,
          slot := se.slots.getD d.prof { kind := 0, rate := 0, thr := 0, sync := 0, legal := false, fec := 0 },
          off := ((se.entries.find? fun e => e.chan = d.chan).map ChanCopy.off).getD 0 }
        if 5 * d.synct < sh.blankAt5 then
          match spikeOf s k with
          | some x => endBlanked s x
          | none => s
        else s
      else poolVerdict s d (chipNum s)
    | [] => s)

/-- Channel estimates and weights are formed over the sync word from the sheaf's ring (R162, R163): the spikelet ends INTEG where its
first sample has left the ring, where samples were discarded, or where it reads a poisoned row. -/
def execChannelEstimate (k : Fin 1024) (s : State) : Host.Outcome State Fault Refusal :=
  .next (
    match spikeOf s k with
    | none => s
    | some x =>
      if x.est.isSome ∨ ¬ x.own then s
      else if firstSample x + 24576000 < 100 * s.time.now then endRing s x
      else
        match lostOf s x with
        | some l => endInteg s x 3 l.seq
        | none =>
          let rows := (s.sheaf x.det.sheaf).ring.filter fun r => decide (firstSample x ≤ 100 * r.tick)
          match ringPoison s x.det.sheaf rows with
          | some e => endPoison s x e
          | none =>
            let x := { x with buf := rows }
            serveJobs (updSpike s k fun _ => { x with est := some (estimate x) }))

/-- Every sample up to a time from SYNCT, in 1/10,000 tick, has reached the spikelet. -/
def hasRead (x : Spikelet) (time : Nat) : Bool :=
  !x.own || x.buf.any fun r => decide (10000 * x.det.synct + 625 * x.det.subt + time ≤ 10000 * (r.tick + 8))

/-- The soft values that decide a spikelet's header: its own, or those of the contributions where it reads no ring (R165, R171). -/
def headSoft (x : Spikelet) : List Int :=
  let own := ownSoft x 0 0 (headBits x.slot x.det.coded)
  if x.own then own else mergedSoft own x.lam

/-- The header of a frame as its soft values decide it: of a frame known from contributions, a header with another LEN fails.
Log 100 (DESIGN CHOICE). -/
def decidedHead (x : Spikelet) : Option HeadInfo :=
  match headInfo x.slot (headerOf x.slot x.det.coded (headSoft x)) with
  | some i => if x.own ∨ i.len = x.len then some i else none
  | none => none

/-- The header is decided at tick `t` (R153 to R158, R165, R166): a failure, NOGRAN, or ENDT and a reservation. -/
def execHeaderDecision (k : Fin 1024) (t : Nat) (s : State) : Host.Outcome State Fault Refusal :=
  .next (
    match spikeOf s k with
    | none => s
    | some x =>
      if x.header.isSome ∨ (x.own ∧ x.est.isNone) ∨ ¬ hasRead x (headTime x.slot x.det.coded) ∨ (wantsDecoder s x ∧ x.dec.isNone ∧ x.own) then s
      else
        let s := reach s t
        match decidedHead x with
        | none => retrySums (endHeader s x)
        | some i =>
          let num := 10000 * x.det.synct + 625 * x.det.subt + bodyTime x.slot x.det.coded i.len i.mode
          let endt := if x.own then lastSampleBefore s num 10000 else x.endt
          let y := { x with header := some (headerOf x.slot x.det.coded (headSoft x)), len := i.len, fcst := i.fcst, dw := i.dw, endt := endt }
          if memberOnly s then serveJobs (sendSummary (updSpike s k fun _ => y) y)
          else
            let m := rget s (Reg.winRxmap (x.det.sheaf / 4))
            let part := partFor s (field m (4 * (x.det.sheaf % 4) + 3) (4 * (x.det.sheaf % 4)))
            match reserve s part ((i.len + 127) / 128) 34 with
            | none =>
              let s := evt (bump s Reg.spkNgran) Reg.spkEvt 1
              retrySums (freeSpikelet (verdict s (spikeHead s y) 2 2 part (w16 (0x8000 + i.len)) 0) x.id false)
            | some (s, hd) =>
              serveJobs (retrySums (sendSummary (updSpike s k fun _ => { y with hold := some hd }) y)))

/-- A frame misses its deadline (R169). -/
def missDeadline (s : State) (x : Spikelet) : State :=
  let s := reach s (x.endt + ldTicks x.slot x.det.coded + mergeBound s)
  let s := updSpike (evt (bump s Reg.spkNlate) Reg.spkEvt 2) x.id fun x => { x with late := true }
  if inCluster s then s else verdict s (spikeHead s x) 2 3 0 (lenWord x) 0

/-- What a spikelet has measured by the end of its frame (R172): `merge` is the merge estimate of the SNR, used where contributions
were merged; of a frame without a local detection the specification gives neither an offset nor a drift. -/
def measured (s : State) (x : Spikelet) (ncorr : Nat) (merge : Int) : FrameMeas :=
  let merged := decide (chipsMask s x ≠ 0)
  match x.est with
  | some e =>
    let z := combined x e (10000 * (x.endt - x.det.synct))
    { snrc := if merged then merge else snrOf e, ffin := x.det.foff + Config.carrierFix x.slot.kind x.slot.rate z
      tdrift := Config.clockDrift x.slot.kind x.slot.rate z, ncorr := min 0xFFFF ncorr, chips := chipsMask s x, h := e.h }
  | none =>
    { snrc := merge, ffin := sext 32 (Config.openValue 171 (2 * s.free)), tdrift := sext 16 (Config.openValue 171 (2 * s.free + 1))
      ncorr := min 0xFFFF ncorr, chips := chipsMask s x, h := List.replicate 16 0 }

/-- A checked frame goes on with its record: its PSDU to its granules, the rest to session engine, link timing unit and Winnow (R172). -/
def handFrame (s : State) (x : Spikelet) (h : Holding) (psdu : List Octet) (good : Bool) (fm : FrameMeas) : State :=
  let s := writeData s h psdu
  let f : Frame := {
    id := s.nextFrame, det := x.det, slot := x.slot, endt := x.endt, good := good, fcst := x.fcst, mode := headMode x.header, dw := x.dw, own := x.own,
    psdu := psdu, hold := h, fm := fm, lo := x.lo, div := x.div, off := x.off,
    late := x.late, origin := x.origin, missing := missingOf x,
    snrs := (if x.own then [(chipNum s, x.det.snr)] else []) ++ x.ann.map fun a => (a.chip, a.snr) }
  let s := passHold s h.gmeta 36
  freeSpikelet { s with frames := s.frames ++ [f], nextFrame := s.nextFrame + 1, free := s.free + 1 } x.id true

/-- Decoding ends and the frame is checked (R168, R170 to R173): a PHR that differs, or the FCS over the decoded PSDU. -/
def checkFrame (s : State) (x : Spikelet) (merge : Int) : State :=
  let mode := headMode x.header
  let own := ownSoft x x.len mode (softCount x.slot x.det.coded x.len mode)
  let s := if inCluster s ∧ x.own ∧ x.chips ≠ 0 then sendSoft s (x.chips - 1) own else s
  if memberOnly s then freeSpikelet s x.id false
  else
    let d := decodeFrame x.slot x.det.coded x.len x.fcst x.dw mode (mergedSoft own x.lam)
    if ¬ d.phr then endHeader s x
    else
      let n := x.len - fcsLen x.fcst
      let good := decide (d.psdu.drop n = fcsOf x.fcst (d.psdu.take n))
      let s := if good then s else evt (bump s Reg.spkNfcs) Reg.spkEvt 5
      match x.hold with
      | none => freeSpikelet s x.id false
      | some h =>
        if ¬ good ∧ ¬ rbit s Reg.spkCtl 0 then freeSpikelet (lateVerdict s x) x.id false
        else handFrame s x h d.psdu good (measured s x d.ncorr merge)

/-- The frames that the acknowledgement engine has taken and that await their judgement (09 R241). -/
def takenFrames (s : State) : List Frame := s.frames.filter fun f => f.good && !f.judged

/-- The check result of a frame comes at tick `t` (R168, R169, R172; 09 R241), its job's last block run on decoder `dec`: once every sample has
been read, for a trellis job once a decoder holds it, and while fewer than 52 taken frames await their judgement.  `upsets` are rows of the ring found in error as the last samples were read. -/
def execFrameCheck (k : Fin 1024) (t : Nat) (dec : Fin 16) (merge : Int) (upsets : List Upset) (s : State) : Host.Outcome State Fault Refusal :=
  if ¬ upsets.all Upset.wf then .fault (.illFormed "FRAME_CHECK: no such macro or bit")
  else .next (
    match spikeOf s k with
    | none => s
    | some x =>
      if (¬ memberOnly s ∧ 52 ≤ (takenFrames s).length) ∨ x.header.isNone ∨ ¬ hasRead x (10000 * (x.endt - x.det.synct)) ∨ (wantsDecoder s x ∧ x.dec.isNone) then s
      else
        let s := ringErrors s x.det.sheaf upsets
        match (if x.own then ringPoison s x.det.sheaf (x.buf.filter fun r => upsets.any fun u => (ringRows x.det.sheaf r.tick).contains (u.unit, u.row)) else none) with
        | some e => endPoison s x e
        | none =>
          let s := if x.endt + ldTicks x.slot x.det.coded + mergeBound s < t ∧ ¬ x.late ∧ ¬ memberOnly s then missDeadline s x else s
          let s := reach s (max t x.endt)
          let s := if wantsDecoder s x ∧ (freeDecoders s).contains dec.val then updSpike s k fun x => { x with dec := some dec.val } else s
          match spikeOf s k with
          | some x => checkFrame s x merge
          | none => s)

/-- A frame's check result is not handed over by its deadline (R169). -/
def execDecoderDeadlineMiss (k : Fin 1024) (s : State) : Host.Outcome State Fault Refusal :=
  .next (
    match spikeOf s k with
    | some x => if x.header.isSome ∧ ¬ x.late ∧ ¬ memberOnly s then missDeadline s x else s
    | none => s)

/-- A spikelet's read point is overtaken (R162). -/
def execRingOverrun (k : Fin 1024) (s : State) : Host.Outcome State Fault Refusal :=
  .next (
    match spikeOf s k with
    | some x => if x.own then endRing s x else s
    | none => s)

/-- A write to `SPKs_RES` (R161). -/
def execReservationWrite (_i : Initiator) (n : Fin 8) (v : Word) (s : State) : Host.Outcome State Fault Refusal := .next (spkResWrite n v s)

/-- A summary arrives at a decoding chip (R348, R350). -/
def execSummaryReceive (f : Summary) (s : State) : Host.Outcome State Fault Refusal :=
  .next (
    if ¬ inCluster s ∨ ¬ decodes s ∨ f.src = chipNum s ∨ (posOf s f.src).isNone then s
    else
      let s := reach s f.arrive
      let late := decide (f.endt + mergeBound s < f.arrive)
      let s := if late then evt (bump s Reg.uslNlatesum) Reg.uslEvt 4 else s
      meetSummary s f late)

/-- A SOFT frame arrives (R170, R350): only announced positions are taken, and none after the bound. -/
def execSoftReceive (f : SoftFrame) (s : State) : Host.Outcome State Fault Refusal := .next (meetSoft s f)

/-- ENDT + Lm passes: positions still missing take λ = 0 (R350). -/
def execMergeBound (k : Fin 1024) (s : State) : Host.Outcome State Fault Refusal :=
  .next (
    match spikeOf s k with
    | some x =>
      if x.header.isSome ∧ ¬ x.bound ∧ inCluster s then
        let s := updSpike (reach s (x.endt + mergeBound s)) k fun x => { x with bound := true }
        if (missingOf x).isEmpty then s
        else evt (bump s Reg.uslNcontrib (missingOf x).length) Reg.uslEvt 3
      else s
    | none => s)

/-! ## The sample instant (03 R78 to R84) -/

/-- Blanking is due at or before tick `t` for the next transmission accepted at a sheaf: no sample at or after B is captured (03 R93,
R95). -/
def blankDue (s : State) (n t : Nat) : Bool :=
  match (s.sheaf n).accepted with
  | c :: _ => decide (c.t5 ≤ 5 * t + turn5)
  | [] => false

/-- One port's ADC sample (03 R81 to R84): gain control and clip count of a port that is not OFF, and the offset tracker unless
calibration holds the port. -/
def portSample (n t : Nat) (s : State) (e : PortSample × Nat) : State :=
  let p := 8 * n + e.2
  if adcOn s p then
    let s := adcSample s p t e.1.level
    if portHeld s p then s else dcStep s p t e.1.i e.1.q
  else s

/-- The sheaf's next sample instant: on the grid, not before the timebase or the start of capture, and after the last sample (03 R78). -/
def sampleTick (s : State) (n : Nat) : Nat :=
  let last := match (s.sheaf n).ring.getLast? with
    | some e => e.tick + 8
    | none => 0
  let lost := match (s.sheaf n).lost.head? with
    | some l => l.last + 8
    | none => 0
  max (sampleAt s s.time.now) (max (max last lost) ((s.sheaf n).capture.getD 0))

/-- A port sample instant of a sheaf that captures (03 R78 to R84, 05 R129 to R131, R138, 06 R162): the samples of live ports
reach the ring and the beams, marked where a port gives none (03 R104, 06 R164), and the candidates found at it join their groups.
Without a credit of the sample queue the ring loses the sample (01 R28).  Log 5 (DESIGN CHOICE). -/
def execSampleCapture (n : Fin 8) (samples : SampleSet) (cands : List Candidate) (s : State) : Host.Outcome State Fault Refusal :=
  if ¬ capturesWf samples cands then .fault (.illFormed "eight ports")
  else .next (
    if ¬ capturing s n then s
    else
      let t := sampleTick s n
      if blankDue s n t then s
      else
        let s := recipTurn (reach s t) n t
        let s := samples.ports.zipIdx.foldl (portSample n t) s
        let live := (portsOf n).map (portLive s)
        let x := samples.ports.zipIdx.map fun e =>
          if live.getD e.2 false then (clampInt (-32768) 32767 e.1.i, clampInt (-32768) 32767 e.1.q) else (0, 0)
        let s := s.updSheaf n fun h => { h with beams := beamsOf (s.search n).bmode x }
        let s := if samples.credit then storeSample s n ⟨t, live, x.map fun e => (i16 e.1, i16 e.2)⟩ samples.upsets else loseSample s n t
        if stateOf s (.awn n) = 2 ∨ (stateOf s (.awn n) = 3 ∧ (s.search n).stopAt.isSome) then cands.foldl (offerCandidate n t) s else s)

end Sys2Proof.Machine
end

