-- ==== Sys2Proof/Machine/Cal.lean ====
section
/-!
DEFINITION. Calibration (04_calibration_regulatory R114 to R123).
-/

namespace Sys2Proof.Machine

/-- The code of a calibration kind in `CAL_REQ` (R114). -/
abbrev calIq : Nat := 1
/-- FBW. -/
abbrev calFbw : Nat := 2
/-- DCSTAT. -/
abbrev calDcstat : Nat := 3
/-- LOLEAK. -/
abbrev calLoleak : Nat := 4
/-- RECIP. -/
abbrev calRecip : Nat := 5
/-- VCOB. -/
abbrev calVcobK : Nat := 6

/-- The longest hold of a kind, in ticks (R114).  Log 33 (DEDUCED). -/
def calHold (kind : Nat) : Nat :=
  match kind with
  | 1 => 196608
  | 2 => 122880
  | 3 => 61440
  | 4 => 184320
  | 5 => 245760
  | _ => 184320

/-- The loop airtime of a kind, in µs; none where the kind makes no loop burst (R114).  Log 33 (DEDUCED). -/
def calAir (kind : Nat) : Option Nat :=
  match kind with
  | 1 => some 1200
  | 2 => some 600
  | 4 => some 1200
  | 5 => some 1750
  | _ => none

/-- RESULT of `CALs_SSTAT`. -/
def calResult (s : State) (n r : Nat) : State := rsetFld s (Reg.calSstat n) 2 0 r

/-- A request or calibration of a sheaf ends with a result: BUSY clears and the event sets (R116 to R121). -/
def calEnd (s : State) (n r : Nat) : State :=
  let s := s.updSheaf n fun h => { h with job := none }
  evt (rsetBit (calResult s n r) (Reg.calSstat n) 15 false) Reg.calEvt n

/-- A refused request changes only RESULT (R116). -/
def calRefuse (s : State) (n r : Nat) : State := evt (calResult s n r) Reg.calEvt n

/-- A calibration is pending or running on a sheaf, a port's own measurement and a loop self-test among them (R103, R116, 15
R396). -/
def calBusy (s : State) (n : Nat) : Bool :=
  (s.sheaf n).job.isSome || (portsOf n).any (fun p => (s.port p).dcPend) || s.flt.loops.any fun l => decide (l.port / 8 = n)

/-- The enabled ports of a sheaf. -/
def enPorts (s : State) (n : Nat) : List Nat := (portsOf n).filter fun p => rbit s (Reg.prtCtl p) 0

/-- REFOSC is requested (R115, R116, R122; 14 R367): while one runs the request changes nothing; it begins at `CAL_AT`, or at once. -/
def refoscRequest (s : State) (at_ : Bool) : State :=
  if rbit s Reg.calRefstat 0 then s
  else if disciplined s then
    let t := rgroup s Reg.calAt 4
    let s := rset s Reg.calRefstat (setBit (setBit (rget s Reg.calRefstat) 2 false) 0 true)
    { s with time := { s.time with refosc := if at_ then max (sampleAt s t) s.time.now else s.time.now } }
  else evt (rsetBit s Reg.calRefstat 2 true) Reg.calEvt 8

/-- A request is accepted (R115): it waits for its start instant. -/
def calAccept (s : State) (n kind port : Nat) (at_ : Bool) : State :=
  let t := rgroup s Reg.calAt 4
  let late := at_ && decide (t < shadow s)
  let st := rget s (Reg.calSstat n)
  let st := setField (setField (setField st 15 14 (2 + late.toNat)) 13 11 kind) 10 8 0
  let st := if kind ≤ 4 then setField st 7 5 port else setField st 7 5 0
  (rset s (Reg.calSstat n) st).updSheaf n fun h => { h with
    job := some { kind := kind, port := port, start := if at_ ∧ ¬ late then t else s.time.now } }

/-- A calibration request: kind, unit and ATSEL (R115, R116).  Where several causes of refusal hold, the result is KIND, else BUSY, else
STATE; and a port that reads ON while its sheaf is not ON is refused with STATE: the model's choices, log 102 (DESIGN CHOICE). -/
def calRequest (kind unit : Nat) (at_ : Bool) (s : State) : State :=
  if kind = 7 then refoscRequest s at_
  else if kind = 5 ∨ kind = 6 then
    let n := unit % 8
    if calBusy s n then calRefuse s n 2
    else if shfState s n ≠ 2 ∨ (kind = 5 ∧ (enPorts s n).length < 2) then calRefuse s n 3
    else calAccept s n kind ((refPort s n).getD 0 % 8) at_
  else
    let n := sheafOf unit
    if kind = 0 ∨ 8 ≤ kind then calRefuse s n 6
    else if calBusy s n then calRefuse s n 2
    else if prtState s unit ≠ 2 ∨ shfState s n ≠ 2 then calRefuse s n 3
    else calAccept s n kind (unit % 8) at_

/-- A write to `CAL_REQ`.  Log 33 (DEDUCED). -/
def calReqWrite (v : Word) (s : State) : State := calRequest (field v 3 0) (field v 9 4) (bit v 10) s

/-- The port that a running attempt holds. -/
def calHeldPort (n : Nat) (j : CalJob) : Nat := 8 * n + j.port

/-! ## Port loop self-tests (15 R395 to R397) -/

/-- A loop self-test ends: the port returns, or is excluded (15 R397).  `cond` is the failed check, 0 for none. -/
def loopEnd (s : State) (p : Nat) (action cond : Nat) : State :=
  let held := s.flt.loops.any fun l => l.port = p && l.running
  let s := { s with flt := { s.flt with loops := s.flt.loops.filter fun l => l.port ≠ p } }
  let bad := decide (action = 6)
  let s := if held then (holdPort s p false).updPort p fun q => { q with liveSince := if bad then none else some (sampleAt s s.time.now) } else s
  let s := if bad then evt (rsetBit s (Reg.fltPbad (p / 16)) (p % 16) true) Reg.fltEvt 6 else s
  let s := if action = 0 then s else bump s Reg.fltNport
  fault s { cls := 4, lasting := bad, action := action, typ := 1, inst := p, synd := if bad then cond else 0 }

/-- The loop self-test of the lowest waiting port of a sheaf begins once no calibration is pending or running there
(15 R396); a gate refusal of its bursts ends it untested. -/
def loopBegin (s : State) (n : Nat) : State :=
  let mine := s.flt.loops.filter fun l => decide (l.port / 8 = n)
  if (s.sheaf n).job.isSome ∨ blanked s n ∨ shfState s n ≠ 2 ∨ mine.any LoopTest.running then s
  else
    match (portsOf n).find? fun p => mine.any fun l => l.port = p with
    | some p =>
      let s := { s with flt := { s.flt with loops := s.flt.loops.map fun l => if l.port = p then { l with running := true, begun := l.begun + 1 } else l } }
      match gateLoop (holdPort s p true) p 600 with
      | (true, s) => s
      | (false, s) => loopEnd s p 0 0
    | none => s

/-- The attempt begins at tick `b` (R114, R115, R117, R118, R120).  While VCOB holds the whole sheaf, `PRTp_STAT.CAL` of its ports stays 0,
which R117 leaves open: log 102 (DESIGN CHOICE). -/
def calStart (s : State) (n b : Nat) (j : CalJob) : State :=
  let s := reach s b
  let s := s.updSheaf n fun h => { h with job := some { j with running := true, begun := j.begun + 1, ends := b + calHold j.kind } }
  let s := rsetFld s (Reg.calSstat n) 10 8 (j.begun + 1)
  if j.kind = calVcobK then
    let s := spikeBlank s n (5 * b)
    setBlank (rsetBit (s.updSheaf n fun h => { h with capture := none }) (Reg.shfStat n) 2 false) n true
  else
    let p := calHeldPort n j
    let s := recipTurn (holdPort s p true) n b
    match calAir j.kind with
    | some us =>
      match gateLoop s p us with
      | (true, s) => s
      | (false, s) => loopBegin (dcBegin (calEnd (releasePorts s n (sampleAt s b)) n 4) n) n
    | none => s

/-- Blanking begins: a loop self-test gives way, and the fourth abandoned attempt ends it (15 R396, R397). -/
def loopAbandon (s : State) (n : Nat) : State :=
  match s.flt.loops.find? fun l => decide (l.port / 8 = n) && l.running with
  | some l =>
    if l.begun ≥ 4 then loopEnd s l.port 0 0
    else
      let s := holdPort s l.port false
      { s with flt := { s.flt with loops := s.flt.loops.map fun k => if k.port = l.port then { k with running := false } else k } }
  | none => s

/-- A loop self-test is wanted for a port (15 R395). -/
def loopWant (s : State) (p : Nat) : State :=
  if s.flt.loops.any (fun l => l.port = p) ∨ ¬ rbit s (Reg.prtCtl p) 0 then s
  else { s with flt := { s.flt with loops := s.flt.loops ++ [{ port := p }] } }

/-- Blanking begins at `B` (R119, R103): a port or RECIP attempt is abandoned. -/
def calAbandon (s : State) (n : Nat) : State :=
  match (s.sheaf n).job with
  | some j =>
    if ¬ j.running ∨ j.kind = calVcobK then s
    else
      let s := releasePorts s n s.time.now
      if j.own then s.updSheaf n fun h => { h with job := none }
      else if j.begun ≥ 4 then calEnd s n 5
      else s.updSheaf n fun h => { h with job := some { j with running := false, start := s.time.now } }
  | none => s

/-- A sheaf leaves ON with a requested calibration pending or running: it ends as abandoned.  Log 33 (DEDUCED). -/
def calStop (s : State) (n : Nat) : State :=
  match (s.sheaf n).job with
  | some j =>
    let s := releasePorts s n s.time.now
    if j.own then s.updSheaf n fun h => { h with job := none } else calEnd s n 5
  | none => s

/-- A VCOB calibration runs on the sheaf and its latest end, in ticks. -/
def vcobUntil (s : State) (n : Nat) : Option Nat :=
  match (s.sheaf n).job with
  | some j => if j.kind = calVcobK ∧ j.running then some j.ends else none
  | none => none

/-- Change one of the values applied to a port's stream: 0 IQG, 1 IQP, 2 FBW, 3 LOI, 4 LOQ, 5 RPH. -/
def applyCal (s : State) (p k : Nat) (v : Word) : State := s.updPort p fun q => { q with applied := q.applied.set k v }

/-- A kept result is written to its register and applied (R121). -/
def calKeep (s : State) (p k : Nat) (v : Word) : State :=
  let a := Reg.calIqg p + k
  let s := rwrite s a v
  applyCal s p k (rget s a)

/-- The results of a kind on a port, and its VALID bit (R114, R121). -/
def calPortResult (s : State) (p kind : Nat) (vals : List Word) : State :=
  let v := fun k => vals.getD k 0
  match kind with
  | 1 => rsetBit (calKeep (calKeep s p 0 (v 0)) p 1 (v 1)) (Reg.calValid p) 0 true
  | 2 => rsetBit (calKeep s p 2 (v 0)) (Reg.calValid p) 1 true
  | 3 => rset (rset s (Reg.prtDci p) (v 0)) (Reg.prtDcq p) (v 1)
  | 4 => rsetBit (calKeep (calKeep s p 3 (v 0)) p 4 (v 1)) (Reg.calValid p) 2 true
  | _ => s

/-- The reciprocity phases of a sheaf's enabled ports; the reference port's reads 0 (R114). -/
def calRecipResult (s : State) (n : Nat) (vals : List Word) : State :=
  (enPorts s n).foldl (fun s p =>
    rsetBit (calKeep s p 5 (if refPort s n = some p then 0 else vals.getD (p % 8) 0)) (Reg.calValid p) 3 true) s

/-- The values software wrote are applied at the sheaf's start (R121). -/
def calApply (s : State) (n : Nat) : State :=
  (portsOf n).foldl (fun s p => s.updPort p fun q => { q with applied := (List.range 6).map fun k => rget s (Reg.calIqg p + k) }) s

/-- A write to a calibration result register (R121, 20 R483). -/
def calKeepWrite (lvl a : Nat) (v : Word) (s : State) : State := if lvl ≤ 1 then rwrite s a v else s

/-! ## Start-up calibration (R123) -/

/-- One kind on one port: the loop burst is charged sixteen times; a refusal leaves the kept results.  `CALs_SSTAT.RESULT` reads the result
of the last kind, so that a later DONE hides an earlier REG: the model's choice, log 102 (DESIGN CHOICE). -/
def startupKind (n p kind : Nat) (vals : List Word) (s : State) : State :=
  match calAir kind with
  | some us =>
    match gateLoop s p (16 * us) with
    | (true, s) => calResult (calPortResult s p kind vals) n 1
    | (false, s) => calResult s n 4
  | none => calResult (calPortResult s p kind vals) n 1

/-- The four kinds on one port, taking one list of values for each. -/
def startupPort (n : Nat) (st : State × List CalValues) (p : Nat) : State × List CalValues :=
  let v := fun k => (st.2.getD k ⟨[]⟩).vals
  (startupKind n p calLoleak (v 3) (startupKind n p calIq (v 2) (startupKind n p calFbw (v 1) (startupKind n p calDcstat (v 0) st.1))),
   st.2.drop 4)

/-- Start-up calibration of one sheaf: VCOB, the ports in turn, then RECIP. -/
def startupSheaf (st : State × List CalValues) (n : Nat) : State × List CalValues :=
  let v := (st.2.getD 0 ⟨[]⟩).vals
  let s := calResult (rsetFld st.1 (Reg.calVcob n) 5 0 (v.getD 0 0).toNat) n 1
  let st := (enPorts s n).foldl (startupPort n) (s, st.2.drop 1)
  match enPorts st.1 n with
  | p :: _ :: _ =>
    match gateLoop st.1 p 1750 with
    | (true, s) => (calResult (calRecipResult s n (st.2.getD 0 ⟨[]⟩).vals) n 1, st.2.drop 1)
    | (false, s) => (calResult s n 4, st.2.drop 1)
  | _ => st

/-- VCOB has ended: the sheaf captures again from the next sample, unless a transmission's blanking has come (R95, R120). -/
def vcobResume (s : State) (n : Nat) : State :=
  let c := sampleAt s s.time.now
  if clearOfTx s n c then setBlank (s.updSheaf n fun h => { h with capture := some c }) n false else s

/-! ## The commands -/

/-- A request for IQ gain and phase correction of a port. -/
def execIq (_i : Initiator) (p : Fin 64) (at_ : Bool) (s : State) : Host.Outcome State Fault Refusal := .next (calRequest calIq p at_ s)

/-- A request for the baseband filter of a port. -/
def execFbw (_i : Initiator) (p : Fin 64) (at_ : Bool) (s : State) : Host.Outcome State Fault Refusal := .next (calRequest calFbw p at_ s)

/-- A request for the static DC offset of a port. -/
def execDcstat (_i : Initiator) (p : Fin 64) (at_ : Bool) (s : State) : Host.Outcome State Fault Refusal := .next (calRequest calDcstat p at_ s)

/-- A request for the LO leakage of a port. -/
def execLoleak (_i : Initiator) (p : Fin 64) (at_ : Bool) (s : State) : Host.Outcome State Fault Refusal := .next (calRequest calLoleak p at_ s)

/-- A request for the reciprocity phases of a sheaf. -/
def execRecip (_i : Initiator) (n : Fin 8) (at_ : Bool) (s : State) : Host.Outcome State Fault Refusal := .next (calRequest calRecip n at_ s)

/-- A request for the VCO band of a sheaf. -/
def execVcob (_i : Initiator) (n : Fin 8) (at_ : Bool) (s : State) : Host.Outcome State Fault Refusal := .next (calRequest calVcobK n at_ s)

/-- A request to measure the REFCLK error. -/
def execRefosc (_i : Initiator) (s : State) : Host.Outcome State Fault Refusal := .next (refoscRequest s false)

/-- A pending attempt begins (R115, R119, R120): at the first sample at or after its start instant, while the sheaf is ON
and captures; a VCOB calibration waits for the last accepted transmission that its interval would meet. -/
def execCalibrationBegin (n : Fin 8) (s : State) : Host.Outcome State Fault Refusal :=
  .next (
    match (s.sheaf n).job with
    | some j =>
      if j.running ∨ shfState s n ≠ 2 ∨ blanked s n ∨ transmitting s n then s
      else
        let b := sampleAt s (max j.start s.time.now)
        let meets := (s.sheaf n).accepted.filter fun c => decide (c.t5 < 5 * (b + 184320) + turn5 ∧ 5 * b < c.e5 + turn5)
        if j.kind = calVcobK ∧ ¬ meets.isEmpty then
          let last := ((s.sheaf n).accepted.map TxCmd.e5).foldl max 0
          s.updSheaf n fun h => { h with job := some { j with start := (last + turn5 + 4) / 5 } }
        else calStart s n b j
    | none => s)

/-- The attempt completes with the values it measured (R121). -/
def execCalibrationComplete (n : Fin 8) (vals : CalValues) (s : State) : Host.Outcome State Fault Refusal :=
  .next (
    match (s.sheaf n).job with
    | some j =>
      if ¬ j.running ∨ j.own then s
      else
        let s :=
          if j.kind = calVcobK then
            let s := rsetFld s (Reg.calVcob n) 5 0 (vals.vals.getD 0 0).toNat
            vcobResume (rsetBit s (Reg.shfStat n) 2 true) n
          else if j.kind = calRecip then calRecipResult s n vals.vals
          else calPortResult s (calHeldPort n j) j.kind vals.vals
        loopBegin (dcBegin (calEnd (releasePorts s n (sampleAt s s.time.now)) n 1) n) n
    | none => s)

/-- A REFOSC measurement ends, 1.024 s after its beginning (R122). -/
def execRefoscComplete (err : Word) (s : State) : Host.Outcome State Fault Refusal :=
  .next (
    if rbit s Reg.calRefstat 0 then
      let s := reach s (s.time.refosc + 125829120)
      evt (rset (rset s Reg.calReferr err) Reg.calRefstat (setField (rget s Reg.calRefstat) 1 0 2)) Reg.calEvt 8
    else s)

/-- A software write to result register `k` of a port, from L0 or L1: held in the register, applied at the sheaf's next
start (R121, R483). -/
def execCalResultWrite (i : Initiator) (p : Fin 64) (k : Fin 7) (v : Word) (s : State) : Host.Outcome State Fault Refusal :=
  .next (calKeepWrite (levelOf s i) (Reg.calIqg p + k) v s)

end Sys2Proof.Machine
end

