-- ==== Sys2Proof/Machine/Mac.lean ====
section
/-!
DEFINITION. MAC frames as IEEE 802.15.4 defines them, which the specification names and does not restate (08_link_timing
R204, R215; 09_sessions_security R225, R235 to R239, R245): header fields, open and private parts, nonces, acknowledgements.
-/

namespace Sys2Proof.Machine

/-- A MAC header: addresses as mode (2 short, 3 extended) and value. -/
structure MacHdr where
  ftype  : Nat
  ver    : Nat
  sec    : Bool
  pend   : Bool
  ar     : Bool
  seqSup : Bool
  seq    : Nat
  dmode  : Nat
  smode  : Nat
  dpan   : Option Nat
  daddr  : Nat
  span   : Option Nat
  saddr  : Nat
  level  : Nat
  kidm   : Nat
  ksrc   : List Octet
  kidx   : Nat
  fc     : Option Nat
  hdrEnd : Nat        -- octets up to the end of the addresses, or of the auxiliary security header
  payOff : Nat        -- octets up to the end of the header IEs
  deriving DecidableEq, Repr

/-- A little-endian field of a frame. -/
def macNum (d : List Octet) (off n : Nat) : Nat := ofOctetsLE (slice d off n)

/-- Octets of an address by its mode. -/
def addrLen (mode : Nat) : Nat :=
  match mode with
  | 2 => 2
  | 3 => 8
  | _ => 0

/-- Octets of a key source by key identifier mode. -/
def ksrcLen (kidm : Nat) : Nat :=
  match kidm with
  | 2 => 4
  | 3 => 8
  | _ => 0

/-- Octets of the MIC by security level. -/
def micLen (level : Nat) : Nat :=
  match level % 4 with
  | 0 => 0
  | 1 => 4
  | 2 => 8
  | _ => 16

/-- Which PAN ID fields a frame carries: destination, source. -/
def panFields (ver dmode smode : Nat) (comp : Bool) : Bool × Bool :=
  if ver < 2 then
    if dmode ≠ 0 ∧ smode ≠ 0 then (true, !comp) else (decide (dmode ≠ 0), decide (smode ≠ 0))
  else if dmode = 0 ∧ smode = 0 then (comp, false)
  else if smode = 0 then (!comp, false)
  else if dmode = 0 then (false, !comp)
  else if dmode = 3 ∧ smode = 3 then (!comp, false)
  else (true, !comp)

/-- The end of the header IEs that start at `off` and end by `lim`; `n` bounds their number. -/
def headerIes (d : List Octet) (lim : Nat) : Nat → Nat → Nat
  | 0, off => off
  | n + 1, off =>
    if lim < off + 2 then off
    else
      let w := macNum d off 2
      let id := w / 128 % 256
      if 32768 ≤ w then off
      else if id = 0x7E ∨ id = 0x7F then off + 2
      else headerIes d lim n (off + 2 + w % 128)

/-- Frame control, split: type, version, security, pending, AR, suppression, IEs, modes, PAN fields and its length. -/
def frameControl (d : List Octet) : MacHdr × Bool × Bool × Bool × Nat :=
  let w := macNum d 0 2
  let ft := w % 8
  let h : MacHdr := ⟨ft, 0, false, false, false, false, 0, 0, 0, none, 0, none, 0, 0, 0, [], 0, none, 0, 0⟩
  if ft = 5 then
    let h := { h with dmode := w / 16 % 4, smode := w / 64 % 4 }
    if w.testBit 3 then
      let h := { h with ver := w / 4096 % 4, sec := w.testBit 9, pend := w.testBit 11, ar := w.testBit 14, seqSup := w.testBit 10 }
      (h, w.testBit 8, false, w.testBit 15, 2)
    else (h, false, false, false, 1)
  else
    let ver := w / 4096 % 4
    let dm := w / 1024 % 4
    let sm := w / 16384 % 4
    let p := panFields ver dm sm (w.testBit 6)
    ({ h with ver := ver, sec := w.testBit 3, pend := w.testBit 4, ar := w.testBit 5, seqSup := decide (2 ≤ ver) && w.testBit 8, dmode := dm, smode := sm },
     p.1, p.2, decide (2 ≤ ver) && w.testBit 9, 2)

/-- The MAC header of a PSDU less its FCS; none for one that is malformed.  Log 57 (PRESUMED). -/
def parseMac (d : List Octet) : Option MacHdr :=
  let (h, dp, sp, ie, o) := frameControl d
  if h.ftype = 6 ∨ h.ftype = 7 then some h
  else if h.dmode = 1 ∨ h.smode = 1 then none
  else
    let o1 := o + (if h.seqSup then 0 else 1)
    let o2 := o1 + (if dp then 2 else 0)
    let o3 := o2 + addrLen h.dmode
    let o4 := o3 + (if sp then 2 else 0)
    let o5 := o4 + addrLen h.smode
    let dpan := if dp then some (macNum d o1 2) else none
    let h := { h with
      seq := if h.seqSup then 0 else macNum d o 1
      dpan := dpan
      daddr := macNum d o2 (addrLen h.dmode)
      span := if sp then some (macNum d o3 2) else if h.smode ≠ 0 then dpan else none
      saddr := macNum d o4 (addrLen h.smode)
      hdrEnd := o5 }
    let h :=
      if h.sec then
        let c := macNum d o5 1
        let sup := decide (2 ≤ h.ver) && c.testBit 5
        let k := c / 8 % 4
        let o6 := o5 + 1 + (if sup then 0 else 4)
        { h with
          level := c % 8
          kidm := k
          fc := if sup then none else some (macNum d (o5 + 1) 4)
          ksrc := slice d o6 (ksrcLen k)
          kidx := if k = 0 then 0 else macNum d (o6 + ksrcLen k) 1
          hdrEnd := o6 + ksrcLen k + (if k = 0 then 0 else 1) }
      else h
    let lim := d.length - micLen h.level
    if d.length < h.hdrEnd + micLen h.level then none
    else some { h with payOff := if ie then headerIes d lim 64 h.hdrEnd else h.hdrEnd }

/-- Octets of the MAC payload that stay open (R238): of a command its identifier, of a beacon its superframe, GTS and
pending address fields, for versions 0b00 and 0b01. -/
def openLen (h : MacHdr) (pay : List Octet) : Nat :=
  if 2 ≤ h.ver then 0
  else if h.ftype = 3 then min 1 pay.length
  else if h.ftype = 0 then
    let g := (pay.getD 2 0).toNat % 8
    let n := 3 + (if g = 0 then 0 else 1 + 3 * g)
    let a := (pay.getD n 0).toNat
    min pay.length (n + 1 + 2 * (a % 8) + 8 * (a / 16 % 8))
  else 0

/-- A secured frame less its FCS: what is authenticated only, what is private, and the MIC (R236, R238). -/
def splitMac (d : List Octet) (h : MacHdr) : List Octet × List Octet × List Octet :=
  let m := d.length - micLen h.level
  if h.level < 4 then (d.take m, [], d.drop m)
  else
    let o := h.payOff + openLen h (slice d h.payOff (m - h.payOff))
    (d.take o, slice d o (m - o), d.drop m)

/-- The nonce of R236: EXT, then the counter and the level, or the slot number; most significant octets first. -/
def macNonce (ext : Nat) (tsch : Bool) (fresh level : Nat) : List Octet :=
  octetsBE 8 ext ++ (if tsch then octetsBE 5 fresh else octetsBE 4 fresh ++ [BitVec.ofNat 8 level])

/-- CCM* on a frame less its FCS whose private payload is plain and whose MIC field has any contents (R245). -/
def secureMac (d : List Octet) (h : MacHdr) (key nonce : List Octet) : List Octet :=
  let (a, p, _) := splitMac d h
  let tag := ccmTag key nonce a p (micLen h.level)
  a ++ ccmCrypt key nonce p ++ tag

/-- The MIC of a secured frame less its FCS, and the frame with its private payload decrypted (R236, R238). -/
def openMac (d : List Octet) (h : MacHdr) (key nonce : List Octet) : Bool × List Octet :=
  let (a, c, mic) := splitMac d h
  (match ccmOpen key nonce a c mic with
   | some _ => true
   | none => false, a ++ ccmCrypt key nonce c ++ mic)

/-- An Imm-Ack less its FCS (R215). -/
def immAck (h : MacHdr) (pend : Bool) : List Octet :=
  octetsLE 2 (2 + 16 * pend.toNat + 4096 * h.ver) ++ octetsLE 1 h.seq

/-- What secures an Enh-Ack: level, key identifier mode and index, key, EXT, and the counter or the slot number. -/
structure AckSec where
  level : Nat
  kidm  : Nat
  kidx  : Nat
  key   : List Octet
  ext   : Nat
  tsch  : Bool
  fresh : Nat

/-- An Enh-Ack less its FCS (R215), with the Time Correction IE where `tc` is given. -/
def enhAck (h : MacHdr) (pend : Bool) (tc : Option Int) (sec : Option AckSec) : List Octet :=
  let fcw := 2 + 8 * sec.isSome.toNat + 16 * pend.toNat + 64 * (decide (h.smode ≠ 0)).toNat + 256 * h.seqSup.toNat +
    512 * tc.isSome.toNat + 1024 * h.smode + 8192
  let head := octetsLE 2 fcw ++ (if h.seqSup then [] else octetsLE 1 h.seq) ++ octetsLE (addrLen h.smode) h.saddr
  let ie := match tc with
    | some v => octetsLE 2 (2 + 0x1E * 128) ++ octetsLE 2 ((v % 4096).toNat)
    | none => []
  match sec with
  | none => head ++ ie
  | some k =>
    let ctl := k.level + 8 * k.kidm + (if k.tsch then 96 else 0)
    let aux := octetsLE 1 ctl ++ (if k.tsch then [] else octetsLE 4 k.fresh) ++
      (if k.kidm = 0 then [] else padOctets (ksrcLen k.kidm) h.ksrc ++ octetsLE 1 k.kidx)
    let body := head ++ aux ++ ie
    let nonce := macNonce k.ext k.tsch k.fresh k.level
    body ++ ccmTag k.key nonce body [] (micLen k.level)

end Sys2Proof.Machine
end

