-- ==== Sys2Proof/Machine/Fence.lean ====
section
/-!
DEFINITION. The fence (11_tillers R286 to R292): the fixed rules, the descriptors, the commit and its checks, refusals,
and the two sets fixed in boot ROM.
-/

namespace Sys2Proof.Machine

/-- Kinds of access, as FEN_FINFO codes them: 0 read, 1 write, 2 execute. -/
abbrev accRead : Nat := 0
/-- A write. -/
abbrev accWrite : Nat := 1
/-- An instruction fetch. -/
abbrev accExec : Nat := 2

/-- The fixed rules of R286 and R434: `some none` allowed, `some (some reason)` refused, `none` left to the set in
force; `core` says whether the initiator is a core. -/
def fenceFixed (core : Bool) (lvl kind a : Nat) : Option (Option Nat) :=
  match regionOf a with
  | .unmapped => some (some 3)
  | .local_ => if core then some none else some (some 2)
  | .bootRom => if kind = accWrite then some (some 2) else none
  | .session =>
    if kind = accWrite then some (some 2)
    else if lvl ≠ 0 ∧ 24 ≤ a % 32 then some (some 2)
    else none
  | .block =>
    if a / 0x10000 = 0x1001 then
      (if lvl = 0 ∧ kind ≠ accExec then some none else if kind = accWrite then some (some 2) else none)
    else if a / 0x10000 = 0x1003 ∧ kind ≠ accExec then some none
    else none
  | _ => none

/-- The descriptor that decides: the enabled one with the lowest number that matches (R287). -/
def fenceDesc (ds : List FenceDesc) (a : Nat) : Option FenceDesc :=
  ds.find? fun d => bit d.attr 15 && decide (d.base ≤ a ∧ a ≤ d.last)

/-- The permission bit of a level and a kind (R288): write is bit 3l + 1, read 3l, execute 3l + 2. -/
def permBit (perm lvl kind : Nat) : Bool := perm.testBit (3 * lvl + kind)

/-- Why the fence refuses an access: 0 NONE, 1 DENY, 2 FIXED, 3 UNMAPPED; none where it allows it (R286, R287, R291). -/
def fenceJudge (s : State) (core : Bool) (lvl kind a : Nat) : Option Nat :=
  match fenceFixed core lvl kind a with
  | some r => r
  | none =>
    match s.fence.force with
    | none => if lvl = 0 then none else some 2
    | some ds =>
      match fenceDesc ds a with
      | none => some 0
      | some d => if permBit d.perm lvl kind then none else some 1

/-- A refusal is counted and, while REFUSE is 0, recorded (R292). -/
def fenceRefuse (s : State) (init lvl kind a reason : Nat) : State :=
  let s := bump s Reg.fenNref
  let s :=
    if rbit s Reg.fenEvt 0 then s
    else rset (rsetGroup s Reg.fenFaddr 2 a) Reg.fenFinfo (w16 (init * 64 + lvl * 16 + kind * 4 + reason))
  evt s Reg.fenEvt 0

/-- Check an access and record its refusal. -/
def fenceCheck (s : State) (core : Bool) (init lvl kind a : Nat) : Bool × State :=
  match fenceJudge s core lvl kind a with
  | none => (true, s)
  | some r => (false, fenceRefuse s init lvl kind a r)

/-! ## Commit -/

/-- Descriptor `d` of the staged set (R288, R289). -/
def stagedDesc (s : State) (d : Nat) : FenceDesc :=
  { base := rgroup s (Reg.fenBase d) 2, last := rgroup s (Reg.fenLast d) 2,
    perm := (rget s (Reg.fenPerm d)).toNat, attr := rget s (Reg.fenAttr d) }

/-- The staged set. -/
def stagedSet (s : State) : List FenceDesc := (List.range 64).map (stagedDesc s)

/-- A descriptor with every word 0. -/
def zeroDesc : FenceDesc := ⟨0, 0, 0, 0⟩

/-- The conditions of R290 on one descriptor; a disabled one meets them. -/
def descOk (d : FenceDesc) : Bool :=
  !bit d.attr 15 ||
  (decide (d.base ≤ d.last ∧ d.base % 64 = 0 ∧ d.last % 64 = 63) &&
   (!(bit d.attr 0 && !bit d.attr 1) || !(permBit d.perm 1 1 || permBit d.perm 2 1 || permBit d.perm 3 1)) &&
   (!bit d.attr 1 || decide (0x03000000 ≤ d.base ∧ d.last ≤ 0x033FFFFF)))

/-- The lowest descriptor that breaks R290. -/
def firstBad (ds : List FenceDesc) : Option Nat := ds.findIdx? fun d => !descOk d

/-- A commit of the staged set (R289, R290). -/
def fenceCommit (s : State) : State :=
  let ds := stagedSet s
  match firstBad ds with
  | some k => evt (rsetFld (rsetFld s Reg.fenStat 13 8 k) Reg.fenStat 1 0 2) Reg.fenEvt 1
  | none =>
    let s := { s with fence := { s.fence with force := some ds } }
    evt (bump (rsetBit (rsetFld s Reg.fenStat 1 0 1) Reg.fenStat 14 false) Reg.fenCmtseq) Reg.fenEvt 2

/-- A write to `FEN_COMMIT` (R289); the fixed rules have let only L0 through. -/
def fenCommitWrite (v : Word) (s : State) : State := if v = 0xFE4C then fenceCommit s else s

/-- Put a set into the staged registers. -/
def fenceStage (s : State) (ds : List FenceDesc) : State :=
  (List.range 64).foldl (fun s k =>
    let d := ds.getD k zeroDesc
    rset (rset (rsetGroup (rsetGroup s (Reg.fenBase k) 2 d.base) (Reg.fenLast k) 2 d.last) (Reg.fenPerm k) (w16 d.perm))
      (Reg.fenAttr k) d.attr) s

/-- `FEN_STAT.DIRTY` (R291). -/
def fenDirty (s : State) : Bool := stagedSet s ≠ s.fence.force.getD (List.replicate 64 zeroDesc)

/-- The boot fence (R291): every access at L0, and L2 reads and writes of the SYS window.  Log 20 (DESIGN CHOICE). -/
def bootFence : List FenceDesc :=
  [⟨0x10000000, 0x1000FFFF, 0x0C7, 0x8000⟩, ⟨0x00000000, 0xFFFFFFFF, 0x007, 0x8000⟩] ++ List.replicate 62 zeroDesc

/-- The provisioning fence (R291): also execute of boot ROM at L1, and L2 reads and writes of the XSP window and of
shared program memory.  Log 20 (DESIGN CHOICE). -/
def provisionFence : List FenceDesc :=
  [⟨0x10000000, 0x1000FFFF, 0x0C7, 0x8000⟩, ⟨0x04000000, 0x04007FFF, 0x027, 0x8000⟩,
   ⟨0x101D0000, 0x101DFFFF, 0x0C7, 0x8000⟩, ⟨0x01000000, 0x011FFFFF, 0x0C7, 0x8000⟩,
   ⟨0x00000000, 0xFFFFFFFF, 0x007, 0x8000⟩] ++ List.replicate 59 zeroDesc

/-- The words of a set in order, as the measurement MFEN takes them (R291). -/
def fenceWords (ds : List FenceDesc) : List Word :=
  ds.flatMap fun d => wordsOf 2 d.base ++ wordsOf 2 d.last ++ [w16 d.perm, d.attr]

/-- The set in force as the measurement takes it; while the reset set is in force, descriptors of zeros. -/
def fenceInForce (s : State) : List FenceDesc := s.fence.force.getD (List.replicate 64 zeroDesc)

/-- A descriptor of six words in 12 octets (19 R462). -/
def descOfOctets (o : List Octet) : FenceDesc :=
  { base := ofOctetsLE (slice o 0 4), last := ofOctetsLE (slice o 4 4),
    perm := ofOctetsLE (slice o 8 2) % 4096, attr := w16 (ofOctetsLE (slice o 10 2)) &&& 0x8003 }

/-- A write to `FEN_COMMIT` (R289); a level other than L0 is a fence refusal (R286). -/
def execFenceCommit (i : Initiator) (v : Word) (s : State) : Host.Outcome State Fault Refusal :=
  .next (
    if levelOf s i = 0 then fenCommitWrite v s
    else fenceRefuse s (initIndex i) (levelOf s i) accWrite Reg.fenCommit 2)

end Sys2Proof.Machine
end

