-- ==== Sys2Proof/Machine/Flash.lean ====
section
/-!
DEFINITION. The external flash and the start of its operations (14_backhaul_host R378 to R380), and the two image banks
with their trailers (19_update R462 to R464).
-/

namespace Sys2Proof.Machine

/-- The octet of an erased flash byte. -/
abbrev flashErased : Octet := 0xFF

/-- Octets of the flash. -/
def flashGet (s : State) (a n : Nat) : List Octet := BMap.getOctets flashErased s.xsp.flash a n

/-- Hold octets in the flash.  Log 10 (DEDUCED). -/
def flashPut (s : State) (a : Nat) (o : List Octet) : State :=
  { s with xsp := { s.xsp with flash := BMap.setOctets flashErased s.xsp.flash a o } }

/-- Program octets: a program clears bits and sets none. -/
def flashProgram (s : State) (a : Nat) (o : List Octet) : State :=
  flashPut s a (List.zipWith (· &&& ·) (flashGet s a o.length) o)

/-- Erase a range. -/
def flashErase (s : State) (a n : Nat) : State :=
  { s with xsp := { s.xsp with flash := s.xsp.flash.filter fun e => e.1 < a || a + n ≤ e.1 } }

/-- The flash size in octets. -/
def flashSize (s : State) : Nat := s.xsp.mib * 1048576

/-- B: the lesser of 64 MiB and half the flash (R379). -/
def bankSize (s : State) : Nat := min 67108864 (flashSize s / 2)

/-- The flash address of a bank. -/
def bankBase (s : State) (b : Nat) : Nat := b * bankSize s

/-- The owner lock: set when the number of blown bits is odd (10 R256). -/
def ownerLocked (s : State) : Bool := s.fuses.lock % 2 = 1

/-- A bank's trailer marks (19 R463): TRIAL 0, CONFIRM 1, REJECT 2. -/
def markSet (s : State) (b k : Nat) : Bool :=
  flashGet s (bankBase s b + bankSize s - 4096 + 2 * k) 2 = [0, 0]

/-- Program a mark (19 R463). -/
def setMark (s : State) (b k : Nat) : State :=
  flashProgram s (bankBase s b + bankSize s - 4096 + 2 * k) [0, 0]

/-- A bank is ELIGIBLE (19 R463). -/
def bankEligible (s : State) (b : Nat) : Bool := markSet s b 1 && !markSet s b 2

/-- A bank is ON TRIAL (19 R463). -/
def bankOnTrial (s : State) (b : Nat) : Bool := !markSet s b 1 && markSet s b 0 && !markSet s b 2

/-- The length of the range of an operation (R379). -/
def xspSpan (op len : Nat) : Nat := if op = 3 then 4096 else if op = 4 then 65536 else len

/-- Why an operation is refused: 4 RANGE, 1 BANK, 2 LOCK, 3 BUSY (R379, R380). -/
def xspRefuse (s : State) (op f len : Nat) : Option Nat :=
  let n := xspSpan op len
  let bad :=
    decide (op = 0 ∨ 5 ≤ op) ||
    (decide (op ≤ 2) && decide (f % 2 = 1 ∨ len % 2 = 1 ∨ len < 2)) ||
    (decide (op = 3) && decide (f % 4096 ≠ 0)) || (decide (op = 4) && decide (f % 65536 ≠ 0)) ||
    decide (flashSize s < f + n)
  let booted := (rbit s Reg.sysBootstat 4).toNat
  let touches := fun b => decide (f < bankBase s b + bankSize s ∧ bankBase s b < f + n)
  let upd := rfld s Reg.updStat 2 0
  if bad then some 4
  else if op = 1 then none
  else if modeOf s ≠ 1 ∧ touches booted then some 1
  else if ownerLocked s ∧ (touches 0 || touches 1) then some 2
  else if upd = 1 ∨ upd = 3 ∨ upd = 5 then some 3
  else none

/-- An operation ends with a result (R380). -/
def xspEnd (s : State) (res : Nat) : State :=
  let s := { s with xsp := { s.xsp with job := none } }
  setEvt (rsetFld (rsetBit s Reg.xspStat 0 false) Reg.xspRes 2 0 res) Reg.xspEvt (if res = 0 then 1 else 3)

/-- A write to `XSP_GO` (R379, R380). -/
def xspGo (i : Initiator) (lvl : Nat) (v : Word) (s : State) : State :=
  if field v 15 8 ≠ 0xF5 ∨ s.xsp.job.isSome then s
  else
    let op := field v 3 0
    let f := rlong s Reg.xspFaddr
    let len := (rget s Reg.xspLen).toNat
    match xspRefuse s op f len with
    | some r => xspEnd s r
    | none =>
      rsetBit { s with xsp := { s.xsp with job := some ⟨op, f, rlong s Reg.xspMaddr, len, initIndex i, lvl⟩ } } Reg.xspStat 0 true

/-- A byte in the range of an operation that was interrupted or failed (R380): its old value, its new value or 0xFF.  Log 62 (DESIGN CHOICE). -/
def brokenByte (s : State) (k : Nat) (old new : Octet) : Octet :=
  let c := Config.openValue 380 (s.free + k) % 3
  if c = 0 then old else if c = 1 then new else 0xFF

/-- The range of an operation that did not complete; `new` gives what it would have left.  Log 62 (DESIGN CHOICE). -/
def breakRange (s : State) (a : Nat) (new : List Octet) : State :=
  let old := flashGet s a new.length
  bumpFree (flashPut s a (((old.zip new).zipIdx).map fun e => brokenByte s e.2 e.1.1 e.1.2)) new.length

/-- An operation that a chip reset or a change to RETAIN interrupts (R380).  Log 62 (DESIGN CHOICE). -/
def xspInterrupt (s : State) : State :=
  match s.xsp.job with
  | none => s
  | some j =>
    let s := { s with xsp := { s.xsp with job := none } }
    if j.op = 1 then s
    else if j.op = 2 then
      breakRange s j.faddr (List.zipWith (· &&& ·) (flashGet s j.faddr j.len)
        ((unpackOctets (mgets s j.maddr (j.len / 2))).take j.len))
    else breakRange s j.faddr (List.replicate (xspSpan j.op j.len) 0xFF)

/-- The octets of the target bank that an unfinished apply may have touched: each reads as nothing fixes (19 R468).  Log 63 (DESIGN CHOICE). -/
def breakTarget (s : State) : State :=
  match s.upd.header with
  | some (_, n) =>
    let b := bankBase s (1 - (rbit s Reg.updStat 4).toNat)
    bumpFree (flashPut s b ((List.range n).map fun k => BitVec.ofNat 8 (Config.openValue 468 (s.free + k)))) n
  | none => s

/-- A write to `XSP_GO` with OP 1. -/
def execFlashRead (i : Initiator) (s : State) : Host.Outcome State Fault Refusal := .next (xspGo i (levelOf s i) 0xF501 s)

/-- A write to `XSP_GO` with OP 2. -/
def execProgram (i : Initiator) (s : State) : Host.Outcome State Fault Refusal := .next (xspGo i (levelOf s i) 0xF502 s)

/-- A write to `XSP_GO` with OP 3. -/
def execErase4k (i : Initiator) (s : State) : Host.Outcome State Fault Refusal := .next (xspGo i (levelOf s i) 0xF503 s)

/-- A write to `XSP_GO` with OP 4. -/
def execErase64k (i : Initiator) (s : State) : Host.Outcome State Fault Refusal := .next (xspGo i (levelOf s i) 0xF504 s)

end Sys2Proof.Machine
end

