-- ==== Sys2Proof/Machine/Rtc.lean ====
section
/-!
DEFINITION. The Rosemary domain (16_timekeeping R412 to R423): lock, supply switch, brown-out, calendar, weekday, wake,
rate trim and its measurement, tamper flags and backup words.
-/

namespace Sys2Proof.Machine

/-- The interface is locked (R413). -/
def rtcLocked (s : State) : Bool := rbit s Reg.rtcStat 15

/-- The interface locks; a measurement that runs ends FAIL (R413, R422). -/
def rtcLock (s : State) : State :=
  let s := rsetBit s Reg.rtcStat 15 true
  if s.rtc.running then
    let s := { s with rtc := { s.rtc with running := false } }
    evt (rsetFld s Reg.rtcMstat 15 14 3) Reg.rtcEvt 3
  else s

/-- The domain switches its supply to VBAK, and `RTC_NSW` advances (R413). -/
def rtcToVbak (s : State) : State :=
  if s.rtc.onVbak then s
  else
    let s := { s with rtc := { s.rtc with onVbak := true } }
    rsetGroup s Reg.rtcNsw 2 (rgroup s Reg.rtcNsw 2 + 1)

/-- The domain switches back to the main supply, and a calendar stopped by a brown-out starts (R413, R416). -/
def rtcToMain (s : State) : State := { s with rtc := { s.rtc with onVbak := false, stopped := false } }

/-- A tamper flag sets: the backup words are zeroed and `RTC_EVT.TAMP` sets (R423). -/
def tampSet (s : State) (b : Nat) : State :=
  let s := rsetBit s Reg.rtcTamp b true
  let s := (List.range 16).foldl (fun s k => rset s (Reg.rtcBkup k) 0) s
  evt s Reg.rtcEvt 2

/-- The last day of a month (R417): a year is a leap year when divisible by 4, except 2100. -/
def lastDay (year mon : Nat) : Nat :=
  if mon = 2 then (if year % 4 = 0 ∧ year ≠ 100 then 29 else 28)
  else if mon = 4 ∨ mon = 6 ∨ mon = 9 ∨ mon = 11 then 30 else 31

/-- The days of a year. -/
def yearDays (year : Nat) : Nat := if year % 4 = 0 ∧ year ≠ 100 then 366 else 365

/-- The calendar's fields, as `RTC_CAL` holds them. -/
structure Cal where
  sub  : Nat
  sec  : Nat
  min  : Nat
  hour : Nat
  day  : Nat
  mon  : Nat
  year : Nat
  deriving DecidableEq, Repr

/-- The calendar in four words. -/
def calOf (ws : List Word) : Cal :=
  { sub := field (ws.getD 0 0) 15 8, sec := field (ws.getD 0 0) 5 0, min := field (ws.getD 1 0) 13 8,
    hour := field (ws.getD 1 0) 4 0, day := field (ws.getD 2 0) 12 8, mon := field (ws.getD 2 0) 3 0,
    year := field (ws.getD 3 0) 7 0 }

/-- The four words of a calendar. -/
def calWords (c : Cal) : List Word :=
  [w16 (c.sub % 256 * 256 + c.sec % 64), w16 (c.min % 64 * 256 + c.hour % 32), w16 (c.day % 32 * 256 + c.mon % 16),
   w16 (c.year % 256)]

/-- The calendar now. -/
def calNow (s : State) : Cal := calOf ((List.range 4).map fun k => rget s (Reg.rtcCal + k))

/-- Hold a calendar. -/
def calPut (s : State) (c : Cal) : State :=
  (calWords c).zipIdx.foldl (fun s e => rset s (Reg.rtcCal + e.2) e.1) s

/-- Every field is in range (R418). -/
def Cal.ok (c : Cal) : Bool :=
  decide (c.sec ≤ 59 ∧ c.min ≤ 59 ∧ c.hour ≤ 23 ∧ 1 ≤ c.mon ∧ c.mon ≤ 12 ∧ 1 ≤ c.day ∧ c.year ≤ 199 ∧ c.day ≤ lastDay c.year c.mon)

/-- The calendar one second later (R417). -/
def Cal.tick (c : Cal) : Cal :=
  if c.sec < 59 then { c with sec := c.sec + 1 }
  else if c.min < 59 then { c with sec := 0, min := c.min + 1 }
  else if c.hour < 23 then { c with sec := 0, min := 0, hour := c.hour + 1 }
  else if c.day < lastDay c.year c.mon then { c with sec := 0, min := 0, hour := 0, day := c.day + 1 }
  else if c.mon < 12 then { c with sec := 0, min := 0, hour := 0, day := 1, mon := c.mon + 1 }
  else if c.year < 199 then { c with sec := 0, min := 0, hour := 0, day := 1, mon := 1, year := c.year + 1 }
  else { c with sec := 0, min := 0, hour := 0, day := 1, mon := 1, year := 0 }

/-- The last second of a day. -/
def Cal.midnight (c : Cal) : Bool := decide (c.sec = 59 ∧ c.min = 59 ∧ c.hour = 23)

/-- The last second of 2199 (R417). -/
def Cal.last (c : Cal) : Bool := c.midnight && decide (c.day = 31 ∧ c.mon = 12 ∧ c.year = 199)

/-- Seconds from 2000-01-01 00:00:00 to the calendar (R419). -/
def Cal.seconds (c : Cal) : Nat :=
  let days := ((List.range c.year).map yearDays).sum + ((List.range (c.mon - 1)).map fun m => lastDay c.year (m + 1)).sum + (c.day - 1)
  ((days * 24 + c.hour) * 60 + c.min) * 60 + c.sec

/-- A brown-out is a reset of the domain: latched and staged words of its groups go, of every initiator (00_scope R9). -/
def dropRosemary (s : State) : State :=
  { s with
    latches := s.latches.filter fun e => decide (e.1.2 / 0x10000 ≠ 0x1005)
    staged := s.staged.filter fun e => decide (e.1.2 / 0x10000 ≠ 0x1005) }

/-- Clear BOR-resettable registers and stop the calendar (R416). -/
def brownOut (s : State) : State :=
  let s := calPut (dropRosemary s) ⟨0, 0, 0, 0, 1, 1, 0⟩
  let s := rsetBit s Reg.rtcStat 3 true
  let s := rset s Reg.rtcWday 0
  let s := rsetGroup (rset s Reg.rtcTrim 0) Reg.rtcWake 2 0
  let s := rsetGroup s Reg.rtcNsw 2 0
  let s := { s with rtc := { s.rtc with stopped := true, div := 0, acc := 0, wakeCnt := 0 } }
  tampSet (rtcLock s) 2

/-- The trim in force (R421): values beyond ±17,180 act as ±17,180. -/
def rtcTrimNow (s : State) : Int := clampInt (-17180) 17180 (rget s Reg.rtcTrim).toInt

/-- Raw LF cycles until 128 trimmed ones have been counted: the accumulator and the count reached (R421). -/
def trimCycles (t : Int) : Nat → Int → Nat → Int × Nat
  | 0, acc, n => (acc, n)
  | k + 1, acc, n =>
    if n ≥ 128 then (acc, n)
    else
      let a := acc + t
      if a ≥ 33554432 then trimCycles t k (a - 33554432) n
      else if a ≤ -33554432 then trimCycles t k (a + 33554432) (n + 2)
      else trimCycles t k a (n + 1)

/-- The weekday after a day (R419): from 6 it goes to 0; what follows the value 7 is not stated.  Log 71 (DESIGN CHOICE). -/
def nextWday (s : State) (w : Nat) : Nat :=
  if w < 6 then w + 1 else if w = 6 then 0 else Config.openValue 419 s.free % 8

/-- SUB advances, carrying into the calendar, the weekday and the wake's count (R417 to R421).  Log 71 (DESIGN CHOICE). -/
def subAdvance (s : State) : State :=
  if s.rtc.stopped then s
  else
    let r := trimCycles (rtcTrimNow s) 160 s.rtc.acc s.rtc.div
    let per := rgroup s Reg.rtcWake 2
    let s := { s with rtc := { s.rtc with acc := r.1, div := r.2 - 128, wakeCnt := if per = 0 then 0 else s.rtc.wakeCnt + 1 } }
    let c := calNow s
    if c.sub < 255 then calPut s { c with sub := c.sub + 1 }
    else
      let s := calPut s { c.tick with sub := 0 }
      let s := if c.last then rsetBit s Reg.rtcStat 2 true else s
      let s := if c.midnight then bumpFree (rset s Reg.rtcWday (w16 (nextWday s (rfld s Reg.rtcWday 2 0)))) else s
      evt { s with rtc := { s.rtc with sec := true } } Reg.rtcEvt 1

/-- A commit of `RTC_CAL`, judged whole (R418). -/
def calCommit (s : State) (ws : List Word) : State :=
  let c := calOf ws
  if c.ok then
    let s := calPut s c
    rsetBit { s with rtc := { s.rtc with div := 0 } } Reg.rtcStat 3 false
  else rsetBit s Reg.rtcStat 1 true

/-- The result of a measurement (R422): the oscillator's error in units of 2^-25, from the reference time, in ticks
of 1/122,880,000 s, that 32,768 × 2^LEN raw cycles took; it saturates at ±32,767. -/
def trimError (len ticks : Nat) : Int :=
  let nominal : Int := (122880000 * 2 ^ len : Nat)
  clampInt (-32767) 32767 (divRound ((nominal - ticks) * 33554432) (max 1 ticks))

/-- LEN: below 4 acts as 4, above 10 as 10. -/
def trimLen (s : State) : Nat := clampNat 4 10 (rfld s Reg.rtcMctl 3 0)

/-- Every register of the RTC block but `RTC_UNLOCK`: the level, the lock, and the write itself (R413 to R423, R483).  Log 11 (DESIGN CHOICE). -/
def rtcWrite (i : Initiator) (lvl a : Nat) (v : Word) (s : State) : State :=
  if a = Reg.rtcUnlock then
    if lvl = 0 ∧ ¬ s.rtc.onVbak ∧ v = 0x52D1 then rsetBit s Reg.rtcStat 15 false else s
  else if rtcLocked s then s
  else if a = Reg.rtcTamp then (if lvl = 0 then rwrite s a v else s)
  else if a = Reg.rtcCal + 3 then
    calCommit (clearStaged s i Reg.rtcCal 4) (commitWords s i Reg.rtcCal 4 v)
  else if a = Reg.rtcWake + 1 then
    let s := groupWrite s i a v
    { s with rtc := { s.rtc with wakeCnt := 0 } }
  else if a = Reg.rtcMctl then
    let s := rwrite s a v
    if bit v 15 ∧ ¬ s.rtc.running then
      rsetFld { s with rtc := { s.rtc with running := true, discLost := !disciplined s } } Reg.rtcMstat 15 14 1
    else s
  else if (groupOf a).2 > 1 then groupWrite s i a v
  else rwrite s a v

/-! ## The commands -/

/-- The main supply becomes valid: the domain switches back to it (R413). -/
def execMainSupplyReturn (s : State) : Host.Outcome State Fault Refusal := .next (rtcToMain s)

/-- A write to `RTC_UNLOCK` (R414). -/
def execRtcUnlock (i : Initiator) (v : Word) (s : State) : Host.Outcome State Fault Refusal :=
  .next (rtcWrite i (levelOf s i) Reg.rtcUnlock v s)

/-- VBAK falls below 1.45 V while the domain runs on it (R416).  Log 72 (DESIGN CHOICE). -/
def execBrownOut (s : State) : Host.Outcome State Fault Refusal :=
  .next (if s.rtc.onVbak then brownOut s else s)

/-- VBAK falls below 1.45 V while the domain runs on the main supply: only VBLOW sets (R416).  Log 72 (DESIGN CHOICE). -/
def execVbakLowOnMain (s : State) : Host.Outcome State Fault Refusal :=
  .next (if s.rtc.onVbak then s else rsetBit s Reg.rtcStat 13 true)

/-- SUB advances after 128 trimmed LF cycles (R417, R419, R421). -/
def execSubAdvance (s : State) : Host.Outcome State Fault Refusal := .next (subAdvance s)

/-- A write to word 3 of `RTC_CAL`, which commits the group (R418). -/
def execCalendarCommit (i : Initiator) (v : Word) (s : State) : Host.Outcome State Fault Refusal :=
  .next (rtcWrite i (levelOf s i) (Reg.rtcCal + 3) v s)

/-- A write to `RTC_WDAY` (R419). -/
def execWeekdayWrite (i : Initiator) (v : Word) (s : State) : Host.Outcome State Fault Refusal :=
  .next (rtcWrite i (levelOf s i) Reg.rtcWday v s)

/-- PER advances of SUB have passed: WAKE sets and WAKE_N pulses low (R420). -/
def execPeriodicWake (s : State) : Host.Outcome State Fault Refusal :=
  .next (
    let per := min (rgroup s Reg.rtcWake 2) 16777216
    if per = 0 ∨ s.rtc.wakeCnt < per then s
    else
      let s := { s with rtc := { s.rtc with wakeCnt := 0, wake := true }, out := { s.out with wakeN := s.out.wakeN + 1 } }
      evt s Reg.rtcEvt 0)

/-- A write of `RTC_MCTL`: with GO = 1 it starts a measurement (R422). -/
def execTrimMeasureStart (i : Initiator) (v : Word) (s : State) : Host.Outcome State Fault Refusal :=
  .next (rtcWrite i (levelOf s i) Reg.rtcMctl v s)

/-- The measurement ends: `some` reference time that its raw cycles took, or `none` where it fails (R422). -/
def execTrimMeasureEnd (raw : Option Int) (s : State) : Host.Outcome State Fault Refusal :=
  .next (
    if ¬ s.rtc.running then s
    else
      let s1 := { s with rtc := { s.rtc with running := false } }
      match raw with
      | some t =>
        if ¬ rbit s Reg.rtcMctl 13 ∧ (s.rtc.discLost ∨ ¬ disciplined s) then evt (rsetFld s1 Reg.rtcMstat 15 14 3) Reg.rtcEvt 3
        else
          let e := i16 (trimError (trimLen s) t.toNat)
          let s2 := rset (rsetFld s1 Reg.rtcMstat 15 14 2) Reg.rtcMerr e
          evt (if rbit s Reg.rtcMctl 14 then rset s2 Reg.rtcTrim e else s2) Reg.rtcEvt 3
      | none => evt (rsetFld s1 Reg.rtcMstat 15 14 3) Reg.rtcEvt 3)

/-- Four low samples of TAMPA_N (`false`) or TAMPB_N (`true`) set its flag (R423). -/
def execTamper (b : Bool) (s : State) : Host.Outcome State Fault Refusal := .next (tampSet s b.toNat)

end Sys2Proof.Machine
end

