-- ==== Sys2Proof/Machine/Key.lean ====
section
/-!
DEFINITION. The key tree (10_keys_attestation R248 to R254): derivation, handles, the requests for update messages and
statements, and the statement's octets (R262 to R265).
-/

namespace Sys2Proof.Machine

/-- The child of a node (R249): 32 octets. -/
def kdf (parent label : List Octet) (depth : Nat) : List Octet :=
  let msg := fun (i : Octet) => [i] ++ padOctets 16 label ++ [0x00, BitVec.ofNat 8 depth, 0x00, 0x01]
  cmac parent (msg 1) ++ cmac parent (msg 2)

/-- The device's own private key for a reserved label (R250). -/
def deviceKey (s : State) (w7 : Nat) : Nat :=
  ofOctetsBE (kdf s.fuses.root (List.replicate 14 0 ++ octetsLE 2 w7) 1) % (ecN - 1) + 1

/-- The lowest free handle slot. -/
def freeSlot (s : State) : Option Nat :=
  (List.range 64).find? fun k => decide (k ≠ 0) && !rbit s (Reg.keyHinfo k) 15

/-- Fill a slot (R252): its generation advances by 1 each time it is refilled, from 1,023 to 1. -/
def fillSlot (s : State) (k : Nat) (key : List Octet) (inst : Bool) (depth use : Nat) : State :=
  let g := rfld s (Reg.keyHgen k) 9 0
  let g := if s.key.filled.contains k then (if g = 1023 then 1 else g + 1) else g
  let s := (List.range 64).foldl (fun s j => if rbit s (Reg.keyHinfo j) 10 then rsetBit s (Reg.keyHinfo j) 10 false else s) s
  let s := rset s (Reg.keyHgen k) (w16 g)
  let s := rset s (Reg.keyHinfo k) (w16 (0x8000 + inst.toNat * 0x4000 + depth * 2048 + 1024 + use * 16))
  { s with key := { s.key with
      handles := ⟨k, key⟩ :: s.key.handles.filter fun h => h.slot ≠ k
      filled := if s.key.filled.contains k then s.key.filled else k :: s.key.filled } }

/-- The handle of a slot. -/
def handleOf (s : State) (k : Nat) : Word := w16 (k + 64 * rfld s (Reg.keyHgen k) 9 0)

/-- A derivation ends with a status. -/
def derivationEnd (s : State) (st : Nat) : State := evt (rset s Reg.keyDres (w16 st)) Reg.keyEvt 0

/-- The label in the `KEY_DLABEL` registers, each word lower octet first. -/
def labelOctets (s : State) : List Octet := unpackOctets ((List.range 8).map fun k => rget s (Reg.keyDlabel k))

/-- A derivation through the `KEY_D` registers (R249, R250, R252 to R254). -/
def derive (s : State) : State :=
  let h := rget s Reg.keyDparent
  let use := rfld s Reg.keyDuse 5 0
  match handleSlot s h with
  | none => derivationEnd s 2
  | some p =>
    let info := rget s (Reg.keyHinfo p)
    let depth := field info 13 11
    if bit info 14 ∨ depth ≥ 4 then derivationEnd s 3
    else if rbit s (Reg.keyDlabel 7) 15 then derivationEnd s 4
    else if use &&& field info 9 4 ≠ use then derivationEnd s 5
    else
      match freeSlot s with
      | none => derivationEnd s 1
      | some k => derivationEnd (fillSlot s k (kdf (slotKey s p) (labelOctets s) (depth + 1)) false (depth + 1) use) 0

/-- A write to `KEY_FREE` (R252, R254): a stale or root handle is ignored. -/
def freeHandle (v : Word) (s : State) : State :=
  match handleSlot s v with
  | some 0 => s
  | some k =>
    let s := rset s (Reg.keyHinfo k) 0
    { s with key := { s.key with handles := s.key.handles.filter fun h => h.slot ≠ k } }
  | none => s

/-- The count of handle slots 1 to 63 in use. -/
def handlesUsed (s : State) : Nat := ((List.range 64).filter fun k => decide (k ≠ 0) && rbit s (Reg.keyHinfo k) 15).length

/-- `KEY_STAT` as it reads. -/
def keyStat (s : State) : Word :=
  let st := rget s Reg.keyStat
  w16 (handlesUsed s * 256 + field st 5 3 * 8 + 4 * s.key.att.isSome.toNat + 2 * s.key.msg.isSome.toNat)

/-- A message ends with a status, a type and a handle (R259, R262). -/
def messageEnd (s : State) (st typ : Nat) (h : Word) : State :=
  let s := rset s (Reg.keyMsgres 0) (w16 (typ % 16 * 256 + st))
  setEvt (rset s (Reg.keyMsgres 1) h) Reg.keyEvt (if st = 0 then 2 else 10)

/-- A write to `KEY_MSGGO` (R262): a GO from a level other than L0 and L2 is recorded with LEVEL; one while a message
is in progress is ignored. -/
def msgGo (i : Initiator) (lvl : Nat) (v : Word) (s : State) : State :=
  if v ≠ 0x4D53 then s
  else if lvl ≠ 0 ∧ lvl ≠ 2 then
    setEvt (rsetFld s (Reg.keyMsgres 0) 3 0 1) Reg.keyEvt 10
  else if s.key.msg.isSome then s
  else
    let j : MsgJob := { addr := rlong s Reg.keyMsgaddr, len := (rget s Reg.keyMsglen).toNat, init := initIndex i, level := lvl }
    { s with key := { s.key with msg := some j } }

/-- The octets of registers, two a word. -/
def regOctets (s : State) (a n : Nat) : List Octet := unpackOctets ((List.range n).map fun k => rget s (a + k))

/-- Octets 0 to 207 of a statement (R264), captured in one cycle when GO is taken (R263). -/
def statement (s : State) : List Octet :=
  let tamper := rfld s Reg.rtcTamp 2 0 ≠ 0
  let flags := (!rbit s Reg.rtcStat 3).toNat + 2 * (decide tamper).toNat + 4 * (ownerLocked s).toNat +
    8 * (rbit s Reg.sysBootstat 7).toNat + 16 * (rbit s Reg.sysBootstat 4).toNat + 32 * (rbit s Reg.keyStat 4).toNat
  [0x51, 0x42, 0x41, 0x54, 0x01, BitVec.ofNat 8 flags] ++ octetsLE 2 272 ++ regOctets s Reg.keyDevid 4 ++
  octetsLE 2 (rfld s Reg.keyChipnum 13 0) ++ [BitVec.ofNat 8 (modeOf s), 0xB0] ++
  octetsLE 4 s.fuses.image ++ octetsLE 4 s.fuses.msg ++
  octetsLE 4 (ofWords [rget s (Reg.rglProf 2), rget s (Reg.rglProf 3)]) ++
  regOctets s (Reg.keyNonce 0) 16 ++ padOctets 32 s.boot.mrom ++ padOctets 32 s.boot.mimg ++
  sha256 (regOctets s (Reg.rglProf 0) 202) ++ sha256 (unpackOctets (fenceWords (fenceInForce s))) ++
  octetsLE 8 (calNow s).seconds ++ octetsLE 8 (shadow s)

/-- A statement request ends with a status (R263). -/
def attEnd (s : State) (st : Nat) : State := evt (rset s Reg.keyAttres (w16 st)) Reg.keyEvt 2

/-- A write to `KEY_ATTGO` (R263): ignored while a statement is in progress, from whatever level. -/
def attGo (i : Initiator) (lvl : Nat) (v : Word) (s : State) : State :=
  if v ≠ 0x4154 then s
  else if s.key.att.isSome then s
  else if lvl = 3 then attEnd s 1
  else if modeOf s = 0 then attEnd s 3
  else { s with key := { s.key with att := some ⟨statement s, rlong s Reg.keyAttaddr, initIndex i, lvl⟩ } }

/-- A write to a register of the KEY block (R254, R262, R263, R483).  Log 60 (DEDUCED). -/
def keyWrite (i : Initiator) (lvl a : Nat) (v : Word) (s : State) : State :=
  if a = Reg.keyDgo then (if lvl = 0 ∧ v = 0x4B44 then derive s else s)
  else if a = Reg.keyFree then (if lvl = 0 then freeHandle v s else s)
  else if Reg.keyDparent ≤ a ∧ a ≤ Reg.keyDlabel 7 then (if lvl = 0 then rwrite s a v else s)
  else if a = Reg.keyMsggo then msgGo i lvl v s
  else if a = Reg.keyAttgo then attGo i lvl v s
  else if (groupOf a).2 > 1 then groupWrite s i a v
  else rwrite s a v

/-- A write to `KEY_DGO` (R249, R254). -/
def execDerivation (i : Initiator) (v : Word) (s : State) : Host.Outcome State Fault Refusal :=
  .next (keyWrite i (levelOf s i) Reg.keyDgo v s)

/-- A write to `KEY_FREE` (R254). -/
def execHandleFree (i : Initiator) (v : Word) (s : State) : Host.Outcome State Fault Refusal :=
  .next (keyWrite i (levelOf s i) Reg.keyFree v s)

/-- A write to `KEY_ATTGO` (R263). -/
def execAttestationRequest (i : Initiator) (v : Word) (s : State) : Host.Outcome State Fault Refusal :=
  .next (keyWrite i (levelOf s i) Reg.keyAttgo v s)

end Sys2Proof.Machine
end

