-- ==== Sys2Proof/Machine/Queues.lean ====
section
/-!
DEFINITION. The queue ports of the cores (11_tillers R271 to R278): depths, credits, reserved completion entries, arrival of
entries, and the messages between cores.
-/

namespace Sys2Proof.Machine

/-- Depth of queue `q` (R272). -/
def qDepth (q : Nat) : Nat := [64, 128, 16, 16, 8, 8, 16, 32, 16, 4, 4, 4, 4, 16, 4, 32].getD q 0

/-- Words of an entry of queue `q` (R272). -/
def qWords (q : Nat) : Nat := [4, 8, 4, 4, 8, 2, 8, 4, 8, 32, 16, 8, 2, 1, 8, 4].getD q 0

/-- The completion queue in which a push to `q` reserves an entry (R274). -/
def completionQueue (q : Nat) : Option Nat :=
  match q with
  | 8 => some 1
  | 9 => some 2
  | 10 => some 3
  | 11 => some 4
  | 12 => some 5
  | _ => none

/-- Core `k` works: a Tiller that is ON, the Crown core while the chip is powered (R279, R280). -/
def coreOn (s : State) (k : Nat) : Bool :=
  if k < 32 then rfld s (Reg.tilStat k) 1 0 = 2 else decide (k = 32) && !s.power.lost

/-- Entries waiting in inbound queue `q` of core `k`. -/
def inbound (s : State) (k q : Nat) : List (List Word × Bool × Word) := (s.core k).qin.nth q []

/-- Entries that the consumer of outbound queue `q` has not taken yet.  Log 82 (DESIGN CHOICE). -/
def outbound (s : State) (k q : Nat) : List (List Word) := (s.core k).qout.nth (q - 8) []

/-- `QSTATq` (R271): entries waiting, or credits held. -/
def qstat (s : State) (k q : Nat) : Nat :=
  if q < 8 then (inbound s k q).length else qDepth q - (outbound s k q).length

/-- An entry is lost with the Tiller that has left ON (R281). -/
def entryLost (s : State) (k : Nat) : State := if k < 32 then bump s (Reg.tilNlost k) else s

/-- An entry arrives in inbound queue `q` of core `k`, with its poison mark and side status (R43, R272).  Log 56 (DESIGN CHOICE). -/
def arrive (s : State) (k q : Nat) (ws : List Word) (poison : Bool := false) (side : Word := 0) : State :=
  s.updCore k fun c => { c with qin := c.qin.upd q (· ++ [(ws, poison, side)]) }

/-- The requester of a request that core `k` pushed before its last stop (R281). -/
def gone (k : Nat) : Nat := 64 + k % 64

/-- Whose the entry at the head of outbound queue `q` is: the core's, or that of a run of it which has ended (R281). -/
def requester (s : State) (k q : Nat) : Nat := if 0 < (s.core k).past.nth (q - 8) 0 then gone k else k

/-- A requester that stops: a completion still due to it will be discarded and counted (R281). -/
def leftBy (k c : Nat) : Nat := if c = k then gone k else c

/-- A core leaves ON: requests it has made stay with their consumers, and their completions are no longer its own (R281). -/
def disown (s : State) (k : Nat) : State :=
  { s with
    lnk := { s.lnk with reqs := s.lnk.reqs.map fun r => { r with core := leftBy k r.core } }
    ses := { s.ses with held := s.ses.held.map fun c => { c with from_ := leftBy k c.from_ } }
    key := { s.key with
      modes := s.key.modes.map fun d => { d with core := leftBy k d.core }
      blocks := s.key.blocks.map fun r => { r with core := leftBy k r.core } }
    eth := { s.eth with tx := s.eth.tx.each fun _ l => l.map fun e => { e with core := leftBy k e.core } }
    cores := s.cores.upd k fun c => { c with past := c.past.each fun q _ => (c.qout.nth q []).length } }

/-- A completion takes the entry its request reserved (R274); it is lost with its Tiller's run (R281).  Log 56 (DESIGN CHOICE). -/
def completion (s : State) (k q : Nat) (ws : List Word) (poison : Bool := false) (side : Word := 0) : State :=
  if 64 ≤ k then entryLost s (k - 64)
  else if coreOn s k && decide (0 < (s.core k).resv.nth q 0) then
    arrive (s.updCore k fun c => { c with resv := c.resv.upd q (· - 1) }) k q ws poison side
  else entryLost s k

/-- The consumer takes the entry at the head of outbound queue `q`: a credit returns. -/
def takeOut (s : State) (k q : Nat) : State :=
  s.updCore k fun c => { c with qout := c.qout.upd (q - 8) (·.drop 1), past := c.past.upd (q - 8) (· - 1) }

/-- Deliver the message at the head of the sender's MSGOUT (R278): one for a target that is not ON is discarded, one
for a full MSGIN waits.  Log 56 (DESIGN CHOICE). -/
def deliverMessage (s : State) (k : Nat) : State :=
  match outbound s k 14 with
  | [] => s
  | ws :: _ =>
    let w0 := ws.getD 0 0
    let t := field w0 5 0
    if ¬ coreOn s t then
      (if t < 32 then entryLost (takeOut s k 14) t else takeOut s k 14)
    else if (inbound s t 6).length ≥ qDepth 6 then s
    else arrive (takeOut s k 14) t 6 (setField w0 5 0 k :: ws.drop 1)

/-- One message of each sender in turn: the order in which waiting senders are served is not promised (R278), and a free
value starts the turn.  Log 56 (DESIGN CHOICE). -/
def deliverRound (s : State) : State :=
  let who := (List.range 33).filter fun k => !(outbound s k 14).isEmpty
  if who.length ≤ 1 then who.foldl deliverMessage s
  else
    let o := Config.openValue 278 s.free % 33
    (List.range 33).foldl (fun s j => deliverMessage s ((o + j) % 33)) (bumpFree s)

/-- Every message that can go is delivered or discarded: a sender's MSGOUT holds at most four. -/
def deliverAll (s : State) : State := deliverRound (deliverRound (deliverRound (deliverRound s)))

end Sys2Proof.Machine
end

