-- ==== Sys2Proof/Machine/Session.lean ====
section
/-!
DEFINITION. Session memory, the lookup tables and the session commands (09_sessions_security R223 to R233, R239).
-/

namespace Sys2Proof.Machine

/-! ## Records (R223, R224) -/

/-- The address of word `w` of the record of session `n` (R223). -/
def sesAddr (n w : Nat) : Nat := 0x02000000 + 32 * (n % 16384) + w

/-- Word `w` of a record. -/
def sesWord (s : State) (n w : Nat) : Word := mget s (sesAddr n w)

/-- Write words of a record from `w` upwards. -/
def sesPut (s : State) (n w : Nat) (ws : List Word) : State := msets s (sesAddr n w) ws

/-- A quantity of `k` words of a record. -/
def sesNum (s : State) (n w k : Nat) : Nat := ofWords (mgets s (sesAddr n w) k)

/-- The session is admitted. -/
def sesValid (s : State) (n : Nat) : Bool := decide (n ≠ 0) && bit (sesWord s n 0) 15

/-- FRESH of a record, 40 bits. -/
def sesFresh (s : State) (n : Nat) : Nat := sesNum s n 10 3 % 2 ^ 40

/-- Install FRESH and FVALID; a counter session keeps bits 39:32 at 0 (R224). -/
def sesSetFresh (s : State) (n v : Nat) (valid : Bool) : State :=
  let v := if bit (sesWord s n 0) 14 then v % 2 ^ 40 else v % 2 ^ 32
  sesPut (sesPut s n 10 (wordsOf 3 v)) n 13 [setBit (sesWord s n 13) 15 valid]

/-- The lookup key of an admitted session (R225). -/
def sesKeyOf (s : State) (n : Nat) : LookKey :=
  if bit (sesWord s n 0) 13 then ⟨1, 0, sesNum s n 3 4⟩ else ⟨0, (sesWord s n 1).toNat, (sesWord s n 2).toNat⟩

/-- A record matches a key (R225). -/
def sesMatches (s : State) (n : Nat) (k : LookKey) : Bool := sesValid s n && decide (sesKeyOf s n = k)

/-- The sessions admitted, in ascending order: records whose VALID is 1. -/
def admitted (s : State) : List Nat :=
  s.mem.filterMap fun e =>
    let o := e.1 - 0x02000000
    if regionOf e.1 = .session ∧ o % 32 = 0 ∧ o ≠ 0 ∧ bit e.2 15 then some (o / 32) else none

/-! ## Lookup tables (R225 to R228) -/

/-- A used slot of a bucket: session, tag, ALT. -/
structure TableSlot where
  session : Nat
  tag     : Nat
  alt     : Nat
  deriving DecidableEq, Repr

/-- h1, h2 and the tag of a key under seed `seed` (R225).  Log 49 (DESIGN CHOICE). -/
def mixOf (seed : Nat) (k : LookKey) : Nat × Nat × Nat :=
  let d := Config.digest seed k.mode k.pan k.addr % 2 ^ 29
  (d % 8192, d / 8192 % 8192, d / 2 ^ 26)

/-- The address of slot `j` of bucket `b` in generation `g`. -/
def slotAddr (b g j : Nat) : Nat := sesAddr b (16 + 4 * g + 2 * j)

/-- Slot `j` of bucket `b` in generation `g`. -/
def slotAt (s : State) (b g j : Nat) : Option TableSlot :=
  let w := mget s (slotAddr b g j)
  let v := mget s (slotAddr b g j + 1)
  if bit w 15 then some ⟨field w 13 0, field v 15 13, field v 12 0⟩ else none

/-- Write a slot. -/
def slotPut (s : State) (b g j : Nat) (e : Option TableSlot) : State :=
  match e with
  | some e => msets s (slotAddr b g j) [w16 (0x8000 + e.session), w16 (e.tag * 8192 + e.alt)]
  | none => msets s (slotAddr b g j) [0, 0]

/-- The slots of generation `g` in a bucket with the tag and ALT of a key. -/
def tableHits (s : State) (b g tag alt : Nat) : List Nat :=
  [0, 1].filterMap fun j =>
    match slotAt s b g j with
    | some e => if e.tag = tag ∧ e.alt = alt then some e.session else none
    | none => none

/-- A lookup (R226): the stash, then the two buckets of the generation in force, confirmed in the record. -/
def sesFind (s : State) (k : LookKey) : Option Nat :=
  match s.ses.stash.find? fun e => e.1 = k with
  | some e => some e.2
  | none =>
    let (h1, h2, tag) := mixOf s.ses.seedNo k
    match tableHits s h1 s.ses.gen tag h2 ++ tableHits s (8192 + h2) s.ses.gen tag h1 with
    | n :: _ => if sesMatches s n k then some n else none
    | [] => none

/-- A free slot of a bucket. -/
def freeInBucket (s : State) (b g : Nat) : Option Nat := [0, 1].find? fun j => (slotAt s b g j).isNone

/-- Displace entries to their other buckets, at most `n` times (R227 step 3); which of a full bucket's two entries moves is
left open.  Answers the entry left without a place.  Log 48 (DESIGN CHOICE). -/
def displace (g : Nat) : Nat → State → Nat → TableSlot → State × Option TableSlot
  | 0, s, _, e => (s, some e)
  | n + 1, s, b, e =>
    let j := Config.openValue 227 s.free % 2
    match slotAt s b g j with
    | none => (slotPut s b g j (some e), none)
    | some v =>
      let s := bumpFree (slotPut s b g j (some e))
      let other := if b < 8192 then 8192 + v.alt else v.alt
      let v := { v with alt := b % 8192 }
      match freeInBucket s other g with
      | some i => (slotPut s other g i (some v), none)
      | none => displace g n s other v

/-- Place a key (R227) in generation `g` under a seed, with the stash that takes what has no place. -/
def place (s : State) (k : LookKey) (n g seed : Nat) (stash : List (LookKey × Nat)) : State × List (LookKey × Nat) :=
  let (h1, h2, tag) := mixOf seed k
  if ¬ (tableHits s h1 g tag h2).isEmpty ∨ ¬ (tableHits s (8192 + h2) g tag h1).isEmpty then (s, stash ++ [(k, n)])
  else
    match freeInBucket s h1 g, freeInBucket s (8192 + h2) g with
    | some j, _ => (slotPut s h1 g j (some ⟨n, tag, h2⟩), stash)
    | none, some j => (slotPut s (8192 + h2) g j (some ⟨n, tag, h1⟩), stash)
    | none, none =>
      let (s, left) := displace g 64 s h1 ⟨n, tag, h2⟩
      match left with
      | none => (s, stash)
      | some e => (s, stash ++ [(sesKeyOf s e.session, e.session)])

/-- Remove a session's slot from its key's buckets in a generation. -/
def unplaceGen (s : State) (k : LookKey) (n g seed : Nat) : State :=
  let (h1, h2, _) := mixOf seed k
  [(h1, 0), (h1, 1), (8192 + h2, 0), (8192 + h2, 1)].foldl (fun s (e : Nat × Nat) =>
    match slotAt s e.1 g e.2 with
    | some v => if v.session = n then slotPut s e.1 g e.2 none else s
    | none => s) s

/-- Remove a key: its slot or stash entry, in both generations and in a build that runs (R227, R228). -/
def unplace (s : State) (k : LookKey) (n : Nat) : State :=
  let s := unplaceGen (unplaceGen s k n s.ses.gen s.ses.seedNo) k n (1 - s.ses.gen) s.ses.other
  { s with ses := { s.ses with
      stash := s.ses.stash.filter fun e => e.2 ≠ n
      build := s.ses.build.map fun b => (b.1, b.2.filter fun e => e.2 ≠ n) } }

/-- Show STASH, GEN, REHASH and the number of sessions. -/
def sesShow (s : State) : State :=
  let w := rget s Reg.sesStat
  let w := setField (setBit (setBit w 15 s.ses.rehash) 14 (decide (s.ses.gen = 1))) 6 0 s.ses.stash.length
  rset (rset s Reg.sesStat w) Reg.sesNsess (w16 (admitted s).length)

/-- Clear every bucket of a generation. -/
def clearGen (s : State) (g : Nat) : State :=
  { s with mem := s.mem.filter fun e =>
      !(decide (regionOf e.1 = .session) && decide (16 + 4 * g ≤ (e.1 - 0x02000000) % 32) &&
        decide ((e.1 - 0x02000000) % 32 < 20 + 4 * g)) }

/-- One build of a rehash under a seed: the tables of the generation and the build stash (R228). -/
def buildGen (s : State) (g seed : Nat) : State × List (LookKey × Nat) :=
  (admitted s).foldl (fun st n => place st.1 (sesKeyOf s n) n g seed st.2) (clearGen s g, [])

/-- The builds of a rehash, at most `n` further seeds: none where every build stash exceeds 32 (R228).  Log 48 (DESIGN CHOICE). -/
def tryBuilds (g : Nat) : Nat → State → State
  | 0, s => clearGen s g
  | n + 1, s =>
    let seed := s.ses.drawn + 1
    let s := { s with ses := { s.ses with drawn := seed } }
    let (t, stash) := buildGen s g seed
    if stash.length ≤ 32 then { t with ses := { t.ses with other := seed, build := some (seed, stash) } }
    else tryBuilds g n s

/-- A rehash is scheduled and builds into the generation not in force (R227, R228).  Log 48 (DESIGN CHOICE). -/
def rehashBegin (s : State) : State :=
  if s.ses.rehash then s
  else tryBuilds (1 - s.ses.gen) 8 { s with ses := { s.ses with rehash := true, build := none } }

/-- A rehash completes: generation, seed and stash change together; or it has given up after 8 seeds (R228).  Log 48 (DESIGN CHOICE). -/
def rehashEnd (s : State) : State :=
  if ¬ s.ses.rehash then s
  else
    match s.ses.build with
    | some (seed, stash) =>
      let s := sesShow { s with ses := { s.ses with
        rehash := false, build := none, gen := 1 - s.ses.gen, seedNo := seed, other := s.ses.seedNo, stash := stash } }
      evt (bump s Reg.sesRhseq) Reg.sesEvt 4
    | none => evt (sesShow { s with ses := { s.ses with rehash := false } }) Reg.sesEvt 5

/-! ## Commands (R229 to R233) -/

/-- Words of a command. -/
def SesCmd.w (c : SesCmd) (k : Nat) : Word := c.words.getD k 0
/-- AT. -/
def SesCmd.at_ (c : SesCmd) : Nat := ofWords (c.words.take 4)
/-- OP. -/
def SesCmd.op (c : SesCmd) : Nat := field (c.w 4) 3 0
/-- SESSION. -/
def SesCmd.session (c : SesCmd) : Nat := field (c.w 5) 13 0
/-- FRESH as the command carries it. -/
def SesCmd.fresh (c : SesCmd) : Nat := ofWords [c.w 15, c.w 16, c.w 17 &&& 0xFF]
/-- The key an ADMIT places. -/
def SesCmd.key (c : SesCmd) : LookKey :=
  if bit (c.w 6) 13 then ⟨1, 0, ofWords [c.w 9, c.w 10, c.w 11, c.w 12]⟩ else ⟨0, (c.w 7).toNat, (c.w 8).toNat⟩

/-- The conditions of BADOP (R230). -/
def badOp (c : SesCmd) : Bool :=
  let op := c.op
  decide (op = 0 ∨ 10 ≤ op) || decide (c.session = 0) ||
  (decide (op = 1 ∨ op = 3) && (bit (c.w 6) 4 || (decide (field (c.w 13) 1 0 = 0) && decide (field (c.w 13) 15 8 ≠ 0)))) ||
  (decide (op = 1) && !bit (c.w 6) 13 && (decide ((c.w 8).toNat ≥ 0xFFFE) || decide (c.w 7 = 0xFFFF))) ||
  (decide (op = 5) && decide (c.w 18 = 0))

/-- The refusals that come before a command acts (R230), in the order this model takes them: 0 for none. -/
def sesRefusal (s : State) (c : SesCmd) : Nat :=
  if c.dup then 10
  else if badOp c then 6
  else if (c.op = 6 ∨ c.op = 7 ∨ c.op = 8) ∧ c.level ≠ 0 then 7
  else if c.op = 1 then
    if sesValid s c.session then 1
    else if (sesFind s c.key).isSome then 3
    else if s.ses.rehash then 5
    else if s.ses.stash.length ≥ 64 then 4
    else 0
  else if sesValid s c.session then 0
  else 2

/-- The key of a KEYDERIVE: a derivation of R249 whose child holds no slot; none where it is refused (R254). -/
def derivedKey (s : State) (c : SesCmd) : Option (List Octet) :=
  match handleSlot s (c.w 18) with
  | none => none
  | some p =>
    let info := rget s (Reg.keyHinfo p)
    let label := (List.range 8).map fun k => c.w (19 + k)
    if bit info 14 ∨ field info 13 11 ≥ 4 ∨ bit (c.w 26) 15 ∨ ¬ bit info 9 then none
    else some ((kdf (slotKey s p) (unpackOctets label) (field info 13 11 + 1)).take 16)

/-- Write a key to the key column and set KEYV, or zero the column and clear KEYV.  Log 50 (DEDUCED). -/
def setKey (s : State) (n : Nat) (key : Option (List Octet)) : State :=
  let s := sesPut s n 24 ((packOctets ((key.getD []).take 16) ++ List.replicate 8 0).take 8)
  sesPut s n 0 [setBit (sesWord s n 0) 12 key.isSome]

/-- A new record (R230): VALID, the configuration, and DUPS, REPLAYS, OUTX and KEYV at 0. -/
def admitRecord (s : State) (c : SesCmd) : State :=
  let n := c.session
  let s := sesPut s n 0 ([0x8000 ||| (c.w 6 &&& 0x68FF), c.w 7, c.w 8, c.w 9, c.w 10, c.w 11, c.w 12, c.w 13 &&& 0xFF03,
    c.w 27, c.w 28, 0, 0, 0, 0, 0, 0])
  sesSetFresh (sesPut s n 24 (List.replicate 8 0)) n c.fresh (bit (c.w 14) 15)

/-- ADMIT (R227): the record is written and its key placed; a stash of 48 entries schedules a rehash. -/
def doAdmit (s : State) (c : SesCmd) : State :=
  let s := admitRecord s c
  let (s, stash) := place s c.key c.session s.ses.gen s.ses.seedNo s.ses.stash
  let s := { s with ses := { s.ses with stash := stash } }
  if stash.length ≥ 48 then rehashBegin (evt s Reg.sesEvt 3) else s

/-- REMOVE: the key, the key column and the record go; the bucket of R223 stays. -/
def doRemove (s : State) (n : Nat) : State :=
  let s := unplace s (sesKeyOf s n) n
  sesPut (sesPut s n 0 (List.replicate 16 0)) n 24 (List.replicate 8 0)

/-- SETPOL. -/
def doSetpol (s : State) (c : SesCmd) : State :=
  let n := c.session
  sesPut (sesPut s n 0 [(sesWord s n 0 &&& ~~~ 0x08FF) ||| (c.w 6 &&& 0x08FF)]) n 7 [c.w 13 &&& 0xFF03]

/-- SETFRESH. -/
def doSetfresh (s : State) (c : SesCmd) : State :=
  let n := c.session
  let s := sesSetFresh s n c.fresh (bit (c.w 14) 15)
  if bit (c.w 14) 14 then
    sesPut (sesPut s n 8 [c.w 27, c.w 28]) n 13 [setBit (sesWord s n 13) 14 false]
  else s

/-- Advance OUTFC by `n`; OUTX sets where it reaches 0xFFFFFFFF (R239).  Log 50 (DEDUCED). -/
def advanceOut (s : State) (n k : Nat) : State :=
  let v := sesNum s n 8 2 + k
  let s := sesPut s n 8 (wordsOf 2 v)
  if v ≥ 0xFFFFFFFF then sesPut s n 13 [setBit (sesWord s n 13) 14 true] else s

/-- The effect of a command that R230 does not refuse beforehand: the status, the state and the VALUE of FCRES. -/
def sesApply (s : State) (c : SesCmd) : Nat × State × Option Nat :=
  let n := c.session
  match c.op with
  | 1 => (0, doAdmit s c, none)
  | 2 => (0, doRemove s n, none)
  | 3 => (0, doSetpol s c, none)
  | 4 => (0, doSetfresh s c, none)
  | 5 =>
    let first := sesNum s n 8 2
    let k := (c.w 18).toNat
    if first + k - 1 ≥ 0xFFFFFFFF then (9, s, none) else (0, advanceOut s n k, some first)
  | 6 =>
    match derivedKey s c with
    | some key => (0, setKey s n (some key), none)
    | none => (8, s, none)
  | 7 =>
    match installKey s (c.w 18) with
    | some key => (0, setKey s n (some (key.take 16)), none)
    | none => (8, s, none)
  | 8 => (0, setKey s n none, none)
  | 9 => (0, sesPut s n 14 [0, 0], none)
  | _ => (6, s, none)

/-- Return a completion to the issuer's queue or to the mailbox (R233). -/
def sesReply (s : State) (c : SesCmd) (ws : List Word) : State :=
  if c.from_ ≠ 33 then completion s c.from_ 2 ws
  else
    let s := (ws.zipIdx).foldl (fun s e => rset s (Reg.sesMbres e.2) e.1) s
    rset s Reg.sesMbstat 2

/-- An ADMIT or REMOVE that has acted changes this chip's own directory (13 R352). -/
def ownDirectory (s : State) (c : SesCmd) (gone : LookKey) : State :=
  if ¬ (inCluster s ∧ decodes s) then s
  else if c.op = 1 then dirApply s c.key (some (chipNum s))
  else if c.op = 2 then dirApply s gone none
  else s

/-- The key that an ADMIT or REMOVE will place or remove, as far as it is known when the command arrives. -/
def dirKey (s : State) (c : SesCmd) : Option LookKey :=
  if c.op = 1 then some c.key
  else if c.op = 2 then
    if sesValid s c.session then some (sesKeyOf s c.session)
    else (s.ses.held.find? fun d => decide (d.op = 1 ∧ d.session = c.session)).map SesCmd.key
  else none

/-- The DIR frame of an ADMIT or REMOVE, sent when the command arrives (13 R352).  Log 68 (DESIGN CHOICE). -/
def announce (s : State) (c : SesCmd) : State :=
  if ¬ (inCluster s ∧ decodes s) then s
  else
    match dirKey s c with
    | some k => dirSend s k (chipNum s) (decide (c.op = 2)) c.at_
    | none => s

/-- A command acts at its AT, or at once with LATE (R230 to R233). -/
def sesExec (s : State) (c : SesCmd) (late : Bool) : State :=
  let r := sesRefusal s c
  let gone := sesKeyOf s c.session
  let (st, s, val) := if r ≠ 0 then (r, s, none) else sesApply s c
  let s := if st = 0 then ownDirectory s c gone else s
  let s := if st ≠ 0 then evt s Reg.sesEvt 0 else s
  let s := sesShow s
  let v := val.getD s.ses.stash.length
  sesReply s c ([w16 (late.toNat * 256 + c.op * 16 + st), w16 c.session] ++ wordsOf 2 v)

/-- The order of R231: by AT, then SESSION, then OP. -/
def sesBefore (c d : SesCmd) : Bool :=
  decide (c.at_ < d.at_) ||
  (decide (c.at_ = d.at_) && (decide (c.session < d.session) || (decide (c.session = d.session) && decide (c.op < d.op))))

/-- Insert a command after those that come before it or with it. -/
def sesInsert (c : SesCmd) : List SesCmd → List SesCmd
  | [] => [c]
  | d :: r => if sesBefore c d then c :: d :: r else d :: sesInsert c r

/-- A command arrives at the engine (R232): at once with LATE where the shadow has reached its AT, else held.  Log 48 (DESIGN CHOICE). -/
def sesAccept (s : State) (c : SesCmd) : State :=
  let c := { c with dup := s.ses.held.any fun d => d.at_ = c.at_ && d.session = c.session && d.op = c.op }
  let s := announce s c
  if shadow s ≥ c.at_ ∧ rxRuns s then sesExec s c true
  else { s with ses := { s.ses with held := sesInsert c s.ses.held } }

/-- Take the commands waiting in core `k`'s SESCMD queue while the engine holds fewer than 256; after its 32 words an
entry of the model holds the level at which the core pushed it.  Log 48 (DESIGN CHOICE). -/
def sesTake (k : Nat) : Nat → State → State
  | 0, s => s
  | n + 1, s =>
    match outbound s k 9 with
    | ws :: _ =>
      if s.ses.held.length < 256 ∧ rxRuns s then
        sesTake k n (sesAccept (takeOut s k 9) ⟨requester s k 9, (ws.getD 32 1).toNat, ws.take 32, false⟩)
      else s
    | [] => s

/-- A mailbox command that waits is taken while the engine holds fewer than 256 (R232). -/
def mailTake (s : State) : State :=
  match s.ses.mail with
  | some c => if s.ses.held.length < 256 then sesAccept { s with ses := { s.ses with mail := none } } c else s
  | none => s

/-- The engine takes what waits in the cores' queues and in the mailbox (R232). -/
def sesPull (s : State) : State := mailTake ((List.range 33).foldl (fun s k => sesTake k 4 s) s)

/-- The command at the head of those held acts. -/
def sesHead (s : State) : State :=
  match s.ses.held with
  | c :: r => sesPull (sesExec { (reach s c.at_) with ses := { s.ses with held := r } } c false)
  | [] => s

/-- A mailbox command issued at the writer's level (`SES_MBGO`); BUSY until it completes, and while it waits for room (R232). -/
def mailboxGo (lvl : Nat) (v : Word) (s : State) : State :=
  if v ≠ 0x5E55 ∨ rbit s Reg.sesMbstat 0 then s
  else
    let ws := (List.range 32).map fun k => rget s (Reg.sesMb k)
    let s := rset s Reg.sesMbstat 1
    mailTake { s with ses := { s.ses with mail := some ⟨33, lvl, ws, false⟩ } }

/-- A write to a register of the SES block. -/
def sesRegWrite (lvl a : Nat) (v : Word) (s : State) : State :=
  if a = Reg.sesMbgo then mailboxGo lvl v s
  else if a = Reg.sesCtl then
    let s := rwrite s a v
    if bit v 2 then (List.range 7).foldl (fun s k => rset s (Reg.sesNnosess + k) 0) s else s
  else rwrite s a v

/-- REHASH_COMPLETE (R228). -/
def execRehashComplete (s : State) : Host.Outcome State Fault Refusal := .next (rehashEnd s)

end Sys2Proof.Machine
end

