-- ==== Sys2Proof/Machine/Link.lean ====
section
/-!
DEFINITION. The link timing unit (08_link_timing): template and bank checks, start, re-anchors, bank switches, cells
and hopping, the time correction, completions (R193 to R203, R208, R220, R221; 20_address_map R484).
-/

namespace Sys2Proof.Machine

/-- Change the link timing unit. -/
def updLnk (s : State) (f : LnkSt → LnkSt) : State := { s with lnk := f s.lnk }

/-! ## Template (R196 to R198) -/

/-- The template as the registers give it, in µs. -/
def tplWritten (s : State) : List Nat := (List.range 6).map fun k => (rget s (Reg.lnkTslen + k)).toNat

/-- The template meets R197. -/
def tplOk (t : List Nat) : Bool :=
  let v := fun k => t.getD k 0
  decide (v 0 % 25 = 0 ∧ 2000 ≤ v 0 ∧ v 0 ≤ 65525) && decide (v 1 + v 5 + v 2 ≤ v 0) && decide (v 3 ≤ v 2) && decide (v 2 < v 3 + v 4)

/-! ## Banks, cells and hopping (R199 to R201, R484) -/

/-- The cell region lies wholly in shared program memory (R484). -/
def baseOk (base : Nat) : Bool := decide (0x01000000 ≤ base ∧ base ≤ 0x0117FFC0)

/-- The header address of bank `k`. -/
def bankAddr (s : State) (k : Nat) : Nat := s.lnk.base + k * 0x40020

/-- LEN, FIRST and NUM of slotframe `f` of bank `k`. -/
def frameHead (s : State) (k f : Nat) : Nat × Nat × Nat :=
  let a := bankAddr s k + 4 * f
  ((mget s a).toNat, (mget s (a + 1)).toNat, (mget s (a + 2)).toNat)

/-- A cell. -/
structure Cell where
  sf      : Nat
  index   : Nat
  len     : Nat
  off     : Nat
  tx      : Bool
  shared_ : Bool
  adv     : Bool
  choff   : Nat
  session : Nat

/-- Cell `i` of bank `k`, of slotframe `f` of length `len`. -/
def cellAt (s : State) (k f len i : Nat) : Cell :=
  let a := bankAddr s k + 32 + 4 * i
  let w := mget s (a + 1)
  { sf := f, index := i, len := len, off := (mget s a).toNat, tx := bit w 15, shared_ := bit w 14, adv := bit w 13,
    choff := field w 6 0, session := field (mget s (a + 2)) 13 0 }

/-- The cells of slotframe `f` of bank `k`; none of an unused one. -/
def cellsOf (s : State) (k f : Nat) : List Cell :=
  let (len, first, num) := frameHead s k f
  if len = 0 then [] else (List.range num).map fun i => cellAt s k f len (first + i)

/-- HOPLEN of bank `k`. -/
def hopLen (s : State) (k : Nat) : Nat := rfld s (Reg.lnkHoplen k) 7 0

/-- Entry `j` of the hopping sequence of bank `k`. -/
def hopEntry (s : State) (k j : Nat) : Nat :=
  let w := rget s (Reg.lnkHop k (j / 2))
  if j % 2 = 0 then field w 6 0 else field w 14 8

/-- Slot offsets ascend. -/
def sortedCells : List Cell → Bool
  | a :: b :: r => decide (a.off ≤ b.off) && sortedCells (b :: r)
  | _ => true

/-- Bank `k` may come into force (R201). -/
def bankOk (s : State) (k : Nat) : Bool :=
  let used := (List.range 8).filter fun f => decide ((frameHead s k f).1 ≠ 0)
  let span := fun f => ((frameHead s k f).2.1, (frameHead s k f).2.1 + (frameHead s k f).2.2)
  decide (1 ≤ hopLen s k ∧ hopLen s k ≤ 128) && used.all (fun f => decide ((span f).2 ≤ 65536)) &&
  used.all (fun f => used.all fun g => decide (f = g) || decide ((span f).2 ≤ (span g).1) || decide ((span g).2 ≤ (span f).1) ||
    decide ((span f).1 = (span f).2) || decide ((span g).1 = (span g).2)) &&
  used.all fun f =>
    let cs := cellsOf s k f
    sortedCells cs && cs.all fun c => decide (c.off < c.len) && decide (c.choff < hopLen s k)

/-- The centre of channel `n` (R200), in the model's frequency unit. -/
def chanFreq (s : State) (n : Nat) : Int := ((rgroup s Reg.lnkCh0 2 + n * (rget s Reg.lnkChsp).toNat * 100 : Nat) : Int) * hz

/-- The channel of a cell in slot `n` (R200). -/
def cellChan (s : State) (c : Cell) (n : Nat) : Nat := hopEntry s s.lnk.bank ((n + c.choff) % max 1 (hopLen s s.lnk.bank))

/-- A cell serves a session's requests (R199, R209). -/
def cellFits (c : Cell) (session : Nat) : Bool :=
  c.tx && (!c.adv || decide (session = 0)) &&
  (decide (c.session = session) || (decide (c.session = 0) && (c.shared_ || (c.adv && decide (session = 0)))))

/-- The cells in force that serve a session. -/
def servingCells (s : State) (session : Nat) : List Cell :=
  ((List.range 8).flatMap (cellsOf s s.lnk.bank)).filter fun c => cellFits c session

/-- The first active slot of a cell whose start is at or after tick `y` under an anchor (R193, R200): start and number. -/
def activeFrom (s : State) (a : Anchor) (c : Cell) (y : Nat) : Nat × Nat :=
  let S := slotTicks s
  let k := (y - a.tick + S - 1) / S
  let n0 := (a.asn + k) % 2 ^ 40
  let n := n0 + (c.off + c.len - n0 % c.len) % c.len
  let skip := if n < 2 ^ 40 then n - n0 else 2 ^ 40 + c.off - n0
  (a.tick + (k + skip) * S, (n0 + skip) % 2 ^ 40)

/-- The first active slot of a cell at or after tick `y`, past an armed re-anchor under the new pair (R195). -/
def cellSlot (s : State) (c : Cell) (y : Nat) : Option (Nat × Nat) :=
  match s.lnk.anchors with
  | [] => none
  | a :: _ =>
    let r := activeFrom s a c y
    match s.lnk.reanchor with
    | some n => if r.1 < n.from_ then some r else some (activeFrom s n c (max y n.from_))
    | none => some r

/-! ## Counters, completions (R207, R208) -/

/-- A request ends: its completion goes to the requester, its granules return (R207, R208). -/
def reqEnd (s : State) (r : Req) (status : Nat) : State :=
  let s := updLnk s fun l => { l with reqs := l.reqs.filter (fun q => q.id ≠ r.id), expected := l.expected.filter fun x => x.req ≠ r.id }
  let s := match holdOf s r.gran 36 with
    | some h => release s h
    | none => s
  completion s r.core 1 (wordsOf 4 r.lastT ++ wordsOf 3 r.lastE ++ [w16 (min 15 r.made * 16 + status)])

/-- Change a request. -/
def updReq (s : State) (id : Nat) (f : Req → Req) : State :=
  updLnk s fun l => { l with reqs := l.reqs.map fun r => if r.id = id then f r else r }

/-- A request by its number. -/
def reqOf (s : State) (id : Nat) : Option Req := s.lnk.reqs.find? fun r => r.id = id

/-! ## Re-anchors and bank switches (R195, R202) -/

/-- `LNK_STAT` shows what is armed. -/
def lnkShow (s : State) : State :=
  let w := rget s Reg.lnkStat
  rset s Reg.lnkStat (setBit (setBit (setBit (setBit w 5 s.lnk.heldStop.isSome) 4 s.lnk.reanchor.isSome) 3 s.lnk.switch.isSome) 2 (decide (s.lnk.bank = 1)))

/-- A re-anchor takes effect at tick `t` (R195). -/
def reanchorAt (s : State) (t : Nat) (a : Anchor) : State :=
  lnkShow (updLnk s fun l => { l with anchors := { a with from_ := t } :: l.anchors, reanchor := none })

/-- A commit of the `LNK_ASN0` group (R195). -/
def asn0Commit (s : State) : State :=
  if ¬ lnkOn s then s
  else
    let t := rgroup s Reg.lnkAt 4
    let a : Anchor := { from_ := t, tick := t, asn := rgroup s Reg.lnkAsn0 4 % 2 ^ 40 }
    if t < shadow s then evt (reanchorAt s s.time.now a) Reg.lnkEvt 1
    else lnkShow (updLnk s fun l => { l with reanchor := some a })

/-- The tick of the first slot boundary at or after the present whose ASN is at or after `n`; the next boundary where the
slot of `n` has begun (R202). -/
def switchTick (s : State) (n : Nat) : Nat × Bool :=
  let now := s.time.now
  let b := nextBoundary s now
  let d := (n + 2 ^ 40 - asnAt s b) % 2 ^ 40
  let past := decide (2 ^ 39 ≤ d)
  if past then (nextBoundary s now, true) else (b + d * slotTicks s, false)

/-- An armed switch is scheduled (R202). -/
def armSwitch (s : State) : State :=
  if ¬ lnkOn s then s
  else
    let n := rgroup s Reg.lnkSwasn 4 % 2 ^ 40
    let s := lnkShow (updLnk s fun l => { l with switch := some n })
    if (switchTick s n).2 then evt s Reg.lnkEvt 1 else s

/-- A write to `LNK_SWCTL` (R202). -/
def swctlWrite (v : Word) (s : State) : State :=
  let armed := rbit s Reg.lnkSwctl 1
  let s := rwrite s Reg.lnkSwctl v
  if bit v 1 ∧ ¬ armed then armSwitch s else s

/-- The armed switch is checked at its boundary, and applied or rejected (R202). -/
def bankSwitch (s : State) : State :=
  match s.lnk.switch with
  | none => s
  | some n =>
    if ¬ lnkOn s then s
    else
      let s := reach s (switchTick s n).1
      let k := (rbit s Reg.lnkSwctl 0).toNat
      let s := rsetBit (updLnk s fun l => { l with switch := none }) Reg.lnkSwctl 1 false
      if bankOk s k then evt (lnkShow (updLnk s fun l => { l with bank := k })) Reg.lnkEvt 7
      else evt (lnkShow s) Reg.lnkEvt 8

/-! ## Start and stop (R220, R221) -/

/-- The unit starts: registers read, template and bank checked (R197, R201, R204, R220, R484). -/
def lnkBegin (s : State) : State :=
  let at_ := rgroup s Reg.lnkAt 4
  let sel := rbit s Reg.lnkCtl 1
  let late := sel && within2us s at_
  let s := updLnk s fun l => { l with
    tpl := tplWritten s
    base := rlong s Reg.lnkCellbase
    panid := rget s Reg.lnkPanid
    short := rget s Reg.lnkShort
    ext := rgroup s Reg.lnkExt 4
    coord := rbit s Reg.lnkCtl 2
    promisc := rbit s Reg.lnkCtl 3
    immack := rbit s Reg.lnkCtl 4
    atSel := if sel then some at_ else none
    startAt := if sel && !late then some at_ else none }
  let s := setState s .lnk 1
  let k := (rbit s Reg.lnkSwctl 0).toNat
  if ¬ tplOk s.lnk.tpl then evt (drainState s .lnk) Reg.lnkEvt 0
  else if ¬ (baseOk s.lnk.base && bankOk s k) then evt (drainState s .lnk) Reg.lnkEvt 8
  else
    let s := lnkShow (updLnk s fun l => { l with bank := k })
    if late then evt s Reg.lnkEvt 1 else s

/-- The unit enters ON with its anchor (R193, R220): at LNK_AT, or at the first tick after the check, which takes at most 2 µs.  The anchor
tick is LNK_AT with ATSEL = 1, on time or late, and the tick of entry with ATSEL = 0.  Log 53 (DESIGN CHOICE). -/
def lnkEnter (s : State) : State :=
  if stateOf s .lnk ≠ 1 then s
  else
    let t := s.lnk.startAt.getD (s.time.now + 1 + Config.openValue 220 s.free % 245)
    let s := bumpFree (reach s t)
    let asn := rgroup s Reg.lnkAsn0 4 % 2 ^ 40
    let s := updLnk (setState s .lnk 2) fun l => { l with
      anchors := [{ from_ := t, tick := l.atSel.getD t, asn := asn }], since := t, stopAt := none, startAt := none, reanchor := none,
      switch := none }
    let s := lnkShow s
    if rbit s Reg.lnkSwctl 1 then armSwitch s else s

/-- The instant at which the drain completes: 40.0 µs after the last granted transmission ends (R221). -/
def lnkDrainTick (s : State) : Nat := max s.time.now ((s.lnk.lastE5 + turn5 + 4) / 5)

/-! ## Registers of the block -/

/-- A write to a register of the LNK block other than `LNK_CTL`. -/
def lnkWrite (i : Initiator) (a : Nat) (v : Word) (s : State) : State :=
  if a = Reg.lnkSwctl then swctlWrite v s
  else if (groupAt s a).2 > 1 then
    let s := groupWrite s i a v
    if a = Reg.lnkAsn0 + 3 then asn0Commit s else s
  else rwrite s a v

/-! ## Frames on the grid (R203) -/

/-- The measured start F of a frame, in units of 1/10,000 tick. -/
def frameStart (s : State) (d : Det) (p : SlotCopy) : Nat :=
  10000 * d.synct + 625 * d.subt - shrTime p (rfld s (Reg.lnkPRxpre d.prof) 9 0)

/-- The time correction of a frame in µs (R203), halves away from zero.  Log 54 (DESIGN CHOICE). -/
def timeCorrection (s : State) (d : Det) (p : SlotCopy) : Int :=
  let want := 10000 * slotStart s d.synct + 2000 * tpl5 s 1
  clampInt (-2048) 2047 (divRound ((want : Int) - (frameStart s d p : Int)) 1228800)

/-! ## The commands -/

/-- The timebase reaches the next slot start (R193): its Stolon event (17 R436). -/
def execSlotBoundary (s : State) : Host.Outcome State Fault Refusal :=
  .next (if lnkOn s then stolon (reach s (nextBoundary s (s.time.now + 1))) 0x821 else s)

/-- A commit of the `LNK_ASN0` group by its highest word (R195). -/
def execReanchorArm (i : Initiator) (v : Word) (s : State) : Host.Outcome State Fault Refusal :=
  .next (lnkWrite i (Reg.lnkAsn0 + 3) v s)

/-- The armed re-anchor takes effect at its tick (R195). -/
def execReanchorApply (s : State) : Host.Outcome State Fault Refusal :=
  .next (
    match s.lnk.reanchor with
    | some a => if lnkOn s then reanchorAt (reach s a.from_) a.from_ a else s
    | none => s)

/-- A write to `LNK_SWCTL` (R202). -/
def execBankSwitchArm (_i : Initiator) (v : Word) (s : State) : Host.Outcome State Fault Refusal := .next (swctlWrite v s)

/-- The boundary of an armed switch is reached (R202). -/
def execBankSwitch (s : State) : Host.Outcome State Fault Refusal := .next (bankSwitch s)

/-- The unit enters ON (R220). -/
def execLinkStart (s : State) : Host.Outcome State Fault Refusal := .next (lnkEnter s)

end Sys2Proof.Machine
end

