-- ==== Sys2Proof/Machine/Claims.lean ====
section
/-!
DEFINITION. Transmit requests, claims and the sheaf plan, expected acknowledgements, and the sheaf, ports and powers that Sage
names (08_link_timing R205 to R217; 13_sage_cluster R335, R336; 03_ports_and_sheaves R510; 09_sessions_security R245).
-/

namespace Sys2Proof.Machine

/-! ## Transmit requests (R205 to R207) -/

/-- The frame that a metadata granule describes (R206). -/
structure TxDesc where
  len   : Nat
  fcst  : Bool
  coded : Bool
  dw    : Bool
  rmode : Nat
  clean : Bool      -- reserved words and bits are 0

/-- Read the description from granule `g`. -/
def txDesc (s : State) (g : Nat) : TxDesc :=
  let w := fun k => mget s (granAddr g + k)
  { len := field (w 5) 10 0, fcst := bit (w 5) 11, coded := bit (w 5) 14, dw := bit (w 5) 13, rmode := field (w 6) 4 0,
    clean := !bit (w 5) 15 && !bit (w 5) 12 && decide (field (w 6) 15 5 = 0) &&
      ((List.range 32).filter fun k => decide (k ≠ 5 ∧ k ≠ 6)).all fun k => w k = 0 }

/-- A description is refused with BADREQ (R206). -/
def badDesc (p : SlotCopy) (d : TxDesc) : Bool :=
  let n := d.len + fcsLen d.fcst
  decide (2047 < n) || decide (d.len = 0) || (decide (p.kind = 3) && (!d.fcst || decide (127 < n))) ||
  (decide (p.kind ≠ 1) && (d.coded || d.dw)) ||
  (if p.kind = 2 then !Config.oqpskModeLegal p.rate d.rmode else decide (d.rmode ≠ 0)) || !d.clean

/-- A slot that no profile describes. -/
def noSlot : SlotCopy := { kind := 0, rate := 0, thr := 0, sync := 0, legal := false, fec := 0 }

/-- A transmit request as its 8 words and its granules give it (R205, R206). -/
def reqFrom (s : State) (core : Nat) (ws : List Word) : Req × TxDesc :=
  let w := fun k => ws.getD k 0
  let p := field (w 5) 14 12
  let slot := (slotCopies s).getD p noSlot
  let d := txDesc s (w 6).toNat
  let body := readData s (w 6).toNat d.len
  let n := field (w 5) 11 8
  ({ id := s.lnk.nextId, core := core, nb := ofWords (ws.take 4), mode := field (w 4) 15 14, session := field (w 4) 13 0,
     ar := bit (w 5) 15, prof := p, attempts := clampNat 1 8 n, chv := bit (w 5) 7, chan := field (w 5) 6 0, gran := (w 6).toNat,
     pwr := (w 7).toInt, slot := slot, coded := d.coded, fcst := d.fcst, dw := d.dw, rmode := d.rmode, psdu := body ++ fcsOf d.fcst body }, d)

/-- Duration of a request's transmission, in 1/10,000 tick. -/
def reqTime (s : State) (r : Req) : Nat :=
  shrTime r.slot (rfld s (Reg.lnkPTxpre r.prof) 9 0) + bodyTime r.slot r.coded r.psdu.length r.rmode

/-- A request reaches the unit (R207, R208): the status it is refused with, if any. -/
def reqRefusal (s : State) (r : Req) (d : TxDesc) : Option Nat :=
  if r.mode = 3 ∨ ¬ r.slot.legal ∨ badDesc r.slot d then some 9
  else if r.nb < shadow s then some 5
  else if ¬ lnkOn s then some 6
  else if s.lnk.reqs.any fun q => q.session = r.session && q.nb = r.nb then some 8
  else if r.mode = 0 ∧ (servingCells s r.session).isEmpty then some 7
  else none

/-- Take the request at the head of a core's TXREQ queue (R205, R207). -/
def txRequest (k : Nat) (s : State) : State :=
  match outbound s k 8 with
  | [] => s
  | ws :: _ =>
    if s.lnk.reqs.length ≥ 4096 then s
    else
      let (r, d) := reqFrom s (requester s k 8) ws
      let s := takeOut s k 8
      let s := if (holdOf s r.gran k).isSome then passHold s r.gran 36 else s
      let s := updLnk s fun l => { l with nextId := l.nextId + 1 }
      match reqRefusal s r d with
      | some st =>
        let s := if st = 5 then evt (bump s Reg.lnkNtxlate) Reg.lnkEvt 2 else s
        reqEnd s r st
      | none => updLnk s fun l => { l with reqs := l.reqs ++ [r] }

/-! ## Sheaf, ports, weights and powers (13 R335, R336) -/

/-- The latest record that counts for a claim of a session decided at `d` (R335). -/
def latestRef (s : State) (session d : Nat) : Option RefRec :=
  (s.sage.refs.filter fun r => decide (r.session = session ∧ session ≠ 0 ∧ r.endt + horizon s + 1229 ≤ d)).foldl
    (fun m r => match m with
      | some b => if keyLt b.key r.key then some r else some b
      | none => some r) none

/-- |H_k|² of port `k`.  Log 54 (DESIGN CHOICE). -/
def gainSq (h : List Word) (k : Nat) : Nat :=
  let a := (h.getD (2 * k) 0).toInt
  let b := (h.getD (2 * k + 1) 0).toInt
  (a * a + b * b).toNat

/-- 20 log10(|H_k| / max |H|) in 0.25 dB, rounded down; one larger where the rounding, which is not stated, takes it up. -/
def gainOff (g m : Nat) : Int × Bool :=
  let q := (List.range 400).find? fun (n : Nat) => decide ((ampOf (-(n : Int))) ^ 2 * m ≤ g * (ampOf 0) ^ 2)
  match q with
  | some n => (-(n : Int), decide ((ampOf (-(n : Int))) ^ 2 * m = g * (ampOf 0) ^ 2))
  | none => (-400, true)

/-- The power of port `k` of sheaf `n` from gains H and a power (R336): none for a port with H = 0, and under TXW = 1 for one taken
below −20.0 dBm; `m` is the greatest |H|².  Log 54 (DESIGN CHOICE). -/
def portPower (s : State) (h : List Word) (pwr : Int) (m k : Nat) : Option Int :=
  if gainSq h k = 0 then none
  else if ¬ rbit s Reg.sagCtl 1 then some pwr
  else
    let (q, exact) := gainOff (gainSq h k) m
    if pwr + q < -80 then none
    else some (pwr + q + (if exact then 0 else (Config.openValue 336 (gainSq h k) % 2 : Nat)))

/-- The power of each port of sheaf `n` (R336): equal on every port without gains; from gains H by `SAG_CTL.TXW`, and on the port of the
largest |H| alone where an included port other than the reference port has RPH invalid. -/
def sagePowers (s : State) (n : Nat) (h : Option (List Word)) (pwr : Int) : List (Option Int) :=
  match h with
  | none => List.replicate 8 (some pwr)
  | some h =>
    let m := (List.range 8).foldl (fun m k => max m (gainSq h k)) 0
    let pw := (List.range 8).map (portPower s h pwr m)
    let incl := (List.range 8).filter fun k => (pw.getD k none).isSome
    let rphBad := incl.any fun k => decide (refPort s n ≠ some (8 * n + k)) && !rbit s (Reg.calValid (8 * n + k)) 3
    let one := (List.range 8).find? fun k => gainSq h k = m
    if rphBad then (List.range 8).map fun k => if some k = one then pw.getD k none else none else pw

/-- The RPH value applied to port `k` of sheaf `n`. -/
def rphOf (s : State) (n k : Nat) : Word := (s.port (8 * n + k)).applied.getD 5 0

/-- The weight of each port that has a power (R336): v/|v| with v = conj(H) · e^(−j2π·RPH/2¹⁶); without gains, the same on every port. -/
def sageWeights (s : State) (n : Nat) (h : Option (List Word)) (power : List (Option Int)) : List (Option Weight) :=
  (List.range 8).map fun k => (power.getD k none).map fun _ => match h with
    | none => ⟨1, 0, 0⟩
    | some h => ⟨(h.getD (2 * k) 0).toInt, -(h.getD (2 * k + 1) 0).toInt, rphOf s n k⟩

/-- What Sage names for a session's request decided at `d`: sheaf, powers, gains, and the reference record (R335). -/
def sageSelect (s : State) (session d : Nat) (pwr : Int) : Nat × List (Option Int) × Option (List Word) × Option RefRec :=
  match latestRef s session d with
  | some r => (r.sheaf, sagePowers s r.sheaf (some r.h) pwr, some r.h, some r)
  | none => (rfld s Reg.sagCtl 4 2, sagePowers s 0 none pwr, none, none)

/-! ## Δf and the channel of a reference record (03 R510) -/

/-- The stream centre of a record. -/
def streamCentre (lo div : Nat) (off : Int) : Int := loFreq lo div + off * offUnit

/-- The channel number nearest a stream centre, ties to the lower. -/
def nearestChan (s : State) (centre : Int) : Nat :=
  let sp := ((rget s Reg.lnkChsp).toNat * 100 : Int) * hz
  if sp = 0 then 0
  else clampNat 0 127 ((2 * (centre - chanFreq s 0) - sp + 2 * sp - 1) / (2 * sp)).toNat

/-- The channel and Δf of a record (R510). -/
def refOffset (s : State) (lo div : Nat) (off ffin : Int) : Nat × Int :=
  let c := streamCentre lo div off
  let n := nearestChan s c
  (n, c + ffin * offUnit - chanFreq s n)

/-! ## The plan (R210) -/

/-- Why the plan refuses a claim. -/
inductive PlanNo where
  | busy
  | calibration
  | notOn
  | template
  deriving DecidableEq, Repr

/-- The plan's answer for [T, E) on a sheaf (R210), `cell` naming a cell claim. -/
def planNo (s : State) (n t5 e5 : Nat) (cell : Bool) : Option PlanNo :=
  if s.lnk.plan.any fun g => decide (g.sheaf = n ∧ t5 < g.e5 ∧ g.t5 < e5) then some .busy
  else if (match vcobUntil s n with | some u => decide (t5 < 5 * u) | none => false) then some .calibration
  else if shfState s n ≠ 2 then some .notOn
  else if cell ∧ t5 + tpl5 s 5 < e5 then some .template
  else none

/-- Forget grants that have ended. -/
def prunePlan (s : State) (d : Nat) : State := updLnk s fun l => { l with plan := l.plan.filter fun g => decide (5 * d < g.e5) }

/-- A claim is granted: the plan notes it and its command goes to the sheaf's scheduler (R210). -/
def grantTx (s : State) (n : Nat) (c : TxCmd) : State :=
  let s := updLnk s fun l => { l with plan := ⟨n, c.t5, c.e5⟩ :: l.plan, lastE5 := max l.lastE5 c.e5 }
  s.updSheaf n fun h => { h with cmds := h.cmds ++ [c] }

/-! ## Claims (R209) -/

/-- A claim waiting for its decision. -/
structure Claim where
  d    : Nat
  cls  : Nat             -- 0 acknowledgement, 1 follow-up, 2 request (R210)
  key  : List Nat
  id   : Nat
  t5   : Nat
  cell : Option (Nat × Nat)   -- channel and slot number of a cell claim

/-- The ordering key of a frame (07 R177). -/
def frameKey (f : Frame) : List Nat :=
  [f.endt, f.det.synct, f.det.subt, f.det.sheaf, f.det.beam, f.det.prof, f.det.chan, f.origin]

/-- The acknowledgement claims. -/
def ackClaims (s : State) : List Claim :=
  s.frames.filterMap fun f => f.plan.map fun p => { d := p.d, cls := 0, key := frameKey f, id := f.id, t5 := p.t5, cell := none }

/-- The follow-up claims. -/
def followClaims (s : State) : List Claim :=
  s.lnk.reqs.filterMap fun r => r.follow.map fun w => { d := w.d, cls := 1, key := [w.sheaf, r.session, r.nb], id := r.id, t5 := w.t5, cell := none }

/-- The earliest eligible cell of a request (R209): by T, then slotframe, then index. -/
def bestCell (s : State) (r : Req) (dmin : Nat) : Option (Nat × Nat × Nat) :=
  let y := dmin + 7373 - tpl5 s 1 / 5
  ((servingCells s r.session).filterMap fun c => (cellSlot s c y).map fun e => (e.1, e.2, c)).foldl
    (fun m e => match m with
      | some b => if e.1 < b.1 then some (e.1, e.2.1, cellChan s e.2.2 e.2.1) else some b
      | none => some (e.1, e.2.1, cellChan s e.2.2 e.2.1)) none

/-- The claim of a request not granted: in a cell, or at NB + 7,373 ticks (R209). -/
def reqClaim (s : State) (r : Req) : Option Claim :=
  if r.granted ∨ r.follow.isSome then none
  else
    let dmin := max r.nb r.after
    let key := fun d => [(sageSelect s r.session d r.pwr).1, r.session, r.nb]
    match r.mode with
    | 1 => some { d := dmin, cls := 2, key := key dmin, id := r.id, t5 := 5 * (dmin + 7373), cell := none }
    | 0 => (bestCell s r dmin).map fun b =>
        let t5 := 5 * b.1 + tpl5 s 1
        { d := t5 / 5 - 7373, cls := 2, key := key (t5 / 5 - 7373), id := r.id, t5 := t5, cell := some (b.2.2, b.2.1) }
    | _ => none

/-- The order of R210. -/
def claimLt (a b : Claim) : Bool :=
  decide (a.d < b.d) || (decide (a.d = b.d) && (decide (a.cls < b.cls) || (decide (a.cls = b.cls) && keyLt a.key b.key)))

/-- The claim taken next (R210). -/
def nextClaim (s : State) : Option Claim :=
  (ackClaims s ++ followClaims s ++ s.lnk.reqs.filterMap (reqClaim s)).foldl
    (fun m c => match m with
      | some b => if claimLt c b then some c else some b
      | none => some c) none

/-! ## Requests and follow-ups at D (R210, R211, R216, R245) -/

/-- A request whose frame the acknowledgement engine secures: of a session in TSCH mode, with Security Enabled (R245). -/
def tschNeeds (s : State) (r : Req) : Bool :=
  decide (r.session ≠ 0) && sesValid s r.session && bit (sesWord s r.session 0) 14 && bit (sesWord s r.session 0) 12 &&
  (parseMac (r.psdu.take (r.psdu.length - fcsLen r.fcst))).any MacHdr.sec

/-- The PSDU that a granted request sends: secured in hardware with the slot number of the claimed slot for a session in
TSCH mode whose frame has Security Enabled (R245). -/
def tschSecure (s : State) (r : Req) (slot : Nat) : List Octet :=
  let n := r.psdu.length - fcsLen r.fcst
  let body := r.psdu.take n
  match parseMac body with
  | some h =>
    if tschNeeds s r then
      let key := unpackOctets (mgets s (sesAddr r.session 24) 8)
      let out := secureMac body h key (macNonce (sesNum s r.session 3 4) true slot h.level)
      out ++ fcsOf r.fcst out
    else r.psdu
  | none => r.psdu

/-- What goes on air (R206, R215): the synchronisation header with the slot's `LNK_Pq_TXPRE`, the frame's header and its PSDU. -/
def airOf (s : State) (prof : Nat) (slot : SlotCopy) (coded fcst dw : Bool) (mode : Nat) (psdu : List Octet) : List Bool :=
  airShr slot coded (rfld s (Reg.lnkPTxpre prof) 9 0) ++ airBody slot coded fcst dw mode psdu

/-- A request claim goes to the gate and is granted, or completes with status GATE (R210, R211). -/
def gateRequest (s : State) (r : Req) (n t5 : Nat) (power : List (Option Int)) (h : Option (List Word)) (centre df : Int) (follow : Bool)
    (cell : Bool) : State :=
  let dur := reqTime s r
  let e := 2000 * t5 + dur
  let e5 := (e + 1999) / 2000
  let a : GateArgs := { sheaf := n, streams := [(centre, df)], wave := .profile r.slot.kind r.slot.rate, t5 := t5,
                        us := (dur + 1228799) / 1228800, tick := t5 / 5, power := power }
  let s := updReq s r.id fun q => { q with lastT := t5 / 5, lastE := e / 10000, follow := none }
  let r := { r with lastT := t5 / 5, lastE := e / 10000, follow := none }
  let (o, s) := gateJudge s a
  match o.power with
  | none => reqEnd (gateVerdict s a o r.session) r 3
  | some p =>
    let s := updReq s r.id fun q => { q with granted := true, made := q.made + 1, viaCell := cell }
    grantTx s n { t5 := t5, e5 := e5, streams := [(centre, df)], power := p, for_ := .request r.id follow,
                  octets := tschSecure s r (asnAt s (t5 / 5)), weights := sageWeights s n h p,
                  air := airOf s r.prof r.slot r.coded r.fcst r.dw r.rmode (tschSecure s r (asnAt s (t5 / 5))) }

/-- A request claim at its D (R210, R211). -/
def decideRequest (s : State) (c : Claim) (r : Req) : State :=
  let (n, power, h, ref) := sageSelect s r.session c.d r.pwr
  let e5 := (2000 * c.t5 + reqTime s r + 1999) / 2000
  match planNo s n c.t5 e5 c.cell.isSome with
  | some .template => reqEnd s r 7
  | some _ => updReq s r.id fun q => { q with after := if c.cell.isSome then c.d + 1 else c.d + 122880 }
  | none =>
    let off := ref.map fun f => refOffset s f.lo f.div f.off f.ffin
    let chan := match c.cell, off with
      | some e, _ => e.1
      | none, some o => if r.chv then r.chan else o.1
      | none, none => r.chan
    gateRequest s r n c.t5 power h (chanFreq s chan) ((off.map Prod.snd).getD 0) false c.cell.isSome

/-- A follow-up claim, taken at once after its acknowledgement (R209, R216); refused from the plan, the request stays
pending.  Log 52 (DEDUCED). -/
def decideFollow (s : State) (r : Req) (w : Follow) : State :=
  let e5 := (2000 * w.t5 + reqTime s r + 1999) / 2000
  match planNo s w.sheaf w.t5 e5 false with
  | some _ => updReq s r.id fun q => { q with follow := none, after := max q.after (w.d + 1) }
  | none => gateRequest s r w.sheaf w.t5 (sagePowers s w.sheaf w.h r.pwr) w.h (chanFreq s w.chan) w.df true false

/-! ## What the scheduler and the air answer (R208, R217) -/

/-- The scheduler refuses the transmission of a request (R87, R208); a TSCH frame whose securing came late is one of
these (09 R245). -/
def txRefused (s : State) (f : TxFor) : State :=
  match f with
  | .request id _ => match reqOf s id with
    | some r => reqEnd s r 4
    | none => s
  | _ => s

/-- The window of an expected acknowledgement after E, in 1/10,000 tick (R217). -/
def ackWindow (s : State) (r : Req) (e : Nat) : Nat × Nat :=
  if r.viaCell ∨ (r.session ≠ 0 ∧ bit (sesWord s r.session 0) 14) then
    (e + 2000 * tpl5 s 3, e + 2000 * (tpl5 s 3 + tpl5 s 4))
  else
    let turn := 2000 * usFifths (rget s (Reg.lnkPTurn r.prof)).toNat
    (e + turn - 61440000, e + turn + 430080000)

/-- A granted transmission of a request has ended (R208, R217): it completes SENT, or its acknowledgement is expected. -/
def txEnded (s : State) (f : TxFor) (t5 : Nat) : State :=
  match f with
  | .request id _ => match reqOf s id with
    | some r =>
      if r.ar then
        let w := ackWindow s r (2000 * t5 + reqTime s r)
        updLnk s fun l => { l with expected := l.expected ++ [⟨id, w.1, w.2⟩] }
      else reqEnd s r 1
    | none => s
  | _ => s

/-- A request's attempt has its acknowledgement (R217). -/
def reqAcked (s : State) (id : Nat) : State :=
  match reqOf s id with
  | some r => reqEnd s r 0
  | none => s

/-- The window of the earliest expected acknowledgement has ended without a match (R217).  Log 52 (DEDUCED). -/
def ackMissed (s : State) (x : Expect) : State :=
  let s := reach s ((x.hi + 9999) / 10000)
  let s := evt (bump (updLnk s fun l => { l with expected := l.expected.filter (· ≠ x) }) Reg.lnkNmiss) Reg.lnkEvt 5
  match reqOf s x.req with
  | some r =>
    if r.attempts ≤ r.made then reqEnd s r 2
    else if ¬ lnkOn s then reqEnd s r 6
    else updReq s r.id fun q => { q with granted := false, viaCell := false, after := (x.hi + 9999) / 10000 + 122880 }
  | none => s

/-! ## The commands -/

/-- A transmit request reaches the link timing unit (R207). -/
def execTxRequest (core : Fin 33) (s : State) : Host.Outcome State Fault Refusal := .next (txRequest core s)

/-- The window for a node's acknowledgement ends without a match (R217). -/
def execExpectedAckTimeout (s : State) : Host.Outcome State Fault Refusal :=
  .next (
    match s.lnk.expected.foldl (fun (m : Option Expect) x => match m with
        | some b => if x.hi < b.hi then some x else some b
        | none => some x) none with
    | some x => ackMissed s x
    | none => s)

end Sys2Proof.Machine
end

