-- ==== Sys2Proof/Machine/FaultMgr.lean ====
section
/-!
DEFINITION. The fault manager (15_faults R381 to R400): cipher pairs, port loop self-tests, the record queue and the full self-test;
the cipher pairs' service (09 R243, R244).
-/

namespace Sys2Proof.Machine

/-! ## Cipher pairs and the modes engine (R393, R394; 09 R243, R244) -/

/-- Pair `k`; 5 is the modes engine. -/
def pairOf (s : State) (k : Nat) : PairSt := s.pairs.nth k { host := k }

/-- The engine that carries pair `k`'s work (09 R243): the next Culm pair in service, or the modes engine. -/
def hostFor (s : State) (k : Nat) : Nat :=
  if (pairOf s k).svc = 0 then k
  else if k < 4 then ([1, 2, 3].map fun d => (k + d) % 4).find? (fun j => (pairOf s j).svc = 0) |>.getD 5
  else 5

/-- Show service and hosts in the AES and SES registers. -/
def pairShow (s : State) : State :=
  let s := (List.range 5).foldl (fun s k =>
    rset s (Reg.aesStat k) (w16 ((pairOf s k).host * 16 + (pairOf s k).svc))) s
  let fb := decide ((pairOf s 4).host = 5)
  let cf := (List.range 4).any fun k => decide ((pairOf s k).host = 5)
  rsetBit (rsetBit (rsetBit s Reg.aesMstat 14 fb) Reg.aesMstat 13 cf) Reg.sesStat 13 fb

/-- No engine in service is left for the acknowledgement pair's blocks (09 R243; 15 R394). -/
def ackDead (s : State) : Bool := decide ((pairOf s 4).svc ≠ 0) && decide ((pairOf s 5).svc = 2)

/-- A key is loaded into an engine's key register (09 R242). -/
def loadKey (s : State) (k : Nat) (key : List Octet) : State := { s with pairs := s.pairs.upd k fun p => { p with key := key } }

/-- A pair's service changes; work whose host is out of service moves on, and a restored pair takes its own back. -/
def pairService (s : State) (k svc : Nat) : State :=
  let s := { s with pairs := s.pairs.upd k fun p => { p with svc := svc } }
  let hosts := (List.range 6).map fun j =>
    let h := (pairOf s j).host
    if j = 5 then 5 else if (pairOf s j).svc = 0 then j else if h = j ∨ (h < 5 ∧ (pairOf s h).svc ≠ 0) then hostFor s j else h
  pairShow { s with pairs := s.pairs.each fun k p => { p with host := hosts.getD k k } }

/-- A pair's self-check mismatches (09 R243): it is quarantined for its known-answer test. -/
def pairMismatch (s : State) (k : Nat) : State :=
  if (pairOf s k).svc ≠ 0 then s
  else
    let s := evt (bump s (Reg.aesNmis k)) Reg.aesEvt k
    pairService { s with pairs := s.pairs.upd k fun p => { p with fails := shadow s :: p.fails } } k 1

/-- A known-answer test ends (R393, R394). -/
def katEnd (s : State) (k : Nat) (pass : Bool) : State :=
  if (pairOf s k).svc ≠ 1 then s
  else
    let ok := pass && (decide (k = 5) || decide ((pairOf s k).fails.length < max 1 (rfld s Reg.fltAesmax 3 0)))
    let s := pairService (bump s Reg.fltNkat) k (if ok then 0 else 2)
    let s := if ok ∨ k = 5 then s else evt s Reg.aesEvt (5 + k)
    fault s { cls := 3, lasting := !ok, action := if ok then 5 else 2, typ := 3, inst := k }

/-! ## Records and the full self-test (R399, R400) -/

/-- The head record is removed (R399). -/
def faultPop (v : Word) (s : State) : State := if v = 1 then { s with flt := { s.flt with recs := s.flt.recs.drop 1 } } else s

/-- A write to `FLT_FTGO` (R400): accepted in MAINTAIN only. -/
def ftGo (v : Word) (s : State) : State :=
  if v ≠ 0x0F75 ∨ s.flt.ft.isSome then s
  else if modeOf s ≠ 6 then rset s Reg.fltFtres 0x8000
  else { s with flt := { s.flt with ft := some (rfld s Reg.fltFtsel 4 0) } }

/-- The mapped memories of a region read zero with valid check bits. -/
def zeroRegion (s : State) (r : Region) (lo hi : Nat) : State :=
  { s with
    mem := s.mem.filter fun e => !decide (regionOf e.1 = r)
    flt := { s.flt with
      badRows := s.flt.badRows.filter fun a => !decide (regionOf a = r)
      bad := s.flt.bad.filter fun e => !decide (lo ≤ e.1 ∧ e.1 ≤ hi) } }

/-- The sample rings hold zeros with valid check bits. -/
def zeroRings (s : State) : State :=
  { s with
    sheaves := s.sheaves.each fun _ h => { h with ring := h.ring.map fun r => { r with x := r.x.map fun _ => (0, 0) } }
    flt := { s.flt with bad := s.flt.bad.filter fun e => !decide (137 ≤ e.1 ∧ e.1 ≤ 200) } }

/-- A failing row is retired with its record. -/
def ftRow (s : State) (e : Nat × Nat) : State :=
  let t : RowTest := { unit := e.1, row := e.2, synd := 0, sub := 0, init := 0x3F, at_ := shadow s }
  bump (rowRecord { (takeSpare s e.1) with flt := { s.flt with retired := e :: s.flt.retired } } t true 2) Reg.fltNretire

/-- The full self-test ends with what it found (R400).  Log 43 (DESIGN CHOICE), 88 (DESIGN CHOICE). -/
def ftEnd (s : State) (found : FtFound) : State :=
  match s.flt.ft with
  | none => s
  | some sel =>
    let s := { s with flt := { s.flt with ft := none } }
    let inSel := fun (e : Nat × Nat) => (sel.testBit 0 && decide (73 ≤ e.1 ∧ e.1 ≤ 136)) || (sel.testBit 1 && decide (65 ≤ e.1 ∧ e.1 ≤ 72)) ||
      (sel.testBit 2 && decide (137 ≤ e.1 ∧ e.1 ≤ 200))
    let rows := found.rows.filter inSel
    let engines := if sel.testBit 3 then (found.engines.filter fun k => decide (k < 6) && decide ((pairOf s k).svc = 0)).eraseDups else []
    let ports := if sel.testBit 4 then ((found.ports.map Fin.val).filter fun p => rbit s (Reg.prtCtl p) 0).eraseDups else []
    let s := if sel.testBit 0 then zeroRegion s .granary 73 136 else s
    let s := if sel.testBit 1 then { (zeroRegion s .session 65 72) with ses := { s.ses with stash := [], build := s.ses.build.map fun b => (b.1, []) } } else s
    let s := if sel.testBit 1 then rset (rsetFld s Reg.sesStat 6 0 0) Reg.sesNsess 0 else s
    let s := if sel.testBit 2 then zeroRings s else s
    let s := rows.foldl ftRow s
    let s := if sel.testBit 3 then bump s Reg.fltNkat ((List.range 6).filter fun k => decide ((pairOf s k).svc = 0)).length else s
    let s := engines.foldl (fun s k => fault (pairService s k 2) { cls := 3, lasting := true, action := 2, typ := 3, inst := k }) s
    let s := if sel.testBit 4 then bump s Reg.fltNport ((List.range 64).filter fun p => rbit s (Reg.prtCtl p) 0).length else s
    let s := ports.foldl (fun s p =>
      fault (evt (rsetBit s (Reg.fltPbad (p / 16)) (p % 16) true) Reg.fltEvt 6)
        { cls := 4, lasting := true, action := 6, typ := 1, inst := p, synd := Config.openValue 400 p % 5 }) s
    evt (rset s Reg.fltFtres (w16 (0x4000 + min 0x3FFF (rows.length + engines.length + ports.length)))) Reg.fltEvt 7

/-- A write to `FLT_PBADn` (R397): clearing a bit starts a new loop self-test of the port. -/
def pbadWrite (n : Nat) (v : Word) (s : State) : State :=
  let cleared := (List.range 16).filter fun k => bit v k && rbit s (Reg.fltPbad n) k
  let s := rwrite s (Reg.fltPbad n) v
  cleared.foldl (fun s k =>
    let p := 16 * n + k
    let s := if portLive s p then s.updPort p fun q => { q with liveSince := some (sampleAt s s.time.now) } else s
    loopBegin (loopWant s p) (sheafOf p)) s

/-- `FLT_STAT` as it reads. -/
def fltStat (s : State) : Word := w16 (s.flt.recs.length * 256 + s.flt.ft.isSome.toNat * 128 + min 64 s.flt.tests.length)

/-- A write to a register of the FLT block. -/
def fltWrite (a : Nat) (v : Word) (s : State) : State :=
  if a = Reg.fltPop then faultPop v s
  else if a = Reg.fltFtgo then ftGo v s
  else if a = Reg.fltCtl then
    let s := rwrite s a v
    if bit v 1 then (List.range 8).foldl (fun s k => rset s (Reg.fltNce + k) 0) s else s
  else if Reg.fltPbad 0 ≤ a ∧ a ≤ Reg.fltPbad 3 then pbadWrite (a - Reg.fltPbad 0) v s
  else rwrite s a v

/-! ## The commands -/

/-- The scrub interval expires (R386): `found` names the rows read that hold errors; sample rings are not scrubbed.  Log 88 (DESIGN CHOICE). -/
def execPatrolScrub (found : List Upset) (s : State) : Host.Outcome State Fault Refusal :=
  if ¬ found.all Upset.wf then .fault (.illFormed "PATROL_SCRUB: no such macro or bit")
  else .next (
    if rbit s Reg.fltCtl 0 then
      (found.filter fun u => !decide (137 ≤ u.unit ∧ u.unit ≤ 200)).foldl (fun s u => rowError s u 0x3F true) s
    else s)

/-- A row's march test ends (R387). -/
def execMarchTestComplete (m : Fin 201) (pass : Bool) (s : State) : Host.Outcome State Fault Refusal := .next (marchEnd s m pass)

/-- A write to `FLT_POP` (R399). -/
def execFaultPop (_i : Initiator) (v : Word) (s : State) : Host.Outcome State Fault Refusal := .next (faultPop v s)

/-- A write to `FLT_FTGO` (R400). -/
def execFullSelftest (_i : Initiator) (v : Word) (s : State) : Host.Outcome State Fault Refusal := .next (ftGo v s)

/-- The full self-test ends (R400). -/
def execFullSelftestDone (found : FtFound) (s : State) : Host.Outcome State Fault Refusal := .next (ftEnd s found)

/-- A trigger of R395 that needs a time or a count: a large DC estimate for 10 ms, or 64 consecutive faint detection records. -/
def loopDue (s : State) (p : Nat) : Bool :=
  (match (s.port p).dcOver with
   | some t => decide (t + 1228800 ≤ s.time.now)
   | none => false) || decide (64 ≤ (s.port p).faint)

/-- A trigger of R395 starts a port loop self-test, and is judged anew from then on. -/
def execPortLoopSelftestStart (p : Fin 64) (s : State) : Host.Outcome State Fault Refusal :=
  .next (
    if loopDue s p then loopBegin (loopWant (s.updPort p fun h => { h with dcOver := none, faint := 0 }) p) (sheafOf p) else s)

/-- A port loop self-test ends (R397): it passes, fails check `cond` (1 to 4), or ends untested. -/
def execPortLoopSelftestDone (p : Fin 64) (pass : Bool) (cond : Fin 8) (s : State) : Host.Outcome State Fault Refusal :=
  .next (
    let n := sheafOf p
    let s := loopBegin s n
    if s.flt.loops.any fun l => l.port = p.val && l.running then
      let action := if pass then 5 else if 1 ≤ cond.val ∧ cond.val ≤ 4 then 6 else 0
      loopBegin (dcBegin (loopEnd s p action cond) n) n
    else s)

/-- A write to `FLT_PBADn` (R397). -/
def execPbadClear (_i : Initiator) (n : Fin 4) (v : Word) (s : State) : Host.Outcome State Fault Refusal := .next (pbadWrite n v s)

end Sys2Proof.Machine
end

