-- ==== Sys2Proof/Machine/Judge.lean ====
section
/-!
DEFINITION. A frame between its spikelet and Winnow: the address filter (08 R204), lookup and ownership (09 R225, R231, R234,
R235, R240; 13 R351, R354), judgement (09 R235 to R239), the acknowledgement decision (08 R212 to R216), the frame record
(07 R190) and the stop of the link timing unit (08 R221).
-/

namespace Sys2Proof.Machine

/-- Change frame `id`. -/
def updFrame (s : State) (id : Nat) (f : Frame → Frame) : State :=
  { s with frames := s.frames.map fun x => if x.id = id then f x else x }

/-- Frame `id` leaves. -/
def dropFrame (s : State) (id : Nat) : State := { s with frames := s.frames.filter fun x => x.id ≠ id }

/-- The frame less its FCS. -/
def frameBody (f : Frame) : List Octet := f.psdu.take (f.psdu.length - fcsLen f.fcst)

/-- The MAC header of a frame. -/
def frameHdr (f : Frame) : Option MacHdr := parseMac (frameBody f)

/-! ## Address filter (08 R204) -/

/-- The address filter, acknowledgements apart.  Log 42 (DESIGN CHOICE). -/
def filterPass (s : State) (h : MacHdr) : Bool :=
  if h.ver = 3 ∨ h.ftype = 4 ∨ h.ftype = 6 ∨ h.ftype = 7 then false
  else if h.ftype = 0 then true
  else if h.dmode ≠ 0 then
    (match h.dpan with
     | some p => decide (p = s.lnk.panid.toNat ∨ p = 0xFFFF)
     | none => true) &&
    (if h.dmode = 2 then decide (h.daddr = 0xFFFF) || (decide (s.lnk.short ≠ 0xFFFE) && decide (h.daddr = s.lnk.short.toNat))
     else decide (h.daddr = s.lnk.ext))
  else decide (h.ftype = 1 ∨ h.ftype = 3) && s.lnk.coord &&
    (match h.span with
     | some p => decide (p = s.lnk.panid.toNat)
     | none => true)

/-- The request that an acknowledgement answers (08 R217). -/
def answerOf (s : State) (f : Frame) (h : MacHdr) : Option Nat :=
  let t := frameStart s f.det f.slot
  (s.lnk.expected.find? fun x =>
    decide (h.ftype = 2) && decide (x.lo ≤ t ∧ t < x.hi) &&
    (match reqOf s x.req with
     | some r =>
       if h.seqSup then
         (decide (h.smode = 3) && decide (h.saddr = sesNum s r.session 3 4)) ||
         (decide (h.smode = 2) && decide (h.saddr = (sesWord s r.session 2).toNat))
       else
         match parseMac (r.psdu.take (r.psdu.length - fcsLen r.fcst)) with
         | some g => decide (g.seq = h.seq)
         | none => false
     | none => false)).map Expect.req

/-! ## Points in time (09 R240) -/

/-- Octets of the PSDU up to the end of the auxiliary security header, or of the MAC header.  Log 50 (DEDUCED). -/
def keyOctets (f : Frame) : Nat := ((frameHdr f).map fun h => if h.sec then h.hdrEnd else h.payOff).getD f.psdu.length

/-- The end of what carries the octet that ends the header, from the end of the sync word, in 1/10,000 tick. -/
def keyTime (f : Frame) : Nat :=
  let n := keyOctets f
  match f.slot.kind with
  | 1 =>
    let info := 16 + 8 * n
    let bits := if ¬ f.det.coded then info else if bit f.slot.fec 1 then 2 * (16 * ((info + 15) / 16)) else 2 * info
    (bits + fskBits f.slot.rate - 1) / fskBits f.slot.rate * fskSymbol f.slot.rate
  | 2 => Config.oqpskTicks f.slot.rate 2 n f.mode * 16
  | 3 => (1 + n) * 39321600
  | _ => (90 + 384 * ((24 * n + 383) / 384)) * lfSymbol f.slot.rate

/-- J: ENDT + Ld + Lm. -/
def judgeTick (s : State) (f : Frame) : Nat := f.endt + ldTicks f.slot f.det.coded + mergeBound s

/-- K, to a whole tick below. -/
def lookTick (s : State) (f : Frame) : Nat :=
  (10000 * f.det.synct + 625 * f.det.subt + keyTime f) / 10000 + ldTicks f.slot f.det.coded + mergeBound s

/-! ## Lookup and ownership (09 R225, R234, R235; 13 R351, R354) -/

/-- The lookup key of a frame (R225). -/
def frameLook (s : State) (h : MacHdr) : Option LookKey :=
  match h.smode with
  | 2 => some ⟨0, h.span.getD s.lnk.panid.toNat, h.saddr⟩
  | 3 => some ⟨1, 0, h.saddr⟩
  | _ => none

/-- This chip judges a frame of own session `n`, handovers considered (R354). -/
def handOwns (s : State) (n synct : Nat) : Bool :=
  s.sage.hands.all fun h => decide (h.session ≠ n) || h.done || (if h.out then decide (synct < h.e) else decide (h.e ≤ synct))

/-- Ownership of a frame with lookup result `n` and key `k` (R351): false where another chip judges it. -/
def ownsFrame (s : State) (f : Frame) (n : Option Nat) (k : Option LookKey) : Bool :=
  if ¬ inCluster s then true
  else
    match n with
    | some n => handOwns s n f.det.synct
    | none =>
      match k with
      | some k => if s.sage.dir.any fun e => e.1 = k && e.2 ≠ chipNum s then false else isDefault s
      | none => isDefault s

/-- The snapshot of a session's configuration (R235). -/
def snapshot (s : State) (f : Frame) (n : Nat) : Frame :=
  { f with
    session := n, snap := mgets s (sesAddr n 0) 8
    key := if bit (sesWord s n 0) 12 then unpackOctets (mgets s (sesAddr n 24) 8) else []
    bad := f.bad || badRange s (sesAddr n 0) 32 }

/-- A frame is discarded without a record: its granules return. -/
def discardFrame (s : State) (f : Frame) : State := dropFrame (release s f.hold) f.id

/-- The lookup of a frame that passed the filter and ended GOOD (R226, R234, R351). -/
def lookFrame (s : State) (f : Frame) (h : MacHdr) : State :=
  match answerOf s f h with
  | some id =>
    let n := ((reqOf s id).map Req.session).getD 0
    let f := { f with answers := some id, looked := true }
    updFrame s f.id fun _ => if n ≠ 0 ∧ sesValid s n then snapshot s f n else f
  | none =>
    let k := frameLook s h
    let s := bump s Reg.sesNlook
    let n := k.bind (sesFind s)
    if ¬ ownsFrame s f n k then discardFrame (bump s Reg.sagNnotown) f
    else
      updFrame s f.id fun f => match n with
        | some n => snapshot s { f with looked := true } n
        | none => { f with looked := true }

/-- The filter, and the lookup behind it, of a frame (08 R204). -/
def filterFrame (s : State) (f : Frame) : State :=
  match frameHdr f with
  | none => filterOut s f
  | some h =>
    let pass := if h.ftype = 2 ∧ h.ver ≠ 3 then f.good && (answerOf s f h).isSome else filterPass s h
    if ¬ pass then filterOut s f
    else if f.good then lookFrame s f h
    else updFrame s f.id fun f => { f with looked := true }
where
  /-- A frame that fails the filter: dropped, or delivered with ACK = NONE while PROMISC = 1. -/
  filterOut (s : State) (f : Frame) : State :=
    let s := evt s Reg.lnkEvt 6
    if s.lnk.promisc then updFrame s f.id fun f => { f with looked := true, pass := false }
    else discardFrame (bump s Reg.lnkNfilt) f

/-- The least element of a list of frames under a key. -/
def leastFrame (key : Frame → List Nat) (l : List Frame) : Option Frame :=
  l.foldl (fun m f => match m with
    | some b => if keyLt (key f) (key b) then some f else some b
    | none => some f) none

/-- The frame looked up next: the earliest K, in key order (R231). -/
def nextLookup (s : State) : Option Frame := leastFrame (fun f => lookTick s f :: frameKey f) (s.frames.filter fun f => !f.looked)

/-- Frame `f` is looked up at its K, after the directory's changes due by then (R231).  Log 42 (DESIGN CHOICE). -/
def lookAt (s : State) (f : Frame) : State :=
  let k := lookTick s f
  filterFrame (reach (dirUpTo k s) k) f

/-! ## The record (07 R190, R176, R350) -/

/-- Words 0 to 31 of a frame's record. -/
def frameWords (s : State) (f : Frame) : List Word :=
  let d := f.det
  let h : RecHead := { endt := f.endt, synct := d.synct, subt := d.subt, prof := d.prof, beam := d.beam, sheaf := d.sheaf, chan := d.chan, origin := f.origin }
  headWords h 1 ++
  [w16 (d.coded.toNat * 8192 + f.good.toNat * 4096 + f.fcst.toNat * 2048 + f.psdu.length % 2048), i16 d.rssc, i16 d.noise, i16 f.fm.snrc] ++
  [BitVec.ofInt 16 f.fm.ffin, BitVec.ofInt 16 (f.fm.ffin / 65536), i16 f.fm.tdrift, w16 f.fm.ncorr, f.fm.chips,
   w16 (d.ports % 256 * 256 + f.ackCode * 16 + f.sec), w16 f.session] ++
  wordsOf 2 f.fresh ++ wordsOf 3 (slotOf s d.synct) ++
  [w16 f.hold.gmeta, w16 (f.hold.part * 4096 + f.hold.data.length), 0, 0]

/-- What Sage keeps of a frame record that may count for a claim (13 R335). -/
def noteRef (s : State) (f : Frame) : State :=
  if f.good ∧ f.sec ≤ 1 ∧ f.own ∧ f.origin = chipNum s ∧ f.session ≠ 0 then
    { s with sage := { s.sage with refs := { session := f.session, endt := f.endt, key := frameKey f, sheaf := f.det.sheaf, lo := f.lo,
                                              div := f.div, off := f.off, ffin := f.fm.ffin, h := f.fm.h } :: s.sage.refs } }
  else s

/-- SNR of the frames judged, for the choice of an owner (13 R353): the last 64 of each session. -/
def noteScore (s : State) (f : Frame) : State :=
  if ¬ inCluster s ∨ f.session = 0 then s
  else
    let mine := (s.sage.scores.filter fun e => e.1 = f.session).take 63
    { s with sage := { s.sage with scores := (f.session, judgeTick s f, f.snrs) :: mine ++ s.sage.scores.filter fun e => e.1 ≠ f.session } }

/-- A frame ends: withheld, delivered with its record and the verdicts that go with it, or POISON (R43, R169, R237, R350).  Log 69 (DESIGN CHOICE). -/
def finishFrame (s : State) (f : Frame) : State :=
  let d := f.det
  let h : RecHead := { endt := f.endt, synct := d.synct, subt := d.subt, prof := d.prof, beam := d.beam, sheaf := d.sheaf, chan := d.chan, origin := f.origin }
  let len := w16 (0x8000 + f.psdu.length % 2048)
  let bad := f.bad || (f.hold.gmeta :: f.hold.data).any fun g => badRange s (granAddr g) 64
  let s := dropFrame s f.id
  let s := if f.late ∧ inCluster s then verdict s h 2 3 0 len f.session else s
  if bad then
    let (n, s) := poisonMet s 39 (granAddr f.hold.gmeta)
    verdict (release s f.hold) h 3 1 n len f.session
  else if ¬ f.deliver then release s f.hold
  else
    let s := emit (passHold s f.hold.gmeta 35) { words := frameWords s f, hold := some { f.hold with owner := 35 }, h := f.fm.h }
    let s := noteRef s f
    f.missing.foldl (fun s c => verdict s h 2 6 c len f.session) s

/-! ## Judgement (09 R235 to R239) -/

/-- What step 3 of R214 and R237 find. -/
structure Outcome3 where
  cont    : Bool
  sec     : Nat
  deliver : Bool
  fresh   : Nat := 0

/-- OUTFC is taken for an acknowledgement (R239): none while it is exhausted.  Log 50 (DEDUCED). -/
def takeCounter (s : State) (n : Nat) : Option Nat × State :=
  let c := sesNum s n 8 2
  if bit (sesWord s n 13) 14 ∨ c ≥ 0xFFFFFFFF then
    (none, evt (sesPut s n 13 [setBit (sesWord s n 13) 14 true]) Reg.sesEvt 6)
  else (some c, advanceOut s n 1)

/-- The nonce and plain text of a secured frame under its snapshot (R236): MIC result and body. -/
def openFrame (f : Frame) (h : MacHdr) (fresh : Nat) : Bool × List Octet :=
  openMac (frameBody f) h f.key (macNonce (ofWords ((f.snap.drop 3).take 4)) (bit (f.snap.getD 0 0) 14) fresh h.level)

/-- The private payload is replaced by its decryption, FCS and header kept (R238). -/
def putPlain (s : State) (f : Frame) (body : List Octet) : Frame × State :=
  let d := body ++ f.psdu.drop body.length
  ({ f with psdu := d }, writeData s f.hold d)

/-- Freshness of a frame with a valid MIC against the record at J (R237). -/
def judgeFresh (s : State) (n v : Nat) : Outcome3 × State :=
  let valid := bit (sesWord s n 13) 15
  let cur := sesFresh s n
  if valid ∧ v < cur then
    let s := sesPut s n 15 [w16 (min 0xFFFF ((sesWord s n 15).toNat + 1))]
    ({ cont := false, sec := 1, deliver := false, fresh := v }, evt (bump s Reg.sesNreplay) Reg.sesEvt 2)
  else if valid ∧ v = cur then
    let s := sesPut s n 14 [w16 (min 0xFFFF ((sesWord s n 14).toNat + 1))]
    ({ cont := true, sec := 1, deliver := false, fresh := v }, bump s Reg.sesNdup)
  else ({ cont := true, sec := 1, deliver := true, fresh := v }, bump (sesSetFresh s n v true) Reg.sesNaccept)

/-- The key of a frame's snapshot is loaded into the engine that carries the acknowledgement pair's work (R242). -/
def ackKey (s : State) (f : Frame) : State := loadKey s (hostFor s 4) f.key

/-- A secured frame's payload is opened in place where its session asks for it and a key and a counter are there (R235). -/
def openPlain (s : State) (f : Frame) (h : MacHdr) (v : Option Nat) : Frame × State :=
  if h.sec ∧ bit (f.snap.getD 0 0) 11 ∧ f.key ≠ [] ∧ v.isSome then
    if ackDead s then ({ f with bad := true }, s) else putPlain s f (openFrame f h (v.getD 0)).2
  else (f, s)

/-- The table of R237; a block with no engine left is poisoned (R243).  Log 50 (DEDUCED). -/
def judge3 (s : State) (f : Frame) (h : MacHdr) : Outcome3 × Frame × State :=
  let keep := rbit s Reg.sesCtl 1
  let fc := if h.sec then h.fc else none
  if f.session = 0 ∨ ¬ sesValid s f.session then
    let f := { f with session := 0 }
    if h.sec then ({ cont := false, sec := 3, deliver := keep, fresh := fc.getD 0 }, f, bump s Reg.sesNnosess)
    else ({ cont := rbit s Reg.sesCtl 0, sec := 0, deliver := true }, f, bump s Reg.sesNnosess)
  else
    let w0 := f.snap.getD 0 0
    let w7 := f.snap.getD 7 0
    let tsch := bit w0 14
    let level := if h.sec then h.level else 0
    let v := if tsch then some (slotOf s f.det.synct) else fc
    let fresh := if h.sec then v.getD 0 else 0
    if ¬ bit w0 level ∨ (h.sec ∧ h.ver = 0) ∨ (h.sec ∧ ¬ tsch ∧ (fc = none ∨ fc = some 0xFFFFFFFF)) then
      let (f, s) := openPlain s f h v
      ({ cont := false, sec := 2, deliver := keep, fresh := fresh }, f, bump s Reg.sesNfail)
    else if h.sec ∧ (f.key = [] ∨ h.kidm ≠ field w7 1 0 ∨ (h.kidm ≠ 0 ∧ h.kidx ≠ field w7 15 8)) then
      ({ cont := false, sec := 3, deliver := keep, fresh := fresh }, f, bump s Reg.sesNnokey)
    else if ¬ h.sec then ({ cont := true, sec := 0, deliver := true }, f, bump s Reg.sesNaccept)
    else if ackDead s then ({ cont := false, sec := 0, deliver := false }, { f with bad := true }, s)
    else if ¬ (openFrame f h fresh).1 then
      let (f, s) := openPlain (ackKey s f) f h v
      ({ cont := false, sec := 2, deliver := keep, fresh := fresh }, f, evt (bump s Reg.sesNfail) Reg.sesEvt 1)
    else
      let (o, s) := judgeFresh (ackKey s f) f.session fresh
      let (f, s) := openPlain s f h v
      (o, f, s)

/-! ## The acknowledgement decision (08 R212 to R214) -/

/-- Step 1 of R214 leaves an acknowledgement due: the filter passed, the frame asks for one and has a slot, and the engine
runs. -/
def ackAsked (s : State) (f : Frame) (h : MacHdr) : Bool :=
  f.pass && f.good && f.answers.isNone && decide (h.ftype = 1 ∨ h.ftype = 3 ∨ h.ftype = 5) && h.ar &&
  !(decide (h.dmode = 2) && decide (h.daddr = 0xFFFF)) && lnkOn s && decide (s.lnk.since ≤ f.det.synct) &&
  serviceOn s (fun m => m = 2 ∨ m = 3) && !memberOnly s

/-- What secures the acknowledgement of a frame (R215, R236, R239).  Log 51 (DEDUCED). -/
def ackSec (s : State) (f : Frame) (h : MacHdr) (p : AckPlan) : Option AckSec :=
  if p.secured then
    let w7 := f.snap.getD 7 0
    some { level := h.level, kidm := field w7 1 0, kidx := field w7 15 8, key := f.key, ext := ofWords ((f.snap.drop 3).take 4),
           tsch := p.tsch, fresh := if p.tsch then asnAt s (p.t5 / 5) else p.counter }
  else none

/-- The octets of an acknowledgement, less its FCS (R215).  Log 51 (DEDUCED). -/
def ackOctets (s : State) (f : Frame) (h : MacHdr) (p : AckPlan) (pend : Bool) : List Octet :=
  if p.enh then enhAck h pend p.tc (ackSec s f h p) else immAck h pend

/-- Duration of an acknowledgement of `n` octets with its FCS, sent with the frame's kind, rate and coding. -/
def ackTime (s : State) (f : Frame) (n : Nat) : Nat :=
  shrTime f.slot (rfld s (Reg.lnkPTxpre f.det.prof) 9 0) + bodyTime f.slot f.det.coded n f.mode

/-- The claim of an acknowledgement (R209, R212): A, T, E and D.  Log 51 (DEDUCED), 52 (DEDUCED). -/
def planAck (s : State) (f : Frame) (h : MacHdr) (tsch : Bool) (counter : Nat) : AckPlan :=
  let ld := ldTicks f.slot f.det.coded
  let a5 := if tsch then tpl5 s 2 else usFifths (rget s (Reg.lnkPTurn f.det.prof)).toNat
  let t5 := 5 * f.endt + max a5 (5 * (7373 + ld + 1229 + mergeBound s))
  let enh := decide (h.ver = 2)
  let p : AckPlan := { d := judgeTick s f + 1229, t5 := t5, e := 0, enh := enh, tsch := tsch, secured := enh && h.sec,
                       counter := counter, tc := if tsch ∧ enh then some (timeCorrection s f.det f.slot) else none }
  { p with e := 2000 * t5 + ackTime s f ((ackOctets s f h p false).length + fcsLen f.fcst) }

/-- Steps 1 to 3 of R214 on a judged frame: its ACK code, or the claim that steps 4 and 5 decide. -/
def ackSteps (s : State) (f : Frame) (h : MacHdr) (o : Outcome3) : Frame × State :=
  if ¬ ackAsked s f h then (f, s)
  else if f.late then ({ f with ackCode := 3 }, evt (bump s Reg.lnkNlate) Reg.lnkEvt 4)
  else if ¬ o.cont then ({ f with ackCode := 4 }, bump s Reg.lnkNnotack)
  else if h.ver < 2 ∧ ¬ s.lnk.immack then (f, s)
  else
    let tsch := decide (f.session ≠ 0) && bit (f.snap.getD 0 0) 14
    if h.ver = 2 ∧ h.sec ∧ ¬ tsch then
      match takeCounter s f.session with
      | (some c, s) => ({ f with plan := some (planAck s f h tsch c) }, s)
      | (none, s) => (f, s)
    else ({ f with plan := some (planAck s f h tsch 0) }, s)

/-- A frame is judged (R234 to R239, R214): one whose block or key column is poisoned ends at once (R43, R243); a matched
acknowledgement ends its request's attempt (R217).  `quiet` gives it ACK = NONE (13 R354). -/
def judgeFrame (s : State) (f : Frame) (quiet : Bool) : State :=
  match (if f.good ∧ f.pass ∧ ¬ f.bad then frameHdr f else none) with
  | none => finishFrame s { f with judged := true }
  | some h =>
    let (o, f, s) := judge3 s f h
    let f := { f with judged := true, sec := o.sec, fresh := if h.sec then o.fresh % 2 ^ 32 else 0, deliver := o.deliver }
    if f.bad then finishFrame s f
    else
      let s := noteScore s f
      let s := match f.answers with
        | some id => if (¬ h.sec ∨ o.sec = 1) ∧ s.lnk.expected.any (fun x => x.req = id) then reqAcked s id else s
        | none => s
      let (f, s) := if quiet then (f, s) else ackSteps s f h o
      if f.plan.isSome then updFrame s f.id fun _ => f else finishFrame s f

/-- A frame of a session that is being handed to this chip waits for Th (13 R354). -/
def heldFrame (s : State) (f : Frame) : Bool :=
  decide (f.session ≠ 0) && s.sage.hands.any fun h =>
    !h.out && !h.done && decide (h.session = f.session) && (!h.arrived || decide (judgeTick s f < h.th))

/-- The frame judged next: the earliest J, in key order (R231). -/
def nextJudged (s : State) : Option Frame :=
  leastFrame (fun f => judgeTick s f :: frameKey f) (s.frames.filter fun f => f.looked && !f.judged && !heldFrame s f)

/-! ## The order of the session engine (09 R231) -/

/-- The engine's next event: its tick, and 0 for a command, 1 for a judgement, 2 for a lookup. -/
def nextEvent (s : State) : Option (Nat × Nat) :=
  let cmd := if rxRuns s then s.ses.held.head?.toList else []
  (cmd.map (fun (c : SesCmd) => (c.at_, 0)) ++ (nextJudged s).toList.map (fun f => (judgeTick s f, 1)) ++ (nextLookup s).toList.map (fun f => (lookTick s f, 2))).foldl
    (fun (m : Option (Nat × Nat)) (e : Nat × Nat) => match m with
      | some b => if e.1 < b.1 then some e else some b
      | none => some e) none

/-- An event of the engine takes place. -/
def engineEvent (s : State) (cls : Nat) : State :=
  if cls = 0 then sesHead s
  else if cls = 1 then
    match nextJudged s with
    | some f => judgeFrame (reach s (judgeTick s f)) f false
    | none => s
  else
    match nextLookup s with
    | some f => lookAt s f
    | none => s

/-- The engine's events before `(t, cls)`, in their order, at most `n` of them. -/
def engineTo (t cls : Nat) : Nat → State → State
  | 0, s => s
  | n + 1, s =>
    match nextEvent s with
    | some e => if e.1 < t ∨ (e.1 = t ∧ e.2 < cls) then engineTo t cls n (engineEvent s e.2) else s
    | none => s

/-- The next frame is looked up, after every event before it (R231). -/
def sessionLookup (s : State) : State :=
  match nextLookup s with
  | some f => engineEvent (engineTo (lookTick s f) 2 4096 s) 2
  | none => s

/-- The next frame is judged, after every event before it (R231). -/
def frameJudgement (s : State) : State :=
  match nextJudged s with
  | some f => engineEvent (engineTo (judgeTick s f) 1 4096 s) 1
  | none => s

/-- A command whose OP the table of R230 lists. -/
def SesCmd.listed (c : SesCmd) : Bool := decide (1 ≤ c.op ∧ c.op ≤ 9)

/-- The engine's events up to the first held command with a listed OP; one with another OP is refused on the way (R230, R231). -/
def engineToCommand : Nat → State → State
  | 0, s => s
  | n + 1, s =>
    match nextEvent s, s.ses.held with
    | some e, c :: _ => if e.2 = 0 ∧ c.listed then s else engineToCommand n (engineEvent s e.2)
    | _, _ => s

/-- The next held command with a listed OP acts at its AT, where it has OP `op` and the engine runs.  Log 48 (DESIGN CHOICE). -/
def sesRow (op : Nat) (s : State) : State :=
  if ¬ rxRuns s ∨ (s.ses.held.find? SesCmd.listed).any (fun c => c.op ≠ op) then s
  else
    let s := engineToCommand 4096 s
    match s.ses.held with
    | c :: _ => if c.op = op then sesHead s else s
    | [] => s

/-! ## The claim of an acknowledgement (08 R210, R214 to R216; 13 R355) -/

/-- The session's pending requests at a frame's ENDT (R216). -/
def pendingReqs (s : State) (f : Frame) : List Req :=
  if f.session = 0 then []
  else s.lnk.reqs.filter fun r => decide (r.session = f.session ∧ r.nb ≤ f.endt) && !r.granted

/-- The request with the lowest NB of a mode. -/
def lowestNb (l : List Req) (mode : Nat) : Option Req :=
  (l.filter fun r => decide (r.mode = mode)).foldl (fun (m : Option Req) r => match m with
    | some b => if r.nb < b.nb then some r else some b
    | none => some r) none

/-- The follow-up that an acknowledgement announces (R216); a request whose follow-up is already claimed keeps that one.
Log 52 (DEDUCED). -/
def makeFollow (s : State) (f : Frame) (p : AckPlan) (h : Option (List Word)) (chan : Nat) (df : Int) (pend : List Req) : State :=
  match (lowestNb pend 2 <|> lowestNb pend 0) with
  | none => s
  | some r =>
    let gap := max 0x50 (rget s Reg.lnkFugap).toNat
    let t5 := (p.e + gap * 1228800 + 1999) / 2000
    let ef := 2000 * t5 + reqTime s r
    let fits := !p.tsch || decide (ef + 2000 * tpl5 s 2 + (rget s Reg.lnkFuack).toNat * 1228800 ≤ 10000 * slotEnd s f.det.synct)
    if fits ∧ r.follow.isNone then updReq s r.id fun q => { q with follow := some { d := p.d, t5 := t5, sheaf := f.det.sheaf, chan := chan, df := df, h := h } }
    else s

/-- The gains an acknowledgement uses: the frame's own, or for a frame known from contributions alone those of the latest
record that counts (R336, R355).  Log 52 (DEDUCED). -/
def ackGains (s : State) (f : Frame) (d : Nat) : Option (List Word) :=
  if f.own then some f.fm.h else (latestRef s f.session d).map RefRec.h

/-- An acknowledgement's claim at D (R210, R214 steps 4 and 5). -/
def decideAck (s : State) (f : Frame) (p : AckPlan) (h : MacHdr) : State :=
  let n := f.det.sheaf
  let e5 := (p.e + 1999) / 2000
  match planNo s n p.t5 e5 false with
  | some _ => finishFrame (evt (bump s Reg.lnkNbusy) Reg.lnkEvt 3) { f with plan := none, ackCode := 0 }
  | none =>
    let pend := pendingReqs s f
    let g := ackGains s f p.d
    let (chan, df) := refOffset s f.lo f.div f.off f.fm.ffin
    let body := ackOctets s f h p (!pend.isEmpty)
    let power := sagePowers s n g (sext 8 (rfld s (Reg.lnkPPwr f.det.prof) 7 0))
    let a : GateArgs := { sheaf := n, streams := [(chanFreq s chan, df)], wave := .profile f.slot.kind f.slot.rate, t5 := p.t5,
                          us := (p.e - 2000 * p.t5 + 1228799) / 1228800, tick := p.t5 / 5, power := power }
    let (o, s) := gateJudge s a
    match o.power with
    | none => finishFrame (gateVerdict s a o f.session) { f with plan := none, ackCode := 2 }
    | some pw =>
      let s := grantTx s n { t5 := p.t5, e5 := e5, streams := [(chanFreq s chan, df)], power := pw, for_ := .ack f.id,
                             octets := body ++ fcsOf f.fcst body, weights := sageWeights s n g pw,
                             air := airOf s f.det.prof f.slot f.det.coded f.fcst f.dw f.mode (body ++ fcsOf f.fcst body) }
      makeFollow (finishFrame s { f with plan := none, ackCode := 1 }) f p g chan df pend

/-- The next claim is decided at its D (R209, R210). -/
def claimDecision (s : State) : State :=
  if ¬ lnkOn s then s
  else
    match nextClaim s with
    | none => s
    | some c =>
      let s := prunePlan (reach s c.d) c.d
      match c.cls with
      | 0 => match s.frames.find? fun f => f.id = c.id with
        | some f => match f.plan, frameHdr f with
          | some p, some h => decideAck s f p h
          | _, _ => s
        | none => s
      | 1 => match reqOf s c.id with
        | some r => match r.follow with
          | some w => decideFollow s r w
          | none => s
        | none => s
      | _ => match reqOf s c.id with
        | some r => decideRequest s c r
        | none => s

/-! ## The unit's stop (08 R221) -/

/-- The stop acts (R221): nothing is decided any more; requests not granted complete STOPPED, and the frames whose acknowledgement is not
yet decided end with ACK = NONE, as R237 has them delivered or withheld.  Log 55 (DESIGN CHOICE). -/
def lnkStop (s : State) : State :=
  let on := lnkOn s
  let s := drainState s .lnk
  let s := lnkShow (updLnk s fun l => { l with
    stopAt := if on then some s.time.now else l.stopAt, heldStop := none, startAt := none, reanchor := none, switch := none })
  let s := (s.lnk.reqs.filter fun r => !r.granted).foldl (fun s r => reqEnd s r 6) s
  (s.frames.filter fun f => f.plan.isSome).foldl (fun s f => finishFrame s { f with plan := none, ackCode := 0 }) s

/-- A write of `LNK_CTL` (R220, R221). -/
def lnkCtlWrite (v : Word) (s : State) : State :=
  let en := enOf s .lnk
  let s := setEn (rwrite s Reg.lnkCtl v) .lnk en
  let s := if bit v 5 then (List.range 7).foldl (fun s k => rset s (Reg.lnkNack + k) 0) s else s
  let st := stateOf s .lnk
  if bit v 0 then
    let s := lnkShow (updLnk s fun l => { l with heldStop := none })
    let s := setEn s .lnk true
    if st = 0 then lnkBegin s else s
  else if st = 1 ∨ st = 2 then
    let at_ := rgroup s Reg.lnkAt 4
    if bit v 1 then
      if within2us s at_ then evt (lnkStop s) Reg.lnkEvt 1
      else lnkShow (updLnk s fun l => { l with heldStop := some at_ })
    else lnkStop s
  else setEn s .lnk false

/-! ## The commands -/

/-- A frame's session is looked up at K (R231). -/
def execSessionLookup (s : State) : Host.Outcome State Fault Refusal := .next (sessionLookup s)

/-- A frame is judged at J (R231, R237). -/
def execFrameJudgement (s : State) : Host.Outcome State Fault Refusal := .next (frameJudgement s)

/-- A claim is decided at D (08 R210). -/
def execClaimDecision (s : State) : Host.Outcome State Fault Refusal := .next (claimDecision s)

/-- A held stop acts at its tick (R221). -/
def execLinkStop (s : State) : Host.Outcome State Fault Refusal :=
  .next (
    match s.lnk.heldStop with
    | some t => lnkStop (reach s t)
    | none => s)

/-- ADMIT at its AT (R227, R230). -/
def execAdmitSession (s : State) : Host.Outcome State Fault Refusal := .next (sesRow 1 s)
/-- REMOVE at its AT (R230). -/
def execRemove (s : State) : Host.Outcome State Fault Refusal := .next (sesRow 2 s)
/-- SETPOL at its AT (R230). -/
def execSetpol (s : State) : Host.Outcome State Fault Refusal := .next (sesRow 3 s)
/-- SETFRESH at its AT (R230). -/
def execSetfresh (s : State) : Host.Outcome State Fault Refusal := .next (sesRow 4 s)
/-- FCRES at its AT (R239). -/
def execFcres (s : State) : Host.Outcome State Fault Refusal := .next (sesRow 5 s)
/-- KEYDERIVE at its AT (R254). -/
def execKeyderive (s : State) : Host.Outcome State Fault Refusal := .next (sesRow 6 s)
/-- KEYINSTALL at its AT (R261). -/
def execKeyinstall (s : State) : Host.Outcome State Fault Refusal := .next (sesRow 7 s)
/-- KEYCLEAR at its AT (R230). -/
def execKeyclear (s : State) : Host.Outcome State Fault Refusal := .next (sesRow 8 s)
/-- CLRCNT at its AT (R230). -/
def execClrcnt (s : State) : Host.Outcome State Fault Refusal := .next (sesRow 9 s)

end Sys2Proof.Machine
end

