-- ==== Sys2Proof/Machine/Sage.lean ====
section
/-!
DEFINITION. Sage's placement (13_sage_cluster R327 to R333): epochs, sessions on cores, caps, moves and their markers; the return
and the reservation of granules by cores (11_tillers R275 to R277, R281); and Winnow's commands, whose records Sage steers.
-/

namespace Sys2Proof.Machine

/-- Change Sage's state. -/
def updSage (s : State) (f : SageSt → SageSt) : State := { s with sage := f s.sage }

/-! ## Epochs (R327) -/

/-- The first boundary after tick `t` on the grid of the anchor in force at `t`, or on the one that follows it before then (R195, R327). -/
def epochOnGrid (s : State) : Nat → Nat → Nat
  | 0, t => t
  | n + 1, t =>
    let ne := max 1 (sageNe s)
    let k := asnAt s t
    let b := slotStart s t + ((k / ne + 1) * ne - k) * slotTicks s
    match nextAnchor s (t + 1), anchorAt s t with
    | some r, some _ => if r ≤ b then (if asnAt s r % ne = 0 then r else epochOnGrid s n r) else b
    | some r, none => if asnAt s r % ne = 0 then r else epochOnGrid s n r
    | none, _ => b

/-- The first boundary after tick `t` (R327). -/
def nextEpoch (s : State) (t : Nat) : Nat :=
  if lnkOn s then epochOnGrid s (s.lnk.anchors.length + 2) t else (t / 122880000 + 1) * 122880000

/-- The first boundary at or after tick `t`, at most `n` boundaries past `b`. -/
def epochFrom (s : State) (t : Nat) : Nat → Nat → Nat
  | 0, b => b
  | n + 1, b => if t ≤ b then b else epochFrom s t n (nextEpoch s b)

/-! ## Placement (R328 to R330) -/

/-- A Tiller that may serve sessions: ON, with SVC = 1 at its start. -/
def eligible (s : State) (t : Nat) : Bool := decide (t < 32) && coreOn s t && (s.core t).svc

/-- Records routed to a core in the current epoch. -/
def loadOf (s : State) (k : Nat) : Nat := s.sage.load.nth k 0

/-- The eligible Tiller with the fewest records routed, the lowest t of those.  Log 46 (DESIGN CHOICE). -/
def fewest (s : State) : Option Nat :=
  ((List.range 32).filter (eligible s)).foldl (fun (m : Option Nat) t => match m with
    | some b => if loadOf s t < loadOf s b then some t else some b
    | none => some t) none

/-- Session 0 goes to the Crown core (R328). -/
def crownSession (s : State) (n : Nat) : Bool := decide (n = 0) && rbit s Reg.sagCtl 0

/-- The placement of a session. -/
def placeOf (s : State) (n : Nat) : Option Placement :=
  s.sage.places.find? fun p => p.session = n && decide (p.core = 32) == crownSession s n

/-- Place a session that has no placement by the first-record rule (R329); `carry` is what its TAKE names (R331). -/
def placeNew (s : State) (n carry : Nat) : State :=
  match (if crownSession s n then some 32 else fewest s) with
  | none => s
  | some k => updSage s fun g => { g with places := { session := n, core := k, take := some carry } :: g.places.filter fun p => p.session ≠ n }

/-- Records of Sage's that a core holds (R330): waiting in RXREC, or popped and not returned. -/
def coreHolds (s : State) (k : Nat) : Nat :=
  ((inbound s k 0).filter fun e => field (e.1.getD 3 0) 2 0 ≠ 0).length + (s.core k).popped.length

/-- `SAG_TCAP`, between 4 and 64. -/
def sageCap (s : State) : Nat := clampNat 4 64 (rfld s Reg.sagTcap 6 0)

/-- RXREC of a core that works has room.  Log 45 (DEDUCED). -/
def rxRoom (s : State) (k : Nat) : Bool := coreOn s k && decide ((inbound s k 0).length < qDepth 0)

/-- A marker (R331). -/
def marker (carry session mark : Nat) : List Word := [w16 carry, w16 session, w16 mark, 0]

/-- Place the TAKE that a placement still owes.  Log 45 (DEDUCED). -/
def sendTake (s : State) (p : Placement) : State :=
  match p.take with
  | some c =>
    if rxRoom s p.core then
      updSage (arrive (if c = 0xFFFF then s else passHold s c p.core) p.core 0 (marker c p.session 2)) fun g =>
        { g with places := g.places.map fun q => if q.session = p.session then { q with take := none } else q }
    else s
  | none => s

/-- A record arrives in a core's RXREC and counts for the epoch (R275, R329). -/
def sendRec (s : State) (r : SageRec) (k : Nat) : State :=
  let s := arrive s k 0 [w16 r.gran, w16 (r.redo.toNat * 32768 + r.session), w16 r.seq, w16 r.kind]
  updSage s fun g => { g with
    load := g.load.upd k (· + 1)
    places := g.places.map fun p => if p.session = r.session then { p with count := p.count + 1 } else p }

/-- Sage holds a record for the core that a move will end on (R331 step 1). -/
def heldByMove (s : State) (r : SageRec) : Bool :=
  s.sage.moves.any fun m => decide (m.session = r.session) && (decide (2 ≤ m.stage) || decide (m.e ≤ r.endt))

/-- Another core holds unreturned records of a session (R332). -/
def heldElsewhere (s : State) (n k : Nat) : Bool :=
  (List.range 33).any fun j => decide (j ≠ k) && (s.core j).popped.any fun r => decide (r.session = n)

/-- Route one waiting record; none goes to a core while another holds unreturned records of its session (R332); `st` carries the records kept and the sessions whose later records must wait behind them.  Log 45 (DEDUCED). -/
def routeOne (st : State × List SageRec × List Nat) (r : SageRec) : State × List SageRec × List Nat :=
  let (s, kept, shut) := st
  if shut.contains r.session then (s, kept ++ [r], shut)
  else if heldByMove s r then (s, kept ++ [r], shut)
  else
    let s := if (placeOf s r.session).isSome then s else placeNew s r.session 0xFFFF
    match placeOf s r.session with
    | none => (s, kept ++ [r], r.session :: shut)
    | some p =>
      let s := sendTake s p
      let owes := ((placeOf s r.session).bind Placement.take).isSome
      if owes ∨ ¬ rxRoom s p.core ∨ coreHolds s p.core ≥ sageCap s ∨ heldElsewhere s r.session p.core then (s, kept ++ [r], r.session :: shut)
      else (sendRec s r p.core, kept, shut)

/-- The session of a released record. -/
def recSession (r : Rec) : Nat := if recKind r = 1 then recFld r 22 13 0 else recFld r 15 13 0

/-- A released record as Sage carries it. -/
def sageRec (r : Rec) : SageRec :=
  { gran := (r.hold.map Holding.gmeta).getD 0xFFFF, session := recSession r, seq := recFld r 11 15 0, kind := recKind r, endt := recEndt r }

/-- A record of a session that Winnow or Sage has not handed to a core. -/
def recWaits (s : State) (n e : Nat) : Bool :=
  (s.win.held ++ s.win.released).any (fun r => decide (recSession r = n ∧ recEndt r < e)) ||
  s.sage.waiting.any fun r => decide (r.session = n ∧ r.endt < e)

/-- Every record of a move's session with ENDT < E has gone: RELEASE goes to A's RXREC (R331 step 3).  Log 45 (DEDUCED). -/
def moveRelease (s : State) (m : Move) : State :=
  if m.stage = 1 ∧ (m.e ≤ max s.win.rp (shadow s - horizon s) + 1 ∨ winState s = 0) ∧ ¬ recWaits s m.session m.e ∧ rxRoom s m.from_ then
    updSage (arrive s m.from_ 0 (marker m.carry m.session 1)) fun g =>
      { g with moves := g.moves.map fun x => if x.session = m.session then { x with stage := 2 } else x }
  else s

/-- An ARRIVE or DEPART marker goes to the core that serves the session (R354): DEPART after the session's last record. -/
def sendMarker (s : State) (e : Nat × Nat) : State :=
  let busy := decide (e.2 = 4) && (s.frames.any (fun f => f.session = e.1) || (s.win.inbox.any fun r => decide (recSession r = e.1)) ||
    recWaits s e.1 (2 ^ 64))
  let s := if (placeOf s e.1).isSome ∨ e.2 = 4 then s else placeNew s e.1 0xFFFF
  match placeOf s e.1 with
  | some p =>
    if busy ∨ ¬ rxRoom s p.core then s
    else updSage (arrive s p.core 0 (marker 0xFFFF e.1 e.2)) fun g => { g with markers := g.markers.filter (· ≠ e) }
  | none => if e.2 = 4 ∧ ¬ busy then updSage s fun g => { g with markers := g.markers.filter (· ≠ e) } else s

/-- Sage takes what Winnow has released and hands on what can go (R328 to R331).  Log 45 (DEDUCED). -/
def sagePump (s : State) : State :=
  let s := { s with
    sage := { s.sage with waiting := s.sage.waiting ++ s.win.released.map sageRec }
    win := { s.win with released := [] } }
  let s := s.sage.markers.foldl sendMarker s
  let s := s.sage.places.foldl (fun s p => if p.take.isSome ∧ p.take ≠ some 0xFFFF then sendTake s p else s) s
  let (s, kept, _) := s.sage.waiting.foldl routeOne ({ s with sage := { s.sage with waiting := [] } }, [], [])
  let s := updSage s fun g => { g with waiting := kept }
  s.sage.moves.foldl moveRelease s

/-! ## Moves (R329, R331) -/

/-- Sage reserves a carry granule and a move begins, or is abandoned (R331 steps 1 and 2).  Log 46 (DESIGN CHOICE). -/
def startMove (s : State) (n a b e : Nat) : State × Bool :=
  match reserve s (partFor s (rfld s Reg.winTxmap (4 * (a / 8) + 3) (4 * (a / 8)))) 0 35 with
  | some (s, h) => (updSage s fun g => { g with moves := g.moves ++ [{ session := n, from_ := a, dest := b, carry := h.gmeta, e := e }] }, true)
  | none => (evt (bump s Reg.sagNmigfail) Reg.sagEvt 1, false)

/-- One of the entries of a list that are best under a measure; which of several is left open.  Log 46 (DESIGN CHOICE). -/
def pickTie (s : State) (site : Nat) (l : List Nat) (f : Nat → Nat) : Option Nat :=
  let m := l.foldl (fun m x => max m (f x)) 0
  let best := l.filter fun x => f x = m
  best[Config.openValue site s.free % max 1 best.length]?

/-- Balance the Tillers at a boundary `e`, at most `n` moves; `l` holds the loads, `tried` the sessions already taken (R329).  Log 46 (DESIGN CHOICE). -/
def balance (e : Nat) : Nat → State → List Nat → List Nat → State
  | 0, s, _, _ => s
  | n + 1, s, l, tried =>
    let ts := (List.range 32).filter (eligible s)
    let sum := (ts.map fun t => l.getD t 0).sum
    let top := ts.foldl (fun m t => max m (l.getD t 0)) 0
    if 4 * ts.length * top ≤ 5 * sum then s
    else
      match pickTie s 329 ts (fun t => l.getD t 0), pickTie s 330 ts (fun t => top - l.getD t 0) with
      | some a, some b =>
        let mine := s.sage.places.filter fun p =>
          decide (p.core = a ∧ 0 < p.count) && !tried.contains p.session && !s.sage.moves.any fun m => m.session = p.session
        let count := fun x => ((s.sage.places.find? fun p => p.session = x).map Placement.count).getD 0
        match pickTie s 331 (mine.map Placement.session) count with
        | some x =>
          let (s, ok) := startMove (bumpFree s) x a b e
          if ok then balance e n s ((l.modify a (· - count x)).modify b (· + count x)) (x :: tried)
          else balance e n s l (x :: tried)
        | none => s
      | _, _ => s

/-- Sage's part of an epoch boundary: loads shown, moves begun, counts from 0 (R329). -/
def sageBoundary (s : State) (e : Nat) : State :=
  let s := (List.range 32).foldl (fun s t => rset s (Reg.sagLoad t) (w16 (min 0xFFFF (loadOf s t)))) s
  let s := if rbit s Reg.sagCtl 6 then s else balance e (rfld s Reg.sagMigmax 7 0) s s.sage.load.val []
  updSage s fun g => { g with load := .rep 33 0, places := g.places.map fun p => { p with count := 0 } }

/-- A move completes (R331 steps 4 and 5): the session is placed on B, or on the Tiller that the first-record rule names where B may no
longer serve; it waits while no Tiller may. -/
def finishMove (s : State) (m : Move) : State :=
  match (if eligible s m.dest then some m.dest else fewest s) with
  | none => s
  | some b =>
    let s := passHold s m.carry b
    sagePump (bump (updSage s fun g => { g with
      moves := g.moves.filter fun x => x.session ≠ m.session
      places := { session := m.session, core := b, take := some m.carry } :: g.places.filter fun p => p.session ≠ m.session }) Reg.sagNmig)

/-- The session's move, where A has consumed RELEASE or has stopped. -/
def moveComplete (n : Nat) (s : State) : State :=
  match s.sage.moves.find? fun m => m.session = n with
  | some m => if m.stage = 4 ∨ ¬ coreOn s m.from_ then finishMove s m else s
  | none => s

/-- Core `k` issues a QPOP or QTRY of RXREC (R331 step 4). -/
def rxIssue (s : State) (k : Nat) : State :=
  updSage s fun g => { g with moves := g.moves.map fun m => if m.from_ = k ∧ m.stage = 3 then { m with stage := 4 } else m }

/-- Core `k` pops an RXREC entry: it holds the record's granules, or the carry granule of RELEASE (R276, R331). -/
def rxPopped (s : State) (k : Nat) (ws : List Word) : State :=
  let w := fun j => ws.getD j 0
  if field (w 3) 2 0 ≠ 0 then
    let r : SageRec := { gran := (w 0).toNat, session := field (w 1) 13 0, seq := (w 2).toNat, kind := field (w 3) 2 0, endt := 0, redo := true }
    (passHold s r.gran k).updCore k fun c => { c with popped := c.popped ++ [r] }
  else if w 2 = 1 then
    updSage (passHold s (w 0).toNat k) fun g =>
      { g with moves := g.moves.map fun m => if m.from_ = k ∧ m.session = field (w 1) 13 0 ∧ m.stage = 2 then { m with stage := 3 } else m }
  else s

/-! ## Granules of the cores (11 R276, R277) -/

/-- Granules a core holds, as `TILt_HELD` counts them. -/
def heldCount (s : State) (k : Nat) : Nat :=
  (s.holds.filter fun h => h.owner = k).foldl (fun n h => n + 1 + h.data.length) 0

/-- A core holds granule `g` (R284). -/
def holdsGranule (s : State) (k g : Nat) : Bool := s.holds.any fun h => decide (h.owner = k) && (decide (h.gmeta = g) || h.data.contains g)

/-- The map field of `WIN_TXMAP` for a core: its Culm's, and Culm C0's for the Crown core. -/
def txPart (s : State) (k : Nat) : Nat :=
  let c := if k < 32 then k / 8 else 0
  partFor s (rfld s Reg.winTxmap (4 * c + 3) (4 * c))

/-- A GRANT entry waits in the entry its reservation took: core `k` still has a use for granules reserved (R281). -/
def grantDue (s : State) (k : Nat) : Bool := coreOn s k && decide (0 < (s.core k).resv.nth 5 0)

/-- A GRANT entry. -/
def grantEntry (s : State) (k gran st : Nat) : State := completion s k 5 [w16 gran, w16 st]

/-- The reservation at the head of a core's GRESV (R277). -/
def granuleReservation (k : Nat) (s : State) : State :=
  match outbound s k 12 with
  | [] => s
  | ws :: _ =>
    let s := takeOut s k 12
    let len := field (ws.getD 0 0) 10 0
    if len = 0 ∨ 2045 < len then grantEntry s k 0xFFFF 2
    else
      match reserve s (txPart s k) ((len + 4 + 127) / 128) k with
      | some (s, h) =>
        let idx := (List.range 16).map fun j => match h.data[j]? with | some g => w16 g | none => 0xFFFF
        let due := grantDue s k
        let s := grantEntry (storeRows s (granAddr h.gmeta + 32) idx) k h.gmeta 0
        if due then s else release s h
      | none =>
        let t := shadow s
        let s := verdict s { endt := t, synct := t, origin := chipNum s } 2 5 (if k < 32 then k / 8 else 4) 0 0
        grantEntry s k 0xFFFF 1

/-- The granule at the head of a core's RET returns with its record's granules (R276); a second word says that the core held
it at the push, which passed it to owner 38. -/
def recordReturn (k : Nat) (s : State) : State :=
  match outbound s k 13 with
  | [] => s
  | ws :: _ =>
    let s := takeOut s k 13
    match (if ws.getD 1 0 = 1 then holdOf s (ws.getD 0 0).toNat 38 else none) with
    | some h => sagePump (release s h)
    | none => if k < 32 then evt s (Reg.tilEvt k) 2 else s

/-! ## A Tiller leaves ON (11 R281; R329, R331) -/

/-- The marker of RXREC that names a carry granule for the session, if it still waits there. -/
def waitingTake (s : State) (t n : Nat) : Nat :=
  ((inbound s t 0).findSome? fun e => if field (e.1.getD 3 0) 2 0 = 0 ∧ e.1.getD 2 0 = 2 ∧ field (e.1.getD 1 0) 13 0 = n then some (e.1.getD 0 0).toNat
    else none).getD 0xFFFF

/-- Sage takes back what core `t` held: its records with REDO for the popped ones, markers, sessions and moves.  Log 47 (DESIGN CHOICE). -/
def sageTillerLeft (s : State) (t : Nat) : State :=
  let rx := inbound s t 0
  let mine := rx.filterMap fun e =>
    let w := fun j => e.1.getD j 0
    if field (w 3) 2 0 = 0 then none
    else some ({ gran := (w 0).toNat, session := field (w 1) 13 0, seq := (w 2).toNat, kind := field (w 3) 2 0, endt := 0, redo := bit (w 1) 15 } : SageRec)
  let marks := rx.filterMap fun e =>
    if field (e.1.getD 3 0) 2 0 = 0 ∧ 3 ≤ (e.1.getD 2 0).toNat then some (field (e.1.getD 1 0) 13 0, (e.1.getD 2 0).toNat) else none
  let popped := (s.core t).popped
  let s := popped.foldl (fun s r => passHold s r.gran 35) s
  let carries := s.sage.moves.map Move.carry ++ (s.sage.places.map fun p => waitingTake s t p.session) ++
    s.sage.places.filterMap Placement.take
  let s := (s.holds.filter fun h => h.owner = t && !carries.contains h.gmeta).foldl release s
  let places := s.sage.places.filter fun p => p.core = t && !s.sage.moves.any fun m => m.session = p.session
  let takes := places.map fun p => (p.session, match p.take with | some c => c | none => waitingTake s t p.session)
  let nets := (inbound s t 7).map fun e => (e.1.getD 0 0).toNat
  let s := (s.holds.filter fun h => decide (h.owner = 37) && nets.contains h.gmeta).foldl release s
  let lost := ((s.core t).qin.val.drop 1).foldl (fun n q => n + q.length) 0
  let s := s.updCore t fun c => { c with qin := .rep 8 [], resv := .rep 8 0, popped := [] }
  let s := if t < 32 then bump s (Reg.tilNlost t) lost else s
  let s := updSage s fun g => { g with
    waiting := popped ++ mine ++ g.waiting
    markers := marks ++ g.markers
    places := g.places.filter fun p => p.core ≠ t || g.moves.any fun m => m.session = p.session }
  let s := takes.foldl (fun s e => placeNew s e.1 e.2) s
  let s := (s.sage.moves.filter fun m => m.from_ = t).foldl finishMove s
  sagePump s

/-- Serve what waits in a core's RET, at most `n` entries.  Log 47 (DESIGN CHOICE). -/
def returnAll (k : Nat) : Nat → State → State
  | 0, s => s
  | n + 1, s => if (outbound s k 13).isEmpty then s else returnAll k n (recordReturn k s)

/-- Serve what waits in a core's GRESV, at most `n` entries.  Log 47 (DESIGN CHOICE). -/
def reserveAll (k : Nat) : Nat → State → State
  | 0, s => s
  | n + 1, s => if (outbound s k 12).isEmpty then s else reserveAll k n (granuleReservation k s)

/-- A core leaves ON: what it has pushed takes its effect, the granules it holds return, Sage takes its records (R281).  Log 47 (DESIGN CHOICE). -/
def coreLeft (s : State) (t : Nat) : State := deliverAll (disown (reserveAll t 4 (sageTillerLeft (returnAll t 16 s) t)) t)

/-! ## The commands -/

/-- Winnow accepts the first record on its way (R179). -/
def execRecordAccept (s : State) : Host.Outcome State Fault Refusal :=
  .next (
    match s.win.inbox with
    | r :: rest => sagePump (winDrain (acceptRec { s with win := { s.win with inbox := rest } } r))
    | [] => s)

/-- The release point reaches the next held record (R178). -/
def execWinnowRelease (s : State) : Host.Outcome State Fault Refusal :=
  .next (sagePump (
    match s.win.held with
    | r :: _ =>
      if shadow s - horizon s < recEndt r ∧ s.win.rp < recEndt r then releaseDue (reach s (recEndt r + horizon s + 3))
      else releaseDue s
    | [] => releaseDue s))

/-- A write to `WIN_HOR.NEXT` (R181). -/
def execHorizonArm (_i : Initiator) (v : Word) (s : State) : Host.Outcome State Fault Refusal := .next (sagePump (winHorWrite v s))

/-- The armed horizon takes effect at the first shadow value at or after its tick (R181). -/
def execHorizonApply (s : State) : Host.Outcome State Fault Refusal :=
  .next (
    match s.win.horAt with
    | some (t, next) =>
      let s := reachRp (reach s (t + 3)) (t - 1 - horizon s)
      let s := rsetFld (rsetBit s Reg.winHor 15 false) Reg.winHor 13 8 next
      sagePump (releaseDue { s with win := { s.win with horAt := none } })
    | none => s)

/-- A GRESV entry is served (11 R277). -/
def execGranuleReservation (core : Fin 33) (s : State) : Host.Outcome State Fault Refusal := .next (granuleReservation core s)

/-- A RET entry is served (11 R276). -/
def execRecordReturn (core : Fin 33) (s : State) : Host.Outcome State Fault Refusal := .next (recordReturn core s)

/-- A move completes (R331). -/
def execMoveComplete (session : Fin 16384) (s : State) : Host.Outcome State Fault Refusal := .next (moveComplete session s)

end Sys2Proof.Machine
end

