-- ==== Sys2Proof/Machine/Tbs.lean ====
section
/-!
DEFINITION. Discipline of the timebase (14_backhaul_host R367 to R371): the rate, the step, PPS_IN with its loop, and PPS_OUT.
-/

namespace Sys2Proof.Machine

/-- A register group as a signed quantity. -/
def rsigned (s : State) (a n : Nat) : Int := sext (16 * n) (rgroup s a n)

/-- Hold a signed quantity in a group of `n` words. -/
def rsetSigned (s : State) (a n : Nat) (v : Int) : State := rsetGroup s a n (v % 2 ^ (16 * n)).toNat

/-- The trim that a rate gives: values beyond ±50 ppm act as ±50 ppm (R368). -/
def trimOf (v : Int) : Int := clampInt (-5000000) 5000000 v

/-- The rate in force changes. -/
def rateNow (s : State) (v : Int) : State :=
  let s := rsetBit s Reg.tbsStat 1 false
  { s with time := { s.time with rate := trimOf v, rateAt := none } }

/-- A write to a word of `TBS_RATE`: ignored unless SRC is SOFT; a commit arms a change (R367, R368). -/
def rateWrite (i : Initiator) (a : Nat) (v : Word) (s : State) : State :=
  if rfld s Reg.tbsCtl 1 0 ≠ 1 then s
  else
    let s := groupWrite s i a v
    if a ≠ Reg.tbsRate + 1 then s
    else
      let t := rgroup s Reg.tbsRateat 4
      if t < shadow s then evt (rateNow s (rsigned s Reg.tbsRate 2)) Reg.tbsEvt 1
      else
        let s := rsetBit s Reg.tbsStat 1 true
        { s with time := { s.time with rateAt := some t, rateNew := rsigned s Reg.tbsRate 2 } }

/-- Arm a step (R369). -/
def armStep (s : State) (by_ : Int) (t : Nat) : State :=
  let s := rsetBit s Reg.tbsStat 2 true
  { s with time := { s.time with stepAt := some t, stepBy := by_ } }

/-- A write to a word of `TBS_STEP`: ignored unless SRC is SOFT; a commit arms a step (R367, R369). -/
def stepWrite (i : Initiator) (a : Nat) (v : Word) (s : State) : State :=
  if rfld s Reg.tbsCtl 1 0 ≠ 1 then s
  else
    let s := groupWrite s i a v
    if a ≠ Reg.tbsStep + 3 then s else armStep s (rsigned s Reg.tbsStep 4) (rgroup s Reg.tbsStepat 4)

/-- What a step waits for: every sheaf and the link timing unit OFF, and no record in Winnow (R369). -/
def stepFree (s : State) : Bool :=
  (List.range 8).all (fun n => decide (rfld s (Reg.shfStat n) 1 0 = 0)) && decide (rfld s Reg.lnkStat 1 0 = 0) &&
  s.win.held.isEmpty && s.win.inbox.isEmpty

/-- The armed step applies: a positive one adds to the count, a negative one leaves it for as many ticks (R369).  Log 30 (DEDUCED). -/
def stepApply (s : State) : State :=
  match s.time.stepAt with
  | none => s
  | some t =>
    if ¬ stepFree s then s
    else
      let s := rsetBit (reach s t) Reg.tbsStat 2 false
      let s := { s with time := { s.time with now := s.time.now + s.time.stepBy.toNat, stepAt := none, stepBy := 0 } }
      evt s Reg.tbsEvt 3

/-- A write to `TBS_CTL`: a change of SRC starts the loop of R370 anew.  Log 30 (DEDUCED). -/
def tbsCtlWrite (v : Word) (s : State) : State :=
  let old := rfld s Reg.tbsCtl 1 0
  let s := rwrite s Reg.tbsCtl v
  if rfld s Reg.tbsCtl 1 0 = old then noteDisc s
  else
    let s := rsetBit s Reg.tbsStat 0 false
    noteDisc { s with time := { s.time with ppsPrev := none, ppsErr := none, ppsGood := 0 } }

/-- The hardware loop sees an edge captured at `cap`, in 1/16 ticks (R370). -/
def ppsEdge (s : State) (cap : Nat) : State :=
  if rfld s Reg.tbsCtl 1 0 ≠ 2 then s
  else
    match s.time.ppsPrev with
    | none => { s with time := { s.time with ppsPrev := some cap } }
    | some p =>
      let e : Int := ((cap : Int) - p) - 16 * 122880000
      let good := if -4 < e ∧ e < 4 then s.time.ppsGood + 1 else 0
      let s := if 4 ≤ good then rsetBit s Reg.tbsStat 0 true else s
      { s with time := { s.time with ppsPrev := some cap, ppsGood := good, ppsErr := some (cap / 16, e) } }

/-- round(e × 813.8 / 64); how a tie rounds is not stated.  Log 30 (DEDUCED). -/
def ppsStep (s : State) (e : Int) : Int :=
  let n := e * 4069
  if (n - 160) % 320 = 0 then n / 320 + (Config.openValue 370 s.free % 2 : Nat) else (n + 160) / 320

/-- The loop corrects the rate 1,024 ticks after a capture (R370). -/
def ppsUpdate (s : State) : State :=
  match s.time.ppsErr with
  | none => s
  | some (t, e) =>
    let s := reach s (t + 1024)
    let r := rsigned s Reg.tbsRate 2 - ppsStep s e
    let s := bumpFree (rateNow (rsetSigned s Reg.tbsRate 2 r) r)
    { s with time := { s.time with ppsErr := none } }

/-- No edge within 1.1 s of the last one (R370).  Log 30 (DEDUCED). -/
def ppsLoss (s : State) : State :=
  match s.time.ppsPrev with
  | none => s
  | some p =>
    let s := reach s (p / 16 + 135168000)
    let s := rsetBit s Reg.tbsStat 0 false
    evt (noteDisc { s with time := { s.time with ppsPrev := none, ppsGood := 0 } }) Reg.tbsEvt 2

/-- The period of PPS_OUT: at least 1,024 ticks (R371). -/
def ppsPeriod (s : State) : Nat := max 1024 (rgroup s Reg.tbsPpsoper 2)

/-- The first tick of PPS_OUT at or after `t` (R371). -/
def ppsNext (s : State) (t : Nat) : Nat :=
  let a := rgroup s Reg.tbsPpsoat 4
  a + (t - a + ppsPeriod s - 1) / ppsPeriod s * ppsPeriod s

/-- PPS_OUT is driven: PPSOEN = 1 and the chip is past step 7 of the boot sequence (R371). -/
def ppsDriven (s : State) : Bool := rbit s Reg.tbsCtl 2 && decide (7 ≤ s.boot.step) && !s.power.quiet

/-- The level of PPS_OUT: high for the lesser of half the period and 12,288,000 ticks from each edge (R371). -/
def ppsLevel (s : State) : Bool :=
  ppsDriven s && match s.time.ppsOut with
    | some t => decide (t ≤ s.time.now ∧ s.time.now < t + min (ppsPeriod s / 2) 12288000)
    | none => false

/-- PPS_OUT rises at its next tick (R371). -/
def ppsRise (s : State) : State :=
  if ¬ ppsDriven s then s
  else
    let t := ppsNext s (match s.time.ppsOut with | some p => max s.time.now (p + 1) | none => s.time.now)
    let s := reach s t
    { s with time := { s.time with ppsOut := some t } }

/-- A read of `TBS_PPSCAP` word 0 clears NEW and OVR (R370). -/
def ppsCapRead (s : State) : State := rsetFld s Reg.tbsPpssub 15 14 0

/-! ## The commands -/

/-- A commit of `TBS_RATE` (R368). -/
def execRateCommit (i : Initiator) (v : Word) (s : State) : Host.Outcome State Fault Refusal := .next (rateWrite i (Reg.tbsRate + 1) v s)

/-- The armed rate change applies (R368). -/
def execRateApply (s : State) : Host.Outcome State Fault Refusal :=
  .next (
    match s.time.rateAt with
    | some t => rateNow (reach s t) s.time.rateNew
    | none => s)

/-- A commit of `TBS_STEP` (R369). -/
def execStepCommit (i : Initiator) (v : Word) (s : State) : Host.Outcome State Fault Refusal := .next (stepWrite i (Reg.tbsStep + 3) v s)

/-- The armed step applies (R369). -/
def execStepApply (s : State) : Host.Outcome State Fault Refusal := .next (stepApply s)

/-- A PPS_IN rising edge now, `sub` sixteenths of a tick on (R370). -/
def execPpsInEdge (sub : Fin 16) (s : State) : Host.Outcome State Fault Refusal :=
  .next (
    let new := rbit s Reg.tbsPpssub 15
    let s := rsetGroup s Reg.tbsPpscap 4 s.time.now
    let s := rset s Reg.tbsPpssub (w16 (0x8000 + (new || rbit s Reg.tbsPpssub 14).toNat * 0x4000 + sub.val))
    let s := ppsEdge s (16 * s.time.now + sub.val)
    stolon (evt s Reg.tbsEvt 0) 0x820)

/-- The PPS loop writes the rate (R370). -/
def execPpsLoopUpdate (s : State) : Host.Outcome State Fault Refusal := .next (ppsUpdate s)

/-- PPS_IN is lost (R370). -/
def execPpsLoss (s : State) : Host.Outcome State Fault Refusal := .next (ppsLoss s)

/-- PPS_OUT rises (R371). -/
def execPpsOutEdge (s : State) : Host.Outcome State Fault Refusal := .next (ppsRise s)

end Sys2Proof.Machine
end

