-- ==== Sys2Proof/Machine/Cluster.lean ====
section
/-!
DEFINITION. Clusters (13_sage_cluster R338 to R355): formation, timing messages, lane faults and resends of the Useth ports, the
directory, handovers; and the epoch boundary, at which Sage balances sessions and owners decide handovers (R327, R329, R353).
-/

namespace Sys2Proof.Machine

/-- Change the Useth state. -/
def updUsl (s : State) (f : UslSt → UslSt) : State := { s with usl := f s.usl }

/-! ## Formation (R340, R349) -/

/-- Lm for N chips, from the leader's `USL_LM` and `USL_SBMAX` (R349), in ticks. -/
def mergeTicks (n lm sbmax : Nat) : Nat :=
  let sb := clampNat 64 4096 sbmax
  -- 8.0 µs + SBMAX × N / 430.8 µs + 0.30 µs × (N − 1), in 1/43,080 µs; 122.88 ticks a µs
  let us := 344640 + 100 * sb * n + 12924 * (n - 1)
  max (8 * lm) ((us * 12288 + 4307999) / 4308000)

/-- The chip of the lowest number leads; positions follow clockwise from it. -/
def ringFrom (l : List CensusChip) : List CensusChip :=
  let low := l.foldl (fun m c => min m c.chip) 16384
  let k := (l.findIdx? fun c => c.chip = low).getD 0
  l.drop k ++ l.take k

/-- A chip in HOSTED or AUTONOMOUS mode decodes. -/
def censusDecodes (c : CensusChip) : Bool := c.mode = 2 ∨ c.mode = 3

/-- Some chip number occurs twice. -/
def duplicates : List Nat → Bool
  | [] => false
  | a :: r => r.contains a || duplicates r

/-- The ports that are ON carry frames. -/
def anyPortOn (s : State) : Bool := (List.range 2).any fun n => decide (rfld s (Reg.uslnStat n) 1 0 = 2)

/-- Show the map of positions. -/
def showMap (s : State) : State :=
  (List.range 16).foldl (fun s p => rset s (Reg.uslMap p) (match s.usl.chips[p]? with
    | some (c, d) => w16 (0x8000 + d.toNat * 0x4000 + c % 16384)
    | none => 0)) s

/-- `USLn_PEER` from the ring: port 0 meets port 1 of the next position. -/
def showPeers (s : State) (ring : Bool) : State :=
  let n := s.usl.chips.length
  let p := s.usl.pos
  let put := fun (s : State) (port q : Nat) (there : Bool) =>
    if there then rset s (Reg.uslnPeer port) (w16 (0x8000 + (1 - port) * 0x4000 + ((s.usl.chips.getD q (0, false)).1 % 16384))) else s
  let s := put s 0 ((p + 1) % max 1 n) (decide (1 < n) && (ring || decide (p + 1 < n)))
  put s 1 ((p + n - 1) % max 1 n) (decide (1 < n) && (ring || decide (0 < p)))

/-- The cluster dissolves for this chip (R340, R343). -/
def leaveCluster (s : State) : State :=
  if inCluster s then evt (noteDisc (rsetFld (rset (updUsl s fun u => { u with chips := [], sums := [] }) Reg.uslLmact 0) Reg.uslStat 15 13 0)) Reg.uslEvt 1
  else s

/-- The census completes (R340): the cluster forms, or re-forms, or stops on a duplicate chip number.  The default chip of a cluster
without a decoding chip is not stated.  Log 68 (DESIGN CHOICE). -/
def formCluster (s : State) (census : List CensusChip) (ring : Bool) : State :=
  let l := ringFrom census
  let me := chipNum s
  if ¬ rbit s Reg.uslCtl 0 ∨ ¬ anyPortOn s then s
  else if duplicates (l.map CensusChip.chip) then evt s Reg.uslEvt 6
  else
    match l.findIdx? fun c => c.chip = me with
    | none => s
    | some pos =>
      let n := min 16 l.length
      let def_ := (l.findIdx? censusDecodes).getD (Config.openValue 340 s.free % n)
      let lead := l.getD 0 ⟨me, 0, 0, 0⟩
      let lm := if lead.chip = me then (rget s Reg.uslLm).toNat else lead.lm
      let sb := if lead.chip = me then rfld s Reg.uslSbmax 12 0 else lead.sbmax
      let s := if inCluster s then evt s Reg.uslEvt 1 else s
      let s := updUsl (bumpFree s) fun u => { u with chips := (l.take 16).map fun c => (c.chip, censusDecodes c), pos := pos }
      let s := rset s Reg.uslLmact (w16 (mergeTicks n lm sb))
      let ok := rbit s Reg.uslStat 13
      let s := rset s Reg.uslStat (w16 (0x8000 + ring.toNat * 0x4000 + ok.toNat * 0x2000 + def_ % 16 * 256 + pos % 16 * 16 + (n - 1)))
      evt (showPeers (showMap s) ring) Reg.uslEvt 0

/-! ## Time (R346) -/

/-- A timing message: the offset from the default chip in 1/16 tick, and the rate and step that the link gives where SRC is
USETH (14 R367). -/
def timing (s : State) (off rate step : Int) : State :=
  if ¬ inCluster s then s
  else
    let n := (s.usl.chips.length : Int)
    let s := rset s Reg.uslToff (i16 off)
    let s := noteDisc (rsetBit s Reg.uslStat 13 (decide (-(32 + 8 * n) ≤ off ∧ off ≤ 32 + 8 * n)))
    if rfld s Reg.tbsCtl 1 0 ≠ 3 ∨ isDefault s then s
    else
      let s := rateNow (rsetSigned s Reg.tbsRate 2 rate) rate
      if step = 0 then s else armStep (rsetSigned s Reg.tbsStep 4 step) step s.time.now

/-! ## Lanes (R339, R342, R343) -/

/-- The lane of a port whose fault the present retraining follows. -/
def lastFault (s : State) (n : Nat) : Option Nat := (s.usl.faults.find? fun f => f.1 = n).map fun f => f.2.1

/-- The other port carries frames. -/
def otherUp (s : State) (n : Nat) : Bool := rbit s (Reg.uslnStat (1 - n)) 2

/-- A link of port `n` carries no frames: traffic goes the other way round a ring, or the chip is cut off (R343). -/
def linkDown (s : State) (n : Nat) : State :=
  let s := rsetBit s (Reg.uslnStat n) 2 false
  if ¬ inCluster s then s
  else if otherUp s n then (if rbit s Reg.uslStat 14 then evt s Reg.uslEvt 2 else s)
  else leaveCluster s

/-- A lane faults (R343): three faults within 10 s exclude it.  Log 68 (DESIGN CHOICE). -/
def laneFault (s : State) (n lane : Nat) : State :=
  if rfld s (Reg.uslnStat n) 1 0 ≠ 2 ∨ ¬ rbit s (Reg.uslnStat n) (4 + lane) then s
  else
    let now := s.time.now
    let s := updUsl s fun u => { u with faults := (n, lane, now) :: u.faults }
    let recent := (s.usl.faults.filter fun f => decide (f.1 = n ∧ f.2.1 = lane ∧ now < f.2.2 + 1228800000)).length
    let out := decide (3 ≤ recent)
    let s := if out then evt (updUsl s fun u => { u with laneOff := (n, lane) :: u.laneOff }) (Reg.uslnEvt n) 2 else s
    let s := fault s { cls := 6, lasting := out, action := 8, typ := 6, inst := 4 * n + lane }
    linkDown (rsetBit s (Reg.uslnStat n) (4 + lane) false) n

/-- A port finishes retraining without the faulted lane (R343): frames flow again where a lane is left. -/
def retrained (s : State) (n : Nat) : State :=
  if rfld s (Reg.uslnStat n) 1 0 ≠ 2 ∨ rbit s (Reg.uslnStat n) 2 then s
  else
    match lastFault s n with
    | none => s
    | some l =>
      let lanes := (List.range 4).filter fun k => (s.usl.trained.nth n 0).testBit k && decide (k ≠ l) && !s.usl.laneOff.contains (n, k)
      let s := rsetFld s (Reg.uslnStat n) 7 4 (lanes.map (2 ^ ·)).sum
      evt (if lanes.isEmpty then s else rsetBit s (Reg.uslnStat n) 2 true) (Reg.uslnEvt n) 3

/-! ## Handovers (R353, R354) -/

/-- Change the handover of a session, given or received. -/
def updHand (s : State) (h : Handover) (f : Handover → Handover) : State :=
  updSage s fun g => { g with hands := g.hands.map fun x => if x.out = h.out ∧ x.key = h.key ∧ x.e = h.e ∧ x.peer = h.peer then f x else x }

/-- The key of `USL_CKEY`: a valid handle's; 0x0000 names no key. -/
def clusterKey (s : State) : Option (List Octet) :=
  (handleSlot s (rget s Reg.uslCkey)).bind fun k => if k = 0 then none else some ((slotKey s k).take 16)

/-- The frames kept of a session with J < E: the last 64 judged. -/
def keptScores (s : State) (n e : Nat) : List (List (Nat × Int)) :=
  ((s.sage.scores.filter fun x => decide (x.1 = n ∧ x.2.1 < e)).take 64).map fun x => x.2.2

/-- The sum of a chip's SNR over the frames kept; a frame without it scores −10.0 dB. -/
def scoreOf (l : List (List (Nat × Int))) (c : Nat) : Int :=
  l.foldl (fun n f => n + (((f.find? fun e => e.1 = c).map Prod.snd).getD (-40))) 0

/-- The chip of the highest score, the lowest number of those. -/
def bestChip (l : List (List (Nat × Int))) (chips : List Nat) : Option Nat :=
  chips.foldl (fun (m : Option Nat) c => match m with
    | some b => if scoreOf l b < scoreOf l c ∨ (scoreOf l b = scoreOf l c ∧ c < b) then some c else some b
    | none => some c) none

/-- The decoding chips of the cluster. -/
def decoders (s : State) : List Nat := (s.usl.chips.filter fun c => c.2).map Prod.fst

/-- Whether another chip has a free session index: nothing on this chip shows it.  Log 68 (DESIGN CHOICE). -/
def peerHasIndex (s : State) (c : Nat) : Bool := Config.openValue 353 (s.free + c) ≠ 0

/-- A session is handed to chip `c`, decided at tick `d` (R353, R354): E′ is the first boundary at least 2.0 ms later. -/
def giveSession (s : State) (n c d : Nat) : State :=
  if (clusterKey s).isNone then evt s Reg.sagEvt 5
  else
    let e := epochFrom s (d + 245760) 4096 (nextEpoch s d)
    let k := sesKeyOf s n
    let s := updSage s fun g => { g with
      hands := g.hands ++ [{ session := n, peer := c, e := e, out := true, key := k }]
      dirPend := g.dirPend ++ [(e, k, some c)] }
    dirSend (rsetBit s Reg.sagStat 15 true) k c false e

/-- The session is not already on its way. -/
def staysHere (s : State) (n : Nat) : Bool := s.sage.hands.all fun h => h.done || decide (h.session ≠ n)

/-- The choice of an owner at a boundary (R353). -/
def chooseOwner (s : State) (n e : Nat) : State :=
  let l := keptScores s n e
  match bestChip l (decoders s) with
  | some c =>
    if c ≠ chipNum s ∧ 16 ≤ l.length ∧ scoreOf l (chipNum s) + 12 * l.length ≤ scoreOf l c ∧ staysHere s n then
      let has := peerHasIndex s c
      if has then giveSession (bumpFree s) n c e else bumpFree s
    else s
  | none => s

/-- The owner decides its handovers at boundary E (R353). -/
def decideHands (s : State) (e : Nat) : State :=
  if inCluster s ∧ decodes s then (admitted s).foldl (fun s n => chooseOwner s n e) s else s

/-- A request that takes the owner into MEMBER mode decides at once, whatever the margin (R353). -/
def memberHands (s : State) : State :=
  if inCluster s ∧ decodes s then
    (admitted s).foldl (fun s n =>
      match bestChip (keptScores s n (2 ^ 64)) ((decoders s).filter (· ≠ chipNum s)) with
      | some c => if staysHere s n then giveSession s n c (shadow s) else s
      | none => s) s
  else s

/-- HPEND: a handover is decided and not yet in effect. -/
def handPending (s : State) : Bool := s.sage.hands.any fun h => !h.eff

/-- The lowest free session index. -/
def freeIndex (s : State) : Option Nat := (List.range 16384).find? fun n => decide (n ≠ 0) && !sesValid s n

/-- The new owner admits a session under a lookup key (R354); its policy comes with the HAND frame. -/
def admitHanded (s : State) (n : Nat) (k : LookKey) : State :=
  let ext := wordsOf 4 k.addr
  let ws : List Word := List.replicate 5 0 ++ [w16 n, w16 (k.mode * 0x2000), if k.mode = 0 then w16 k.pan else 0,
    if k.mode = 0 then w16 k.addr else 0] ++ (if k.mode = 1 then ext else List.replicate 4 0) ++ List.replicate 19 0
  sesShow (doAdmit s { from_ := 33, level := 0, words := ws })

/-- E′ of the earliest handover not yet in effect passes (R354): given or received.  A chip that does not decode then, or has no index
free, admits nothing (02 R52).  Log 68 (DESIGN CHOICE). -/
def handEffect (s : State) : State :=
  let first := (s.sage.hands.filter fun h => !h.eff).foldl (fun (m : Option Handover) h => match m with
    | some b => if h.e < b.e then some h else some b
    | none => some h) none
  match first with
  | none => s
  | some h =>
    let s := dirUpTo h.e (reach s h.e)
    let s :=
      if h.out then bump (updHand s h fun x => { x with eff := true }) Reg.sagNhout
      else
        match (if decodes s then freeIndex s else none) with
        | some n =>
          let s := admitHanded s n h.key
          let s := updHand s h fun x => { x with eff := true, session := n }
          bump (updSage s fun g => { g with markers := g.markers ++ [(n, 3)] }) Reg.sagNhin
        | none => updHand s h fun x => { x with eff := true, done := true }
    let s := rsetBit s Reg.sagStat 15 (handPending s)
    sagePump (evt s Reg.sagEvt 0)

/-- Lg in ticks for N chips, rounded up (R354). -/
def handTicks (n : Nat) : Nat := ((2460 + 1280 * n + 369 * (n - 1)) * 12288 + 122999) / 123000

/-- The old owner has judged every frame with SYNCT < E′, as far as this chip holds one (R354). -/
def oldFramesDone (s : State) (e : Nat) : Bool :=
  (s.frames.all fun f => f.judged || decide (e ≤ f.det.synct)) && s.spks.all fun k => decide (e ≤ k.det.synct)

/-- The old owner sends the HAND frame (R354); the session leaves its memory, and DEPART follows its last record.  Log 68 (DESIGN CHOICE). -/
def handSend (s : State) (n : Nat) : State :=
  match s.sage.hands.find? fun h => h.out && h.eff && !h.done && decide (h.session = n) with
  | none => s
  | some h =>
    match clusterKey s with
    | none => s
    | some kek =>
      if ¬ oldFramesDone s h.e then s
      else
        let s := reach s (h.e + 368640)
        let j := (s.sage.scores.filter fun x => x.1 = n).foldl (fun m x => max m x.2.1) 0
        let th := max (h.e + 368640) (j + 1229) + handTicks s.usl.chips.length
        let body := unpackOctets (mgets s (sesAddr n 0) 16 ++ mgets s (sesAddr n 24) 8)
        let mask := ((posOf s h.peer).map (2 ^ ·)).getD 0
        let s := uslSend s 4 1 mask 0 0 (octetsLE 8 th ++ keyWrap kek body)
        let s := updHand s h fun x => { x with done := true, th := th }
        let s := sesShow (doRemove s n)
        sagePump (updSage s fun g => { g with
          scores := g.scores.filter fun x => x.1 ≠ n
          markers := g.markers ++ [(n, 4)] })

/-- Judge the frames held for a session that pass a test, in key order; each brings a CONTRIB verdict where `late` (R354).  Log 68 (DESIGN CHOICE). -/
def judgeHeld (n peer : Nat) (late : Bool) (p : Frame → Bool) : Nat → State → State
  | 0, s => s
  | k + 1, s =>
    match leastFrame frameKey (s.frames.filter fun f => f.looked && !f.judged && decide (f.session = n) && p f) with
    | none => s
    | some f =>
      let f := { snapshot s f n with judged := true }
      let s := judgeFrame (updFrame s f.id fun _ => f) f true
      let d := f.det
      let h : RecHead := { endt := f.endt, synct := d.synct, subt := d.subt, prof := d.prof, beam := d.beam, sheaf := d.sheaf, chan := d.chan, origin := f.origin }
      let s := if late then verdict s h 2 6 peer (w16 (0x8000 + f.psdu.length % 2048)) n else s
      judgeHeld n peer late p k s

/-- The key and the record of a HAND frame (R354).  Log 68 (DESIGN CHOICE). -/
def handContent (s : State) (f : HandFrame) : Option (LookKey × List Word) :=
  match (clusterKey s).bind fun kek => keyUnwrap kek f.wrapped with
  | none => none
  | some o =>
    let ws := packOctets o
    let w := fun k => ws.getD k 0
    let key : LookKey := if bit (w 0) 13 then ⟨1, 0, ofWords [w 3, w 4, w 5, w 6]⟩ else ⟨0, (w 1).toNat, (w 2).toNat⟩
    some (key, ws)

/-- The new owner receives the HAND frame (R354).  Log 68 (DESIGN CHOICE). -/
def handReceive (s : State) (f : HandFrame) : State :=
  match handContent s f with
  | none => s
  | some (key, ws) =>
    match s.sage.hands.find? fun h => !h.out && h.eff && !h.arrived && !h.done && decide (h.peer = f.src ∧ h.key = key) with
    | none => s
    | some h =>
      let n := h.session
      let s := sesPut (sesPut s n 0 (ws.take 16)) n 24 ((ws.drop 16).take 8)
      let s := updHand s h fun x => { x with arrived := true, th := f.th }
      if f.th < shadow s then
        let now := shadow s
        let s := evt (bump s Reg.sagNhlate) Reg.sagEvt 2
        let s := judgeHeld n f.src true (fun x => decide (judgeTick s x ≤ now)) 1024 s
        updHand s h fun x => { x with done := true }
      else s

/-- At Th the held frames with J < Th are judged in key order, with ACK = NONE (R354). -/
def heldJudgement (s : State) (n : Nat) : State :=
  match s.sage.hands.find? fun h => !h.out && h.arrived && !h.done && decide (h.session = n) with
  | none => s
  | some h =>
    let s := reach (engineTo h.th 1 4096 s) h.th
    let s := judgeHeld n h.peer false (fun x => decide (judgeTick s x < h.th)) 1024 s
    updHand s h fun x => { x with done := true }

/-- A directory frame (R352): applied at its AT, or on arrival when late; one that names this chip as the owner of another chip's
session is a handover to it (R354). -/
def dirReceive (s : State) (f : DirFrame) : State :=
  if ¬ (inCluster s ∧ decodes s) then s
  else
    let k : LookKey := ⟨f.mode, f.pan, f.addr⟩
    let owner := if f.remove then none else some f.owner
    let s :=
      if ¬ f.remove ∧ f.owner = chipNum s ∧ f.src ≠ chipNum s then
        rsetBit (updSage s fun g => { g with hands := g.hands ++ [{ session := 0, peer := f.src, e := f.at_, out := false, key := k }] })
          Reg.sagStat 15 true
      else s
    if f.at_ < shadow s then evt (dirApply s k owner) Reg.sagEvt 3
    else updSage s fun g => { g with dirPend := g.dirPend ++ [(f.at_, k, owner)] }

/-! ## The boundary (R327) -/

/-- A placement epoch begins, at the boundary that follows the one taken last, whether the timebase has passed it or reaches it now. -/
def epochBoundary (s : State) : State :=
  let e := nextEpoch s s.sage.last
  let s := updSage (reach s e) fun g => { g with last := e }
  let s := decideHands (sageBoundary s e) e
  sagePump (stolon s 0x822)

/-! ## The commands -/

/-- The census completes (R340). -/
def execClusterFormation (census : List CensusChip) (ring : Bool) (s : State) : Host.Outcome State Fault Refusal :=
  .next (formCluster s census ring)

/-- A timing message (R346). -/
def execTimingMessage (off rate step : Int) (s : State) : Host.Outcome State Fault Refusal := .next (timing s off rate step)

/-- A frame's CRC fails at port `n`, or its peer asks for a resend (R342). -/
def execUsethResend (n : Fin 2) (crc : Bool) (s : State) : Host.Outcome State Fault Refusal :=
  .next (if rbit s (Reg.uslnStat n) 2 then bump s (if crc then Reg.uslnNcrc n else Reg.uslnNretry n) else s)

/-- A lane faults (R343). -/
def execUsethLaneFault (n : Fin 2) (lane : Fin 4) (s : State) : Host.Outcome State Fault Refusal := .next (laneFault s n lane)

/-- A port finishes retraining (R343). -/
def execUsethRetrainComplete (n : Fin 2) (s : State) : Host.Outcome State Fault Refusal := .next (retrained s n)

/-- A directory frame arrives (R352). -/
def execDirReceive (f : DirFrame) (s : State) : Host.Outcome State Fault Refusal := .next (dirReceive s f)

/-- E′ of a handover passes (R354). -/
def execHandoverEffect (s : State) : Host.Outcome State Fault Refusal := .next (handEffect s)

/-- The HAND frame of a session is sent (R354). -/
def execHandSend (session : Fin 16384) (s : State) : Host.Outcome State Fault Refusal := .next (handSend s session)

/-- A HAND frame arrives (R354). -/
def execHandReceive (f : HandFrame) (s : State) : Host.Outcome State Fault Refusal := .next (handReceive s f)

/-- The held frames of a session are judged at Th (R354). -/
def execHeldFrameJudgement (session : Fin 16384) (s : State) : Host.Outcome State Fault Refusal := .next (heldJudgement s session)

/-- A placement epoch begins (R327). -/
def execEpochBoundary (s : State) : Host.Outcome State Fault Refusal := .next (epochBoundary s)

end Sys2Proof.Machine
end

