-- ==== Sys2Proof/Machine/Net.lean ====
section
/-!
DEFINITION. The backhaul lanes and the host port's queue (14_backhaul_host R357 to R366, R376, R377): reception and its classes, NETOUT
entries, datagrams, management requests on their way in, records and messages of the host.
-/

namespace Sys2Proof.Machine

/-- Change the backhaul state. -/
def updEth (s : State) (f : EthSt → EthSt) : State := { s with eth := f s.eth }

/-- A big-endian field of a frame. -/
def netNum (d : List Octet) (off n : Nat) : Nat := ofOctetsBE (slice d off n)

/-! ## Datagrams (R362, R363) -/

/-- The sum of 16-bit big-endian units, for the Internet checksum. -/
def netSum : List Octet → Nat
  | a :: b :: r => a.toNat * 256 + b.toNat + netSum r
  | [a] => a.toNat * 256
  | [] => 0

/-- The ones' complement of the folded sum. -/
def netCheck (d : List Octet) : Nat :=
  let fold := fun n => n % 65536 + n / 65536
  65535 - fold (fold (fold (netSum d)))

/-- The MAC of lane `n`, first octet first. -/
def laneMac (s : State) (n : Nat) : List Octet := octetsLE 6 (rgroup s (Reg.ethnMac n) 4)

/-- Words `lo` to `lo + n - 1` of a flow entry as octets. -/
def flowOctets (f : List Word) (lo n : Nat) : List Octet := unpackOctets ((f.drop lo).take n)

/-- A flow is enabled in the table last copied. -/
def flowOn (s : State) (k : Nat) : Bool := bit ((s.eth.flows.getD k []).getD 0 0) 15

/-- The Ethernet frame of a datagram of flow entry `f` (R362, R363), less its FCS. -/
def datagram (s : State) (lane : Nat) (f : List Word) (ident : Nat) (pay : List Octet) : List Octet :=
  let w := fun k => f.getD k 0
  let v6 := bit (w 0) 14
  let alen := if v6 then 16 else 4
  let dip := (flowOctets f 5 8).take alen
  let sip := (flowOctets f 13 8).take alen
  let dscp := field (w 23) 13 8
  let ttl := field (w 23) 7 0
  let ulen := 8 + pay.length
  let ports := octetsBE 2 (w 21).toNat ++ octetsBE 2 (w 22).toNat
  let pseudo := if v6 then sip ++ dip ++ octetsBE 4 ulen ++ [0, 0, 0, 17] else sip ++ dip ++ [0, 17] ++ octetsBE 2 ulen
  let c := netCheck (pseudo ++ ports ++ octetsBE 2 ulen ++ [0, 0] ++ pay)
  let udp := ports ++ octetsBE 2 ulen ++ octetsBE 2 (if c = 0 then 0xFFFF else c) ++ pay
  let ip4 := fun (sum : Nat) => [0x45, BitVec.ofNat 8 (4 * dscp)] ++ octetsBE 2 (20 + ulen) ++ octetsBE 2 (ident % 65536) ++ [0x40, 0x00] ++
    [BitVec.ofNat 8 ttl, 17] ++ octetsBE 2 sum ++ sip ++ dip
  let ip := if v6 then octetsBE 4 (6 * 2 ^ 28 + 4 * dscp * 2 ^ 20) ++ octetsBE 2 ulen ++ [17, BitVec.ofNat 8 ttl] ++ sip ++ dip
    else ip4 (netCheck (ip4 0))
  flowOctets f 2 3 ++ laneMac s lane ++ (if bit (w 0) 13 then [0x81, 0x00] ++ octetsBE 2 (w 1).toNat else []) ++
  (if v6 then [0x86, 0xDD] else [0x08, 0x00]) ++ ip ++ udp

/-- The body of a NETOUT entry: a record as released with its gains and its PSDU, or LEN octets (R360, R362). -/
def netBody (s : State) (form g : Nat) : List Octet :=
  let w := fun k => mget s (granAddr g + k)
  if form = 0 then
    unpackOctets (mgets s (granAddr g) 32) ++
    (if field (w 8) 2 0 = 1 then unpackOctets (mgets s (granAddr g + 48) 16) ++ readData s g (field (w 12) 10 0) else [])
  else readData s g (field (w 5) 10 0)

/-- A frame goes out on a lane with its FCS.  Log 93 (DESIGN CHOICE). -/
def netSend (s : State) (lane : Nat) (d : List Octet) : State :=
  bump { s with out := { s.out with net := s.out.net ++ [(lane, d ++ octetsLE 4 (crc32 d))] } } (Reg.ethnNtx lane)

/-- The transport header and the body of one datagram (R362). -/
def transport (s : State) (form flow npart part dseq tag : Nat) (body : List Octet) : List Octet :=
  [0x51, 0x52, 1, BitVec.ofNat 8 form] ++ octetsLE 2 (chipNum s % 16384) ++ [BitVec.ofNat 8 flow, BitVec.ofNat 8 (npart * 16 + part)] ++
  octetsLE 4 dseq ++ octetsLE 2 body.length ++ octetsLE 2 tag ++ body

/-- Send the datagrams of a RECORD or DATA entry: one, or two where the body exceeds 1,408 octets. -/
def sendFlow (s : State) (lane form flow tag : Nat) (body : List Octet) : State :=
  let f := s.eth.flows.getD flow []
  let n := if body.length ≤ 1408 then 1 else 2
  (List.range n).foldl (fun s p =>
    let q := s.eth.dseq.getD flow 0
    let d := datagram s lane f q (transport s form flow n p q tag (slice body (1408 * p) 1408))
    netSend (updEth s fun e => { e with dseq := e.dseq.set flow (q + 1) }) lane d) s

/-! ## NETOUT (R361, R376) -/

/-- A lane is ON; it has link. -/
def laneOn (s : State) (n : Nat) : Bool := rfld s (Reg.ethnStat n) 1 0 = 2
/-- A lane is ON with link. -/
def laneUp (s : State) (n : Nat) : Bool := laneOn s n && rbit s (Reg.ethnStat n) 2

/-- A field of a NETOUT entry. -/
def NetOut.fld (e : NetOut) (w hi lo : Nat) : Nat := field (e.words.getD w 0) hi lo

/-- LEN in word 5 of the metadata granule. -/
def granLen (s : State) (g : Nat) : Nat := field (mget s (granAddr g + 5)) 10 0

/-- An entry is discarded with BADOUT (R361); the flow matters on a lane only.  Log 67 (DESIGN CHOICE). -/
def badOut (s : State) (ws : List Word) : Bool :=
  let w1 := ws.getD 1 0
  let form := field w1 13 12
  let dest := field w1 15 14
  let len := granLen s (ws.getD 0 0).toNat
  decide (form = 3) || (bit w1 11 && decide (form ≠ 2)) || (decide (form ≤ 1 ∧ dest ≠ 2) && !flowOn s (field w1 3 0)) ||
  (decide (form = 1) && decide (1408 < len)) || (decide (form = 2) && decide (len < 14 ∨ 1518 < len))

/-- BADOUT. -/
def outRefused (s : State) : State := evt (bump s Reg.ethNbadout) Reg.ethEvt 0

/-- The entry at the head of a core's NETOUT is taken: false while the host's queue is full (R376). A fifth word says that
the push passed the granules on.  Log 67 (DESIGN CHOICE). -/
def netTake (s : State) (k : Nat) : Bool × State :=
  match outbound s k 15 with
  | [] => (false, s)
  | ws :: _ =>
    let g := (ws.getD 0 0).toNat
    let from_ := requester s k 15
    let dest := field (ws.getD 1 0) 15 14
    match (if ws.getD 4 0 = 1 then holdOf s g 37 else none) with
    | none => (true, outRefused (takeOut s k 15))
    | some h =>
      if badOut s ws then (true, outRefused (release (takeOut s k 15) h))
      else if dest = 2 then
        if 256 ≤ s.eth.hostq.length then (false, s)
        else
          let s := passHold (takeOut s k 15) g 37
          (true, updEth s fun e => { e with hostq := e.hostq ++ [⟨from_, ws, { h with owner := 37 }⟩] })
      else
        let lane := if dest = 3 then (if laneUp s 0 then 0 else 1) else dest
        let s := takeOut s k 15
        if laneUp s lane then
          let s := passHold s g 37
          (true, updEth s fun e => { e with tx := e.tx.upd lane (· ++ [⟨from_, ws, { h with owner := 37 }⟩]) })
        else (true, bump (release s h) (Reg.ethnNdown lane))

/-- Take what waits in a core's NETOUT, at most `n` entries. -/
def netService (k : Nat) : Nat → State → State
  | 0, s => s
  | n + 1, s =>
    let (more, s) := netTake s k
    if more then netService k n s else s

/-- Take what waits in every core's NETOUT. -/
def netAll (s : State) : State := (List.range 33).foldl (fun s k => netService k 32 s) s

/-- Entries of a lane that have not started are discarded (R358): the one at the head is on the wire.  Log 67 (DESIGN CHOICE). -/
def laneDown (s : State) (n : Nat) (all : Bool) : State :=
  let q := s.eth.tx.nth n []
  let gone := if all then q else q.drop 1
  let s := gone.foldl (fun s e => bump (release s e.hold) (Reg.ethnNdown n)) s
  updEth s fun e => { e with tx := e.tx.put n (if all then [] else q.take 1) }

/-- The lane finishes the entry at its head (R361): its granules return, or a TXTS entry takes them back to the core. -/
def sentHead (s : State) (n ts sub : Nat) : State :=
  match s.eth.tx.nth n [] with
  | [] => s
  | e :: rest =>
    let g := e.hold.gmeta
    let form := e.fld 1 13 12
    let stamp := form = 2 ∧ e.fld 1 11 11 = 1
    if stamp ∧ coreOn s e.core ∧ qDepth 7 ≤ (inbound s e.core 7).length then s
    else
      let body := netBody s form g
      let s := updEth s fun x => { x with tx := x.tx.put n rest }
      let s := if form = 2 then netSend s n body else sendFlow s n form (e.fld 1 3 0) (e.fld 2 15 0) body
      if stamp then
        if coreOn s e.core then
          let s := msets s (granAddr g) (wordsOf 4 ts ++ [w16 sub])
          arrive (passHold s g e.core) e.core 7 [w16 g, w16 (n * 16384 + 0x1000 + body.length % 2048), e.words.getD 2 0, 0]
        else entryLost (release s e.hold) (e.core % 64)
      else release s e.hold

/-! ## Reception (R357, R359, R360) -/

/-- The offset of the network header after at most one VLAN tag, and the EtherType there. -/
def netHead (d : List Octet) : Nat × Nat := if netNum d 12 2 = 0x8100 then (18, netNum d 16 2) else (14, netNum d 12 2)

/-- The UDP header of a frame whose network header stands at `o`: its offset. -/
def udpAt (d : List Octet) (o et : Nat) (plain : Bool) : Option Nat :=
  if et = 0x0800 then
    let ihl := netNum d o 1 % 16
    if netNum d o 1 / 16 = 4 ∧ netNum d (o + 9) 1 = 17 ∧ 5 ≤ ihl ∧ (¬ plain ∨ ihl = 5) then some (o + 4 * ihl) else none
  else if et = 0x86DD ∧ netNum d (o + 6) 1 = 17 then some (o + 40)
  else none

/-- A management request (R359): untagged UDP to `ETH_MPORT` without options; its payload. -/
def mgmtPayload (s : State) (n : Nat) (d : List Octet) : Option (List Octet) :=
  match (if slice d 0 6 = laneMac s n then udpAt d 14 (netNum d 12 2) true else none) with
  | some u => if netNum d (u + 2) 2 = (rget s Reg.ethMport).toNat then some (slice d (u + 8) (netNum d (u + 4) 2 - 8)) else none
  | none => none

/-- A PTP frame (R359). -/
def isPtp (d : List Octet) : Bool :=
  let (o, et) := netHead d
  decide (et = 0x88F7) || match udpAt d o et false with
    | some u => decide (netNum d (u + 2) 2 = 319 ∨ netNum d (u + 2) 2 = 320)
    | none => false

/-- A lane accepts a destination (R359). -/
def laneAccepts (s : State) (n : Nat) (d : List Octet) : Bool :=
  let dst := slice d 0 6
  decide (dst = laneMac s n) || decide (dst = List.replicate 6 0xFF) || decide (dst = [0x01, 0x1B, 0x19, 0, 0, 0]) ||
  decide (dst = [0x01, 0x80, 0xC2, 0, 0, 0x0E]) || (decide ((d.getD 0 0).toNat % 2 = 1) && rbit s (Reg.ethnCtl n) 1)

/-- A PAUSE frame. -/
def isPause (d : List Octet) : Bool := netNum d 12 2 = 0x8808 ∧ netNum d 14 2 = 1

/-- A request is checked on arrival (R364, R365): dropped and counted, or one of at most four that wait.  Log 66 (DESIGN CHOICE). -/
def mgmtArrive (s : State) (lane : Nat) (m : List Octet) : State :=
  let drop := bump s Reg.ethNmrej
  let op := (m.getD 3 0).toNat
  let count := (m.getD 12 0).toNat
  let body := m.take (m.length - 8)
  let head := slice m 0 3 = [0x51, 0x4D, 1] ∧ (op = 1 ∨ op = 2) ∧ 1 ≤ count ∧ count ≤ 128 ∧ slice m 13 3 = [0, 0, 0] ∧
    m.length = 24 + (if op = 2 then 2 * count else 0)
  match mgmtKey s with
  | none => drop
  | some key =>
    if ¬ head then drop
    else if (cmac (key.take 16) body).take 8 ≠ m.drop (m.length - 8) then drop
    else
      let seq := ofOctetsLE (slice m 4 4)
      if seq ≤ rgroup s Reg.ethMseq 2 then drop
      else
        let s := rsetGroup s Reg.ethMseq 2 seq
        if 4 ≤ s.eth.mgmtq.length then bump s Reg.ethNmrej
        else updEth s fun e => { e with mgmtq := e.mgmtq ++ [(m, lane)] }

/-- A frame for a core (R360): granules and a NETIN entry, or it is discarded and counted. -/
def netDeliver (s : State) (n core : Nat) (d : List Octet) (ts sub : Nat) : State :=
  let drop := bump s (Reg.ethnNdrop n)
  if 32 < core ∨ ¬ coreOn s core ∨ qDepth 7 ≤ (inbound s core 7).length then drop
  else
    match reserve s (partFor s (rfld s Reg.ethRxpart 3 0)) ((d.length + 127) / 128) 37 with
    | none => drop
    | some (s, h) =>
      let s := writeMeta s h (wordsOf 4 ts ++ [w16 sub, w16 d.length, w16 n]) []
      arrive (writeData s h d) core 7 [w16 h.gmeta, w16 (n * 16384 + d.length), 0, 0]

/-- A frame arrives on lane `n` with its FCS as its last four octets (R357, R359).  Log 67 (DESIGN CHOICE). -/
def netReceive (s : State) (n : Nat) (frame : List Octet) (ts sub : Nat) : State :=
  if ¬ laneUp s n then s
  else
    let d := frame.take (frame.length - 4)
    if frame.length < 64 ∨ 1522 < frame.length ∨ octetsLE 4 (crc32 d) ≠ frame.drop (frame.length - 4) then bump s (Reg.ethnNbad n)
    else if isPause d then s
    else
      let s := bump s (Reg.ethnNrx n)
      if ¬ laneAccepts s n d then s
      else
        match mgmtPayload s n d with
        | some m => mgmtArrive s n m
        | none =>
          if isPtp d then netDeliver s n (rfld s Reg.ethRxcore 13 8) d ts sub
          else netDeliver s n (rfld s Reg.ethRxcore 5 0) d ts sub

/-! ## Registers of ETH -/

/-- The flow table is copied from shared program memory; every DSEQ restarts (R363). -/
def flowLoad (s : State) : State :=
  let b := rgroup s Reg.ethFlowbase 2
  let s := updEth s fun e => { e with flows := (List.range 16).map fun k => mgets s (b + 32 * k) 32, dseq := List.replicate 16 0 }
  rsetBit s Reg.ethStat 0 true

/-- A write to `ETH_CTL`. -/
def ethCtlWrite (v : Word) (s : State) : State :=
  let s :=
    if bit v 0 then
      ([Reg.ethNbadout, Reg.ethNmrej] ++ [0, 1].flatMap fun n => [Reg.ethnNtx n, Reg.ethnNrx n, Reg.ethnNbad n, Reg.ethnNdrop n, Reg.ethnNdown n]).foldl
        (fun s a => rset s a 0) s
    else s
  if bit v 1 then flowLoad s else s

/-- A lane's link comes or goes while it is ON (R358). -/
def linkChange (s : State) (n : Nat) (up : Bool) : State :=
  if ¬ laneOn s n then s
  else
    let s := rsetBit s (Reg.ethnStat n) 2 up
    if up then mgmtEvent s else laneDown s n false

/-! ## The host port's queue and granules (R376, R377) -/

/-- A read of `HSP_RXPOP` word 0 (R376): the head entry leaves, and words 1 to 3 are latched for the reader. -/
def rxPop (i : Initiator) (s : State) : Word × State :=
  match s.eth.hostq with
  | [] => (0xFFFF, latchWords s i Reg.hspRxpop [0xFFFF, 0, 0, 0])
  | e :: rest =>
    let ws : List Word := [w16 e.hold.gmeta, w16 (e.fld 1 13 12), e.words.getD 2 0, 0]
    let s := latchWords (passHold s e.hold.gmeta 33) i Reg.hspRxpop ws
    (ws.getD 0 0, netAll (updEth s fun x => { x with hostq := rest }))

/-- A write to `HSP_RXRET` (R376). -/
def rxRet (v : Word) (s : State) : State :=
  match holdOf s v.toNat 33 with
  | some h => release s h
  | none => evt s Reg.hspEvt 2

/-- A write to `HSP_HRESV` (R377).  Log 67 (DESIGN CHOICE). -/
def hostReserve (v : Word) (s : State) : State :=
  let len := field v 10 0
  if len = 0 ∨ 2045 < len then evt (rset s Reg.hspHgran 0xFFFF) Reg.hspEvt 5
  else
    match reserve s (partFor s (rfld s Reg.hspCtl 9 6)) ((len + 4 + 127) / 128) 33 with
    | some (s, h) =>
      let idx := (List.range 16).map fun j => match h.data[j]? with | some g => w16 g | none => 0xFFFF
      rset (storeRows s (granAddr h.gmeta + 32) idx) Reg.hspHgran (w16 h.gmeta)
    | none => evt (rset s Reg.hspHgran 0xFFFF) Reg.hspEvt 3

/-- A write to `HSP_HSEND` (R377); a core that does not work holds no credit.  Log 67 (DESIGN CHOICE). -/
def hostSend (v : Word) (s : State) : State :=
  let g := v.toNat
  match holdOf s g 33 with
  | none => evt s Reg.hspEvt 2
  | some _ =>
    let k := rfld s Reg.hspCtl 5 0
    if ¬ coreOn s k ∨ qDepth 7 ≤ (inbound s k 7).length then evt s Reg.hspEvt 4
    else arrive (passHold s g k) k 7 [v, w16 (0x8000 + 0x2000 + granLen s g), 0, 0]

/-- A write to a register of the HSP block. -/
def hspWrite (a : Nat) (v : Word) (s : State) : State :=
  if a = Reg.hspRxret then rxRet v s
  else if a = Reg.hspHresv then hostReserve v s
  else if a = Reg.hspHsend then hostSend v s
  else rwrite s a v

/-! ## The commands -/

/-- A frame arrives on a lane (R357 to R360). -/
def execEthFrameReceive (n : Fin 2) (frame : List Octet) (ts : Nat) (sub : Fin 16) (s : State) : Host.Outcome State Fault Refusal :=
  .next (netReceive s n frame ts sub)

/-- A lane gains or loses link (R358). -/
def execEthLinkChange (n : Fin 2) (up : Bool) (s : State) : Host.Outcome State Fault Refusal := .next (linkChange s n up)

/-- A lane has sent an entry (R361). -/
def execDatagramSent (n : Fin 2) (ts : Nat) (sub : Fin 16) (s : State) : Host.Outcome State Fault Refusal := .next (sentHead s n ts sub)

/-- A write to `ETH_CTL` (R363). -/
def execFlowload (_i : Initiator) (v : Word) (s : State) : Host.Outcome State Fault Refusal := .next (ethCtlWrite v s)

/-- A read of `HSP_RXPOP` word 0 (R376). -/
def execRxpop (i : Initiator) (s : State) : Host.Outcome State Fault Refusal :=
  .next (let (v, s) := rxPop i s; { s with out := { s.out with read := v } })

/-- A write to `HSP_RXRET` (R376). -/
def execRxret (_i : Initiator) (v : Word) (s : State) : Host.Outcome State Fault Refusal := .next (hspWrite Reg.hspRxret v s)

/-- A write to `HSP_HRESV` (R377). -/
def execHresv (_i : Initiator) (v : Word) (s : State) : Host.Outcome State Fault Refusal := .next (hspWrite Reg.hspHresv v s)

/-- A write to `HSP_HSEND` (R377). -/
def execHsend (_i : Initiator) (v : Word) (s : State) : Host.Outcome State Fault Refusal := .next (hspWrite Reg.hspHsend v s)

end Sys2Proof.Machine
end

