-- ==== Sys2Proof/Machine/Reset.lean ====
section
/-!
DEFINITION. Chip reset, RETAIN, the watchdog, the hold point's register and the READY flag (02_modes_and_start R58,
R61 to R68, R71; 20_address_map R482; 21_electrical R493).
-/

namespace Sys2Proof.Machine

/-- The registers that a chip reset keeps (R482): the power-on reset domain and the Rosemary domain.  Log 22 (DEDUCED). -/
def keptByReset (a : Nat) : Bool := a = Reg.sysBootcfg || a = Reg.sysRstcause || a / 0x10000 = 0x1005

/-- A value of a fuse array that programming of `new` over `old` has left unfinished: each bit of `new` blown or not.  Log 61 (DESIGN CHOICE). -/
def partBlown (s : State) (k old new : Nat) : Nat := old ||| (new &&& Config.openValue 260 (s.free + k))

/-- Fuse programming that a chip reset or a change to RETAIN stops (10 R260): MSG stays between its old value and CTR,
and the type's own fuses are programmed in part or not at all.  Log 61 (DESIGN CHOICE). -/
def fuseInterrupt (s : State) : State :=
  match s.key.msg.bind MsgJob.passed with
  | none => s
  | some m =>
    let ctr := ofOctetsLE (slice m 16 4)
    let old := s.fuses.msg
    let reach2 := Config.openValue 260 s.free % 2 = 1
    let f := { s.fuses with msg := if reach2 then ctr else old + Config.openValue 260 (s.free + 1) % (ctr - old + 1) }
    let typ := (m.getD 5 0).toNat
    let f :=
      if ¬ reach2 then f
      else if typ = 2 then { f with owner := octetsBE 64 (partBlown s 2 0 (ofOctetsBE (slice m 24 64))) }
      else if typ = 3 then
        { f with lock := if (m.getD 24 0).toNat % 2 ≠ f.lock % 2 ∧ Config.openValue 260 (s.free + 2) % 2 = 1 then f.lock + 1 else f.lock }
      else if typ = 4 then
        match [1, 2, 3].find? fun k => (f.profiles.getD k []).all (· = 0) with
        | some k =>
          let ws := (packOctets (slice m 24 404)).zipIdx.map fun e => if e.2 = 0 then 0 else w16 (partBlown s (2 + e.2) 0 e.1.toNat)
          { f with profiles := f.profiles.set k ws }
        | none => f
      else f
    bumpFree { s with fuses := f } 256

/-- Stop what a chip reset or a change to RETAIN interrupts in flash and fuses. -/
def interruptStores (s : State) : State :=
  let s := fuseInterrupt (xspInterrupt s)
  if rfld s Reg.updStat 2 0 = 1 then breakTarget s else s

/-- A latched or staged word of a group in the Rosemary block, which a chip reset does not reach (R9, R63); the tag's own
set ends with its field session.  Log 15 (DESIGN CHOICE). -/
def rosemaryWord (e : (Nat × Nat) × Word) : Bool := decide (e.1.2 / 0x10000 = 0x1005) && decide (e.1.1 ≠ initIndex .tag)

/-- What outlives a chip reset (R63, R482): the queue of commands, the Rosemary domain, fuses, the tag store and its
field, the flash, the pins and supplies.  A power-on reset also resets the power-on reset domain and arms the load of
`SYS_BOOTCFG` (R71).  Log 22 (DEDUCED). -/
def freshChip (s : State) (por : Bool) : State :=
  let s := interruptStores s
  let fresh : State := {}
  { fresh with
    pending := s.pending
    regs := s.regs.filter fun e => if por then decide (e.1 / 0x10000 = 0x1005) else keptByReset e.1
    latches := s.latches.filter rosemaryWord
    staged := s.staged.filter rosemaryWord
    fuses := s.fuses
    rtc := { s.rtc with running := false }
    tag := { s.tag with active := 0, app := false, file := 0, buf := none, waiting := none, due := false, queue := [] }
    xsp := { fresh.xsp with flash := s.xsp.flash, mib := s.xsp.mib, slow := s.xsp.slow }
    power := { s.power with quiet := true, pllHold := false, relock := false, lost := if por then false else s.power.lost }
    boot := { fresh.boot with armed := por || s.boot.armed, step := if s.power.resetLow then 0 else 1 }
    free := s.free
    out := { fresh.out with wakeN := s.out.wakeN } }

/-- The watchdog count has reached `SYS_WDPER`, where 0 acts as 1, and no restart of the count waits (R68).  Log 23 (DESIGN CHOICE). -/
def watchdogDue (s : State) : Bool :=
  rbit s Reg.sysWdctl 0 && decide (max 1 (rget s Reg.sysWdper).toNat ≤ s.wdog.count) && !s.wdog.restart

/-- A chip reset other than a power-on reset, which sets its own cause bit, and that of a watchdog whose count has reached its
period in the same cycle (R62, R67); without core power there is none.  Log 22 (DEDUCED), 23 (DESIGN CHOICE). -/
def chipReset (s : State) (cause : Nat) : State :=
  if s.power.lost then s
  else
    let due := if watchdogDue s then bitMask 2 else 0
    let s := freshChip s false
    rset s Reg.sysRstcause (rget s Reg.sysRstcause ||| bitMask cause ||| due)

/-- A power-on reset (R62, R67, R413, R451). -/
def powerOnReset (s : State) : State :=
  let s := rtcToMain (freshChip s true)
  if s.tag.field then s else updTag s scanMarkers

/-- The change to RETAIN (R58, R413): the Rosemary interface locks and switches to VBAK, every output is quiet and the
core loses power; until it does, `SYS_MODE.MODE` reads 7 and the SYS block answers.  Log 22 (DEDUCED). -/
def enterRetain (s : State) : State :=
  if s.power.lost then s
  else
    let s := interruptStores (rtcToVbak (rtcLock s))
    let m := modeOf s
    let fresh : State := {}
    let t : State :=
      { fresh with
        pending := s.pending
        regs := s.regs.filter fun e => decide (e.1 / 0x10000 = 0x1005) || decide (e.1 / 0x10000 = 0x1000)
        latches := s.latches.filter fun e => decide (e.1.2 / 0x10000 = 0x1005)
        staged := s.staged.filter fun e => decide (e.1.2 / 0x10000 = 0x1005)
        fence := s.fence
        fuses := s.fuses
        rtc := s.rtc
        tag := { s.tag with buf := none, queue := s.tag.queue.filter fun c => c.src = 0 }
        xsp := { fresh.xsp with flash := s.xsp.flash, mib := s.xsp.mib, slow := s.xsp.slow }
        power := { s.power with quiet := true, lost := true }
        boot := s.boot
        free := s.free
        out := { fresh.out with wakeN := s.out.wakeN, tag := s.out.tag } }
    rset t Reg.sysMode (w16 (7 + 16 * m + 256 * 7))

/-! ## The watchdog and the single registers of SYS -/

/-- A write to `SYS_WDCTL` (R68): EN sets and only a reset clears it; DBGSTOP is ignored once EN is set. -/
def wdctlWrite (v : Word) (s : State) : State :=
  if rbit s Reg.sysWdctl 0 then s
  else
    let s := rset s Reg.sysWdctl (v &&& 3)
    if bit v 0 then { s with wdog := { s.wdog with restart := true } } else s

/-- A write to `SYS_WDKICK` (R68). -/
def wdkickWrite (lvl : Nat) (v : Word) (s : State) : State :=
  if lvl = 0 ∧ v = 0xB00C ∧ rbit s Reg.sysWdctl 0 then { s with wdog := { s.wdog with restart := true } } else s

/-- A write to `SYS_SVCREADY` (R61, R483): READY first set after step 9 makes STEP 10. -/
def svcreadyWrite (lvl : Nat) (v : Word) (s : State) : State :=
  if lvl ≤ 1 ∧ bit v 0 then
    let s := rset s Reg.sysSvcready 1
    if s.boot.step = 9 then { s with boot := { s.boot with step := 10 } } else s
  else s

/-- PROVISION is entered in place of the hold point, with an error code (R72).  Log 19 (DEDUCED). -/
def enterProvision (s : State) (err : Nat) : State :=
  let s := fenceCommit (fenceStage s provisionFence)
  let s := rsetBit (rsetFld s Reg.sysBootstat 11 8 err) Reg.sysBootstat 5 false
  let s := rset s Reg.sysMode (w16 (1 + 256))
  { s with boot := { s.boot with step := 6, failed := true } }

/-- Boot ROM leaves the hold point (R71, R72): it reads MODE and STARTCAL once.  Log 19 (DEDUCED). -/
def leaveHold (s : State) : State :=
  let s := rsetBit s Reg.sysBootstat 5 false
  let m := rfld s Reg.sysBootcfg 2 0
  if m = 0 ∨ m = 7 then enterProvision s 4
  else { s with boot := { s.boot with target := m, startcal := rbit s Reg.sysBootcfg 3 } }

/-- A write to `SYS_BOOTGO` (R71). -/
def bootgoWrite (lvl : Nat) (v : Word) (s : State) : State :=
  if (lvl = 0 ∨ lvl = 2) ∧ v = 0x60D0 ∧ rbit s Reg.sysBootstat 5 ∧ modeOf s = 0 then leaveHold s else s

/-- A write to `SYS_BOOTCFG`, ignored while its load is armed; boot ROM waits at the hold point only while HOLD = 1 (R71). -/
def bootcfgWrite (lvl : Nat) (v : Word) (s : State) : State :=
  if (lvl = 0 ∨ lvl = 2) ∧ ¬ s.boot.armed then
    let s := rwrite s Reg.sysBootcfg v
    if rbit s Reg.sysBootstat 5 ∧ modeOf s = 0 ∧ ¬ bit v 4 then leaveHold s else s
  else s

/-- A write to `SYS_RSTCTL` (R62). -/
def rstctlWrite (lvl : Nat) (v : Word) (s : State) : State :=
  if (lvl = 0 ∨ lvl = 2) ∧ v = 0x5A3C then chipReset s 3 else s

/-- A write to a register of the SYS block other than `SYS_MODEREQ`. -/
def sysWrite (lvl a : Nat) (v : Word) (s : State) : State :=
  if a = Reg.sysBootcfg then bootcfgWrite lvl v s
  else if a = Reg.sysBootgo then bootgoWrite lvl v s
  else if a = Reg.sysRstctl then rstctlWrite lvl v s
  else if a = Reg.sysWdctl then wdctlWrite v s
  else if a = Reg.sysWdper then (if rbit s Reg.sysWdctl 0 then s else rset s a v)
  else if a = Reg.sysWdkick then wdkickWrite lvl v s
  else if a = Reg.sysSvcready then svcreadyWrite lvl v s
  else rwrite s a v

/-! ## The commands -/

/-- The main supply has been valid for 2.0 ms (R62, R67). -/
def execPowerOnReset (s : State) : Host.Outcome State Fault Refusal := .next (powerOnReset s)

/-- RESET_N is low for long enough (R65): the reset lasts while it is; in RETAIN it is ignored. -/
def execExternalReset (s : State) : Host.Outcome State Fault Refusal :=
  .next (if s.power.lost then s else chipReset { s with power := { s.power with resetLow := true } } 1)

/-- RESET_N rises: boot starts from step 1 (R65, R69). -/
def execResetRelease (s : State) : Host.Outcome State Fault Refusal :=
  .next (
    if s.power.resetLow then
      let s := { s with power := { s.power with resetLow := false } }
      if s.power.lost then s else { s with boot := { s.boot with step := 1 } }
    else s)

/-- The watchdog count reaches `SYS_WDPER`; 0 acts as 1 (R68).  Log 23 (DESIGN CHOICE). -/
def execWatchdogReset (s : State) : Host.Outcome State Fault Refusal := .next (if watchdogDue s then chipReset s 2 else s)

/-- A write to `SYS_RSTCTL` (R62). -/
def execSoftwareReset (i : Initiator) (v : Word) (s : State) : Host.Outcome State Fault Refusal :=
  .next (sysWrite (levelOf s i) Reg.sysRstctl v s)

/-- The system-reset instruction of the debug port (R62).  Log 83 (DESIGN CHOICE). -/
def execDebugReset (s : State) : Host.Outcome State Fault Refusal := .next (chipReset s 4)

/-- A write to `SYS_WDCTL` (R68). -/
def execWatchdogEnable (i : Initiator) (v : Word) (s : State) : Host.Outcome State Fault Refusal :=
  .next (sysWrite (levelOf s i) Reg.sysWdctl v s)

/-- A write to `SYS_WDKICK` (R68). -/
def execWatchdogKick (i : Initiator) (v : Word) (s : State) : Host.Outcome State Fault Refusal :=
  .next (sysWrite (levelOf s i) Reg.sysWdkick v s)

/-- A write to `SYS_SVCREADY` (R61). -/
def execServiceReady (i : Initiator) (v : Word) (s : State) : Host.Outcome State Fault Refusal :=
  .next (sysWrite (levelOf s i) Reg.sysSvcready v s)

/-- A write to `SYS_BOOTGO` (R71). -/
def execHoldPointRelease (i : Initiator) (v : Word) (s : State) : Host.Outcome State Fault Refusal :=
  .next (sysWrite (levelOf s i) Reg.sysBootgo v s)

/-- VIO falls below its warning threshold (R58, R413).  Log 72 (DESIGN CHOICE), 99 (DESIGN CHOICE). -/
def execVioWarning (s : State) : Host.Outcome State Fault Refusal := .next (enterRetain s)

/-- VCORE leaves its window, or VIO rises above 1.950 V, for 1 µs or longer (R493).  Log 72 (DESIGN CHOICE). -/
def execSupplyWindowExit (s : State) : Host.Outcome State Fault Refusal := .next (enterRetain s)

end Sys2Proof.Machine
end

