-- ==== Sys2Proof/Machine/Head.lean ====
section
/-!
DEFINITION. Aerial fault state machines and the HEADn outputs (04_calibration_regulatory R124 to R128).
-/

namespace Sys2Proof.Machine

/-- STATE of a port's aerial fault machine: 0 OK, 1 WARN, 2 FAULT, 3 CHECK. -/
def aflt (s : State) (p : Nat) : Nat := rfld s (Reg.hedAflt p) 1 0

/-- `PRTp_STAT.FLT` of a sheaf's ports follows their fault states and the head output (R126, R128). -/
def fltRefresh (s : State) (n : Nat) : State :=
  (portsOf n).foldl (fun s p => rsetBit s (Reg.prtStat p) 2 (decide (aflt s p = 2) || headBlocks s n)) s

/-- Entry into FAULT is an edge source and a Stolon event (17 R424). -/
def afltEvent (s : State) (p : Nat) : State :=
  let n := 48 + p / 16
  let s := edgeOccur (eventSettle s) n
  mgmtEvent (chPulse s ((List.range 128).filter fun c => chEnabled s c && rfld s (Reg.stlSrc c) 11 0 = 16 * n + p % 16))

/-- The machine of a port enters a state that applies to transmissions from `from5` on (R125, R126). -/
def setAflt (s : State) (p st cause from5 : Nat) : State :=
  let old := aflt s p
  let s := rset s (Reg.hedAflt p) (w16 (4 * cause + st))
  let now5 := 5 * s.time.now
  let s := s.updPort p fun q => { q with
    okRun := 0, badRun := 0
    faultFrom := (st, from5) :: (q.faultFrom.takeWhile (fun e => decide (now5 < e.2)) ++ (q.faultFrom.dropWhile (fun e => decide (now5 < e.2))).take 1) }
  let s := fltRefresh s (sheafOf p)
  if st = 2 ∧ old ≠ 2 then afltEvent s p else s

/-- The warning threshold: values below 0x0C act as 0x0C. -/
def rlWarn (s : State) : Int := max 12 (rfld s Reg.hedRlwarn 7 0)

/-- A measurement of return loss `rl`, in 0.25 dB units, by the transmission that ended at `e5` (R125, R126). -/
def aerialMeasure (s : State) (p : Nat) (rl : Int) (positive : Bool) (e5 : Nat) : State :=
  let st := aflt s p
  let at_ := e5 + 61440
  let cause := if positive then 1 else 2
  let bad := if rl < 12 then (s.port p).badRun + 1 else 0
  if st = 3 then
    if rlWarn s ≤ rl then setAflt s p 0 0 at_
    else if 12 ≤ rl then setAflt s p 1 0 at_
    else setAflt s p 2 cause at_
  else if st = 2 then s
  else if bad ≥ 2 then setAflt s p 2 cause at_
  else if st = 0 then
    if rl < rlWarn s then (setAflt s p 1 0 at_).updPort p fun q => { q with badRun := bad } else s
  else
    let ok := if rlWarn s + 4 ≤ rl then (s.port p).okRun + 1 else 0
    if ok ≥ 4 then setAflt s p 0 0 at_ else s.updPort p fun q => { q with badRun := bad, okRun := ok }

/-- Ball DC of 1.0 V or more in magnitude for 10 µs: FAULT with cause DC from any state, at once (R125). -/
def ballFault (s : State) (p : Nat) (v : Word) : State :=
  let s := rset s (Reg.hedBalldc p) v
  if 100 ≤ v.toInt.natAbs then setAflt s p 2 3 (5 * s.time.now) else s

/-- Ball DC below 0.5 V for 100 ms ends a DC fault (R125). -/
def ballClear (s : State) (p : Nat) (v : Word) : State :=
  let s := rset s (Reg.hedBalldc p) v
  if v.toInt.natAbs < 50 ∧ aflt s p = 2 ∧ rfld s (Reg.hedAflt p) 3 2 = 3 then setAflt s p 3 0 (5 * s.time.now) else s

/-- A write to `HEDp_AFCLR` (R125). -/
def afclrWrite (p : Nat) (v : Word) (s : State) : State :=
  let c := rfld s (Reg.hedAflt p) 3 2
  if v = 1 ∧ aflt s p = 2 ∧ (c = 1 ∨ c = 2) then setAflt s p 3 0 (5 * s.time.now) else s

/-! ## HEADn outputs (R127, R128) -/

/-- STATE of an output. -/
def hedState (s : State) (n : Nat) : Nat := stateOf s (.hed (finSheaf n))

/-- The output is driven: STARTING or ON, once the boot sequence has passed step 7 (02 R64). -/
def hedDriven (s : State) (n : Nat) : Bool := (hedState s n = 1 ∨ hedState s n = 2) && !s.power.quiet

/-- A hardware stop of an output. -/
def hedStop (s : State) (n : Nat) : State := drainState s (.hed (finSheaf n))

/-- Set an event of an output and stop it. -/
def hedFail (s : State) (n b : Nat) : State := fltRefresh (hedStop (evt s (Reg.hedEvt n) b) n) n

/-- The set voltage plus 0.5 V, in units of 10 mV. -/
def hedNeeds (s : State) (n : Nat) : Int := if rbit s (Reg.hedCtl n) 1 then 1250 else 550

/-- VHEAD is measured: a value the specification cannot fix.  Log 36 (DESIGN CHOICE). -/
def vheadMeasure (s : State) : State :=
  let v := Config.supplyReading s.free
  let s := bumpFree (rset s Reg.hedVhead v)
  rsetBit s Reg.hedGstat 0 (decide (500 ≤ v.toInt ∧ v.toInt ≤ 1600))

/-- The start check of an output (R127): VHEAD reversed, or below the set voltage plus 0.5 V, fails it. -/
def hedStartCheck (s : State) (n : Nat) : State :=
  let s := if rbit s Reg.hedGstat 1 then s else vheadMeasure s
  if rbit s Reg.hedGstat 1 ∨ (rget s Reg.hedVhead).toInt < hedNeeds s n then hedStop (evt s (Reg.hedEvt n) 3) n else s

/-- A write to `HEDn_EVT` or `HEDn_CTL` may end or begin an exclusion (R128). -/
def hedWrite (a n : Nat) (v : Word) (s : State) : State := fltRefresh (rwrite s a v) n

/-! ## The commands -/

/-- Ball DC fault of a port. -/
def execBallDcFault (p : Fin 64) (v : Word) (s : State) : Host.Outcome State Fault Refusal := .next (ballFault s p v)

/-- The end of a ball DC fault. -/
def execBallDcClear (p : Fin 64) (v : Word) (s : State) : Host.Outcome State Fault Refusal := .next (ballClear s p v)

/-- A write to `HEDp_AFCLR`. -/
def execAfclr (_i : Initiator) (p : Fin 64) (v : Word) (s : State) : Host.Outcome State Fault Refusal := .next (afclrWrite p v s)

/-- An output reaches its current limit and is held at it (R127). -/
def execHeadCurrentLimit (n : Fin 8) (s : State) : Host.Outcome State Fault Refusal :=
  .next (if hedDriven s n then rsetBit s (Reg.hedStat n) 3 true else s)

/-- The load falls below the limit before 1.0 ms has passed: LIMIT clears. -/
def execHeadLimitRelease (n : Fin 8) (s : State) : Host.Outcome State Fault Refusal :=
  .next (rsetBit s (Reg.hedStat n) 3 false)

/-- At the limit for 1.0 ms: a short is declared and the output stops (R127). -/
def execHeadShort (n : Fin 8) (s : State) : Host.Outcome State Fault Refusal :=
  .next (if hedDriven s n ∧ rbit s (Reg.hedStat n) 3 then hedFail s n 0 else s)

/-- An overload over 100 ms in ON stops the output (R127). -/
def execHeadOverload (n : Fin 8) (s : State) : Host.Outcome State Fault Refusal :=
  .next (if hedState s n = 2 then hedFail s n 4 else s)

/-- Below 2 mA for 10 ms in ON: the output is open and stays on (R127, R128). -/
def execHeadOpen (n : Fin 8) (s : State) : Host.Outcome State Fault Refusal :=
  .next (if hedState s n = 2 then fltRefresh (rsetBit (evt s (Reg.hedEvt n) 1) (Reg.hedStat n) 2 true) n else s)

/-- 4 mA or more for 10 ms: OPENNOW clears (R127). -/
def execHeadOpenClear (n : Fin 8) (s : State) : Host.Outcome State Fault Refusal :=
  .next (fltRefresh (rsetBit s (Reg.hedStat n) 2 false) n)

/-- A back-driven output is isolated and stopped (R127); of a block that is OFF the condition changes nothing, which is the model's
choice: log 36 (DESIGN CHOICE). -/
def execHeadBackdrive (n : Fin 8) (s : State) : Host.Outcome State Fault Refusal :=
  .next (if hedState s n = 0 then s else hedFail s n 2)

/-- VHEAD below −0.5 V isolates every output and stops each running one (R127). -/
def execVheadReversed (v : Word) (s : State) : Host.Outcome State Fault Refusal :=
  .next (
    if v.toInt < -50 then
      let s := rset s Reg.hedVhead v
      let s := rsetFld s Reg.hedGstat 1 0 2
      (List.range 8).foldl (fun s n => if hedDriven s n then hedStop s n else s) s
    else s)

/-- VHEAD comes back to −0.5 V or above: VREV clears and the supply is measured again (R127). -/
def execVheadReversalEnd (s : State) : Host.Outcome State Fault Refusal :=
  .next (if rbit s Reg.hedGstat 1 then vheadMeasure (rsetBit s Reg.hedGstat 1 false) else s)

end Sys2Proof.Machine
end

