-- ==== Sys2Proof/Machine/TxPath.lean ====
section
/-!
DEFINITION. A sheaf's transmissions, turnarounds and pre-compensation, and the starts, stops and drains of sheaves and
ports (03_ports_and_sheaves R86 to R104; 01_architecture R38; 21_electrical R496).
-/

namespace Sys2Proof.Machine

/-! ## Transmission commands (R87) -/

/-- Some stream lies more than 6.0 MHz from the unnudged LO (R87). -/
def outOfRange (s : State) (n : Nat) (c : TxCmd) : Bool :=
  c.streams.any fun st => decide (6000000 * hz < (st.1 + st.2 - sheafLo s n).natAbs)

/-- The sheaf takes a transmission command at all: it is ON, locked or to be locked again when a VCOB calibration has ended before T,
and REFCLK is present (R38, R92, R102, 04 R120).  Log 27 (DESIGN CHOICE). -/
def takesTx (s : State) (n : Nat) (c : TxCmd) : Bool :=
  decide (shfState s n = 2) && (rbit s (Reg.shfStat n) 2 || (vcobUntil s n).any fun e => decide (5 * e ≤ c.t5)) &&
  !s.power.refLost && !s.power.relock

/-- The transmissions accepted and not yet ended. -/
def liveTx (s : State) (n : Nat) : List TxCmd := (s.sheaf n).onAir.toList ++ (s.sheaf n).accepted

/-- The `SHFs_EVT` bits that a command meets (R87, R496).  Log 28 (DEDUCED). -/
def txCases (s : State) (n : Nat) (c : TxCmd) : Word :=
  (if c.t5 < 5 * s.time.now + turn5 then bitMask 4 else 0) |||
  (if (liveTx s n).any (fun a => decide (c.t5 < a.e5)) then bitMask 3 else 0) |||
  (if outOfRange s n c || s.power.vrfLow then bitMask 5 else 0)

/-- Insert by start instant. -/
def insertTx (c : TxCmd) : List TxCmd → List TxCmd
  | [] => [c]
  | a :: r => if c.t5 < a.t5 then c :: a :: r else a :: insertTx c r

/-- A transmission that the acknowledgement engine secures: late, or with no engine left to secure it, it sets `SES_EVT.SECLATE`
(09 R245). -/
def secLate (s : State) (c : TxCmd) : Bool :=
  (decide (c.t5 < 5 * s.time.now + turn5) || ackDead s) &&
  (match c.for_ with
   | .request id _ => (reqOf s id).any (tschNeeds s)
   | _ => false)

/-- Judge the oldest command waiting at a sheaf's scheduler (R87). -/
def txCommand (s : State) (n : Nat) : State :=
  match (s.sheaf n).cmds with
  | [] => s
  | c :: r =>
    let s := s.updSheaf n fun h => { h with cmds := r }
    let late := secLate s c
    let s := if late then evt s Reg.sesEvt 7 else s
    if ¬ takesTx s n c ∨ (late ∧ ackDead s) then txRefused s c.for_
    else if txCases s n c = 0 then s.updSheaf n fun h => { h with accepted := insertTx c h.accepted }
    else txRefused (setEvt s (Reg.shfEvt n) (txCases s n c)) c.for_

/-- Refuse what is accepted and not yet started, and what waits (R102).  Log 27 (DESIGN CHOICE). -/
def refuseAll (s : State) (n : Nat) : State :=
  let out := (s.sheaf n).accepted ++ (s.sheaf n).cmds
  let s := s.updSheaf n fun h => { h with accepted := [], cmds := [] }
  out.foldl (fun s c => txRefused s c.for_) s

/-! ## Turnarounds (R93 to R98) -/

/-- A transmission continues the run of the one before: it starts less than 80.0 µs after its end (R96). -/
def continues (s : State) (n : Nat) (c : TxCmd) : Bool := decide (c.t5 < (s.sheaf n).resume5 + turn5)

/-- The synthesiser pre-compensates a run's first transmission (R97). -/
def mayNudge (s : State) (n : Nat) (c : TxCmd) : Option Int :=
  match c.streams with
  | [(_, df)] => if rbit s (Reg.shfCtl n) 2 ∧ df.natAbs ≤ 250000 * hz then some df else none
  | _ => none

/-- The digital oscillator's word for each stream of a command at T, in units of 3,750/4,096 Hz (0.92 Hz), to nearest (R97): none of
Δf while the run's first transmission is nudged, all of it without a nudge, and in a continued run what the nudge leaves.
Log 35 (DESIGN CHOICE). -/
def oscWords (s : State) (n : Nat) (c : TxCmd) : List Int :=
  if (s.sheaf n).nudged ∧ ¬ continues s n c then c.streams.map fun _ => 0
  else c.streams.map fun st => divRound (st.2 - nudgeFreq s n) 90000

/-- What running in the receive stream ends when blanking begins (R95, 04 R119, 06 R162). -/
def blankFrom (s : State) (n b5 : Nat) : State :=
  let s := spikeBlank (loopAbandon (calAbandon s n) n) n b5
  (setBlank s n true).updSheaf n fun h => { h with capture := none }

/-- Instant B of the next accepted transmission (R93, R96 to R98). -/
def blankingStart (s : State) (n : Nat) : State :=
  match (s.sheaf n).accepted with
  | [] => s
  | c :: _ =>
    if (s.sheaf n).onAir.isSome ∨ (s.sheaf n).ready then s
    else
      let b5 := c.t5 - turn5
      let s := reach s ((b5 + 4) / 5)
      let run := continues s n c
      let s := blankFrom s n b5
      let s := match run, mayNudge s n c with
        | false, some df => setNudge s n df true
        | _, _ => s
      s.updSheaf n fun h => { h with ready := true }

/-- The powers of a command as they stand at T: a port that no longer serves has zero weight, and one in CHECK is capped at +0.0 dBm
(R103, R104, R112, 04 R126). -/
def powersAt (s : State) (n : Nat) (c : TxCmd) : List (Option Int) :=
  (List.range 8).map fun k =>
    if portServes s (8 * n + k) c.t5 && !portHeld s (8 * n + k) then (c.power.getD k none).map fun w => if faultAt s (8 * n + k) c.t5 = 3 then min w 0 else w
    else none

/-- Instant T (R86): the transmission is on air.  Log 93 (DESIGN CHOICE). -/
def txStart (s : State) (n : Nat) : State :=
  match (s.sheaf n).accepted with
  | [] => s
  | c :: r =>
    if ¬ (s.sheaf n).ready then s
    else
      let s := reach s ((c.t5 + 4) / 5)
      let c := { c with power := powersAt s n c, osc := oscWords s n c }
      let s := s.updSheaf n fun h => { h with accepted := r, onAir := some c, ready := false }
      let s := bump (rsetBit s (Reg.shfStat n) 3 true) (Reg.shfTxcnt n)
      let s := (List.range 8).foldl (fun s k =>
        if (c.power.getD k none).isSome then tunePort (rsetBit s (Reg.prtStat (8 * n + k)) 4 true) (8 * n + k) else s) s
      let s := match c.for_ with
        | .ack _ => bump s Reg.lnkNack
        | _ => s
      stolon { s with out := { s.out with txs := s.out.txs ++ [(n, c)] } } (0x824 + n)

/-- The mismatch measurement of a port over a transmission at +0 dBm or more that ended at `e5` (R100, R125).  A return loss below
0 or above 63.75 dB shows as 0x00 or 0xFF in the eight bits of `PRTp_RL`, which the rule does not say: log 94 (DESIGN CHOICE). -/
def mismatch (s : State) (p : Nat) (m : PortMeas) (e5 : Nat) : State :=
  let rl := m.fwd - m.refl
  let s := rset (rset s (Reg.prtFwd p) (i16 m.fwd)) (Reg.prtRefl p) (i16 m.refl)
  let s := bump (rset s (Reg.prtRl p) (w16 (0x8000 + (clampInt 0 255 rl).toNat))) (Reg.prtMmseq p)
  aerialMeasure s p rl m.positive e5

/-- A port's own measurement ends without a result. -/
def dcForgo (s : State) (p : Nat) : State :=
  let n := sheafOf p
  let s := s.updPort p fun q => { q with dcPend := false }
  match (s.sheaf n).job with
  | some j => if j.own ∧ 8 * n + j.port = p then holdPort (s.updSheaf n fun h => { h with job := none }) p false else s
  | none => s

/-- Disabled ports of a sheaf whose transmission has ended become DRAINING (R103). -/
def portsDrop (s : State) (n : Nat) : State :=
  (portsOf n).foldl (fun s p =>
    if enOf s (.prt (finPort p)) then s else drainState (dcForgo s p) (.prt (finPort p))) s

/-- The transmission on air ends at `e5` (R94, R96, R98 to R100).  Log 25 (DESIGN CHOICE), 94 (DESIGN CHOICE). -/
def txFinish (s : State) (n : Nat) (c : TxCmd) (e5 : Nat) (meas : List PortMeas) : State :=
  let s := (List.range 8).foldl (fun s k =>
    match c.power.getD k none with
    | some q =>
      let s := rsetBit s (Reg.prtStat (8 * n + k)) 4 false
      if 0 ≤ q then mismatch s (8 * n + k) (meas.getD k ⟨0, 0, true⟩) e5 else s
    | none => s) s
  let s := s.updSheaf n fun h => { h with onAir := none, resume5 := e5 + turn5 }
  let s := portsDrop (rsetBit s (Reg.shfStat n) 3 false) n
  let run := match (s.sheaf n).accepted with
    | a :: _ => continues s n a
    | [] => false
  let s := if run then s.updSheaf n fun h => { h with ready := true } else setNudge s n 0 false
  txEnded (stolon (tuneAtEnd s n) (0x82C + n)) c.for_ c.t5

/-- Instant E (R94). -/
def txEnd (s : State) (n : Nat) (meas : List PortMeas) : State :=
  match (s.sheaf n).onAir with
  | some c => txFinish (reach s ((c.e5 + 4) / 5)) n c c.e5 meas
  | none => s

/-- Measurements that nothing fixes: those of a transmission cut short.  Log 27 (DESIGN CHOICE), 94 (DESIGN CHOICE). -/
def freeMeas (s : State) : List PortMeas :=
  (List.range 8).map fun k =>
    ⟨(w16 (Config.openValue 100 (s.free + 3 * k))).toInt, (w16 (Config.openValue 100 (s.free + 3 * k + 1))).toInt,
     Config.openValue 100 (s.free + 3 * k + 2) % 2 = 0⟩

/-- A hardware stop ends the transmission on air now and sets CUT (R102).  Log 27 (DESIGN CHOICE). -/
def txCut (s : State) (n : Nat) : State :=
  match (s.sheaf n).onAir with
  | some c => txFinish (bumpFree (evt s (Reg.shfEvt n) 2) 24) n c (5 * s.time.now) (freeMeas s)
  | none => s

/-- Blanking has begun for a transmission that will not come, so that there is no E (R95): the sheaf may receive again at once, which
is the model's choice.  Log 27 (DESIGN CHOICE). -/
def txForgo (s : State) (n : Nat) : State :=
  if (s.sheaf n).ready then
    (setNudge s n 0 false).updSheaf n fun h => { h with ready := false, resume5 := max h.resume5 (5 * s.time.now) }
  else s

/-- Capture begins at sample tick `c`: live ports are live from there, and what waits for a receiving sheaf begins. -/
def captureFrom (s : State) (n c : Nat) : State :=
  let s := (setBlank s n false).updSheaf n fun h => { h with capture := some c }
  let s := (portsOf n).foldl (fun s p => if portLive s p then s.updPort p fun q => { q with liveSince := some c } else s) s
  loopBegin (dcBegin s n) n

/-- A turnaround to receive ends (R92, R94): capture resumes, but not while the run continues, while a further transmission's blanking
has come, or out of lock. -/
def receiveResume (s : State) (n : Nat) : State :=
  let c := resumeTick s n
  if blanked s n ∧ clearOfTx s n c ∧ rbit s (Reg.shfStat n) 2 ∧ (shfState s n = 2 ∨ shfState s n = 3) then
    captureFrom ((reach s c).updSheaf n fun h => { h with relockAt := none }) n c
  else s

/-! ## Sheaves as blocks (R89 to R91, R102) -/

/-- A sheaf leaves STARTING or ON (R102); a hardware stop for loss of clock, unlock, an aerial fault or VRF cuts its
transmission. -/
def sheafStop (s : State) (n : Nat) (hard : Bool) : State :=
  let on := decide (shfState s n = 2)
  let s := drainState s (.shf (finSheaf n))
  let s := if hard then txCut s n else s
  let s := txForgo (refuseAll s n) n
  let s := calStop s n
  if on then searchSheafOff s n else s

/-- A sheaf starts from scratch (R89 to R91): the LO check with the registers as they stand. -/
def sheafBegin (s : State) (n : Nat) : State :=
  let lo := rgroup s (Reg.shfLo n) 2
  let code := rfld s (Reg.shfDiv n) 1 0
  let band := rbit s (Reg.shfCtl n) 1
  let b : BlockId := .shf (finSheaf n)
  if loOk band code lo then
    let s := { s with sheaves := s.sheaves.put n { lo := lo, div := divOf code, band := band } }
    let s := rsetBit (setState s b 1) (Reg.shfStat n) 6 band
    (portsOf n).foldl (fun s p => s.updPort p fun q => { q with atStart := rbit s (Reg.prtCtl p) 0 }) s
  else setState (setEn (evt s (Reg.shfEvt n) 0) b false) b 3

/-- A port's static DC offset as its sheaf's start measures it: a value nothing fixes (R91).  Log 26 (DESIGN CHOICE). -/
def startDc (s : State) (p : Nat) : State :=
  bumpFree (rset (rset s (Reg.prtDci p) (w16 (Config.openValue 91 s.free))) (Reg.prtDcq p) (w16 (Config.openValue 91 (s.free + 1)))) 2

/-- What a port with EN = 1 does when its sheaf reaches ON at sample tick `c` (R103). -/
def portAtOn (c : Nat) (s : State) (p : Nat) : State :=
  if ¬ enOf s (.prt (finPort p)) then s
  else if (s.port p).atStart then
    let s := (startDc s p).updPort p fun q => { q with dcPend := false }
    let s := if prtState s p = 1 then setState s (.prt (finPort p)) 2 else s
    if portLive s p then s.updPort p fun q => { q with liveSince := some c, midSince := c } else s
  else if prtState s p = 1 then s.updPort p fun q => { q with dcPend := true }
  else s

/-- Every sheaf that a transition restarted is ON: the units that only the target runs start (R508). -/
def transUp (s : State) : State :=
  match s.trans with
  | some t =>
    if t.restart ∧ ¬ t.up ∧ (List.range 8).all (fun n => shfState s n = 2) then
      let was := rxOn (modeOf s)
      let s := { s with trans := some { t with up := true } }
      if was then s else winStart s
    else s
  | none => s

/-- A sheaf's start completes: it captures samples (R91, R102, R121). -/
def sheafOn (s : State) (n : Nat) : State :=
  let c := sampleAt s s.time.now
  let s := rsetBit (setState s (.shf (finSheaf n)) 2) (Reg.shfStat n) 2 true
  let s := gainRefresh (calApply s n) n
  let s := (portsOf n).foldl (portAtOn c) s
  transUp (captureFrom s n c)

/-- Every frame that a stopping sheaf still owes has ended, and nothing is on air (R102). -/
def sheafDrained (s : State) (n : Nat) : Bool :=
  (s.sheaf n).onAir.isNone && s.spks.all (fun x => !x.own || decide (x.det.sheaf ≠ n)) && s.detq.all (fun d => decide (d.sheaf ≠ n))

/-- A sheaf reaches OFF: capture stops and its credits return; a pending restart starts it again (R75, R77, R102). -/
def sheafOff (s : State) (n : Nat) : State :=
  let s := setNudge s n 0 false
  let s := rset s (Reg.shfStat n) (rget s (Reg.shfStat n) &&& 0x0040)
  let s := { s with sheaves := s.sheaves.put n { lo := (s.sheaf n).lo, div := (s.sheaf n).div, band := (s.sheaf n).band } }
  let s := (portsOf n).foldl (fun s p => s.updPort p fun q => { q with liveSince := none }) s
  if enOf s (.shf (finSheaf n)) then sheafBegin s n else s

/-- A write to `SHFs_CTL` (R75, R76, R102). -/
def shfCtlWrite (n : Nat) (v : Word) (s : State) : State :=
  let b : BlockId := .shf (finSheaf n)
  let st := stateOf s b
  let en := bit v 0 && !(rxSealed s && !enOf s b)
  let s := rwrite s (Reg.shfCtl n) (setBit v 0 en)
  if st = 0 ∧ en then sheafBegin s n
  else if (st = 1 ∨ st = 2) ∧ ¬ en then sheafStop s n false
  else s

/-! ## Ports as blocks (R103) -/

/-- A port is enabled while OFF (R103): measured within its sheaf's start, or on its own once the sheaf is ON; one enabled
while the sheaf is STARTING comes before or after the start's measurement.  Log 26 (DESIGN CHOICE). -/
def portBegin (s : State) (p : Nat) : State :=
  let n := sheafOf p
  let s := setState s (.prt (finPort p)) 1
  if shfState s n = 2 then dcBegin (s.updPort p fun q => { q with dcPend := true, atStart := false }) n
  else if shfState s n = 1 then
    bumpFree (s.updPort p fun q => { q with atStart := Config.openValue 103 s.free % 2 = 0 })
  else s

/-- A write to `PRTp_CTL` (R75, R76, R83, R103, R104): a port disabled during its sheaf's transmission completes it first.  Log 25 (DESIGN CHOICE). -/
def prtCtlWrite (p : Nat) (v : Word) (s : State) : State :=
  let b : BlockId := .prt (finPort p)
  let st := stateOf s b
  let s := rwrite s (Reg.prtCtl p) v
  let s := if bit v 2 then rset s (Reg.prtClips p) 0 else s
  if st = 0 ∧ bit v 0 then portBegin s p
  else if (st = 1 ∨ st = 2) ∧ ¬ bit v 0 then
    if transmitting s (sheafOf p) then s else drainState (dcForgo s p) b
  else s

/-- A port's drain completes once its sheaf has no transmission on air (R103).  Log 25 (DESIGN CHOICE). -/
def portDrained (s : State) (p : Nat) : State :=
  if transmitting s (sheafOf p) then s
  else
    let s := portOff s p
    if enOf s (.prt (finPort p)) then portBegin s p else s

/-! ## Loss of clock and of VRF (01 R38, 21 R496) -/

/-- The synthesiser loses lock (R92).  Log 27 (DESIGN CHOICE). -/
def synthUnlock (s : State) (n : Nat) : State :=
  let s := evt (rsetBit s (Reg.shfStat n) 2 false) (Reg.shfEvt n) 1
  let s := txForgo (refuseAll (txCut s n) n) n
  blankFrom (s.updSheaf n fun h => { h with relockAt := none }) n (5 * s.time.now)

/-- A sheaf that is ON has no lock.  Log 29 (DEDUCED). -/
def someUnlocked (s : State) : Bool := (List.range 8).any fun n => decide (shfState s n = 2) && !rbit s (Reg.shfStat n) 2

/-- The synthesiser regains lock (R38, R92, 15 R395). -/
def synthRelock (s : State) (n : Nat) : State :=
  let s := (rsetBit s (Reg.shfStat n) 2 true).updSheaf n fun h => { h with relockAt := some s.time.now }
  let s := { s with power := { s.power with relock := s.power.relock && someUnlocked s } }
  (enPorts s n).foldl loopWant s

/-- REFCLK is declared lost (R38): every sheaf stops transmitting.  Log 27 (DESIGN CHOICE). -/
def refclkLoss (s : State) : State :=
  let s := { s with power := { s.power with refLost := true, pllHold := true, relock := false } }
  let s := (List.range 8).foldl (fun s n => txForgo (refuseAll (txCut s n) n) n) s
  fault s { cls := 5, lasting := true, action := 7, typ := 7, inst := 0 }

/-- A hardware stop of a sheaf that is ON when VRF drops, with its record (R496). -/
def vrfStop (s : State) (n : Nat) : State :=
  if shfState s n = 2 then fault (sheafStop s n true) { cls := 4, lasting := true, action := 7, typ := 2, inst := n } else s

/-! ## The commands -/

/-- A transmission command reaches a sheaf's scheduler (R87). -/
def execTxCommand (n : Fin 8) (s : State) : Host.Outcome State Fault Refusal := .next (txCommand s n)

/-- Instant B (R93). -/
def execBlankingStart (n : Fin 8) (s : State) : Host.Outcome State Fault Refusal := .next (blankingStart s n)

/-- Instant T (R86). -/
def execTxStart (n : Fin 8) (s : State) : Host.Outcome State Fault Refusal := .next (txStart s n)

/-- Instant E, with the mismatch measurements of the eight ports (R94, R100). -/
def execTxEnd (n : Fin 8) (meas : List PortMeas) (s : State) : Host.Outcome State Fault Refusal :=
  if ¬ measWf meas then .fault (.illFormed "eight ports") else .next (txEnd s n meas)

/-- The first sample at or after E + 40.0 µs (R94). -/
def execReceiveResume (n : Fin 8) (s : State) : Host.Outcome State Fault Refusal := .next (receiveResume s n)

/-- Capture resumes at the first sample instant at least 40.0 µs after lock returned (R92). -/
def execCaptureResume (n : Fin 8) (s : State) : Host.Outcome State Fault Refusal :=
  .next (if (s.sheaf n).relockAt.isSome then receiveResume s n else s)

/-- The synthesiser loses lock while its sheaf is ON (R92). -/
def execSynthUnlock (n : Fin 8) (s : State) : Host.Outcome State Fault Refusal :=
  .next (if shfState s n = 2 ∧ rbit s (Reg.shfStat n) 2 then synthUnlock s n else s)

/-- The synthesiser regains lock (R92); the lock that a VCOB calibration gave up comes back with the calibration. -/
def execSynthRelock (n : Fin 8) (s : State) : Host.Outcome State Fault Refusal :=
  .next (if shfState s n = 2 ∧ ¬ rbit s (Reg.shfStat n) 2 ∧ (vcobUntil s n).isNone then synthRelock s n else s)

/-- REFCLK is declared lost (R38). -/
def execRefclkLoss (s : State) : Host.Outcome State Fault Refusal :=
  .next (if s.power.refLost ∨ s.power.lost then s else refclkLoss s)

/-- REFCLK is back within range (R38).  Log 29 (DEDUCED). -/
def execRefclkReturn (s : State) : Host.Outcome State Fault Refusal :=
  .next (
    if s.power.refLost then { s with power := { s.power with refLost := false, pllHold := false, relock := someUnlocked s } } else s)

/-- VRF falls below 3.00 V for 1 µs (R496).  Log 29 (DEDUCED), 99 (DESIGN CHOICE). -/
def execVrfDrop (s : State) : Host.Outcome State Fault Refusal :=
  .next (
    if s.power.lost ∨ s.power.vrfLow then s
    else (List.range 8).foldl vrfStop { s with power := { s.power with vrfLow := true } })

/-- VRF returns above 3.05 V (R496). -/
def execVrfReturn (s : State) : Host.Outcome State Fault Refusal :=
  .next { s with power := { s.power with vrfLow := false } }

end Sys2Proof.Machine
end

