-- ==== Sys2Proof/Machine/Blocks.lean ====
section
/-!
DEFINITION. The blocks with an enable (02_modes_and_start R73 to R77): writes of their control registers, the ends of
their starts and of their drains.
-/

namespace Sys2Proof.Machine

/-! ## Units that a mode does not run (02 R50, R508) -/

/-- Tillers run in a mode. -/
def tillersIn (m : Nat) : Bool := m = 2 ∨ m = 3 ∨ m = 5 ∨ m = 6
/-- Ethernet lanes run in a mode. -/
def ethernetIn (m : Nat) : Bool := m = 2 ∨ m = 3 ∨ m = 5 ∨ m = 6
/-- Useth ports may run in a mode. -/
def usethIn (m : Nat) : Bool := 2 ≤ m ∧ m ≤ 6

/-! ## The generic table of R75 and R76 -/

/-- What a write of EN does once the register holds it: an OFF block begins on 1, a STARTING or ON block stops on 0; in
DRAINING the written EN says whether a restart is pending.  Log 24 (DESIGN CHOICE). -/
def enWritten (s : State) (b : BlockId) (v : Word) (begin_ stop : State → State) : State :=
  let st := stateOf s b
  if st = 0 ∧ bit v 0 then begin_ s
  else if (st = 1 ∨ st = 2) ∧ ¬ bit v 0 then stop s
  else s

/-- The block is OFF, and begins again where a restart is pending (R75, R76).  Log 24 (DESIGN CHOICE). -/
def offOrAgain (s : State) (b : BlockId) (begin_ : State → State) : State :=
  let s := setState s b 0
  if enOf s b then begin_ s else s

/-! ## Tillers (11 R280, R281) -/

/-- A Tiller begins to start (R280): its registers are cleared, its status set from DET, `TILt_TRAP` cleared. -/
def tilBegin (s : State) (t : Nat) : State :=
  let det := rbit s (Reg.tilCtl t) 1
  let old := s.core t
  let c : CoreSt := { CoreSt.mk0 (if det then 0x3000 else 0x2000) with
    pc := BitVec.ofNat 32 (rlong s (Reg.tilEntry t)), svc := rbit s (Reg.tilCtl t) 2, qout := old.qout, past := old.past }
  setState ((rset s (Reg.tilTrap t) 0).updCore t fun _ => c) (.til (Fin.ofNat 32 t)) 1

/-- What a Tiller that has left ON held goes back, once no transaction of it is under way (R281). -/
def tilGone (s : State) (t : Nat) : State := coreLeft (s.updCore t fun c => { c with hold := .stopped }) t

/-- A Tiller leaves STARTING or ON (R281): fabric loads already issued complete first.  Log 47 (DESIGN CHOICE). -/
def tilStop (s : State) (t : Nat) : State :=
  let s := drainState s (.til (Fin.ofNat 32 t))
  if (s.core t).hold = .fabric then s else tilGone s t

/-- A Tiller reaches ON and issues bundles (R280). -/
def tilOn (s : State) (t : Nat) : State :=
  sagePump ((setState s (.til (Fin.ofNat 32 t)) 2).updCore t fun c => { c with hold := .none })

/-- A write to `TILt_CTL`; while the mode runs no Tillers a write of 1 to EN is ignored.  Log 24 (DESIGN CHOICE). -/
def tilCtlWrite (t : Nat) (v : Word) (s : State) : State :=
  let b : BlockId := .til (Fin.ofNat 32 t)
  let v := setBit v 0 (bit v 0 && (enOf s b || unitOn s tillersIn))
  let s := rwrite s (Reg.tilCtl t) v
  let s := if bit v 3 then rset s (Reg.tilNlost t) 0 else s
  enWritten s b v (tilBegin · t) (tilStop · t)

/-! ## HEADn outputs (04 R127) -/

/-- An output begins to start. -/
def hedBegin (s : State) (n : Nat) : State := fltRefresh (hedStartCheck (setState s (.hed (finSheaf n)) 1) n) n

/-- A write to `HEDn_CTL`. -/
def hedCtlWrite (n : Nat) (v : Word) (s : State) : State :=
  enWritten (hedWrite (Reg.hedCtl n) n v s) (.hed (finSheaf n)) v (hedBegin · n) (hedStop · n)

/-! ## Useth ports (13 R339) -/

/-- A port begins to train; the lanes that its last run excluded may train again. -/
def uslBegin (s : State) (n : Nat) : State :=
  updUsl (setState s (.usl (Fin.ofNat 2 n)) 1) fun u => { u with laneOff := u.laneOff.filter fun e => e.1 ≠ n, trained := u.trained.put n 0 }

/-- A port stops. -/
def uslStop (s : State) (n : Nat) : State :=
  let s := rsetFld (drainState s (.usl (Fin.ofNat 2 n))) (Reg.uslnStat n) 7 4 0
  if rbit s (Reg.uslnStat n) 2 then rset (linkDown s n) (Reg.uslnPeer n) 0 else s

/-- A port's training ends with the lanes that trained, as a mask (R339); port 0 meets port 1 (R338).  Log 68 (DESIGN CHOICE). -/
def uslTrained (s : State) (n lanes : Nat) : State :=
  let off := ((s.usl.laneOff.filter fun e => e.1 = n).map fun e => 2 ^ e.2).sum
  let m := lanes &&& rfld s (Reg.uslnCtl n) 4 1 &&& (15 - off % 16)
  if m = 0 then evt (drainState s (.usl (Fin.ofNat 2 n))) (Reg.uslnEvt n) 1
  else
    let s := updUsl s fun u => { u with trained := u.trained.put n m }
    let s := rsetBit (rsetFld (setState s (.usl (Fin.ofNat 2 n)) 2) (Reg.uslnStat n) 7 4 m) (Reg.uslnStat n) 2 true
    let s := bumpFree (rset s (Reg.uslnPeer n) (w16 (0x8000 + (1 - n) * 0x4000 + Config.openValue 339 s.free % 16384)))
    evt s (Reg.uslnEvt n) 0

/-- A write to `USLn_CTL`.  Log 24 (DESIGN CHOICE). -/
def uslnCtlWrite (n : Nat) (v : Word) (s : State) : State :=
  let b : BlockId := .usl (Fin.ofNat 2 n)
  let v := setBit v 0 (bit v 0 && (enOf s b || unitOn s usethIn))
  enWritten (rwrite s (Reg.uslnCtl n) v) b v (uslBegin · n) (uslStop · n)

/-! ## Ethernet lanes (14 R358) -/

/-- A lane stops: entries that have not started are discarded. -/
def ethStop (s : State) (n : Nat) : State := laneDown (drainState s (.eth (Fin.ofNat 2 n))) n false

/-- A write to `ETHn_CTL`.  Log 24 (DESIGN CHOICE). -/
def ethnCtlWrite (n : Nat) (v : Word) (s : State) : State :=
  let b : BlockId := .eth (Fin.ofNat 2 n)
  let v := setBit v 0 (bit v 0 && (enOf s b || unitOn s ethernetIn))
  enWritten (rwrite s (Reg.ethnCtl n) v) b v (fun s => setState s b 1) (ethStop · n)

/-! ## Timers (16 R401, R407) -/

/-- A counter begins to start. -/
def tmrBegin (s : State) (n : Fin 32) : State := tmrStart (setState s (.tmr n) 1) n

/-- A write to `TMRn_CTL`; a member's EN is ignored (R403). -/
def tmrnCtlWrite (n : Fin 32) (v : Word) (s : State) : State :=
  let s := rwrite s (Reg.tmrnCtl n) v
  if (s.tmr n).member then s else enWritten s (.tmr n) v (tmrBegin · n) (drainState · (.tmr n))

/-! ## The panel reader (18 R456) -/

/-- The reader begins to start, from step 4 of the boot sequence (02 R64). -/
def nfrBegin (s : State) : State := if 4 ≤ s.boot.step then setState s .nfr 1 else s

/-- A write to `NFR_CTL`. -/
def nfrCtlWrite (v : Word) (s : State) : State :=
  let s := rwrite s Reg.nfrCtl v
  let s := enWritten s .nfr v nfrBegin fun s => readerOff (drainState s .nfr)
  if bit v 1 then readerReread s else s

/-! ## The link timing unit (08 R220, R221) -/

/-- Nothing granted is left at any sheaf. -/
def airEmpty (s : State) : Bool := s.sheaves.val.all fun h => h.onAir.isNone && h.accepted.isEmpty && h.cmds.isEmpty

/-- The unit's drain completes: requests that still expect their acknowledgement complete STOPPED.  Log 55 (DESIGN CHOICE). -/
def lnkDrained (s : State) : State :=
  if ¬ airEmpty s then s
  else
    let s := reach s (lnkDrainTick s)
    let s := updLnk s fun l => { l with expected := [], plan := [] }
    let s := s.lnk.reqs.foldl (fun s r => reqEnd s r 6) s
    offOrAgain s .lnk lnkBegin

/-! ## Searches (05 R148, R149) -/

/-- A search reaches its start instant while its sheaf is ON. -/
def searchOn (s : State) (n : Nat) : State :=
  match (s.search n).startAt with
  | some t =>
    if shfState s n = 2 ∧ rxRuns s then
      let b := sampleAt s (max t s.time.now)
      (setState (reach s b) (.awn (finSheaf n)) 2).updSearch n fun a => { a with startAt := none, stopAt := none, began := b, seq := 0 }
    else s
  | none => s

/-- A search's drain completes once no open group holds a candidate of it. -/
def searchOff (s : State) (n : Nat) : State :=
  if searchDrained s n then
    offOrAgain (s.updSearch n fun a => { a with stopAt := none }) (.awn (finSheaf n)) (searchBegin · n false)
  else s

/-! ## Any block -/

/-- A write of the control register of a block. -/
def blockWrite (b : BlockId) (v : Word) (s : State) : State :=
  match b with
  | .prt p => prtCtlWrite p v s
  | .shf n => shfCtlWrite n v s
  | .awn n => awnCtlWrite n v s
  | .hed n => hedCtlWrite n v s
  | .lnk => lnkCtlWrite v s
  | .til t => tilCtlWrite t v s
  | .eth n => ethnCtlWrite n v s
  | .usl n => uslnCtlWrite n v s
  | .tmr n => tmrnCtlWrite n v s
  | .nfr => nfrCtlWrite v s

/-- The start of a block that is STARTING completes (R75). -/
def blockStarted (b : BlockId) (lanes : Nat) (s : State) : State :=
  if stateOf s b ≠ 1 then s
  else
    match b with
    | .prt p => if shfState s (sheafOf p) = 2 ∧ ¬ (s.port p).dcPend then setState s b 2 else s
    | .shf n => sheafOn s n
    | .awn n => searchOn s n
    | .hed n => if s.power.quiet then s else setState s (.hed n) 2
    | .lnk => lnkEnter s
    | .til t => tilOn s t
    | .eth _ => setState s b 2
    | .usl n => uslTrained s n lanes
    | .tmr _ => setState s b 2
    | .nfr => updReader (rsetFld (setState s b 2) Reg.nfrEvt 7 4 0) fun r => { r with due := true, pingAt := s.time.now }

/-- The drain of a block that is DRAINING completes, where nothing it has accepted is left (R74, R75).  LIMIT and OPENNOW of a HEADn
output clear as it reaches OFF, which is the model's choice: log 36 (DESIGN CHOICE). -/
def blockDrained (b : BlockId) (s : State) : State :=
  if stateOf s b ≠ 3 then s
  else
    match b with
    | .prt p => portDrained s p
    | .shf n => if sheafDrained s n then sheafOff s n else s
    | .awn n => searchOff s n
    | .hed n =>
      fltRefresh (offOrAgain (rset s (Reg.hedStat n) (rget s (Reg.hedStat n) &&& 0x0003)) b (hedBegin · n)) n
    | .lnk => lnkDrained s
    | .til t => if (s.core t).hold = .fabric then s else offOrAgain s b (tilBegin · t)
    | .eth n =>
      if (s.eth.tx.nth n []).isEmpty then offOrAgain s b (fun s => setState s b 1) else s
    | .usl n => offOrAgain s b (uslBegin · n)
    | .tmr n => offOrAgain (tmrOff s n) b (tmrBegin · n)
    | .nfr => offOrAgain s b nfrBegin

/-! ## The commands -/

/-- EN is written 1 with the rest of the control register (R75, R76). -/
def execBlockEnable (_i : Initiator) (b : BlockId) (v : Word) (s : State) : Host.Outcome State Fault Refusal :=
  .next (blockWrite b (setBit v 0 true) s)

/-- EN is written 0 with the rest of the control register (R75, R76). -/
def execBlockDisable (_i : Initiator) (b : BlockId) (v : Word) (s : State) : Host.Outcome State Fault Refusal :=
  .next (blockWrite b (setBit v 0 false) s)

/-- A start completes (R75); `lanes` is the mask of the lanes that a Useth port has trained. -/
def execBlockStartComplete (b : BlockId) (lanes : Fin 16) (s : State) : Host.Outcome State Fault Refusal :=
  .next (blockStarted b lanes s)

/-- A drain completes (R74, R75). -/
def execBlockDrainComplete (b : BlockId) (s : State) : Host.Outcome State Fault Refusal := .next (blockDrained b s)

end Sys2Proof.Machine
end

