-- ==== Sys2Proof/Machine/Image.lean ====
section
/-!
DEFINITION. Images in the flash banks: header, sections, checks, choice and loading (19_update R462 to R464), and the stop
and start of the Crown core with an image (02_modes_and_start R55; 19_update R470).
-/

namespace Sys2Proof.Machine

/-! ## The header (R462) -/

/-- Octets of a bank. -/
def bankGet (s : State) (b o n : Nat) : List Octet := flashGet s (bankBase s b + o) n

/-- A little-endian number of a bank. -/
def bankNum (s : State) (b o n : Nat) : Nat := ofOctetsLE (bankGet s b o n)

/-- IMGLEN. -/
def imgLen (s : State) (b : Nat) : Nat := bankNum s b 8 4
/-- SEQ. -/
def imgSeq (s : State) (b : Nat) : Nat := bankNum s b 12 4
/-- VERSION. -/
def imgVersion (s : State) (b : Nat) : Nat := bankNum s b 16 2
/-- ENTRY. -/
def imgEntry (s : State) (b : Nat) : Nat := bankNum s b 20 4
/-- The offset of the fence table. -/
def imgFenceAt (s : State) (b : Nat) : Nat := bankNum s b 24 4

/-- A section: bank offset, address, octets. -/
structure Section_ where
  off  : Nat
  addr : Nat
  len  : Nat
  deriving DecidableEq, Repr

/-- The sections of the image in a bank, at most 16. -/
def sections (s : State) (b : Nat) : List Section_ :=
  (List.range (min 16 (bankNum s b 5 1))).map fun i =>
    ⟨bankNum s b (32 + 12 * i) 4, bankNum s b (36 + 12 * i) 4, bankNum s b (40 + 12 * i) 4⟩

/-- Octets of all sections together. -/
def sectionTotal (l : List Section_) : Nat := (l.map Section_.len).sum

/-- A section names a Tiller's local memory. -/
def Section_.toTiller (c : Section_) : Bool := decide (2147483648 ≤ c.addr)

/-- The first word of a section in its target, and its Tiller. -/
def Section_.localAt (c : Section_) : Nat × Nat := (c.addr / 65536 % 32, c.addr % 65536)

/-- A section lies within the bank and within its target memory. -/
def Section_.fits (c : Section_) (bank : Nat) : Bool :=
  let n := c.len / 2
  decide (c.len % 2 = 0 ∧ c.off + c.len ≤ bank) &&
  (if c.toTiller then decide (c.localAt.2 + n ≤ 65536)
   else decide (0x01000000 ≤ c.addr ∧ c.addr + n ≤ 0x01200000) || decide (0x04010000 ≤ c.addr ∧ c.addr + n ≤ 0x04020000))

/-- The fence table of the image in a bank. -/
def imgFence (s : State) (b : Nat) : List FenceDesc :=
  (List.range 64).map fun d => descOfOctets (bankGet s b (imgFenceAt s b + 12 * d) 12)

/-- SHA-256 of octets 0 to IMGLEN − 1: MIMG. -/
def imgHash (s : State) (b : Nat) : List Octet := sha256 (bankGet s b 0 (imgLen s b))

/-- The header, the sections and the rollback value are right (R462). -/
def imgFormOk (s : State) (b : Nat) : Bool :=
  let zero := fun o n => (bankGet s b o n).all (· = 0)
  decide (bankGet s b 0 5 = [0x51, 0x49, 0x4D, 0x47, 0x01] ∧ 1 ≤ bankNum s b 5 1 ∧ bankNum s b 5 1 ≤ 16) &&
  decide (imgLen s b + 64 ≤ bankSize s - 4096 ∧ s.fuses.image ≤ imgVersion s b ∧ imgVersion s b ≤ 1023) &&
  zero 18 2 && zero 28 4 && zero 224 32 &&
  (sections s b).all (·.fits (bankSize s)) && decide (sectionTotal (sections s b) ≤ 8388608)

/-- The signature over the image is the maker's (R462, 10 R257). -/
def imgSigned (s : State) (b : Nat) : Bool :=
  !s.fuses.maker.isEmpty && ecdsaVerify s.fuses.maker (imgHash s b) (bankGet s b (imgLen s b) 64)

/-- The image's fence table passes the checks of R290 (R462). -/
def imgFenceOk (s : State) (b : Nat) : Bool :=
  decide (imgFenceAt s b + 768 ≤ bankSize s) && (firstBad (imgFence s b)).isNone

/-- The image in a bank verifies, its fence table apart. -/
def imgVerifies (s : State) (b : Nat) : Bool := imgFormOk s b && imgSigned s b

/-! ## Choice and loading (R464, 02 R72) -/

/-- The active bank: the ELIGIBLE one with the higher SEQ, bank 0 when they are equal. -/
def activeBank (s : State) : Option Nat :=
  match bankEligible s 0, bankEligible s 1 with
  | true, true => some (if imgSeq s 0 < imgSeq s 1 then 1 else 0)
  | true, false => some 0
  | false, true => some 1
  | false, false => none

/-- Every bank ON TRIAL gets its REJECT mark. -/
def rejectTrials (s : State) : State :=
  [0, 1].foldl (fun s b => if bankOnTrial s b then setMark s b 2 else s) s

/-- A section is copied to its target; rows written whole are poisoned no more (01 R41). -/
def loadSection (s : State) (b : Nat) (c : Section_) : State :=
  let ws := packOctets (bankGet s b c.off c.len)
  if c.toTiller then
    let (t, a) := c.localAt
    let s := (ws.zipIdx).foldl (fun s e => lset s t (a + e.2) e.1) s
    { s with flt := { s.flt with bad := s.flt.bad.filter fun e => !(decide (e.1 = t ∧ a ≤ 8 * e.2 ∧ 8 * e.2 + 8 ≤ a + ws.length)) } }
  else healRange (msets s c.addr ws) c.addr ws.length

/-- Every section of the image in a bank is loaded. -/
def loadSections (s : State) (b : Nat) : State := (sections s b).foldl (loadSection · b) s

/-- The image's fence table is staged and committed: whether it came into force (R470, 11 R290). -/
def commitImageFence (s : State) (b : Nat) : Bool × State :=
  let s := fenceCommit (fenceStage s (imgFence s b))
  (rfld s Reg.fenStat 1 0 = 1, s)

/-! ## The cores and an image (02 R55, R61; 19 R470) -/

/-- Every Tiller takes a hardware stop and drains (11 R281).  Log 63 (DESIGN CHOICE). -/
def stopTillers (s : State) : State :=
  (List.range 32).foldl (fun s t =>
    let st := rfld s (Reg.tilStat t) 1 0
    if st = 1 ∨ st = 2 then tilStop s t else setEn s (.til (Fin.ofNat 32 t)) false) s

/-- The Crown core stops: what waits in its queues is discarded, and Sage takes its records back. -/
def stopCrown (s : State) : State :=
  coreLeft (s.updCore 32 fun c => { c with hold := .stopped }) 32

/-- The Crown core restarts at an address in secure state, its control registers as after a chip reset (R55). -/
def startCrown (s : State) (entry : Nat) : State :=
  let q := (s.core 32).qout
  let s := s.updCore 32 fun _ => { CoreSt.mk0 0x8000 with pc := BitVec.ofNat 32 entry, qout := q, hold := .none }
  sagePump (rsetBit s Reg.tilCstat 2 false)

/-- The service pause begins: READY clears and the cores stop. -/
def pauseService (s : State) : State := stopCrown (stopTillers (rset s Reg.sysSvcready 0))

end Sys2Proof.Machine
end

