-- ==== Sys2Proof/Machine/Update.lean ====
section
/-!
DEFINITION. The update control (19_update R465 to R475), the reading of chunks through the fence apart; the supply margin
monitors (21_electrical R495).
-/

namespace Sys2Proof.Machine

/-- STATE of the update control. -/
def updState (s : State) : Nat := rfld s Reg.updStat 2 0

/-- Put the update control in a state. -/
def setUpd (s : State) (st : Nat) : State := rsetFld s Reg.updStat 2 0 st

/-- The bank that runs. -/
def runBank (s : State) : Nat := (rbit s Reg.updStat 4).toNat

/-- The bank applied into, or on trial. -/
def targetBank (s : State) : Nat := (rbit s Reg.updStat 5).toNat

/-- Record a result. -/
def updResult (s : State) (r : Nat) : State := rset s Reg.updRes (w16 r)

/-- An apply ends with a result; it succeeds with DONE, which leaves STAGED, and any other result leaves IDLE. -/
def applyEnd (s : State) (r : Nat) : State :=
  let s := { s with upd := { s.upd with chunk := none, stream := [], header := none, newHash := none } }
  evt (setUpd (updResult s r) (if r = 1 then 2 else 0)) Reg.updEvt 1

/-- An apply ends with the target bank's contents undefined (R468). -/
def applyBroken (s : State) (r : Nat) : State := applyEnd (breakTarget s) r

/-- The refusals 2 to 5 of R467.  Log 63 (DESIGN CHOICE). -/
def updRefusal (s : State) (states : List Nat) : Option Nat :=
  let m := modeOf s
  if m = 0 ∨ m = 1 ∨ m = 5 then some 3
  else if s.power.marginLow then some 4
  else if ownerLocked s then some 5
  else if ¬ states.contains (updState s) ∨ rbit s Reg.sysMode 3 ∨ s.xsp.job.isSome then some 6
  else none

/-- The chunk that `UPD_ADDR` and `UPD_LEN` name. -/
def chunkNamed (s : State) (i : Initiator) (lvl : Nat) : Nat × Nat × Nat × Nat :=
  (rlong s Reg.updAddr, (rget s Reg.updLen).toNat, initIndex i, lvl)

/-- OP START (R467): the trailer sector of the target bank is erased, so the bank is STAGED from then on. -/
def updStart (i : Initiator) (lvl : Nat) (s : State) : State :=
  match updRefusal s [0, 2] with
  | some r => updResult s r
  | none =>
    let t := 1 - runBank s
    let s := flashErase s (bankBase s t + bankSize s - 4096) 4096
    let s := rsetBit (setUpd s 1) Reg.updStat 5 (t = 1)
    { s with upd := { s.upd with chunk := some (chunkNamed s i lvl), stream := [], header := none, written := 0, newHash := none } }

/-- OP FEED (R466).  Log 63 (DESIGN CHOICE). -/
def updFeed (i : Initiator) (lvl : Nat) (s : State) : State :=
  if updState s = 1 ∧ s.upd.chunk.isNone ∧ s.upd.newHash.isNone then
    { s with upd := { s.upd with chunk := some (chunkNamed s i lvl) } }
  else s

/-- A section covers words of a region. -/
def Section_.covers (c : Section_) (a n : Nat) : Bool :=
  !c.toTiller && decide (c.addr < a + n ∧ a < c.addr + c.len / 2)

/-- The sections of both images are within 6 MiB each, and the flash runs fast (R469). -/
def activateSize (s : State) : Bool :=
  [0, 1].all (fun b => decide (sectionTotal (sections s b) ≤ 6291456)) && rbit s Reg.xspStat 2

/-- A section of the new image covers a cell-table bank or the flow table (R469).  Log 63 (DESIGN CHOICE). -/
def activateOverlap (s : State) : Bool :=
  (sections s (targetBank s)).any fun c =>
    (decide (stateOf s .lnk ≠ 0) && c.covers (rlong s Reg.lnkCellbase) 0x80040) || c.covers (rlong s Reg.ethFlowbase) 0x200

/-- OP ACTIVATE (R469, R470): TRIAL is programmed in the new bank, and the service pause begins. -/
def updActivate (s : State) : State :=
  match updRefusal s [2] with
  | some r => updResult s r
  | none =>
    if ¬ activateSize s then updResult s 12
    else if activateOverlap s then updResult s 13
    else pauseService (setUpd (setMark s (targetBank s) 0) 3)

/-- OP ABORT (R468).  Log 63 (DESIGN CHOICE). -/
def updAbort (s : State) : State := if updState s = 1 then applyBroken s 14 else s

/-- A write to `UPD_GO` (R466 to R469, R483).  Log 63 (DESIGN CHOICE). -/
def updGo (i : Initiator) (lvl : Nat) (v : Word) (s : State) : State :=
  let op := field v 2 0
  if field v 15 8 ≠ 0x55 ∨ op = 0 ∨ 4 < op then s
  else if lvl ≠ 0 ∧ lvl ≠ 2 then updResult s 2
  else if op = 1 then updStart i lvl s
  else if op = 2 then updFeed i lvl s
  else if op = 3 then updActivate s
  else updAbort s

/-! ## Trial (R473) -/

/-- `UPD_HEALTH_T` as it acts. -/
def healthSeconds (s : State) : Nat := clampNat 1 3600 (rfld s Reg.updHealthT 11 0)

/-- A write to `UPD_CONFIRM` (R473). -/
def updConfirm (lvl : Nat) (v : Word) (s : State) : State :=
  if lvl ≤ 2 ∧ v = 0xC04F ∧ updState s = 4 ∧ shadow s < s.upd.deadline then
    let t := targetBank s
    let s := setMark s t 1
    let s := { s with fuses := { s.fuses with image := max s.fuses.image (imgVersion s t) } }
    evt (setUpd (updResult s 1) 0) Reg.updEvt 1
  else s

/-- `UPD_REMAIN` as it reads: whole seconds left. -/
def updRemain (s : State) : Nat := if updState s = 4 then min 4095 ((s.upd.deadline - shadow s) / 122880000) else 0

/-- A write to a register of the UPD block. -/
def updWrite (i : Initiator) (lvl a : Nat) (v : Word) (s : State) : State :=
  if a = Reg.updGo then updGo i lvl v s
  else if a = Reg.updConfirm then updConfirm lvl v s
  else if (groupOf a).2 > 1 then groupWrite s i a v
  else rwrite s a v

/-! ## Interpreting the delta (R465) -/

/-- How the interpretation of what has been consumed goes on. -/
inductive DeltaStep where
  | more                                             -- the stream holds no whole operation
  | bad (result : Nat)
  | head (baselen newlen : Nat)
  | put (data : List Octet) (used : Nat)
  | done (hash : List Octet)
  deriving DecidableEq, Repr

/-- The header's checks; the hash of the running bank is compared with BASEHASH (R467). -/
def deltaHead (s : State) (st : List Octet) : DeltaStep :=
  if st.length < 64 then .more
  else
    let bl := ofOctetsLE (slice st 40 4)
    let nl := ofOctetsLE (slice st 44 4)
    if st.take 8 ≠ [0x51, 0x44, 0x4C, 0x54, 0x01, 0, 0, 0] ∨ (slice st 48 16).any (· ≠ 0) ∨ bl = 0 ∨ bankSize s < bl ∨
        bankSize s - 4096 < nl then .bad 8
    else if sha256 (bankGet s (runBank s) 0 bl) ≠ slice st 8 32 then .bad 9
    else .head bl nl

/-- The next operation of the stream (R465). -/
def deltaOp (s : State) (st : List Octet) (bl nl : Nat) : DeltaStep :=
  if st.length < 8 then .more
  else
    let op := (st.getD 0 0).toNat
    let len := ofOctetsLE (slice st 4 4)
    if (slice st 1 3).any (· ≠ 0) then .bad 8
    else if op = 1 then
      if len = 0 ∨ nl < s.upd.written + len then .bad 8
      else if st.length < 12 then .more
      else
        let src := ofOctetsLE (slice st 8 4)
        if bl < src + len then .bad 8 else .put (bankGet s (runBank s) src len) 12
    else if op = 2 then
      if len = 0 ∨ nl < s.upd.written + len then .bad 8
      else
        let used := 8 + len + len % 2
        if st.length < used then .more
        else if len % 2 = 1 ∧ st.getD (used - 1) 0 ≠ 0 then .bad 8
        else .put (slice st 8 len) used
    else if op = 3 then
      if len ≠ 0 ∨ s.upd.written ≠ nl ∨ 40 < st.length then .bad 8
      else if st.length < 40 then .more
      else .done (slice st 8 32)
    else .bad 8

/-- Octets are written to the target bank; a 64 KiB block is erased just before it is first written (R467). -/
def deltaPut (s : State) (data : List Octet) : State :=
  let base := bankBase s (targetBank s)
  let w := s.upd.written
  let blocks := (List.range ((data.length + 65535) / 65536 + 1)).map fun j => (w + 65535) / 65536 + j
  let s := (blocks.filter fun j => decide (65536 * j < w + data.length)).foldl (fun s j => flashErase s (base + 65536 * j) 65536) s
  let s := flashPut s (base + w) data
  { s with upd := { s.upd with written := w + data.length } }

/-- Interpret what the stream holds, at most `n` records. -/
def deltaRun : Nat → State → State
  | 0, s => s
  | n + 1, s =>
    let st := s.upd.stream
    let r := match s.upd.header with
      | none => deltaHead s st
      | some (bl, nl) => deltaOp s st bl nl
    match r with
    | .more => s
    | .bad k => applyEnd s k
    | .head bl nl => deltaRun n { s with upd := { s.upd with header := some (bl, nl), stream := st.drop 64 } }
    | .put data used =>
      let s := deltaPut s data
      deltaRun n { s with upd := { s.upd with stream := st.drop used } }
    | .done h => { s with upd := { s.upd with newHash := some h, stream := [] } }

/-- The octets of the chunk have been read: they are interpreted, and CHUNK sets (R466). -/
def chunkTaken (s : State) (data : List Octet) : State :=
  let s := { s with upd := { s.upd with chunk := none, stream := s.upd.stream ++ data } }
  evt (deltaRun (s.upd.stream.length + 1) s) Reg.updEvt 0

/-- END has been read: the octets written and the new image are checked (R467).  Log 63 (DESIGN CHOICE). -/
def applyCheck (s : State) : State :=
  match updState s, s.upd.header, s.upd.newHash with
  | 1, some (_, nl), some h =>
    let t := targetBank s
    if sha256 (bankGet s t 0 nl) ≠ h then applyEnd s 10
    else if imgVerifies s t && imgFenceOk s t then
      applyEnd { s with upd := { s.upd with imgHash := imgHash s t } } 1
    else applyEnd s 11
  | _, _, _ => s

/-! ## Activation and fall-back (R470 to R473) -/

/-- BANK, MIMG and ENTRY name the image in a bank; RUN names the bank. -/
def nameImage (s : State) (b : Nat) : State :=
  let s := rsetBit (rsetBit s Reg.sysBootstat 4 (b = 1)) Reg.updStat 4 (b = 1)
  { s with boot := { s.boot with bank := b, entry := imgEntry s b, mimg := imgHash s b } }

/-- The fall-back begins: REJECT is programmed and the pause goes on or begins. -/
def fallBack (s : State) (cause : Nat) : State :=
  let s := setUpd (setMark s (targetBank s) 2) 5
  { s with upd := { s.upd with cause := cause } }

/-- Steps 3 to 5 of an activation (R470, R472).  Log 63 (DESIGN CHOICE). -/
def activationDone (s : State) : State :=
  if updState s ≠ 3 then s
  else
    let t := targetBank s
    let s := loadSections s t
    if imgHash s t ≠ s.upd.imgHash then updResult (fallBack s 10) 10
    else
      match commitImageFence s t with
      | (false, s) => updResult (fallBack s 11) 11
      | (true, s) =>
        let s := startCrown (nameImage s t) (imgEntry s t)
        let s := { s with upd := { s.upd with deadline := s.time.now + healthSeconds s * 122880000 } }
        setEvt (setUpd (updResult s 1) 4) Reg.updEvt (bitMask 1 ||| bitMask 2)

/-- The deadline of a trial passes unconfirmed (R473). -/
def trialOver (s : State) : State :=
  if updState s = 4 then pauseService (fallBack (reach s s.upd.deadline) 15) else s

/-- The old image runs again (R472, R473). -/
def fallBackDone (s : State) : State :=
  if updState s ≠ 5 then s
  else
    let o := 1 - targetBank s
    let s := (commitImageFence (loadSections s o) o).2
    let s := startCrown (nameImage s o) (imgEntry s o)
    evt (setUpd (updResult s s.upd.cause) 0) Reg.updEvt 3

/-! ## The commands -/

/-- A write to `UPD_GO` with OP START. -/
def execStart (i : Initiator) (v : Word) (s : State) : Host.Outcome State Fault Refusal :=
  .next (updGo i (levelOf s i) (setField v 2 0 1) s)

/-- A write to `UPD_GO` with OP FEED. -/
def execFeed (i : Initiator) (v : Word) (s : State) : Host.Outcome State Fault Refusal :=
  .next (updGo i (levelOf s i) (setField v 2 0 2) s)

/-- A write to `UPD_GO` with OP ACTIVATE. -/
def execActivate (i : Initiator) (v : Word) (s : State) : Host.Outcome State Fault Refusal :=
  .next (updGo i (levelOf s i) (setField v 2 0 3) s)

/-- A write to `UPD_GO` with OP ABORT. -/
def execAbort (i : Initiator) (v : Word) (s : State) : Host.Outcome State Fault Refusal :=
  .next (updGo i (levelOf s i) (setField v 2 0 4) s)

/-- A write to `UPD_CONFIRM` (R473). -/
def execConfirm (i : Initiator) (v : Word) (s : State) : Host.Outcome State Fault Refusal :=
  .next (updWrite i (levelOf s i) Reg.updConfirm v s)

/-- The checks after END complete (R467). -/
def execApplyComplete (s : State) : Host.Outcome State Fault Refusal := .next (applyCheck s)

/-- Step 5 of an activation (R470). -/
def execActivationComplete (s : State) : Host.Outcome State Fault Refusal := .next (activationDone s)

/-- The trial's deadline passes (R473). -/
def execTrialDeadline (s : State) : Host.Outcome State Fault Refusal := .next (trialOver s)

/-- Step 5 of the repeat (R473). -/
def execFallbackComplete (s : State) : Host.Outcome State Fault Refusal := .next (fallBackDone s)

/-- A margin monitor reports low: an apply in progress ends (R468, R495).  Log 99 (DESIGN CHOICE). -/
def execMarginLow (s : State) : Host.Outcome State Fault Refusal :=
  .next (
    let s := { s with power := { s.power with marginLow := true } }
    if updState s = 1 then applyBroken s 4 else s)

/-- The monitor clears at 0.742 V and 1.75 V (R495). -/
def execMarginClear (s : State) : Host.Outcome State Fault Refusal :=
  .next { s with power := { s.power with marginLow := false } }

end Sys2Proof.Machine
end

