-- ==== Sys2Proof/Machine/Modes.lean ====
section
/-!
DEFINITION. Mode requests and transitions (02_modes_and_start R53 to R60, R508).
-/

namespace Sys2Proof.Machine

/-! ## Judging a request (R53, R54, R56, R57) -/

/-- The code of an initiator in `SYS_MODESTAT.INIT`. -/
def modeInit : Initiator → Nat
  | .crown => 0
  | .host => 1
  | .mgmt => 2
  | .debug => 3
  | .tiller _ => 4
  | .tag => 5

/-- A level that may request a mode (R53). -/
def modeLevel (lvl : Nat) : Bool := lvl = 0 ∨ lvl = 2

/-- A target that R54 offers from the present mode by request. -/
def targetOffered (m t : Nat) : Bool := decide (2 ≤ m ∧ m ≤ 6 ∧ 2 ≤ t ∧ t ≤ 6 ∧ t ≠ m)

/-- Another chip of the cluster is in HOSTED or AUTONOMOUS mode and reachable on an active Useth port (R56). -/
def clusterServes (s : State) : Bool :=
  inCluster s && (decoders s).any (· ≠ chipNum s) &&
  (List.range 2).any fun n => decide (rfld s (Reg.uslnStat n) 1 0 = 2) && rbit s (Reg.uslnStat n) 2

/-- Why a request is refused, as RESULT codes it; none where it is accepted. -/
def modeRefusal (s : State) (lvl : Nat) (v : Word) : Option Nat :=
  let t := field v 2 0
  let upd := updState s
  if ¬ modeLevel lvl then some 3
  else if field v 15 8 ≠ 0xC5 then some 5
  else if rbit s Reg.sysMode 3 ∨ upd = 1 ∨ upd = 3 ∨ upd = 5 then some 2
  else if ¬ targetOffered (modeOf s) t then some 4
  else if t = 4 ∧ ¬ clusterServes s then some 6
  else none

/-! ## Acceptance (R54, R55, R61, R508) -/

/-- The transmit requests that still wait in a core's TXREQ queue are discarded with the rest, and their granules released (R54). -/
def dropTxreqs (s : State) (k : Nat) : State :=
  let gone := outbound s k 8
  let s := gone.foldl (fun s ws => match holdOf s (ws.getD 6 0).toNat k with
    | some h => release s h
    | none => s) s
  s.updCore k fun c => { c with qout := c.qout.put 0 [] }

/-- Transmit requests not yet started are discarded, and their granules released (R54).  Log 31 (DESIGN CHOICE). -/
def discardRequests (s : State) : State :=
  let s := (List.range 33).foldl dropTxreqs s
  let gone := s.lnk.reqs.filter fun r => !r.granted
  let s := gone.foldl (fun s r => match holdOf s r.gran 36 with
    | some h => release s h
    | none => s) s
  updLnk s fun l => { l with reqs := l.reqs.filter fun r => r.granted }

/-- A sheaf drains, and starts again where the transition restarts it (R54).  Log 31 (DESIGN CHOICE). -/
def sheafTransit (restart : Bool) (s : State) (n : Nat) : State :=
  let b : BlockId := .shf (finSheaf n)
  let st := stateOf s b
  let s := if st = 1 ∨ st = 2 then sheafStop s n false else s
  if ¬ restart then setEn s b false
  else if st = 0 then sheafBegin (setEn s b true) n
  else setEn s b true

/-- The transitions that drain and restart the sheaves: into TEST, and out of TEST or MAINTAIN but to MAINTAIN.  Log 31 (DESIGN CHOICE). -/
def restartsSheaves (m t : Nat) : Bool := decide (t ≠ 6 ∧ (t = 5 ∨ m = 5 ∨ m = 6))

/-- The lanes of a mode without Ethernet drain; a hardware stop clears EN, so that a restart that is pending is off (R75, R358). -/
def stopLanes (s : State) : State :=
  (List.range 2).foldl (fun s n =>
    let st := rfld s (Reg.ethnStat n) 1 0
    if st = 1 ∨ st = 2 then ethStop s n else setEn s (.eth (Fin.ofNat 2 n)) false) s

/-- Both lanes start where the transition leads from a mode without Ethernet (R54); one that still drains starts again after it
(R76).  Log 31 (DESIGN CHOICE). -/
def startLanes (s : State) : State :=
  (List.range 2).foldl (fun s n =>
    let b : BlockId := .eth (Fin.ofNat 2 n)
    let s := setEn s b true
    if stateOf s b = 0 then setState s b 1 else s) s

/-- A request is accepted: the units that the target stops or seals change now, and the cores stop.  Log 31 (DESIGN CHOICE). -/
def modeAccept (s : State) (t init : Nat) : State :=
  let m := modeOf s
  let restart := restartsSheaves m t
  let s := if t = 4 ∨ t = 5 ∨ t = 6 then memberHands s else s
  let s := rsetBit (rsetFld s Reg.sysMode 10 8 t) Reg.sysMode 3 true
  let s := { s with trans := some { target := t, restart := restart, cores := true, init := init } }
  let s := pauseService s
  let s := if ethernetIn t then s else stopLanes s
  let s := if restart ∨ t = 6 then (List.range 8).foldl (sheafTransit restart) s else s
  let s := if t = 5 ∨ t = 6 then discardRequests s else s
  if t = 6 then winStop s else s

/-! ## A request -/

/-- Record who asked for what (R53). -/
def modeRecord (s : State) (i : Initiator) (lvl : Nat) (v : Word) : State :=
  rsetFld (rsetFld (rsetFld s Reg.sysModestat 12 10 (modeInit i)) Reg.sysModestat 9 8 lvl) Reg.sysModestat 6 4 (field v 2 0)

/-- One write taken as the request. -/
def modeJudge (i : Initiator) (lvl : Nat) (v : Word) (s : State) : State :=
  let s := modeRecord s i lvl v
  match modeRefusal s lvl v with
  | some r => rsetBit (rsetFld s Reg.sysModestat 3 0 r) Reg.sysModestat 15 true
  | none => modeAccept s (field v 2 0) (modeInit i)

/-- Of the writes of one cycle, the one with the initiator of highest priority (R57).  Log 32 (DESIGN CHOICE). -/
def modeFirst (l : List (Initiator × Word)) : Option (Initiator × Word) :=
  l.foldl (fun m w => match m with
    | some b => if modeInit w.1 < modeInit b.1 then some w else some b
    | none => some w) none

/-- The writes of one cycle to `SYS_MODEREQ` (R53, R57).  Log 32 (DESIGN CHOICE). -/
def modeWrites (l : List (Initiator × Word)) (s : State) : State :=
  let ok := l.filter fun w => modeLevel (levelOf s w.1)
  match modeFirst (if ok.isEmpty then l else ok) with
  | some (i, v) =>
    let s := if 1 < ok.length then rsetBit s Reg.sysModestat 7 true else s
    modeJudge i (levelOf s i) v s
  | none => s

/-! ## Completion (R54, R55, R508) -/

/-- What the transition waits for: the units that it stops have drained, and the sheaves that it restarts are ON.  Log 31 (DESIGN CHOICE). -/
def transitionReady (s : State) (t : Transition) : Bool :=
  (List.range 32).all (fun k => rfld s (Reg.tilStat k) 1 0 ≠ 3) &&
  (ethernetIn t.target || (List.range 2).all fun n => decide (rfld s (Reg.ethnStat n) 1 0 ≠ 3)) &&
  (decide (t.target = 2 ∨ t.target = 3) || s.sage.hands.all fun h => !h.out || h.eff) &&
  (if t.restart then t.up
   else if t.target = 6 then (List.range 8).all (fun n => shfState s n ≠ 3)
   else true)

/-- The transition completes: MODE names the target, and the Crown core starts at ENTRY of the running image.  Log 31 (DESIGN CHOICE). -/
def modeDone (s : State) : State :=
  match s.trans with
  | none => s
  | some t =>
    if ¬ transitionReady s t then s
    else
      let m := modeOf s
      let s := rset s Reg.sysMode (w16 (t.target + 16 * m + 256 * t.target))
      let s := rsetBit (rsetFld s Reg.sysModestat 3 0 1) Reg.sysModestat 15 true
      let s := startCrown { s with trans := none } s.boot.entry
      if ethernetIn t.target ∧ ¬ ethernetIn m then startLanes s else s

/-! ## The commands -/

/-- The writes that reach `SYS_MODEREQ` in one cycle (R53, R57). -/
def execModeRequest (writes : List (Initiator × Word)) (s : State) : Host.Outcome State Fault Refusal :=
  .next (modeWrites writes s)

/-- The transition in progress completes (R508). -/
def execModeTransitionComplete (s : State) : Host.Outcome State Fault Refusal := .next (modeDone s)

end Sys2Proof.Machine
end

