-- ==== Sys2Proof/Machine/Boot.lean ====
section
/-!
DEFINITION. The boot sequence (02_modes_and_start R69 to R72, R509; 04 R106, R107, R123; 10 R248 to R251; 11 R291;
18 R445; 19 R464).
-/

namespace Sys2Proof.Machine

/-- The boot sequence stands after step `k`, with no failure judged, and may go on. -/
def bootAt (s : State) (k : Nat) : Bool :=
  decide (s.boot.step = k) && !s.boot.failed && !s.power.lost && !s.power.resetLow && decide (modeOf s = 0)

/-- A step is complete. -/
def bootStep (s : State) (k : Nat) : State := { s with boot := { s.boot with step := k } }

/-! ## Steps 2 and 3 -/

/-- The first word of boot ROM.  Log 16 (DESIGN CHOICE). -/
def romEntry : Nat := 0x04000000

/-- Step 2: the PLLs are locked, the timebase starts from 0, and the Crown core fetches boot ROM in secure state.  Log 5 (DESIGN CHOICE). -/
def bootClocks (s : State) : State :=
  let c : CoreSt := { CoreSt.mk0 0x8000 with pc := BitVec.ofNat 32 romEntry, hold := .none }
  bootStep (bumpFree { s with
    time := { s.time with running := true, now := 0 }
    samplePhase := Config.samplePhase s.free % 8
    cores := s.cores.put 32 c }) 2

/-- The contents of boot ROM, in octets.  Log 16 (DESIGN CHOICE). -/
def romOctets : List Octet := unpackOctets ((List.range 32768).map Config.bootRom)

/-- Step 3: every memory of R63 holds zeros with valid check bits, and boot ROM is measured. -/
def bootZeroise (s : State) : State :=
  bootStep { s with mem := [], tlm := [], flt := { s.flt with bad := [], badRows := [] }, boot := { s.boot with mrom := sha256 romOctets } } 3

/-! ## Step 4 -/

/-- Registers that mirror fuses and the key tree (20 R482). -/
def loadMirrors (s : State) : State :=
  let f := s.fuses
  let put := fun (s : State) (a : Nat) (o : List Octet) => (packOctets o).zipIdx.foldl (fun s e => rset s (a + e.2) e.1) s
  let s := rsetGroup s Reg.keyDevid 4 f.devid
  let s := rset s Reg.keyChipnum (w16 (f.chipnum % 16384))
  let s := rset (rset s Reg.keyCtrimg (w16 f.image)) Reg.keyCtrmsg (w16 f.msg)
  let s := rset s Reg.keyLockuse (w16 f.lock)
  let s := rsetFld s Reg.keyStat 5 3 ((ownerLocked s).toNat + 2 * (!f.owner.isEmpty).toNat + 4 * (!f.maker.isEmpty).toNat)
  put (put s (Reg.keyApub 0) (ecPublic (deviceKey s 0x8001))) (Reg.keyXpub 0) (ecPublic (deviceKey s 0x8002))

/-- The gate is loaded with the profile in force and the worst-case aerial gain (R107, R461). -/
def loadProfile (s : State) : State :=
  match slotInForce s with
  | some k =>
    let s := (s.fuses.profiles.getD k []).zipIdx.foldl (fun s e => rset s (Reg.rglProf e.2) e.1) s
    let s := rsetFld s Reg.rglStat 7 4 (((usedSlots s).map (2 ^ ·)).sum)
    (List.range 8).foldl gainRefresh (rsetFld s Reg.rglStat 3 2 k)
  | none => s

/-- The octets of the IDENT file (18 R445).  Log 21 (DEDUCED). -/
def identOctets (s : State) : List Octet :=
  padOctets 96 (octetsLE 8 s.fuses.devid ++ octetsLE 2 (s.fuses.chipnum % 16384) ++ ecPublic (deviceKey s 0x8001))

/-- Each hidden page that differs from the fuse values is committed (18 R445).  Log 21 (DEDUCED). -/
def identCommits (s : State) : State :=
  let o := identOctets s
  (List.range 3).foldl (fun s k =>
    let d := slice o (32 * k) 32
    if pageData s (256 + k) = d then s else askCommit s { page := 256 + k, src := 2, data := d }) s

/-- The per-boot seeds of the session lookup and of the Granary bank mix are drawn (10 R251): numbers that no earlier boot has
used.  Log 17 (DEDUCED). -/
def drawSeed (s : State) : State :=
  let n := (s.free + 1) * 2 ^ 32
  bumpFree { s with ses := { s.ses with drawn := n, seedNo := n }, win := { s.win with mix := n + 2 ^ 31 } }

/-- A boot failure is recorded (R72).  Log 18 (DEDUCED). -/
def bootErr (s : State) (e : Nat) : State := rsetFld s Reg.sysBootstat 11 8 e

/-- The panel reader starts by itself (18 R456). -/
def readerStart (s : State) : State := if enOf s .nfr ∧ stateOf s .nfr = 0 then nfrBegin s else s

/-- Step 4: fuses and profile are read, the boot fence is committed, the panel reader starts.  Log 18 (DEDUCED). -/
def bootFuses (s : State) : State :=
  let s := bootStep (fenceCommit (fenceStage s bootFence)) 4
  if ¬ s.fuses.intact ∨ ¬ profilesOk s.fuses.profiles then
    let s := bootErr (readerStart s) 5
    { s with boot := { s.boot with failed := true } }
  else
    let s := identCommits (loadProfile (loadMirrors (drawSeed s)))
    let unprov := decide (s.fuses.devid = 0) || !slotUsed (s.fuses.profiles.getD 0 [])
    readerStart (if unprov then bootErr s 3 else s)

/-! ## Steps 5 and 6 -/

/-- The image of a bank is loaded, verified and its fence table committed: whether all of it went well (R72). -/
def tryBank (s : State) (b : Nat) : Bool × State :=
  if ¬ imgFormOk s b then (false, s)
  else
    let s := loadSections s b
    if imgSigned s b ∧ imgFenceAt s b + 768 ≤ bankSize s then commitImageFence s b else (false, s)

/-- The bank that boots, the other one tried after the active one (R72, R464). -/
def bootBank (s : State) : Option Nat × State :=
  match activeBank s with
  | none => (none, s)
  | some b =>
    match tryBank s b with
    | (true, s) => (some b, s)
    | (false, s) =>
      let o := 1 - b
      if ¬ bankEligible s o then (none, s)
      else
        match tryBank (bootErr s 1) o with
        | (true, s) => (some o, s)
        | (false, s) => (none, s)

/-- The first step 6 reached while the load is armed loads `SYS_BOOTCFG` from the image header (R71). -/
def loadBootcfg (s : State) (b : Nat) : State :=
  if s.boot.armed then
    let s := rset s Reg.sysBootcfg (w16 (bankNum s b 6 2) &&& 0x001F)
    { s with boot := { s.boot with armed := false } }
  else s

/-- Steps 5 and 6: an image is loaded, or PROVISION is entered; then the hold point.  Log 17 (DEDUCED), 19 (DEDUCED). -/
def bootImage (s : State) : State :=
  if rfld s Reg.sysBootstat 11 8 = 3 then enterProvision s 3
  else
    let s := rejectTrials s
    let s := rset (rsetFld s Reg.xspStat 2 1 (if s.xsp.slow then 1 else 3)) Reg.xspSize (w16 s.xsp.mib)
    match bootBank s with
    | (none, s) => enterProvision s 2
    | (some b, s) =>
      let s := bootStep (loadBootcfg (nameImage s b) b) 6
      if rbit s Reg.sysBootcfg 4 then rsetBit s Reg.sysBootstat 5 true else leaveHold s

/-! ## Steps 7 to 9 -/

/-- Step 7: the gate is armed, and the outputs follow their configuration. -/
def bootArm (s : State) : State :=
  let s := rsetBit s Reg.rglStat 0 true
  bootStep { s with power := { s.power with quiet := false } } 7

/-- Boot ROM enables the radio with the values that the registers hold (R509), and Winnow starts (07 R192). -/
def radioStart (s : State) : State :=
  if ¬ rxOn s.boot.target then s
  else
    let s := { s with boot := { s.boot with radio := true } }
    let s := (List.range 8).foldl (fun s n => shfCtlWrite n (setBit (rget s (Reg.shfCtl n)) 0 true) s) s
    let s := (List.range 64).foldl (fun s p => prtCtlWrite p (setBit (rget s (Reg.prtCtl p)) 0 true) s) s
    let s := (List.range 8).foldl (fun s n => awnCtlWrite n (setField (rget s (Reg.awnCtl n)) 1 0 1) s) s
    winStart s

/-- What step 8 waits for where the target mode's receive path is on: boot ROM has enabled the radio (R509), every sheaf has left
STARTING, and so has every port of a sheaf that is ON (R69). -/
def radioReady (s : State) : Bool :=
  (!rxOn s.boot.target || s.boot.radio) && ((List.range 8).all fun n => shfState s n ≠ 1) &&
  (List.range 64).all fun p => decide (prtState s p ≠ 1 ∨ shfState s (sheafOf p) ≠ 2)

/-- Step 8 is complete: `CALDONE`.  Log 17 (DEDUCED). -/
def stepEight (s : State) : State := bootStep (rsetBit s Reg.sysBootstat 6 true) 8

/-- Step 9: the target mode is entered; the Crown core leaves boot ROM for the image (R55), or stays there in
PROVISION.  Log 17 (DEDUCED). -/
def bootTarget (s : State) : State :=
  let m := s.boot.target
  let s := bootStep (rset s Reg.sysMode (w16 (m + 256 * m))) 9
  if m = 1 then fenceCommit (fenceStage s provisionFence)
  else startCrown (stopTillers s) s.boot.entry

/-! ## The commands -/

/-- Boot step 2 (R69). -/
def execBootPllLock (s : State) : Host.Outcome State Fault Refusal := .next (if bootAt s 1 then bootClocks s else s)

/-- Boot step 3 (R63, R69). -/
def execBootMemoryZeroise (s : State) : Host.Outcome State Fault Refusal := .next (if bootAt s 2 then bootZeroise s else s)

/-- Boot step 4 (R69, R106, R251, R291). -/
def execBootFuseRead (s : State) : Host.Outcome State Fault Refusal := .next (if bootAt s 3 then bootFuses s else s)

/-- Boot steps 5 and 6 (R69, R71, R72). -/
def execBootImageLoad (s : State) : Host.Outcome State Fault Refusal := .next (if bootAt s 4 then bootImage s else s)

/-- Boot step 7 (R69), once boot ROM has left the hold point. -/
def execBootGateArm (s : State) : Host.Outcome State Fault Refusal :=
  .next (if bootAt s 6 ∧ ¬ rbit s Reg.sysBootstat 5 then bootArm s else s)

/-- Boot ROM starts the radio at step 8, once (R509). -/
def execBootRadioStart (s : State) : Host.Outcome State Fault Refusal := .next (if bootAt s 7 ∧ ¬ s.boot.radio then radioStart s else s)

/-- Step 8 completes once every sheaf and port has started; with `STARTCAL` = 1 start-up calibration has run, and `vals`
are the values it measured, in the order of R123. -/
def execStartupCalibration (vals : List CalValues) (s : State) : Host.Outcome State Fault Refusal :=
  .next (
    if bootAt s 7 ∧ radioReady s then
      stepEight (if s.boot.startcal ∧ rxOn s.boot.target then ((List.range 8).foldl startupSheaf (s, vals)).1 else s)
    else s)

/-- Boot step 9 (R55, R69). -/
def execBootTargetEntry (s : State) : Host.Outcome State Fault Refusal :=
  .next (
    if bootAt s 8 then bootTarget s
    else if bootAt s 7 ∧ ¬ s.boot.startcal ∧ radioReady s then bootTarget (stepEight s)
    else s)

end Sys2Proof.Machine
end

