-- ==== Sys2Proof/Machine/Bus.lean ====
section
/-!
DEFINITION. Every register as it is written and read (00_scope R5 to R16; 20_address_map R477, R483): which block's
operation a write reaches, the values that are not held but show other state, and the reads that act.
-/

namespace Sys2Proof.Machine

/-! ## Addresses -/

/-- The window of an address, and its offset there (R477). -/
abbrev winOf (a : Nat) : Nat := a / 0x10000
/-- The offset in the window. -/
abbrev offOf (a : Nat) : Nat := a % 0x10000

/-- The block whose control register stands at an address (02 R73). -/
def blockAt (a : Nat) : Option BlockId :=
  let o := offOf a
  match winOf a with
  | 0x1010 => if o % 256 = 0 ∧ o / 256 < 64 then some (.prt (Fin.ofNat 64 (o / 256))) else none
  | 0x1011 => if o % 256 = 0 ∧ o / 256 < 8 then some (.shf (Fin.ofNat 8 (o / 256))) else none
  | 0x1013 => if o % 256 = 0 ∧ 16 ≤ o / 256 ∧ o / 256 < 24 then some (.awn (Fin.ofNat 8 (o / 256 - 16))) else none
  | 0x1020 => if o % 16 = 0 ∧ o / 16 < 8 then some (.hed (Fin.ofNat 8 (o / 16))) else none
  | 0x1016 => if o = 0 then some .lnk else none
  | 0x1019 => if o % 16 = 0 ∧ 16 ≤ o / 16 ∧ o / 16 < 48 then some (.til (Fin.ofNat 32 (o / 16 - 16))) else none
  | 0x101B => if o = 0x100 ∨ o = 0x140 then some (.eth (Fin.ofNat 2 ((o - 0x100) / 64))) else none
  | 0x101A => if o = 0x100 ∨ o = 0x140 then some (.usl (Fin.ofNat 2 ((o - 0x100) / 64))) else none
  | 0x1004 => if o % 8 = 0 ∧ 32 ≤ o / 8 ∧ o / 8 < 64 then some (.tmr (Fin.ofNat 32 (o / 8 - 32))) else none
  | 0x101F => if o = 0 then some .nfr else none
  | _ => none

/-! ## Writes -/

/-- A write of a register with no effect of its own: a group's word is staged or commits (R7), another is written.  Log 95 (DESIGN CHOICE). -/
def plainWrite (i : Initiator) (a : Nat) (v : Word) (s : State) : State :=
  if (groupOf a).2 > 1 then groupWrite s i a v else rwrite s a v

/-- Counter registers are cleared. -/
def clearRegs (l : List Nat) (s : State) : State := l.foldl (fun s a => rset s a 0) s

/-- The FEN block: only L0 writes; another level is refused as the fixed rule states (11 R286, R289).  Log 12 (DESIGN CHOICE). -/
def fenWrite (i : Initiator) (lvl a : Nat) (v : Word) (s : State) : State :=
  if lvl ≠ 0 then fenceRefuse s (initIndex i) lvl accWrite a 2
  else if a = Reg.fenCommit then fenCommitWrite v s
  else plainWrite i a v s

/-- The INT block (17 R426, R433). -/
def intWrite (lvl a : Nat) (v : Word) (s : State) : State :=
  if Reg.intCfg 0 ≤ a ∧ a ≤ Reg.intCfg 255 then intCfgWrite lvl (a - Reg.intCfg 0) v s
  else if a = Reg.intXcomp0 then extComplete s 0 v
  else if a = Reg.intXcomp1 then extComplete s 1 v
  else rwrite s a v

/-- The AES block: `CLRCNT` clears every `AESk_NMIS`. -/
def aesWrite (a : Nat) (v : Word) (s : State) : State :=
  if a = Reg.aesCtl then (if bit v 0 then clearRegs ((List.range 5).map Reg.aesNmis) s else s) else rwrite s a v

/-- The TBS block (14 R367 to R371). -/
def tbsWrite (i : Initiator) (a : Nat) (v : Word) (s : State) : State :=
  if a = Reg.tbsCtl then tbsCtlWrite v s
  else if a = Reg.tbsRate ∨ a = Reg.tbsRate + 1 then rateWrite i a v s
  else if Reg.tbsStep ≤ a ∧ a ≤ Reg.tbsStep + 3 then stepWrite i a v s
  else plainWrite i a v s

/-- The RGL block: `CLRCNT` clears both counters. -/
def rglWrite (a : Nat) (v : Word) (s : State) : State :=
  if a = Reg.rglCtl then (if bit v 0 then clearRegs [Reg.rglNrefuse, Reg.rglNclamp] s else s) else rwrite s a v

/-- The PRT block beside `PRTp_CTL`. -/
def prtWrite (a : Nat) (v : Word) (s : State) : State :=
  let p := offOf a / 256
  if 64 ≤ p then s
  else if offOf a % 256 = 2 then gainWrite p v s
  else if offOf a % 256 = 4 then tuneWrite p v s
  else rwrite s a v

/-- The CAL block (04 R114 to R121). -/
def calWrite (i : Initiator) (lvl a : Nat) (v : Word) (s : State) : State :=
  if a = Reg.calReq then calReqWrite v s
  else if 0x100 ≤ offOf a then calKeepWrite lvl a v s
  else plainWrite i a v s

/-- The SPK block. -/
def spkWrite (a : Nat) (v : Word) (s : State) : State :=
  if a = Reg.spkCtl then spkCtlWrite v s
  else if 0x100 ≤ offOf a ∧ offOf a < 0x180 ∧ offOf a % 16 = 0 then spkResWrite ((offOf a - 0x100) / 16) v s
  else rwrite s a v

/-- The WIN block (07 R181, R182). -/
def winWrite (i : Initiator) (a : Nat) (v : Word) (s : State) : State :=
  if a = Reg.winHor then sagePump (winHorWrite v s)
  else if a = Reg.winCtl then winCtlWrite v s
  else plainWrite i a v s

/-- The SAG block: `CLRCNT` clears the counters. -/
def sagWrite (a : Nat) (v : Word) (s : State) : State :=
  let s := rwrite s a v
  if a = Reg.sagCtl ∧ bit v 5 then clearRegs ((List.range 6).map (Reg.sagNmig + ·)) s else s

/-- `TILt_LMADDR` advances by 1, 0xFFFF to 0 (11 R269). -/
def lmNext (s : State) (t : Nat) : State := rset s (Reg.tilLmaddr t) (rget s (Reg.tilLmaddr t) + 1)

/-- A write to `TILt_LMDATA` (11 R269); a word written over an uncorrectable error heals nothing. -/
def lmWrite (t : Nat) (v : Word) (s : State) : State :=
  if rfld s (Reg.tilStat t) 1 0 = 0 then lmNext (lset s t (rget s (Reg.tilLmaddr t)).toNat v) t
  else evt s (Reg.tilEvt t) 4

/-- A read of `TILt_LMDATA` (11 R269). -/
def lmRead (t : Nat) (s : State) : Word × State :=
  if rfld s (Reg.tilStat t) 1 0 = 0 then (lget s t (rget s (Reg.tilLmaddr t)).toNat, lmNext s t)
  else (0, evt s (Reg.tilEvt t) 4)

/-- The TIL block beside `TILt_CTL` (11 R269, R279). -/
def tilWrite (i : Initiator) (lvl a : Nat) (v : Word) (s : State) : State :=
  let o := offOf a
  if a = Reg.tilCsplit ∨ a = Reg.tilStallmax then (if lvl = 0 then rwrite s a v else s)
  else if 0x100 ≤ o ∧ o < 0x300 ∧ o % 16 = 9 then lmWrite ((o - 0x100) / 16) v s
  else plainWrite i a v s

/-- The USL block beside `USLn_CTL`. -/
def uslWrite (lvl a : Nat) (v : Word) (s : State) : State :=
  if a = Reg.uslCkey then (if lvl = 0 then rwrite s a v else s)
  else
    let s := rwrite s a v
    if a = Reg.uslCtl ∧ bit v 1 then
      clearRegs ([Reg.uslNcontrib, Reg.uslNlatesum, Reg.uslNnoann] ++ [0, 1].flatMap fun n => [Reg.uslnNretry n, Reg.uslnNcrc n]) s
    else s

/-- The ETH block beside `ETHn_CTL`. -/
def ethWrite (i : Initiator) (lvl a : Nat) (v : Word) (s : State) : State :=
  if a = Reg.ethCtl then ethCtlWrite v s
  else if a = Reg.ethMkey then (if lvl = 0 then rwrite s a v else s)
  else plainWrite i a v s

/-- The XSP block. -/
def xspWrite (i : Initiator) (lvl a : Nat) (v : Word) (s : State) : State :=
  if a = Reg.xspGo then xspGo i lvl v s else plainWrite i a v s

/-- The HED block beside `HEDn_CTL`. -/
def hedBlockWrite (a : Nat) (v : Word) (s : State) : State :=
  let o := offOf a
  if o < 0x80 then hedWrite a (o / 16) v s
  else if 0x100 ≤ o ∧ o < 0x200 ∧ o % 4 = 1 then afclrWrite ((o - 0x100) / 4) v s
  else rwrite s a v

/-- A write at a level to the register at an address of a block window; the fence has let it through.  Log 11 (DESIGN CHOICE), 12 (DESIGN CHOICE), 97 (DESIGN CHOICE). -/
def regWrite (i : Initiator) (lvl a : Nat) (v : Word) (s : State) : State :=
  match blockAt a with
  | some b => blockWrite b v s
  | none =>
    match winOf a with
    | 0x1000 => if a = Reg.sysModereq then modeJudge i lvl v s else sysWrite lvl a v s
    | 0x1001 => fenWrite i lvl a v s
    | 0x1002 => intWrite lvl a v s
    | 0x1003 => stlWrite a v s
    | 0x1004 => tmrWrite i a v s
    | 0x1005 => rtcWrite i lvl a v s
    | 0x1006 => keyWrite i lvl a v s
    | 0x1007 => aesWrite a v s
    | 0x1008 => updWrite i lvl a v s
    | 0x1009 => fltWrite a v s
    | 0x100A => tbsWrite i a v s
    | 0x100B => rglWrite a v s
    | 0x1010 => prtWrite a v s
    | 0x1012 => calWrite i lvl a v s
    | 0x1014 => spkWrite a v s
    | 0x1015 => winWrite i a v s
    | 0x1016 => lnkWrite i a v s
    | 0x1017 => sesRegWrite lvl a v s
    | 0x1018 => sagWrite a v s
    | 0x1019 => tilWrite i lvl a v s
    | 0x101A => uslWrite lvl a v s
    | 0x101B => ethWrite i lvl a v s
    | 0x101C => hspWrite a v s
    | 0x101D => xspWrite i lvl a v s
    | 0x101E => nftWrite lvl a v s
    | 0x1020 => hedBlockWrite a v s
    | _ => plainWrite i a v s

/-! ## What the registers show -/

/-- A word whose bit `b` is a condition on `16 k + b`. -/
def bitsWord (k : Nat) (p : Nat → Bool) : Word := w16 (((List.range 16).map fun b => if p (16 * k + b) then 2 ^ b else 0).sum)

/-- `TILt_STAT` as it reads (11, TIL registers); DETACT shows the status word while the Tiller is not OFF.  Log 80 (DESIGN CHOICE). -/
def tilStatView (s : State) (t : Nat) : Word :=
  let c := s.core t
  let q := match c.hold with
    | .queue q => 16 + 32 * q
    | _ => 0
  let st := rfld s (Reg.tilStat t) 1 0
  w16 (st + 4 * (field c.sr 11 11) + (if st = 0 then 0 else 8 * field c.sr 12 12) + q)

/-- `TIL_CSTAT` as it reads. -/
def cstatView (s : State) : Word :=
  let c := s.core 32
  w16 (field c.sr 15 15 + 2 * field c.sr 11 11 + 4 * rfld s Reg.tilCstat 2 2)

/-- `SAG_QRES` as it reads. -/
def qresView (s : State) : Word :=
  match placeOf s (rget s Reg.sagQsess).toNat with
  | some p => w16 (0x8000 + 0x4000 * (s.sage.moves.any fun m => m.session = p.session).toNat + p.core)
  | none => 0

/-- Registers of one word that show other state.  Log 36 (DESIGN CHOICE). -/
def liveWord (s : State) (a : Nat) : Option Word :=
  let o := offOf a
  match winOf a with
  | 0x1000 => if a = Reg.sysBootstat then some (setField (rget s a) 3 0 s.boot.step) else none
  | 0x1001 => if a = Reg.fenStat then some (setBit (rget s a) 15 (fenDirty s)) else none
  | 0x1002 =>
    if 0x10 ≤ o ∧ o < 0x20 then some (bitsWord (o - 0x10) fun n => decide (n < 144) && srcPending s n)
    else if 0x20 ≤ o ∧ o < 0x30 then some (bitsWord (o - 0x20) (srcActive s))
    else none
  | 0x1003 => if 0x400 ≤ o ∧ o < 0x480 ∧ o % 4 = 3 then some (w16 (s.stl.cells.nth ((o - 0x400) / 4) {}).out.toNat) else none
  | 0x1004 =>
    if a = Reg.tmrStat then some (w16 ((lfRunning s).toNat + 2 * (decide ((s.core 32).hold = .halted)).toNat))
    else if 0x100 ≤ o ∧ o < 0x200 ∧ o % 8 = 1 then some (tmrStat s ((o - 0x100) / 8))
    else none
  | 0x1006 => if a = Reg.keyStat then some (keyStat s) else none
  | 0x1007 =>
    if a = Reg.aesMstat then
      some (setBit (setField (rget s a) 8 0 s.key.modes.length) 15 (!s.key.modes.isEmpty))
    else none
  | 0x1008 => if a = Reg.updRemain then some (w16 (updRemain s)) else none
  | 0x1009 =>
    if a = Reg.fltStat then some (fltStat s)
    else if a = Reg.fltSparemin then some (spareMin s)
    else if 0x20 ≤ o ∧ o < 0x2C then some ((s.flt.recs.headD []).getD (o - 0x20) 0)
    else none
  | 0x100A => if a = Reg.tbsStat then some (setBit (rget s a) 0 (disciplined s)) else none
  | 0x1014 =>
    if a = Reg.spkStat then some (w16 s.spks.length)
    else if a = Reg.spkDecbusy then some (decBusy s)
    else if 0x100 ≤ o ∧ o < 0x180 ∧ o % 16 = 2 then some (w16 (actOf s ((o - 0x100) / 16)))
    else none
  | 0x1015 =>
    if a = Reg.winHeld then some (w16 (min 0xFFFF s.win.held.length))
    else if 0x100 ≤ o ∧ o < 0x200 ∧ o % 16 = 2 then some (w16 (freeCount s ((o - 0x100) / 16)))
    else none
  | 0x1016 => if a = Reg.lnkTxq then some (w16 s.lnk.reqs.length) else none
  | 0x1018 =>
    if a = Reg.sagNe then some (w16 (sageNe s))
    else if a = Reg.sagStat then
      some (setField (rget s a) 5 0 ((List.range 32).filter (eligible s)).length)
    else if a = Reg.sagQres then some (qresView s)
    else if a = Reg.sagDirn then some (w16 (min 0xFFFF s.sage.dir.length))
    else if 0x140 ≤ o ∧ o < 0x160 then some (w16 (s.sage.places.filter fun p => p.core = o - 0x140).length)
    else none
  | 0x1019 =>
    if a = Reg.tilCstat then some (cstatView s)
    else if 0x100 ≤ o ∧ o < 0x300 ∧ o % 16 = 1 then some (tilStatView s ((o - 0x100) / 16))
    else if 0x100 ≤ o ∧ o < 0x300 ∧ o % 16 = 10 then some (w16 (heldCount s ((o - 0x100) / 16)))
    else none
  | 0x101C => if a = Reg.hspRxcnt then some (w16 s.eth.hostq.length) else none
  | 0x101E =>
    if s.power.lost then some 0
    else if a = Reg.nftStat then some (nftStat s)
    else if a = Reg.nftNvcfg then some s.tag.nv
    else none
  | 0x101F => if a = Reg.nfrStat then some (nfrStat s) else none
  | 0x1020 => if o < 0x80 ∧ o % 16 = 2 then some (if hedDriven s (o / 16) then w16 (Config.openValue 128 (s.free + o)) else 0) else none
  | _ => none

/-- The current airtime bucket's sum for a band (08 R218). -/
def airShown (s : State) (b : Nat) : Nat := airUsed s b (shadow s / bucketTicks s b)

/-- Groups that show other state: base and words. -/
def liveGroup (s : State) (a : Nat) : Option (Nat × List Word) :=
  let o := offOf a
  match winOf a with
  | 0x100A => if 4 ≤ o ∧ o < 8 then some (Reg.tbsNow, wordsOf 4 (shadow s)) else none
  | 0x1016 =>
    if 0xC ≤ o ∧ o < 0x10 then some (Reg.lnkAsn, wordsOf 4 (if lnkOn s then asnAt s (shadow s) else 0))
    else if 0x200 ≤ o ∧ o < 0x220 ∧ o % 4 ≤ 1 then
      some (Reg.lnkAirUsed ((o - 0x200) / 4), wordsOf 2 (airShown s ((o - 0x200) / 4)))
    else none
  | 0x1018 => if o = 6 ∨ o = 7 then some (Reg.sagEpoch, wordsOf 2 (epochAt s (shadow s))) else none
  | _ => none

/-! ## Reads -/

/-- The register or group word at an address, latching as R5 and R6 state; an unlisted address reads 0 (R14).  Log 95 (DESIGN CHOICE). -/
def plainRead (i : Initiator) (a : Nat) (s : State) : Word × State :=
  match liveWord s a with
  | some w => (w, s)
  | none =>
    match liveGroup s a with
    | some (b, ws) => groupRead s i b (a - b) ws
    | none =>
      let g := groupAt s a
      if g.2 > 1 then groupRead s i g.1 (a - g.1) ((List.range g.2).map fun k => rget s (g.1 + k))
      else (if (regAt a).isSome then rget s a else 0, s)

/-- A read of the register at an address of a block window: the value, and what the read changes. -/
def regRead (i : Initiator) (a : Nat) (s : State) : Word × State :=
  let o := offOf a
  if a = Reg.intXclaim0 then extClaim s 0
  else if a = Reg.intXclaim1 then extClaim s 1
  else if Reg.tmrnCap 0 ≤ a ∧ a ≤ Reg.tmrnCap 31 then capRead i (a - Reg.tmrnCap 0) s
  else if a = Reg.tbsPpscap then
    let r := plainRead i a s
    (r.1, ppsCapRead r.2)
  else if winOf a = 0x1019 ∧ 0x100 ≤ o ∧ o < 0x300 ∧ o % 16 = 9 then lmRead ((o - 0x100) / 16) s
  else if a = Reg.hspRxpop then rxPop i s
  else if Reg.hspRxpop < a ∧ a ≤ Reg.hspRxpop + 3 then
    (let ws : List Word := match s.eth.hostq with
      | e :: _ => [w16 e.hold.gmeta, w16 (e.fld 1 13 12), e.words.getD 2 0, 0]
      | [] => [0xFFFF, 0, 0, 0]
     groupRead s i Reg.hspRxpop (a - Reg.hspRxpop) ws)
  else if a = Reg.nftWdata then
    (if s.power.lost then (0, s)
     else
       let r := windowRead s
       (r.1, r.2.2))
  else plainRead i a s

/-- A register read's value as the model shows it outwards. -/
def showRead (r : Word × State) : State := { r.2 with out := { r.2.out with read := r.1 } }

/-! ## Bridges (01 R31) -/

/-- A block that stands behind a register bridge, by bits 27:16 of its base.  Log 65 (DESIGN CHOICE). -/
def bridged (b : Nat) : Bool := b = 0x005 ∨ b = 0x01A ∨ b = 0x01B ∨ b = 0x01E ∨ b = 0x01F

/-- An access that has waited 10,000 FAB cycles ends: a read with 0, a write without effect.  The access of the initiator to that
block which is under way, or its next one, is the one that has ended.  Log 65 (DESIGN CHOICE). -/
def bridgeEnds (b : Nat) (i : Initiator) (write : Bool) (s : State) : State :=
  if ¬ bridged b then s
  else
    let s := fault s { cls := 5, lasting := false, action := 9, typ := 5, inst := b, init := initIndex i }
    let s := { s with flt := { s.flt with ended := s.flt.ended ++ [(initIndex i, b, write)] } }
    if write then s else showRead (0, s)

/-- The mark of an ended access to a register. -/
def endMark (i : Initiator) (a : Nat) (write : Bool) : Nat × Nat × Bool := (initIndex i, winOf a % 0x1000, write)

/-- The access has ended by timeout: it takes its mark along. -/
def accessEnded (s : State) (i : Initiator) (a : Nat) (write : Bool) : Option State :=
  if s.flt.ended.contains (endMark i a write) then
    some { s with flt := { s.flt with ended := s.flt.ended.erase (endMark i a write) } }
  else none

/-! ## The commands -/

/-- A register-bridge access ends by timeout (R31). -/
def execBridgeTimeout (block : Nat) (i : Initiator) (write : Bool) (s : State) : Host.Outcome State Fault Refusal :=
  .next (bridgeEnds block i write s)

/-- An access to `TILt_LMDATA`: a write of `v`, or a read (11 R269). -/
def execLocalMemoryAccess (_i : Initiator) (t : Fin 32) (v : Option Word) (s : State) : Host.Outcome State Fault Refusal :=
  .next (match v with
    | some w => lmWrite t w s
    | none => showRead (lmRead t s))

/-- A write that clears a block's counters: the register at `a` holds a `CLRCNT` or `CLRCLIP` bit. -/
def execCounterClear (i : Initiator) (a : Nat) (v : Word) (s : State) : Host.Outcome State Fault Refusal :=
  .next (regWrite i (levelOf s i) a v s)

/-- A write to `SPK_CTL` with `CLRPEAK` (06 R161). -/
def execPeakClear (_i : Initiator) (v : Word) (s : State) : Host.Outcome State Fault Refusal :=
  .next (spkCtlWrite (setBit v 2 true) s)

/-- A write to `WIN_CTL` with `CLRMIN` (07 R182). -/
def execMinClear (_i : Initiator) (v : Word) (s : State) : Host.Outcome State Fault Refusal :=
  .next (winCtlWrite (setBit v 1 true) s)

end Sys2Proof.Machine
end

