-- ==== Sys2Proof/Machine/Flags.lean ====
section
/-!
DEFINITION. Conditions, carries, saturation and accumulator results of Oathano (12_oathano_isa R294, R304, R305).
-/

namespace Sys2Proof.Machine

/-- A 40-bit accumulator. -/
abbrev Acc := BitVec 40

/-- sat16 (R294). -/
def sat16 (v : Int) : Word := i16 (clampInt (-32768) 32767 v)

/-- The condition COND of a compare on `s` and `t` (R305). -/
def condHolds (cond : Nat) (s t : Word) : Bool :=
  match cond with
  | 0 => decide (s = t)
  | 1 => decide (s ≠ t)
  | 2 => s.slt t
  | 3 => !s.slt t
  | 4 => s.ult t
  | 5 => !s.ult t
  | 6 => t.slt s
  | 7 => !t.slt s
  | 8 => t.ult s
  | 9 => !t.ult s
  | 10 => decide (s &&& t ≠ 0)
  | 11 => decide (s &&& t = 0)
  | _ => false

/-- The predicate a compare leaves by its MODE (R305): SET, NSET, AND, OR. -/
def predUpdate (mode : Nat) (p c : Bool) : Bool :=
  match mode with
  | 0 => c
  | 1 => !c
  | 2 => p && c
  | _ => p || c

/-- The 17-bit sum of a carry instruction: bits 15:0 the result, bit 16 the carry out (R304). -/
def carrySum (sub : Bool) (s t : Word) (carry : Bool) : Nat := s.toNat + (if sub then ~~~t else t).toNat + carry.toNat

/-- rnd(a, n): rounded, shifted right and saturated (R304).  Log 78 (DESIGN CHOICE). -/
def accRound (a : Acc) (n : Nat) : Word := sat16 ((a.toInt + (if 0 < n then 2 ^ (n - 1) else 0)) / 2 ^ n)

/-- The signed product of two words. -/
def mulS (s t : Word) : Int := s.toInt * t.toInt

/-- The unsigned product of two words. -/
def mulU (s t : Word) : Int := ((s.toNat * t.toNat : Nat) : Int)

/-- An integer as an accumulator value, modulo 2^40 (R294). -/
def acc (v : Int) : Acc := BitVec.ofInt 40 v

/-- Bit order reversed. -/
def bitRev (w : Word) : Word := w16 (((List.range 16).map fun k => if bit w k then 2 ^ (15 - k) else 0).sum)

/-- Two words as an address register, the low word first. -/
def joinWords (lo hi : Word) : DWord := BitVec.ofNat 32 (lo.toNat + 65536 * hi.toNat)

end Sys2Proof.Machine
end

