-- ==== Sys2Proof/Machine/Operands.lean ====
section
/-!
DEFINITION. Syllables and bundles of Oathano as they are decoded (12_oathano_isa R295 to R304): instructions, operand fields,
fields that must be 0, destinations, extensions and immediates.
-/

namespace Sys2Proof.Machine

/-- The instructions of R304. -/
inductive Mnem where
  | nop | add | sub | and | or | xor | andn | shl | shr | sar | rol | min | max | minu | maxu | adds | subs
  | addc | subc | addco | subco | neg | negs | abss | not | clz | popc | brev | bswap | sext8 | zext8 | sel
  | addi | andi | ori | xori | shli | shri | sari | movi | cmp | cmpi | pand | por | pxor | mfp | mtp
  | mull | mulhs | mulhu | mulq | mpy | mac | msu | mpyu | macu | clra | lda | cmpy | cmac | cmacj | cmsu | rda | crda
  | ld | st | ldd | std | ldx | stx | lea | xli | xset | xget | xadd | xaddx | xsub | axch | aadd
  | br | call | jr | callr | dbnz | qpop | qpush | qtry | aes | mfc | mtc | scall | sret | reti | rett | trap | sync | wait | brk
  deriving DecidableEq, Repr

/-- A syllable (R295): its two words. -/
structure Syl where
  w0 : Word
  w1 : Word
  deriving DecidableEq, Repr

/-- STOP. -/
def Syl.stop (y : Syl) : Bool := bit y.w0 15
/-- SLOT. -/
def Syl.slot (y : Syl) : Nat := field y.w0 14 13
/-- G. -/
def Syl.guard (y : Syl) : Nat := field y.w0 12 10
/-- NG. -/
def Syl.neg (y : Syl) : Bool := bit y.w0 9
/-- OP. -/
def Syl.op (y : Syl) : Nat := field y.w0 8 3
/-- The operand field O. -/
def Syl.o (y : Syl) : Nat := field y.w0 2 0 * 65536 + y.w1.toNat
/-- An extension (R302). -/
def Syl.isExt (y : Syl) : Bool := decide (y.op = 0x3F)
/-- TGT of an extension. -/
def Syl.tgt (y : Syl) : Nat := field y.w0 12 11
/-- HALF of an extension. -/
def Syl.half (y : Syl) : Nat := field y.w0 0 0

/-! ## Fields of O (R296) -/

/-- O[hi:lo]. -/
def oF (o hi lo : Nat) : Nat := o / 2 ^ lo % 2 ^ (hi + 1 - lo)
/-- FN or COND. -/
def oFn (o : Nat) : Nat := oF o 18 15
/-- D of formats A and C. -/
def oD (o : Nat) : Nat := oF o 14 10
/-- S of formats A, C, P, AC and E. -/
def oS (o : Nat) : Nat := oF o 9 5
/-- T of formats A, C, P and AC. -/
def oT (o : Nat) : Nat := oF o 4 0
/-- D of formats I, M and N. -/
def oDi (o : Nat) : Nat := oF o 18 14
/-- S of format I. -/
def oSi (o : Nat) : Nat := oF o 13 9
/-- IMM9. -/
def oImm9 (o : Nat) : Nat := oF o 8 0
/-- CP of format C. -/
def oCp (o : Nat) : Nat := oF o 18 16
/-- PD of formats P and L. -/
def oPd (o : Nat) : Nat := oF o 14 12
/-- MODE of format P. -/
def oMode (o : Nat) : Nat := oF o 11 10
/-- AS of format AC. -/
def oAs (o : Nat) : Nat := oF o 14 14
/-- X of format M. -/
def oXm (o : Nat) : Nat := oF o 13 11
/-- AM of format M. -/
def oAm (o : Nat) : Nat := oF o 10 9
/-- QN of format Q. -/
def oQn (o : Nat) : Nat := oF o 18 15
/-- X of formats Q and E. -/
def oXq (o : Nat) : Nat := oF o 14 12
/-- INC of formats Q and E. -/
def oInc (o : Nat) : Bool := decide (oF o 11 11 = 1)
/-- PD of format Q. -/
def oPdq (o : Nat) : Nat := oF o 10 8

/-! ## The opcode tables (R304) -/

/-- OP 0x01 of slots 0 and 1, by FN. -/
def mnemArith : List Mnem := [.add, .sub, .and, .or, .xor, .andn, .shl, .shr, .sar, .rol, .min, .max, .minu, .maxu, .adds, .subs]

/-- OP 0x04 of slots 0 and 1, by FN. -/
def mnemUnary : List Mnem := [.neg, .negs, .abss, .not, .clz, .popc, .brev, .bswap, .sext8, .zext8]

/-- Slots 0 and 1. -/
def mnem01 (op o : Nat) : Option Mnem :=
  let sb := oF o 15 15
  match op with
  | 0x00 => some .nop
  | 0x01 => mnemArith[oFn o]?
  | 0x02 => some (if sb = 0 then .addc else .subc)
  | 0x03 => some (if sb = 0 then .addco else .subco)
  | 0x04 => mnemUnary[oFn o]?
  | 0x05 => if sb = 0 then some .sel else none
  | 0x08 => some .addi
  | 0x09 => some .andi
  | 0x0A => some .ori
  | 0x0B => some .xori
  | 0x0C => some .shli
  | 0x0D => some .shri
  | 0x0E => some .sari
  | 0x0F => some .movi
  | 0x10 => some .cmp
  | 0x11 => some .cmpi
  | 0x12 => [Mnem.pand, .por, .pxor][oFn o]?
  | 0x13 => if oFn o = 0 then some .mfp else none
  | 0x14 => some .mtp
  | _ => none

/-- Slot 1 only. -/
def mnem1 (op o : Nat) : Option Mnem :=
  match op with
  | 0x20 => [Mnem.mull, .mulhs, .mulhu, .mulq][oFn o]?
  | 0x21 =>
    match oFn o with
    | 0 => some .mpy
    | 1 => some .mac
    | 2 => some .msu
    | 3 => some .mpyu
    | 4 => some .macu
    | 5 => some .clra
    | 6 => some .lda
    | 8 => some .cmpy
    | 9 => some .cmac
    | 10 => some .cmacj
    | 11 => some .cmsu
    | _ => none
  | 0x22 => some .rda
  | 0x23 => some .crda
  | _ => mnem01 op o

/-- Slot 2. -/
def mnem2 (op o : Nat) : Option Mnem :=
  match op with
  | 0x00 => some .nop
  | 0x01 => some .ld
  | 0x02 => some .st
  | 0x03 => some .ldd
  | 0x04 => some .std
  | 0x05 => some .ldx
  | 0x06 => some .stx
  | 0x07 => some .lea
  | 0x08 => some .xli
  | 0x09 => if oFn o = 0 then some .xset else none
  | 0x0A => if oFn o = 0 then some .xget else none
  | 0x0B => [Mnem.xadd, .xaddx, .xsub][oFn o]?
  | 0x0C => some .axch
  | 0x0D => some .aadd
  | _ => none

/-- Slot 3. -/
def mnem3 (op : Nat) : Option Mnem :=
  match op with
  | 0x00 => some .nop
  | 0x01 => some .br
  | 0x02 => some .call
  | 0x03 => some .jr
  | 0x04 => some .callr
  | 0x05 => some .dbnz
  | 0x08 => some .qpop
  | 0x09 => some .qpush
  | 0x0A => some .qtry
  | 0x0B => some .aes
  | 0x10 => some .mfc
  | 0x11 => some .mtc
  | 0x12 => some .scall
  | 0x13 => some .sret
  | 0x14 => some .reti
  | 0x15 => some .rett
  | 0x16 => some .trap
  | 0x17 => some .sync
  | 0x18 => some .wait
  | 0x19 => some .brk
  | _ => none

/-- The instruction of a syllable that is no extension; none where OP or FN is not listed. -/
def Syl.mnem (y : Syl) : Option Mnem :=
  match y.slot with
  | 0 => mnem01 y.op y.o
  | 1 => mnem1 y.op y.o
  | 2 => mnem2 y.op y.o
  | _ => mnem3 y.op

/-! ## Legal fields (R296, R304) -/

/-- A register field is even. -/
def even (n : Nat) : Bool := decide (n % 2 = 0)

/-- Format M: AM 2 takes its index in IMM9[4:0]. -/
def legalM (o : Nat) : Bool := decide (oAm o ≠ 2) || decide (oF o 8 5 = 0)

/-- Every field that must be 0 is 0, and every register field is one the instruction allows.  Log 76 (DESIGN CHOICE). -/
def legalFields (m : Mnem) (o : Nat) : Bool :=
  match m with
  | .nop | .scall | .sret | .reti | .rett | .sync | .wait | .brk => decide (o = 0)
  | .neg | .negs | .abss | .not | .clz | .popc | .brev | .bswap | .sext8 | .zext8 => decide (oT o = 0)
  | .shli | .shri | .sari => decide (oF o 8 5 = 0)
  | .movi => decide (oSi o = 0)
  | .cmp | .cmpi => decide (oFn o ≤ 11)
  | .pand | .por | .pxor => decide (oF o 3 0 = 0)
  | .mfp => decide (oS o = 0 ∧ oT o = 0)
  | .mtp => decide (oDi o = 0 ∧ oF o 8 8 = 0 ∧ oF o 0 0 = 0)
  | .mpy | .mac | .msu | .mpyu | .macu | .lda => decide (oF o 13 10 = 0)
  | .clra => decide (oF o 13 10 = 0 ∧ oS o = 0 ∧ oT o = 0)
  | .cmpy | .cmac | .cmacj | .cmsu => decide (oAs o = 0 ∧ oF o 13 10 = 0) && even (oS o) && even (oT o)
  | .rda => decide (oF o 13 10 = 0 ∧ oF o 5 0 ≤ 39 ∧ oF o 8 6 ≤ 2 ∧ (oF o 8 6 = 2 → oF o 5 0 = 0))
  | .crda => even (oDi o) && decide (oSi o = 0 ∧ oF o 8 6 = 0 ∧ oF o 5 0 ≤ 39)
  | .ld | .st => legalM o
  | .ldd | .std => legalM o && even (oDi o)
  | .ldx | .stx => legalM o && decide (oDi o < 8)
  | .lea => legalM o && decide (oDi o < 8 ∧ (oAm o = 0 ∨ oAm o = 2))
  | .axch | .aadd => decide (oAm o = 0)
  | .xli => decide (oDi o < 8 ∧ oSi o = 0)
  | .xset => decide (oD o < 8 ∧ oT o = 0) && even (oS o)
  | .xget => decide (oS o < 8 ∧ oT o = 0) && even (oD o)
  | .xadd => decide (oD o < 8 ∧ oS o < 8)
  | .xaddx | .xsub => decide (oD o < 8 ∧ oS o < 8 ∧ oT o < 8)
  | .jr | .callr => decide (oDi o = 0 ∧ oAm o = 0)
  | .qpop | .qpush => decide (oF o 10 0 = 0)
  | .qtry => decide (oF o 7 0 = 0)
  | .aes => decide (oF o 16 15 = 0 ∧ oF o 10 10 = 0 ∧ oF o 4 0 = 0)
  | .mfc => decide (oSi o = 0)
  | .mtc => decide (oDi o = 0)
  | .trap => decide (oDi o = 0 ∧ oSi o = 0 ∧ oF o 8 8 = 0)
  | _ => true

/-! ## Destinations (R297) -/

/-- A register that a syllable names as a destination. -/
inductive Dst where
  | w (n : Nat)
  | p (n : Nat)
  | x (n : Nat)
  | a (n : Nat)
  deriving DecidableEq, Repr

/-- The address register that AM 1 and 3 update. -/
def destAm (o : Nat) : List Dst := if oAm o % 2 = 1 then [.x (oXm o)] else []

/-- Every destination a syllable names, w0 and p0 among them. -/
def destsAll (m : Mnem) (o : Nat) : List Dst :=
  match m with
  | .nop | .br | .jr | .mtc | .scall | .sret | .reti | .rett | .trap | .sync | .wait | .brk => []
  | .addc | .subc | .addco | .subco => [.w (oD o), .p (oCp o)]
  | .addi | .andi | .ori | .xori | .shli | .shri | .sari | .movi | .rda | .dbnz | .mfc => [.w (oDi o)]
  | .cmp | .cmpi | .pand | .por | .pxor => [.p (oPd o)]
  | .mtp => ((List.range 8).filter fun k => decide (oF o k k = 1)).map .p
  | .mpy | .mac | .msu | .mpyu | .macu | .clra | .lda => [.a (oAs o)]
  | .cmpy | .cmac | .cmacj | .cmsu => [.a 0, .a 1]
  | .crda => [.w (oDi o), .w (oDi o + 1)]
  | .ld => .w (oDi o) :: destAm o
  | .ldd => .w (oDi o) :: .w (oDi o + 1) :: destAm o
  | .ldx => .x (oDi o) :: destAm o
  | .st | .std | .stx => destAm o
  | .lea | .xli => [.x (oDi o)]
  | .xset | .xadd | .xaddx | .xsub => [.x (oD o)]
  | .xget => [.w (oD o), .w (oD o + 1)]
  | .axch | .aadd => [.w (oDi o)]
  | .call | .callr => [.x 7]
  | .qpop | .qpush | .aes => if oInc o then [.x (oXq o)] else []
  | .qtry => .p (oPdq o) :: (if oInc o then [.x (oXq o)] else [])
  | _ => [.w (oD o)]

/-- The destinations that count: a write to w0 or p0 is discarded (R293). -/
def dests (m : Mnem) (o : Nat) : List Dst := (destsAll m o).filter fun d => d ≠ .w 0 && d ≠ .p 0

/-- Destinations of a syllable. -/
def Syl.dests (y : Syl) : List Dst :=
  if y.isExt then [] else
    match y.mnem with
    | some m => Sys2Proof.Machine.dests m y.o
    | none => []

/-! ## Extensions and immediates (R302, R303) -/

/-- Bits of the immediate an instruction takes from extensions; none where it accepts none. -/
def extBits (m : Mnem) (o : Nat) : Option Nat :=
  match m with
  | .addi | .andi | .ori | .xori | .movi | .cmpi => some 16
  | .xli | .jr | .callr | .br | .call => some 32
  | .ld | .st | .ldd | .std | .ldx | .stx | .lea | .axch | .aadd => if oAm o = 2 then none else some 32
  | _ => none

/-- The instruction's own immediate field. -/
def ownImm (m : Mnem) (o : Nat) : Nat :=
  match m with
  | .cmpi => oT o
  | .br | .call => o
  | _ => oImm9 o

/-- The instruction's own immediate, sign-extended. -/
def ownImmS (m : Mnem) (o : Nat) : Int :=
  match m with
  | .cmpi => sext 5 (oT o)
  | .br | .call => sext 19 o
  | _ => sext 9 (oImm9 o)

/-- The extensions of a bundle that supply the syllable in a slot. -/
def extsFor (ys : List Syl) (slot : Nat) : List Syl := ys.filter fun y => y.isExt && decide (y.tgt = slot)

/-- An extension meets R302 in its bundle. -/
def extLegal (ys : List Syl) (e : Syl) : Bool :=
  let mine := extsFor ys e.tgt
  match ys.find? fun y => !y.isExt && decide (y.slot = e.tgt) with
  | none => false
  | some y =>
    match y.mnem with
    | none => false
    | some m =>
      match extBits m y.o with
      | none => false
      | some n =>
        decide (ownImm m y.o = 0) && decide ((mine.filter fun f => f.half = e.half).length = 1) &&
        (decide (e.half = 0) || (decide (n = 32) && mine.any fun f => decide (f.half = 0)))

/-- The immediate of the syllable in a slot (R303), as 32 bits. -/
def immOf (ys : List Syl) (y : Syl) (m : Mnem) : DWord :=
  let es := extsFor ys y.slot
  match es.find? fun e => e.half = 0, es.find? fun e => e.half = 1 with
  | some l, some h => BitVec.ofNat 32 (l.w1.toNat + 65536 * h.w1.toNat)
  | some l, none => BitVec.ofInt 32 l.w1.toInt
  | _, _ => BitVec.ofInt 32 (ownImmS m y.o)

/-! ## Bundles (R297) -/

/-- The syllables of a list of words. -/
def sylsOf : List Word → List Syl
  | a :: b :: r => ⟨a, b⟩ :: sylsOf r
  | _ => []

/-- Numbers strictly ascending. -/
def ascending : List Nat → Bool
  | a :: b :: r => decide (a < b) && ascending (b :: r)
  | _ => true

/-- No destination stands in two lists. -/
def disjointDests : List (List Dst) → Bool
  | [] => true
  | d :: r => (r.all fun e => d.all fun x => !e.contains x) && disjointDests r

/-- A bundle is legal under R297.  Log 76 (DESIGN CHOICE). -/
def bundleLegal (ys : List Syl) : Bool :=
  (match ys.getLast? with
   | some y => y.stop
   | none => false) &&
  ascending (ys.map Syl.slot) && disjointDests (ys.map Syl.dests) && (ys.filter Syl.isExt).all (extLegal ys)

/-- An instruction of a bundle, ready to execute. -/
structure Ins where
  m    : Mnem
  o    : Nat
  imm  : DWord
  deriving DecidableEq, Repr

end Sys2Proof.Machine
end

