-- ==== Sys2Proof/Machine/Oathano.lean ====
section
/-!
DEFINITION. The register views of a core and the results of the instructions that work on registers alone (12_oathano_isa R293,
R294, R298, R304, R305, R321).
-/

namespace Sys2Proof.Machine

/-! ## Register views -/

/-- The fast bank is in use: `SR.INF` (R321). -/
def CoreSt.fast (c : CoreSt) : Bool := bit c.sr 10

/-- w[n]: w0 reads 0 (R293). -/
def CoreSt.wOf (c : CoreSt) (n : Nat) : Word :=
  if n = 0 then 0 else if c.fast ∧ 24 ≤ n then c.fw.nth (n - 24) 0 else c.w.nth n 0

/-- p[n]: p0 reads 1 (R293). -/
def CoreSt.pOf (c : CoreSt) (n : Nat) : Bool :=
  if n = 0 then true else if c.fast ∧ 6 ≤ n then c.fp.nth (n - 6) false else c.p.nth n false

/-- x[n]. -/
def CoreSt.xOf (c : CoreSt) (n : Nat) : DWord := if c.fast ∧ 6 ≤ n then c.fx.nth (n - 6) 0 else c.x.nth n 0

/-- a[n]. -/
def CoreSt.aOf (c : CoreSt) (n : Nat) : Acc := c.a.nth n 0

/-- A result that a bundle writes when it commits. -/
inductive Wr where
  | w (n : Nat) (v : Word)
  | p (n : Nat) (b : Bool)
  | x (n : Nat) (v : DWord)
  | a (n : Nat) (v : Acc)
  deriving DecidableEq, Repr

/-- Write one result; w0 and p0 discard theirs (R293). -/
def CoreSt.write (c : CoreSt) : Wr → CoreSt
  | .w n v =>
    if n = 0 then c
    else if c.fast ∧ 24 ≤ n then { c with fw := c.fw.put (n - 24) v }
    else { c with w := c.w.put n v }
  | .p n b =>
    if n = 0 then c
    else if c.fast ∧ 6 ≤ n then { c with fp := c.fp.put (n - 6) b }
    else { c with p := c.p.put n b }
  | .x n v => if c.fast ∧ 6 ≤ n then { c with fx := c.fx.put (n - 6) v } else { c with x := c.x.put n v }
  | .a n v => { c with a := c.a.put n v }

/-- Write the results of a bundle; they take effect together, in the bank in use before it (R298, R321). -/
def CoreSt.writes (c : CoreSt) (l : List Wr) : CoreSt := l.foldl CoreSt.write c

/-- The syllable executes (R299). -/
def CoreSt.runs (c : CoreSt) (y : Syl) : Bool := xor (c.pOf y.guard) y.neg

/-! ## Effective addresses (R304) -/

/-- EA of format M. -/
def CoreSt.ea (c : CoreSt) (i : Ins) : DWord :=
  let x := c.xOf (oXm i.o)
  match oAm i.o with
  | 1 => x
  | 2 => x + BitVec.ofNat 32 (c.wOf (oF i.o 4 0)).toNat
  | _ => x + i.imm

/-- The address register after the bundle. -/
def CoreSt.amWrite (c : CoreSt) (i : Ins) : List Wr :=
  match oAm i.o with
  | 1 => [.x (oXm i.o) (c.xOf (oXm i.o) + i.imm)]
  | 3 => [.x (oXm i.o) (c.ea i)]
  | _ => []

/-! ## Results of slots 0 and 1, and of the address instructions -/

/-- The complex products of CMPY, CMAC and CMSU: real and imaginary parts. -/
def CoreSt.cprod (c : CoreSt) (o : Nat) : Int × Int :=
  let sr := c.wOf (oS o)
  let si := c.wOf (oS o + 1)
  let tr := c.wOf (oT o)
  let ti := c.wOf (oT o + 1)
  (mulS sr tr - mulS si ti, mulS sr ti + mulS si tr)

/-- The complex products of CMACJ: s times conj t. -/
def CoreSt.cprodJ (c : CoreSt) (o : Nat) : Int × Int :=
  let sr := c.wOf (oS o)
  let si := c.wOf (oS o + 1)
  let tr := c.wOf (oT o)
  let ti := c.wOf (oT o + 1)
  (mulS sr tr + mulS si ti, mulS si tr - mulS sr ti)

/-- The predicates as MFP reads them. -/
def CoreSt.predWord (c : CoreSt) : Word := w16 (((List.range 8).map fun k => if c.pOf k then 2 ^ k else 0).sum)

/-- d of a two-operand instruction on words. -/
def alu2 (m : Mnem) (s t : Word) : Word :=
  match m with
  | .add | .addi => s + t
  | .sub => s - t
  | .and | .andi => s &&& t
  | .or | .ori => s ||| t
  | .xor | .xori => s ^^^ t
  | .andn => s &&& ~~~t
  | .shl | .shli => s <<< (t.toNat % 32)
  | .shr | .shri => s >>> (t.toNat % 32)
  | .sar | .sari => s.sshiftRight (t.toNat % 32)
  | .rol => s.rotateLeft (t.toNat % 16)
  | .min => if s.slt t then s else t
  | .max => if s.slt t then t else s
  | .minu => if s.ult t then s else t
  | .maxu => if s.ult t then t else s
  | .adds => sat16 (s.toInt + t.toInt)
  | .subs => sat16 (s.toInt - t.toInt)
  | .mull => s * t
  | .mulhs => i16 (mulS s t / 65536)
  | .mulhu => i16 (mulU s t / 65536)
  | .mulq => sat16 ((mulS s t + 0x4000) / 32768)
  | _ => t

/-- d of a one-operand instruction. -/
def alu1 (m : Mnem) (s : Word) : Word :=
  match m with
  | .neg => -s
  | .negs => sat16 (-s.toInt)
  | .abss => sat16 (if s.toInt < 0 then -s.toInt else s.toInt)
  | .not => ~~~s
  | .clz => w16 (clz16 s)
  | .popc => w16 (popCount 16 s.toNat)
  | .brev => bitRev s
  | .bswap => w16 (s.toNat / 256 + s.toNat % 256 * 256)
  | .sext8 => i16 (sext 8 s.toNat)
  | _ => w16 (s.toNat % 256)

/-- p of a predicate instruction. -/
def predOp (m : Mnem) (a b : Bool) : Bool :=
  match m with
  | .pand => a && b
  | .por => a || b
  | _ => xor a b

/-- The accumulator result of a multiply-accumulate instruction. -/
def macResult (m : Mnem) (a : Acc) (s t : Word) : Acc :=
  match m with
  | .mpy => acc (mulS s t)
  | .mac => a + acc (mulS s t)
  | .msu => a - acc (mulS s t)
  | .mpyu => acc (mulU s t)
  | .macu => a + acc (mulU s t)
  | .lda => acc (joinWords s t).toInt
  | _ => 0

/-- d of RDA. -/
def rdaResult (a : Acc) (mode n : Nat) : Word :=
  match mode with
  | 0 => accRound a n
  | 1 => (a.sshiftRight n).setWidth 16
  | _ => i16 (sext 8 (a.toNat / 2 ^ 32))

/-- Results of an instruction that works on registers alone; the others have none here. -/
def CoreSt.results (c : CoreSt) (i : Ins) : List Wr :=
  let o := i.o
  let s := c.wOf (oS o)
  let t := c.wOf (oT o)
  let imm := i.imm.setWidth 16
  match i.m with
  | .addi | .andi | .ori | .xori | .shli | .shri | .sari => [.w (oDi o) (alu2 i.m (c.wOf (oSi o)) imm)]
  | .movi => [.w (oDi o) imm]
  | .neg | .negs | .abss | .not | .clz | .popc | .brev | .bswap | .sext8 | .zext8 => [.w (oD o) (alu1 i.m s)]
  | .addc | .subc =>
    let r := carrySum (decide (i.m = .subc)) s t (c.pOf (oCp o))
    [.w (oD o) (w16 r), .p (oCp o) (r.testBit 16)]
  | .addco | .subco =>
    let r := carrySum (decide (i.m = .subco)) s t (decide (i.m = .subco))
    [.w (oD o) (w16 r), .p (oCp o) (r.testBit 16)]
  | .sel => [.w (oD o) (if c.pOf (oCp o) then s else t)]
  | .cmp => [.p (oPd o) (predUpdate (oMode o) (c.pOf (oPd o)) (condHolds (oFn o) s t))]
  | .cmpi => [.p (oPd o) (predUpdate (oMode o) (c.pOf (oPd o)) (condHolds (oFn o) s imm))]
  | .pand | .por | .pxor =>
    [.p (oPd o) (predOp i.m (xor (c.pOf (oF o 11 9)) (decide (oF o 8 8 = 1))) (xor (c.pOf (oF o 7 5)) (decide (oF o 4 4 = 1))))]
  | .mfp => [.w (oD o) c.predWord]
  | .mtp => ((List.range 8).filter fun k => decide (1 ≤ k ∧ oF o k k = 1)).map fun k => .p k (bit (c.wOf (oSi o)) k)
  | .mpy | .mac | .msu | .mpyu | .macu | .clra | .lda => [.a (oAs o) (macResult i.m (c.aOf (oAs o)) s t)]
  | .cmpy => [.a 0 (acc (c.cprod o).1), .a 1 (acc (c.cprod o).2)]
  | .cmac => [.a 0 (c.aOf 0 + acc (c.cprod o).1), .a 1 (c.aOf 1 + acc (c.cprod o).2)]
  | .cmsu => [.a 0 (c.aOf 0 - acc (c.cprod o).1), .a 1 (c.aOf 1 - acc (c.cprod o).2)]
  | .cmacj => [.a 0 (c.aOf 0 + acc (c.cprodJ o).1), .a 1 (c.aOf 1 + acc (c.cprodJ o).2)]
  | .rda => [.w (oDi o) (rdaResult (c.aOf (oF o 9 9)) (oF o 8 6) (oF o 5 0))]
  | .crda => [.w (oDi o) (accRound (c.aOf 0) (oF o 5 0)), .w (oDi o + 1) (accRound (c.aOf 1) (oF o 5 0))]
  | .lea => [.x (oDi o) (c.ea i)]
  | .xli => [.x (oDi o) i.imm]
  | .xset => [.x (oD o) (joinWords s (c.wOf (oS o + 1)))]
  | .xget => [.w (oD o) ((c.xOf (oS o)).setWidth 16), .w (oD o + 1) (((c.xOf (oS o)) >>> 16).setWidth 16)]
  | .xadd => [.x (oD o) (c.xOf (oS o) + BitVec.ofInt 32 t.toInt)]
  | .xaddx => [.x (oD o) (c.xOf (oS o) + c.xOf (oT o))]
  | .xsub => [.x (oD o) (c.xOf (oS o) - c.xOf (oT o))]
  | .nop | .br | .call | .jr | .callr | .qpop | .qpush | .qtry | .aes | .mfc | .mtc | .scall | .sret | .reti | .rett
  | .trap | .sync | .wait | .brk | .ld | .st | .ldd | .std | .ldx | .stx | .axch | .aadd => []
  | .dbnz => [.w (oDi o) (c.wOf (oDi o) - 1)]
  | .add | .sub | .and | .or | .xor | .andn | .shl | .shr | .sar | .rol | .min | .max | .minu | .maxu | .adds | .subs
  | .mull | .mulhs | .mulhu | .mulq => [.w (oD o) (alu2 i.m s t)]

/-! ## Memory instructions (R304, R306) -/

/-- The instruction loads. -/
def Mnem.loads : Mnem → Bool
  | .ld | .ldd | .ldx | .axch | .aadd => true
  | _ => false

/-- The instruction stores. -/
def Mnem.stores : Mnem → Bool
  | .st | .std | .stx | .axch | .aadd => true
  | _ => false

/-- An atomic instruction (R307). -/
def Mnem.atomic (m : Mnem) : Bool := decide (m = .axch ∨ m = .aadd)

/-- The word addresses of a memory instruction: a pair's second word stands above the first. -/
def CoreSt.addrs (c : CoreSt) (i : Ins) : List Nat :=
  if i.m.loads ∨ i.m.stores then
    match i.m with
    | .ldd | .std | .ldx | .stx => [(c.ea i).toNat, (c.ea i + 1).toNat]
    | _ => [(c.ea i).toNat]
  else []

/-- Results of a load with the words it read. Where LDX names one register as its result and its address register, which
of the two results stays is not stated: `pick` says. -/
def CoreSt.loadWrites (c : CoreSt) (i : Ins) (vals : List Word) (pick : Bool) : List Wr :=
  let v := vals.getD 0 0
  let d := oDi i.o
  match i.m with
  | .ld => .w d v :: c.amWrite i
  | .axch | .aadd => [.w d v]
  | .ldd => .w d v :: .w (d + 1) (vals.getD 1 0) :: c.amWrite i
  | .ldx => if pick then .x d (joinWords v (vals.getD 1 0)) :: c.amWrite i else c.amWrite i ++ [.x d (joinWords v (vals.getD 1 0))]
  | .st | .std | .stx => c.amWrite i
  | _ => []

/-- The words a store writes, given the words an atomic read. -/
def CoreSt.storeWords (c : CoreSt) (i : Ins) (vals : List Word) : List Word :=
  let d := oDi i.o
  match i.m with
  | .st | .axch => [c.wOf d]
  | .aadd => [vals.getD 0 0 + c.wOf d]
  | .std => [c.wOf d, c.wOf (d + 1)]
  | .stx => wordsOf 2 (c.xOf d).toNat
  | _ => []

/-! ## Branches (R301, R304) -/

/-- The address that a branch continues at, where it is taken; `pc` is the bundle's. -/
def CoreSt.target (c : CoreSt) (i : Ins) (pc : DWord) : Option DWord :=
  match i.m with
  | .br | .call => some (pc + 2 * i.imm)
  | .jr | .callr => some (c.xOf (oXm i.o) + i.imm)
  | .dbnz => if c.wOf (oDi i.o) - 1 ≠ 0 then some (pc + 2 * BitVec.ofInt 32 (sext 14 (oF i.o 13 0))) else none
  | _ => none

end Sys2Proof.Machine
end

