-- ==== Sys2Proof/Machine/Port.lean ====
section
/-!
DEFINITION. Accesses through the fabric (01_architecture R44; 11_tillers R286 to R292), and the two interfaces that make them
for outside initiators: the host port (14_backhaul_host R373 to R375) and the management engine (R364, R365).
-/

namespace Sys2Proof.Machine

/-! ## The fabric -/

/-- A word read through the fabric once the fence has let it through: the value, whether it is poisoned (R43), the state. -/
def fabricRead (i : Initiator) (a : Nat) (s : State) : Word × Bool × State :=
  match regionOf a with
  | .block =>
    match accessEnded s i a false with
    | some s => (0, false, s)
    | none => if a = Reg.nftWdata ∧ ¬ s.power.lost then windowRead s else ((regRead i a s).1, false, (regRead i a s).2)
  | .unmapped => (0, false, s)
  | .local_ => (0, false, s)
  | _ => (mget s a, badAt s a, s)

/-- A word written through the fabric once the fence has let it through; only the session engine writes session memory,
and boot ROM keeps its contents (R286). -/
def fabricWrite (i : Initiator) (lvl a : Nat) (v : Word) (s : State) : State :=
  match regionOf a with
  | .block => (accessEnded s i a true).getD (regWrite i lvl a v s)
  | .shared => mset s a v
  | .granary => mset s a v
  | .crownRam => mset s a v
  | _ => s

/-- How a word of an outside initiator ended: carried out, refused by the fence, ended by timeout, or not served by the mode. -/
inductive WordEnd where
  | ok
  | fence
  | timeout
  | mode
  deriving DecidableEq, Repr

/-- The mode serves an address to the host port and the management path (R374): only register block windows are limited. -/
def modeServes (s : State) (a : Nat) : Bool :=
  !inWindow a ||
  (match modeOf s with
   | 0 => decide (winOf a = 0x1000)
   | 1 => decide (winOf a = 0x1000 ∨ winOf a = 0x101D)
   | 7 => decide (winOf a = 0x1000)
   | _ => true)

/-- The access is one whose word times out (01 R31). -/
def wordEnd (s : State) (i : Initiator) (a : Nat) (write : Bool) : WordEnd :=
  if regionOf a = .block ∧ (accessEnded s i a write).isSome then .timeout else .ok

/-- One word read for an outside initiator from step 2 of R374 on; a poisoned word reads 0x0000 and leaves its record
(15 R392). -/
def outRead (i : Initiator) (a : Nat) (s : State) : (Word × WordEnd) × State :=
  match fenceCheck s false (initIndex i) (levelOf s i) accRead a with
  | (false, s) => ((0, .fence), s)
  | (true, s) =>
    match fabricRead i a s with
    | (_, true, t) => ((0, .ok), (poisonMet t (initIndex i) a).2)
    | (v, false, t) => ((v, wordEnd s i a false), t)

/-- One word written for an outside initiator from step 2 of R374 on. -/
def outWrite (i : Initiator) (a : Nat) (v : Word) (s : State) : WordEnd × State :=
  match fenceCheck s false (initIndex i) (levelOf s i) accWrite a with
  | (false, s) => (.fence, s)
  | (true, s) => (wordEnd s i a true, fabricWrite i (levelOf s i) a v s)

/-- One word read in the order of R374. -/
def portRead (i : Initiator) (a : Nat) (s : State) : (Word × WordEnd) × State :=
  if modeServes s a then outRead i a s else ((0, .mode), s)

/-- One word written in the order of R374. -/
def portWrite (i : Initiator) (a : Nat) (v : Word) (s : State) : WordEnd × State :=
  if modeServes s a then outWrite i a v s else (.mode, s)

/-- The FAB domain works: RESET_N is high and boot step 2 has passed, or RETAIN has not yet taken the core's power.  Log 65 (DESIGN CHOICE). -/
def fabRuns (s : State) : Bool := !s.power.resetLow && decide (2 ≤ s.boot.step)

/-- Words `a` to `a + n - 1` read in ascending order (R479).  Log 64 (DESIGN CHOICE). -/
def portReads (i : Initiator) : Nat → Nat → State → List (Word × WordEnd) × State
  | _, 0, s => ([], s)
  | a, n + 1, s =>
    let r := portRead i (a % 2 ^ 32) s
    let q := portReads i (a + 1) n r.2
    (r.1 :: q.1, q.2)

/-- Words written in ascending order; a chip reset that a word causes ends the transaction (02 R66).  Log 65 (DESIGN CHOICE). -/
def portWrites (i : Initiator) : Nat → List Word → State → List WordEnd × State
  | _, [], s => ([], s)
  | a, v :: vs, s =>
    let r := portWrite i (a % 2 ^ 32) v s
    if fabRuns r.2 then
      let q := portWrites i (a + 1) vs r.2
      (r.1 :: q.1, q.2)
    else ([r.1], r.2)

/-! ## The host port -/

/-- The status word of a transaction (R373). -/
def txnStatus (l : List WordEnd) : Word :=
  w16 (2048 * (l.contains .mode).toNat + 1024 * (l.contains .timeout).toNat + 512 * (l.contains .fence).toNat + l.length % 512)

/-- What the port returned: data words, most significant nibble first, and the status word. -/
def hostAnswer (s : State) (ws : List Word) (st : Word) : State :=
  { s with out := { s.out with host := ws.flatMap fun w => octetsBE 2 w.toNat, hostSt := st } }

/-- READ (R373). -/
def hostRead (a n : Nat) (s : State) : State :=
  if ¬ fabRuns s then s
  else
    let r := portReads .host a n s
    hostAnswer r.2 (r.1.map Prod.fst) (txnStatus (r.1.map Prod.snd))

/-- WRITE (R373); a write that resets the chip gets no response (02 R66).  Log 65 (DESIGN CHOICE). -/
def hostWrite (a : Nat) (data : List Word) (s : State) : State :=
  if ¬ fabRuns s then s
  else
    let r := portWrites .host a data s
    if fabRuns r.2 then hostAnswer r.2 [] (txnStatus r.1) else r.2

/-- The port status word (R375); `intN` is INT_N driven low. -/
def portStatus (s : State) : Word :=
  w16 (32768 * (intN s).toNat + 16384 * rfld s Reg.sysSvcready 0 0 + 8192 * (!s.eth.hostq.isEmpty).toNat +
    4096 * s.eth.aborted.toNat + modeOf s)

/-- STATUS (R375): it clears ABORTED. -/
def hostStatus (s : State) : State :=
  if ¬ fabRuns s then s
  else hostAnswer (updEth s fun e => { e with aborted := false }) [portStatus s] (portStatus s)

/-- CS_N rises before END (R375): complete write words are written, issued reads complete with their values discarded. -/
def hostAbandon (a : Nat) (data : List Word) (reads : Nat) (s : State) : State :=
  if ¬ fabRuns s then s
  else
    let s := if data.isEmpty then (portReads .host a reads s).2 else (portWrites .host a data s).2
    if fabRuns s then evt (updEth s fun e => { e with aborted := true }) Reg.hspEvt 0 else s

/-- An unlisted command octet (R375). -/
def hostBad (o : Octet) (s : State) : State :=
  if ¬ fabRuns s ∨ o = 0x0B ∨ o = 0x02 ∨ o = 0x05 then s else evt s Reg.hspEvt 1

/-! ## The debug port (11 R292; R374) -/

/-- The status word that goes back with a debug access. -/
def debugAnswer (s : State) (e : WordEnd) : State := { s with out := { s.out with dbgSt := txnStatus [e] } }

/-- A debug read: the mode does not limit it. -/
def debugRead (a : Nat) (s : State) : State :=
  if ¬ fabRuns s then s
  else
    let r := outRead .debug a s
    debugAnswer (showRead (r.1.1, r.2)) r.1.2

/-- A debug write. -/
def debugWrite (a : Nat) (v : Word) (s : State) : State :=
  if ¬ fabRuns s then s
  else
    let r := outWrite .debug a v s
    debugAnswer r.2 r.1

/-! ## The management engine -/

/-- The first cause that is not OK, as STATUS codes it (R365). -/
def mgmtStatusOf : List WordEnd → Nat
  | [] => 0
  | .fence :: _ => 1
  | .timeout :: _ => 2
  | .mode :: _ => 3
  | .ok :: l => mgmtStatusOf l

/-- A response goes back on its request's lane (R365), while the lane has link and the key is usable.  Log 66 (DESIGN CHOICE). -/
def mgmtRespond (s : State) (lane op seq addr count status : Nat) (data : List Octet) : State :=
  match mgmtKey s with
  | some key =>
    if laneUp s lane then
      bump { s with out := { s.out with mgmt := mgmtMessage key op seq addr count status data } } (Reg.ethnNtx lane)
    else s
  | none => s

/-- Perform the accepted request at the head of the queue when its OP is `op` (R365).  Log 65 (DESIGN CHOICE). -/
def mgmtPerform (op : Nat) (s : State) : State :=
  match s.eth.mgmtq with
  | [] => s
  | (m, lane) :: rest =>
    if ¬ fabRuns s ∨ (m.getD 3 0).toNat ≠ op then s
    else
      let s := updEth s fun e => { e with mgmtq := rest }
      let seq := ofOctetsLE (slice m 4 4)
      let addr := ofOctetsLE (slice m 8 4)
      let count := (m.getD 12 0).toNat
      if op = 1 then
        let r := portReads .mgmt addr count s
        mgmtRespond r.2 lane 0x81 seq addr count (mgmtStatusOf (r.1.map Prod.snd)) (unpackOctets (r.1.map Prod.fst))
      else
        let r := portWrites .mgmt addr (packOctets (slice m 16 (2 * count))) s
        if fabRuns r.2 then mgmtRespond r.2 lane 0x82 seq addr count (mgmtStatusOf r.1) [] else r.2

/-! ## The commands -/

/-- A write to a register or field without a row of its own, as it reaches its block (R16); the debug port's write, which has no
other row, is the whole access with its fence check (11 R292).  Log 12 (DESIGN CHOICE). -/
def execRegisterWrite (i : Initiator) (a : Nat) (v : Word) (s : State) : Host.Outcome State Fault Refusal :=
  .next (if i = .debug then debugWrite a v s else regWrite i (levelOf s i) a v s)

/-- A read of the lowest word of a register group (R5); the debug port's read is the whole access.  Log 12 (DESIGN CHOICE). -/
def execGroupLatchRead (i : Initiator) (a : Nat) (s : State) : Host.Outcome State Fault Refusal :=
  .next (if i = .debug then debugRead a s else showRead (regRead i a s))

/-- A host port READ of `n + 1` words (R373). -/
def execHostRead (a : Nat) (n : Fin 256) (s : State) : Host.Outcome State Fault Refusal := .next (hostRead a (n.val + 1) s)

/-- A host port WRITE of 1 to 256 words (R373). -/
def execHostWrite (a : Nat) (data : List Word) (s : State) : Host.Outcome State Fault Refusal :=
  if hostDataWf data then .next (hostWrite a data s)
  else .fault (.illFormed "HOST_WRITE: a transaction carries 1 to 256 words")

/-- A host port STATUS (R375). -/
def execHostStatus (s : State) : Host.Outcome State Fault Refusal := .next (hostStatus s)

/-- An abandoned transaction (R375): a WRITE with the complete words received, or a READ with `reads` reads issued. -/
def execHostAbort (a : Nat) (data : List Word) (reads : Fin 257) (s : State) : Host.Outcome State Fault Refusal :=
  if abortDataWf data then .next (hostAbandon a data reads.val s)
  else .fault (.illFormed "HOST_ABORT: a transaction carries 1 to 256 words")

/-- An unlisted command octet (R375). -/
def execHostBadCommand (octet : Octet) (s : State) : Host.Outcome State Fault Refusal := .next (hostBad octet s)

/-- A management READ is performed and answered (R365). -/
def execMgmtRead (s : State) : Host.Outcome State Fault Refusal := .next (mgmtPerform 1 s)

/-- A management WRITE is performed and answered (R365). -/
def execMgmtWrite (s : State) : Host.Outcome State Fault Refusal := .next (mgmtPerform 2 s)

end Sys2Proof.Machine
end

