-- ==== Sys2Proof/Machine/CoreCtl.lean ====
section
/-!
DEFINITION. Control registers of a core (12_oathano_isa R314 to R316), the taking of a trap and the return from one (R322 to R326,
11_tillers R282), and the taking of an interrupt (R318 to R320).
-/

namespace Sys2Proof.Machine

/-! ## Levels and states -/

/-- The core as an initiator. -/
def coreInit (k : Nat) : Initiator := if k < 32 then .tiller (Fin.ofNat 32 k) else .crown

/-- The core is in secure state: the Crown core with `SR.SEC`. -/
def secureNow (s : State) (k : Nat) : Bool := decide (k = 32) && bit (s.core 32).sr 15

/-- The core's level (11 R267). -/
def coreLevel (s : State) (k : Nat) : Nat := if secureNow s k then 0 else 1

/-- Deterministic mode.  Log 80 (DESIGN CHOICE). -/
def detNow (s : State) (k : Nat) : Bool := bit (s.core k).sr 12

/-! ## Numbers (R314) -/

/-- The groups: their first number and their words. -/
def crGroups : List (Nat × Nat) :=
  [(2, 2), (4, 2), (7, 2), (9, 2), (11, 2), (14, 2), (17, 2), (19, 2), (24, 4), (28, 4), (33, 2), (35, 2), (40, 2), (42, 2),
   (45, 2), (47, 2)]

/-- The group that holds a number. -/
def crGroup (n : Nat) : Option (Nat × Nat) := crGroups.find? fun g => decide (g.1 ≤ n ∧ n < g.1 + g.2)

/-- Numbers of one word. -/
def crSingles : List Nat := [0, 1, 6, 13, 16, 21, 32, 44]

/-- A number is listed for the core: from 40 on they belong to the Crown core. -/
def crListed (k n : Nat) : Bool := ((crGroup n).isSome || crSingles.contains n) && (decide (n < 40) || decide (k = 32))

/-- A number that the Crown core reaches at L0 only. -/
def crSecure (k n : Nat) : Bool := decide (k = 32) && (decide (40 ≤ n) || decide (n = 9 ∨ n = 10))

/-- Registers that show time or chance, which deterministic mode may not read (R317). -/
def crTimed (n : Nat) : Bool := decide ((24 ≤ n ∧ n ≤ 36))

/-- The quantity of a group. -/
def crQty (s : State) (k base : Nat) : Nat :=
  let c := s.core k
  match base with
  | 2 => c.tpc.toNat
  | 4 => c.tnpc.toNat
  | 7 => c.taddr.toNat
  | 9 => c.tvec.toNat
  | 11 => c.epcn.toNat
  | 14 => c.epcf.toNat
  | 17 => c.ivecn.toNat
  | 19 => c.ivecf.toNat
  | 24 => c.cycle
  | 28 => shadow s
  | 33 => c.bcnt
  | 35 => c.scnt
  | 40 => c.svec.toNat
  | 42 => c.spc.toNat
  | 45 => c.sivecn.toNat
  | 47 => c.sivecf.toNat
  | _ => 0

/-- A register of one word.  Log 84 (DESIGN CHOICE). -/
def crWord (s : State) (k n : Nat) : Word :=
  let c := s.core k
  match n with
  | 0 => c.sr
  | 1 => c.tcause
  | 6 => c.tsr
  | 13 => c.esrn
  | 16 => c.esrf
  | 21 => c.qst
  | 32 => Config.randomWord s.free
  | 44 => c.ssr
  | _ => 0

/-- MFC: the value, and the core's latches as the read of a group's lowest word leaves them (R5, R6, R314). -/
def crRead (s : State) (k n : Nat) : Word × State :=
  match crGroup n with
  | some (b, len) =>
    let ws := wordsOf len (crQty s k b)
    let c := s.core k
    if n = b then
      (ws.getD 0 0, s.updCore k fun c => { c with
        crLatch := (ws.zipIdx.drop 1).map (fun e => (b + e.2, e.1)) ++ c.crLatch.filter fun e => !decide (b ≤ e.1 ∧ e.1 < b + len) })
    else (((c.crLatch.find? fun e => e.1 = n).map Prod.snd).getD (ws.getD (n - b) 0), s)
  | none => (crWord s k n, if n = 32 then bumpFree s else s)

/-- An address register of the control registers: bit 0 reads 0 (R301). -/
def evenAddr (v : Nat) : DWord := BitVec.ofNat 32 (v / 2 * 2)

/-- Write the quantity of a group that can be written. -/
def CoreSt.crSet (c : CoreSt) (base : Nat) (v : DWord) : CoreSt :=
  match base with
  | 2 => { c with tpc := v }
  | 9 => { c with tvec := v }
  | 11 => { c with epcn := v }
  | 14 => { c with epcf := v }
  | 17 => { c with ivecn := v }
  | 19 => { c with ivecf := v }
  | 40 => { c with svec := v }
  | 42 => { c with spc := v }
  | 45 => { c with sivecn := v }
  | 47 => { c with sivecf := v }
  | _ => c

/-- A saved copy of the status as a write leaves it (R315): SEC is written at L0 only, bits 14 and 6:0 read 0.  Log 81 (DESIGN CHOICE). -/
def savedStatus (secure : Bool) (old v : Word) : Word := setBit (v &&& 0xBF80) 15 (if secure then bit v 15 else bit old 15)

/-- SR as a write leaves it: DET, IEF and IEN are RW. -/
def statusWrite (old v : Word) : Word := (old &&& ~~~0x1180) ||| (v &&& 0x1180)

/-- MTC (R314, R315; R7 and R8 for groups). -/
def crWrite (s : State) (k n : Nat) (v : Word) : State :=
  let sec := secureNow s k
  match crGroup n with
  | some (b, len) =>
    s.updCore k fun c =>
      if n + 1 = b + len then
        let low := ((c.crStage.find? fun e => e.1 = b).map Prod.snd).getD (wordOf (crQty s k b) 0)
        let c := { c with crStage := c.crStage.filter fun e => e.1 ≠ b }
        if len = 2 then c.crSet b (evenAddr (low.toNat + 65536 * v.toNat)) else c
      else { c with crStage := (n, v) :: c.crStage.filter fun e => e.1 ≠ n }
  | none =>
    s.updCore k fun c =>
      match n with
      | 0 => { c with sr := statusWrite c.sr v }
      | 6 => { c with tsr := savedStatus sec c.tsr v }
      | 13 => { c with esrn := savedStatus sec c.esrn v }
      | 16 => { c with esrf := savedStatus sec c.esrf v }
      | 44 => { c with ssr := savedStatus sec c.ssr v }
      | _ => c

/-- An MTC at L1 that would clear a DET bit (R316). -/
def clearsDet (s : State) (k n : Nat) (v : Word) : Bool :=
  decide (coreLevel s k = 1) && decide (n = 0 ∨ n = 6 ∨ n = 13 ∨ n = 16 ∨ n = 44) && bit (crWord s k n) 12 && !bit v 12

/-! ## Restored status (R322, R323, R326) -/

/-- SR from a saved copy: SEC only where the returning core is secure, and LVL follows SEC.  Log 81 (DESIGN CHOICE). -/
def restored (secure : Bool) (v : Word) : Word :=
  let sec := secure && bit v 15
  setBit (setBit (v &&& 0xBF80) 15 sec) 13 (!sec)

/-! ## Trap entry (R323) -/

/-- A trap: its cause, the code of TRAP, and TADDR. -/
structure Trap where
  cause : Nat
  taddr : Nat := 0
  code  : Nat := 0
  deriving DecidableEq, Repr

/-- ILLOP. -/
def trapIllop : Trap := { cause := 0x01 }
/-- ILLBUNDLE. -/
def trapIllbundle : Trap := { cause := 0x02 }
/-- PRIV. -/
def trapPriv : Trap := { cause := 0x03 }
/-- ALIGN of a target. -/
def trapAlign (a : Nat) : Trap := { cause := 0x04, taddr := a }
/-- FENCE. -/
def trapFence (a : Nat) : Trap := { cause := 0x05, taddr := a }
/-- SECMEM. -/
def trapSecmem (a : Nat) : Trap := { cause := 0x06, taddr := a }
/-- POISON. -/
def trapPoison (a : Nat) : Trap := { cause := 0x07, taddr := a }
/-- BADQ. -/
def trapBadq : Trap := { cause := 0x08 }
/-- QADDR. -/
def trapQaddr (a : Nat) : Trap := { cause := 0x09, taddr := a }
/-- ATOMIC. -/
def trapAtomic (a : Nat) : Trap := { cause := 0x0A, taddr := a }
/-- DETQ. -/
def trapDetq : Trap := { cause := 0x10 }
/-- DETMEM. -/
def trapDetmem (a : Nat) : Trap := { cause := 0x11, taddr := a }
/-- DETLATE. -/
def trapDetlate : Trap := { cause := 0x12 }
/-- DETINS. -/
def trapDetins : Trap := { cause := 0x13 }
/-- SWTRAP with a code. -/
def trapSw (code : Nat) : Trap := { cause := 0x20, code := code }
/-- BREAK. -/
def trapBreak : Trap := { cause := 0x21 }

/-- A stall of the core has ended: `TIL_CSTAT.STALL` clears (11 R283). -/
def stallOver (s : State) (k : Nat) : State := if k = 32 ∧ rbit s Reg.tilCstat 2 then rsetBit s Reg.tilCstat 2 false else s

/-- The registers that trap entry writes (R323); on the Crown core also SEC and LVL 0 (11 R279). -/
def CoreSt.trapped (c : CoreSt) (crown : Bool) (t : Trap) (tnpc : DWord) : CoreSt :=
  let sr := setBit c.sr 11 true
  { c with
    tpc := evenAddr c.pc.toNat, tnpc := tnpc, tsr := c.sr, tcause := w16 (t.code * 256 + t.cause), taddr := BitVec.ofNat 32 t.taddr
    sr := if crown then setBit (setBit sr 15 true) 13 false else sr
    pc := c.tvec, hold := .none, bundle := [] }

/-- Take a trap at the bundle at the core's PC (R323, R282, 02 R62); `tnpc` is the next sequential bundle.  Log 81 (DESIGN CHOICE). -/
def takeTrap (s : State) (k : Nat) (t : Trap) (tnpc : DWord) : State :=
  let s := stallOver s k
  let c := s.core k
  if k = 32 then
    if bit c.sr 11 then chipReset s 5 else s.updCore 32 fun c => c.trapped true t tnpc
  else
    let s := rsetGroup (rset s (Reg.tilTrap k) (w16 (0x8000 + t.cause))) (Reg.tilTrappc k) 2 (c.pc.toNat / 2 * 2)
    let s := if 0x10 ≤ t.cause ∧ t.cause ≤ 0x13 then evt s (Reg.tilEvt k) 1 else s
    if bit c.sr 11 ∨ c.tvec = 0 then
      let s := fault (evt s (Reg.tilEvt k) 0) { cls := 7, lasting := true, action := 7, typ := 4, inst := k }
      tilStop s k
    else s.updCore k fun c => c.trapped false t tnpc

/-- The next sequential bundle where the bundle could not be fetched whole: not stated, so a free value, which may change
from one bundle of the core to the next and depends on no other core (11 R285).  Log 75 (DESIGN CHOICE). -/
def openNext (s : State) (k : Nat) : DWord := evenAddr (Config.openValue 323 (s.core k).bcnt)

/-! ## Interrupts (R318 to R320) -/

/-- The status lets a core take an interrupt of a class (R319). -/
def classOpen (sr : Word) (fast : Bool) : Bool :=
  !bit sr 12 && !bit sr 11 && !bit sr 10 && (if fast then bit sr 8 else bit sr 7 && !bit sr 9)

/-- The request line of a class at a core (17 R427): whether a secure source asserts it, where one does. In normal state
with secure and other sources selected, which of them is taken is not stated.  Log 73 (DESIGN CHOICE). -/
def classRequest (s : State) (k : Nat) (fast : Bool) : Option Bool :=
  if (activeClass s k fast).isSome then none
  else if k < 32 then (if (selectFor s k fast false).isSome then some false else none)
  else
    let sec := (selectFor s 32 fast true).isSome
    let non := !secureNow s 32 && (selectFor s 32 fast false).isSome
    if sec && non then some (decide (Config.openValue 320 s.free % 2 = 1))
    else if sec then some true
    else if non then some false
    else none

/-- The interrupt a core takes next: its class and whether its source is secure; the fast class comes first (R319).  Log 73 (DESIGN CHOICE). -/
def nextInterrupt (s : State) (k : Nat) : Option (Bool × Bool) :=
  let sr := (s.core k).sr
  let try_ := fun fast => if classOpen sr fast then (classRequest s k fast).map fun sec => (fast, sec) else none
  match try_ true with
  | some r => some r
  | none => try_ false

/-- Interrupt entry (R320): it takes 4 FAB cycles. -/
def CoreSt.interrupted (c : CoreSt) (fast secure : Bool) : CoreSt :=
  let sr := setBit c.sr (if fast then 10 else 9) true
  let sr := if secure then setBit (setBit sr 15 true) 13 false else sr
  let c := if fast then { c with epcf := evenAddr c.pc.toNat, esrf := c.sr } else { c with epcn := evenAddr c.pc.toNat, esrn := c.sr }
  { c with
    sr := sr, hold := .none, bundle := [], cycle := c.cycle + 4
    pc := if secure then (if fast then c.sivecf else c.sivecn) else if fast then c.ivecf else c.ivecn }

/-- A core takes an interrupt at a boundary, in WAIT, or by abandoning a bundle stalled on a queue (R319).  Log 73 (DESIGN CHOICE). -/
def takeInterrupt (s : State) (k : Nat) : State :=
  let h := (s.core k).hold
  if ¬ coreOn s k ∨ h = .fabric ∨ h = .halted ∨ h = .stopped then s
  else
    match nextInterrupt s k with
    | some (fast, sec) => bumpFree ((stallOver s k).updCore k fun c => c.interrupted fast sec)
    | none => s

end Sys2Proof.Machine
end

