-- ==== Sys2Proof/Machine/Engines.lean ====
section
/-!
DEFINITION. The engines that reach memory through the fence for another: the flash interface (14_backhaul_host R379, R380), the
key tree's messages and statements (10_keys_attestation R259 to R265), the update control's chunks (19_update R466), and
the modes engine (09_sessions_security R246, R247).
-/

namespace Sys2Proof.Machine

/-! ## Accesses for an initiator -/

/-- The initiator whose number FEN_FINFO.INIT shows.  Log 13 (DESIGN CHOICE). -/
def initOf (m : Nat) : Initiator :=
  let n := m % 64
  if n < 32 then .tiller (Fin.ofNat 32 n)
  else if n = 32 then .crown
  else if n = 33 then .host
  else if n = 34 then .mgmt
  else if n = 35 then .debug
  else .tag

/-- Words read through the fence by engine `eng` at a level for an initiator: the words up to a refusal, whether all
were read, and whether poison was met (R43, R292).  Log 13 (DESIGN CHOICE), 62 (DESIGN CHOICE). -/
def engineReads (eng init lvl : Nat) : Nat → Nat → State → List Word × Bool × Bool × State
  | _, 0, s => ([], true, false, s)
  | a, n + 1, s =>
    match fenceCheck s false eng lvl accRead (a % 2 ^ 32) with
    | (false, s) => ([], false, false, s)
    | (true, s) =>
      let r := fabricRead (initOf init) (a % 2 ^ 32) s
      let q := engineReads eng init lvl (a + 1) n r.2.2
      (r.1 :: q.1, q.2.1, r.2.1 || q.2.2.1, q.2.2.2)

/-- Words written through the fence: how many were written before a refusal, and whether all were. -/
def engineWrites (eng init lvl : Nat) : Nat → List Word → State → Nat × Bool × State
  | _, [], s => (0, true, s)
  | a, v :: vs, s =>
    match fenceCheck s false eng lvl accWrite (a % 2 ^ 32) with
    | (false, s) => (0, false, s)
    | (true, s) =>
      let q := engineWrites eng init lvl (a + 1) vs (fabricWrite (initOf init) lvl (a % 2 ^ 32) v s)
      (q.1 + 1, q.2.1, q.2.2)

/-- Write words through the fence; rows written whole are poisoned no more (01 R41).  Log 13 (DESIGN CHOICE). -/
def engineStore (eng init lvl a : Nat) (ws : List Word) (s : State) : Bool × State :=
  let q := engineWrites eng init lvl a ws s
  (q.2.1, healRange q.2.2 a q.1)

/-! ## Flash operations (14 R379, R380) -/

/-- The operation that runs ends (R380).  Log 62 (DESIGN CHOICE). -/
def flashDone (o : OpOutcome) (s : State) : State :=
  match s.xsp.job with
  | none => s
  | some j =>
    let code := match o with
      | .done => 0
      | .fail => 6
      | .timeout => 7
    if j.op = 1 then
      let r := engineStore j.init j.init j.level j.maddr (packOctets (flashGet s j.faddr j.len)) s
      xspEnd r.2 (if r.1 then 0 else 5)
    else if j.op = 2 then
      let r := engineReads j.init j.init j.level j.maddr (j.len / 2) s
      let s := if r.2.2.1 then (poisonMet r.2.2.2 j.init j.maddr).2 else r.2.2.2
      let data := unpackOctets r.1
      let after := List.zipWith (· &&& ·) (flashGet s j.faddr data.length) data
      if ¬ r.2.1 then xspEnd (breakRange s j.faddr after) 5
      else if o = .done then xspEnd (flashPut s j.faddr after) 0
      else xspEnd (breakRange s j.faddr after) code
    else if o = .done then xspEnd (flashErase s j.faddr (xspSpan j.op j.len)) 0
    else xspEnd (breakRange s j.faddr (List.replicate (xspSpan j.op j.len) 0xFF)) code

/-! ## Update messages (10 R257 to R262) -/

/-- Body octets of a message type (R257); 0 for a type that is refused. -/
def msgBody (typ : Nat) : Nat := [0, 84, 64, 4, 404].getD typ 0

/-- The signer's key of a type; empty while it is unprogrammed (R257). -/
def msgSigner (s : State) (typ : Nat) : List Octet :=
  if typ = 1 then (if s.fuses.owner.isEmpty then s.fuses.maker else s.fuses.owner)
  else if typ = 3 then s.fuses.owner
  else s.fuses.maker

/-- X ‖ Y is a point of the curve. -/
def pointOk (p : List Octet) : Bool := ecOn (ofOctetsBE (p.take 32)) (ofOctetsBE ((p.drop 32).take 32))

/-- The lowest slot from 1 to 3 whose words are all zero (R259, R261). -/
def emptySlot (s : State) : Option Nat := [1, 2, 3].find? fun k => (s.fuses.profiles.getD k []).all (· = 0)

/-- Step 3 of R259: length, MAGIC, FORMAT, TYPE, BODYLEN and reserved octets. -/
def msgFormOk (m : List Octet) (len : Nat) : Bool :=
  let typ := (m.getD 5 0).toNat
  let n := msgBody typ
  decide (m.take 5 = [0x51, 0x42, 0x55, 0x4D, 0x01] ∧ n ≠ 0 ∧ ofOctetsLE (slice m 6 2) = n ∧ len = n + 88 ∧ m.length = len) &&
  (slice m 20 4).all (· = 0) &&
  (if typ = 1 then (m.getD 24 0).toNat < 64 && (slice m 25 3).all (· = 0)
   else if typ = 3 then (m.getD 24 0).toNat < 2 && (slice m 25 3).all (· = 0)
   else true)

/-- Step 8 of R259: the type's preconditions; 0 where they hold. -/
def msgPrecond (s : State) (m : List Octet) : Nat :=
  let typ := (m.getD 5 0).toNat
  if typ = 1 then (if (freeSlot s).isSome then 0 else 10)
  else if typ = 2 then (if s.fuses.owner.isEmpty then 0 else 9)
  else if typ = 3 then
    (if s.fuses.lock < 64 ∨ ((m.getD 24 0).toNat = 1 ↔ ownerLocked s) then 0 else 11)
  else
    let p := packOctets (slice m 24 404)
    if ¬ slotFormOk p ∨ (s.fuses.profiles.any fun q => slotUsed q && decide (slotL p 2 ≤ slotL q 2)) then 9
    else if (emptySlot s).isSome then 0 else 11

/-- Steps 3 to 8 of R259: the first failure, 0 for none.  Log 60 (DEDUCED). -/
def msgJudge (s : State) (m : List Octet) (len : Nat) : Nat :=
  let typ := (m.getD 5 0).toNat
  let n := msgBody typ
  let ctr := ofOctetsLE (slice m 16 4)
  let signer := msgSigner s typ
  if ¬ msgFormOk m len then 4
  else if ofOctetsLE (slice m 8 8) ≠ rgroup s Reg.keyDevid 4 then 5
  else if ctr ≤ s.fuses.msg ∨ 1023 < ctr then 6
  else if signer.isEmpty then 7
  else if ¬ ecdsaVerify signer (sha256 (m.take (24 + n))) (slice m (24 + n) 64) ∨
      (typ = 1 ∧ ¬ pointOk (slice m 28 64)) ∨ (typ = 2 ∧ ¬ pointOk (slice m 24 64)) then 8
  else msgPrecond s m

/-- A message ends with a status; the key tree is free again. -/
def msgOver (s : State) (st typ : Nat) (h : Word) : State :=
  messageEnd { s with key := { s.key with msg := none } } st typ h

/-- The checks of the message in progress (R259, R262): refused, or passed with its octets kept.  Log 60 (DEDUCED). -/
def msgCheck (s : State) : State :=
  match s.key.msg with
  | none => s
  | some j =>
    if j.passed.isSome then s
    else if modeOf s = 0 ∨ modeOf s = 5 then msgOver s 2 0 0
    else if s.power.marginLow then msgOver s 3 0 0
    else
      let r := engineReads 37 j.init j.level j.addr ((j.len + 1) / 2) s
      let s := if r.2.2.1 then (poisonMet r.2.2.2 37 j.addr).2 else r.2.2.2
      if ¬ r.2.1 then msgOver s 12 0 0
      else
        let m := (unpackOctets r.1).take j.len
        match msgJudge s m j.len with
        | 0 => { s with key := { s.key with msg := some { j with passed := some m } } }
        | st => msgOver s st (m.getD 5 0).toNat 0

/-- The key that a SESSKEY message delivers (R261). -/
def sesskeyOf (s : State) (m : List Octet) : List Octet :=
  let z := ecdhX (deviceKey s 0x8002) (slice m 28 64)
  let kek := (sha256 (z ++ slice m 8 8 ++ slice m 16 4)).take 16
  aesDec kek (slice m 92 16)

/-- The fuse mirrors loaded again where a message changes their fuses (20 R482).  Log 60 (DEDUCED). -/
def messageMirrors (s : State) : State :=
  let f := s.fuses
  rsetFld (rset (rset s Reg.keyCtrmsg (w16 f.msg)) Reg.keyLockuse (w16 f.lock)) Reg.keyStat 5 3
    ((ownerLocked s).toNat + 2 * (!f.owner.isEmpty).toNat + 4 * (!f.maker.isEmpty).toNat)

/-- The effect of each type (R261), after MSG is programmed to CTR (R260); the status, and the handle of a SESSKEY.  One whose free slot
has been filled since its checks ends with NOSLOT.  Log 60 (DEDUCED). -/
def msgEffect (s : State) (m : List Octet) : Nat × Word × State :=
  let typ := (m.getD 5 0).toNat
  let s := { s with fuses := { s.fuses with msg := ofOctetsLE (slice m 16 4) } }
  if typ = 1 then
    match freeSlot s with
    | some k =>
      let s := fillSlot s k (sesskeyOf s m) true 0 (m.getD 24 0).toNat
      (0, handleOf s k, s)
    | none => (10, 0, s)
  else if typ = 2 then (0, 0, { s with fuses := { s.fuses with owner := slice m 24 64 } })
  else if typ = 3 then
    (0, 0, if (m.getD 24 0).toNat = 1 ↔ ownerLocked s then s else { s with fuses := { s.fuses with lock := s.fuses.lock + 1 } })
  else
    match emptySlot s with
    | some k => (0, 0, { s with fuses := { s.fuses with profiles := s.fuses.profiles.set k (packOctets (slice m 24 404)) } })
    | none => (11, 0, s)

/-- The checks and the fuse programming of the message end, and its result is recorded (R260 to R262).  Log 60 (DEDUCED). -/
def messageDone (s : State) : State :=
  let s := msgCheck s
  match s.key.msg.bind MsgJob.passed with
  | none => s
  | some m =>
    let r := msgEffect s m
    msgOver (messageMirrors r.2.2) r.1 (m.getD 5 0).toNat r.2.1

/-- A write to `KEY_MSGGO` and the checks of the message it submits (R259, R262).  Log 60 (DEDUCED). -/
def messageRow (i : Initiator) (v : Word) (s : State) : State :=
  let busy := s.key.msg.isSome
  let s := msgGo i (levelOf s i) v s
  if busy then s else msgCheck s

/-- The signed statement is written through the fence at the requester's level (R263 to R265). -/
def attestationDone (s : State) : State :=
  match s.key.att with
  | none => s
  | some j =>
    let sig := ecdsaSign (deviceKey s 0x8001) (sha256 j.octets)
    let s := { s with key := { s.key with att := none } }
    let r := engineStore 37 j.init j.level j.addr (packOctets (j.octets ++ sig)) s
    attEnd r.2 (if r.1 then 0 else 2)

/-! ## Chunks of a delta (19 R466) -/

/-- The update control reads the chunk it has accepted and consumes it. -/
def chunkRead (s : State) : State :=
  match s.upd.chunk with
  | none => s
  | some (a, len, init, lvl) =>
    if updState s ≠ 1 then s
    else if len % 2 = 1 ∨ len < 2 then applyEnd s 8
    else
      let r := engineReads init init lvl a (len / 2) s
      let s := if r.2.2.1 then (poisonMet r.2.2.2 init a).2 else r.2.2.2
      if r.2.1 then chunkTaken s (unpackOctets r.1) else applyEnd s 7

/-! ## AES blocks of the cores (12 R313; 09 R242, R243; 15 R394) -/

/-- The key that an AES block names: a handle's, with the USE bit of the Culm's pair, or a session's. -/
def AesReq.key (s : State) (r : AesReq) : Option (List Octet) :=
  let n := r.sel.toNat % 16384
  if r.ksrc then (handleKey s r.sel (r.core % 64 / 8)).map (·.take 16)
  else if n ≠ 0 ∧ sesValid s n ∧ bit (sesWord s n 0) 12 then some (unpackOctets (mgets s (sesAddr n 24) 8))
  else none

/-- An AES block is carried out, or waits while the modes engine that would carry it is tested: its completion, NOKEY with the key register
as it was, or the block, poisoned where no engine in service remains or the key column holds poisoned data.  Log 82 (DESIGN CHOICE). -/
def aesServe (s : State) (r : AesReq) : State :=
  let host := hostFor s (r.core % 64 / 8)
  match AesReq.key s r with
  | none => completion s r.core 4 (List.replicate 8 0) false 1
  | some key =>
    if (pairOf s host).svc = 1 then { s with key := { s.key with blocks := s.key.blocks ++ [r] } }
    else
      let b := unpackOctets r.block
      let bad := decide ((pairOf s host).svc ≠ 0) || (!r.ksrc && badRange s (sesAddr (r.sel.toNat % 16384) 0) 32)
      completion (loadKey s host key) r.core 4 (packOctets (if r.kop then aesDec key b else aesEnc key b)) bad 0

/-- The blocks that waited for the end of a test are served in their order. -/
def blocksAgain (s : State) : State :=
  s.key.blocks.foldl aesServe { s with key := { s.key with blocks := [] } }

/-! ## The modes engine (09 R246, R247) -/

/-- The modes engine takes descriptors from the cores' queues while it holds fewer than 256; a 17th word carries the level of
the core at its push.  Log 59 (DESIGN CHOICE). -/
def modesPull (k : Nat) : Nat → State → State
  | 0, s => s
  | n + 1, s =>
    match outbound s k 10 with
    | [] => s
    | ws :: _ =>
      if 256 ≤ s.key.modes.length then s
      else
        let d : ModesDesc := { core := requester s k 10, level := (ws.getD 16 1).toNat, words := ws.take 16 }
        let s := takeOut s k 10
        modesPull k n { s with key := { s.key with modes := s.key.modes ++ [d] } }

/-- A word of a descriptor. -/
def ModesDesc.w (d : ModesDesc) (k : Nat) : Word := d.words.getD k 0
/-- OP. -/
def ModesDesc.op (d : ModesDesc) : Nat := field (d.w 0) 3 0
/-- KSRC. -/
def ModesDesc.ksrc (d : ModesDesc) : Nat := field (d.w 0) 15 14
/-- MIC octets. -/
def ModesDesc.mic (d : ModesDesc) : Nat := [0, 4, 8, 16].getD (field (d.w 0) 5 4) 0
/-- SRC. -/
def ModesDesc.src (d : ModesDesc) : Nat := ofWords [d.w 10, d.w 11]
/-- DST. -/
def ModesDesc.dst (d : ModesDesc) : Nat := ofWords [d.w 12, d.w 13]
/-- LEN. -/
def ModesDesc.len (d : ModesDesc) : Nat := (d.w 14).toNat
/-- ALEN. -/
def ModesDesc.alen (d : ModesDesc) : Nat := (d.w 15).toNat
/-- IV, initial counter block or feedback register; the nonce is its first 13 octets. -/
def ModesDesc.iv (d : ModesDesc) : List Octet := unpackOctets ((List.range 8).map fun k => d.w (2 + k))
/-- A CCM* operation. -/
def ModesDesc.isCcm (d : ModesDesc) : Bool := decide (6 ≤ d.op)

/-- An operation or a key source that no row of R246 lists.  Log 59 (DESIGN CHOICE). -/
def ModesDesc.unlisted (d : ModesDesc) : Bool := decide (d.op = 0 ∨ 8 ≤ d.op ∨ 2 ≤ d.ksrc)

/-- A descriptor is refused (R246): besides unlisted values, a CBC length that is no multiple of 16, and a CCM* nonce
whose unused octets are not 0.  Log 59 (DESIGN CHOICE). -/
def ModesDesc.bad (d : ModesDesc) : Bool :=
  d.unlisted || (decide (d.op ≤ 2) && decide (d.len % 16 ≠ 0)) || (d.isCcm && (decide (field (d.w 8) 15 8 ≠ 0) || decide (d.w 9 ≠ 0)))

/-- The key of a descriptor (R242): a session's, or a handle's with USE bit 4.  Log 58 (PRESUMED). -/
def ModesDesc.key (s : State) (d : ModesDesc) : Option (List Octet) :=
  if d.ksrc = 0 then
    let n := field (d.w 1) 13 0
    if sesValid s n ∧ bit (sesWord s n 0) 12 then some (unpackOctets (mgets s (sesAddr n 24) 8)) else none
  else (handleKey s (d.w 1) 4).map (·.take 16)

/-- Input octets. -/
def ModesDesc.inLen (d : ModesDesc) : Nat := if d.isCcm then d.alen + d.len + (if d.op = 7 then d.mic else 0) else d.len

/-- Output octets of a descriptor that ends, and its status: 0 DONE, 1 MICBAD. -/
def ModesDesc.run (key : List Octet) (d : ModesDesc) (x : List Octet) : Nat × List Octet :=
  let nonce := d.iv.take 13
  let a := x.take d.alen
  let p := slice x d.alen d.len
  match d.op with
  | 1 => (0, cbcEncrypt key d.iv (blocksOf x))
  | 2 => (0, cbcDecrypt key d.iv (blocksOf x))
  | 3 => (0, ctrBlocks key d.iv (blocksOf x))
  | 4 => (0, cfbEncrypt key d.iv (blocksOf x))
  | 5 => (0, cfbDecrypt key d.iv (blocksOf x))
  | 6 =>
    (0, a ++ ccmCrypt key nonce p ++ ccmTag key nonce a p d.mic)
  | _ =>
    match ccmOpen key nonce a p (slice x (d.alen + d.len) d.mic) with
    | some q => (0, a ++ q)
    | none => (1, a ++ List.replicate d.len 0)

/-- The completion of a descriptor (R247).  Log 59 (DESIGN CHOICE). -/
def modesEnd (s : State) (d : ModesDesc) (st : Nat) : State := completion s d.core 3 [w16 st, 0, 0, 0]

/-- A descriptor leaves the queue; the engine takes what waits for its place. -/
def modesNext (s : State) : State :=
  let s := { s with key := { s.key with modes := s.key.modes.drop 1 } }
  (List.range 33).foldl (fun s k => modesPull k 4 s) s

/-- The output of a descriptor, partly written where the fence has refused an access: which words came first is open
(R247).  Log 59 (DESIGN CHOICE). -/
def modesPart (s : State) (d : ModesDesc) (out : List Word) : State :=
  let c := Config.openValue 247 s.free % (out.length + 1)
  (engineStore 36 d.core d.level d.dst (out.take c) (bumpFree s)).2

/-- The key column that a descriptor names holds poisoned data. -/
def ModesDesc.keyBad (s : State) (d : ModesDesc) : Bool := decide (d.ksrc = 0) && badRange s (sesAddr (field (d.w 1) 13 0) 0) 32

/-- The engine carries out one descriptor (R246, R247): `dead` where its self-check fails on it or it is retired, so that it ends with
POISON (15 R394). -/
def modesRun (dead : Bool) (d : ModesDesc) (s : State) : State :=
  if d.bad then modesEnd s d (if dead then 5 else 4)
  else
    match ModesDesc.key s d with
    | none => modesEnd s d (if dead then 5 else 2)
    | some key =>
      let s := loadKey s 5 key
      let n := (d.inLen + 1) / 2
      let r := engineReads 36 d.core d.level d.src n s
      let s := r.2.2.2
      let x := (unpackOctets r.1).take d.inLen
      if ¬ r.2.1 then
        let y := if d.isCcm then x.take d.alen else (ModesDesc.run key d (x.take (16 * (x.length / 16)))).2
        modesEnd (modesPart s d (packOctets y)) d 3
      else
        let y := ModesDesc.run key d x
        let out := packOctets y.2
        if r.2.2.1 || dead || ModesDesc.keyBad s d then
          let s := if r.2.2.1 then (poisonMet s 36 d.src).2 else s
          let q := engineWrites 36 d.core d.level d.dst out s
          let s := poisonRange (healRange q.2.2 d.dst q.1) d.dst q.1
          modesEnd s d (if q.2.1 then 5 else 3)
        else
          let q := engineWrites 36 d.core d.level d.dst out s
          if q.2.1 then modesEnd (healRange q.2.2 d.dst q.1) d y.1
          else modesEnd (healRange q.2.2 d.dst q.1) d 3

/-- The engine is retired (15 R394). -/
def modesDead (s : State) : Bool := decide ((pairOf s 5).svc = 2)

/-- Descriptors at the head that no operation carries out are refused with BADDESC, or end with POISON once the engine is retired
(15 R394).  Log 59 (DESIGN CHOICE). -/
def modesDrain : Nat → State → State
  | 0, s => s
  | n + 1, s =>
    match s.key.modes with
    | d :: _ => if d.unlisted then modesDrain n (modesEnd (modesNext s) d (if modesDead s then 5 else 4)) else s
    | [] => s

/-- The engine carries out the descriptor at the head of its queue when its OP is `op`; while its known-answer test runs,
descriptors wait (15 R394).  Log 59 (DESIGN CHOICE). -/
def modesServe (op : Nat) (s : State) : State :=
  if (pairOf s 5).svc = 1 then s
  else
    let s := modesDrain 256 s
    match s.key.modes with
    | d :: _ => if d.op = op then modesRun (modesDead s) d (modesNext s) else s
    | [] => s

/-! ## Self-checks (09 R243; 15 R393, R394) -/

/-- A block of the acknowledgement pair's work has failed its check with no engine left to repeat it: the frame judged next that is secured
under a key ends with POISON (09 R243).  Log 50 (DEDUCED). -/
def ackBlockFails (s : State) : State :=
  match leastFrame (fun f => judgeTick s f :: frameKey f) (s.frames.filter fun f => f.looked && !f.judged && !f.key.isEmpty &&
      (frameHdr f).any MacHdr.sec) with
  | some f => updFrame s f.id fun f => { f with bad := true }
  | none => s

/-- A pair's self-check mismatches: its withheld block is repeated on the engine that takes over, where one is in service (09 R243). -/
def aesMismatch (s : State) (k : Nat) : State :=
  if k = 4 ∧ (pairOf s 4).svc = 0 ∧ modesDead s then ackBlockFails (pairMismatch s k) else pairMismatch s k

/-- The modes engine's self-check fails on the block it runs, and its test begins: a block of the acknowledgement pair's work, which it
serves before any other, or of the descriptor at the head, which ends with POISON (09 R243, R244, R247; 15 R394).  Log 59 (DESIGN CHOICE). -/
def modesFails (s : State) : State :=
  if (pairOf s 5).svc ≠ 0 then s
  else
    let s := evt s Reg.aesEvt 10
    let s := if (pairOf s 4).svc ≠ 0 then ackBlockFails s else s
    let s := match (pairOf s 4).svc, s.key.modes with
      | 0, d :: _ => modesRun true d (modesNext s)
      | _, _ => s
    pairService s 5 1

/-- A known-answer test that runs ends, and blocks that waited for it are served (15 R393, R394). -/
def testEnd (s : State) (k : Nat) (pass : Bool) : State := if (pairOf s k).svc = 1 then blocksAgain (katEnd s k pass) else s

/-! ## The commands -/

/-- A cipher pair's self-check mismatches (09 R243). -/
def execAesMismatch (k : Fin 5) (s : State) : Host.Outcome State Fault Refusal := .next (aesMismatch s k)

/-- An engine's known-answer test ends (15 R393, R394); 5 is the modes engine. -/
def execKnownAnswerTest (e : Fin 6) (pass : Bool) (s : State) : Host.Outcome State Fault Refusal := .next (testEnd s e pass)

/-- The modes engine's self-check fails and its known-answer test begins (15 R394). -/
def execModesSelfCheckFail (s : State) : Host.Outcome State Fault Refusal := .next (modesFails s)

/-- A flash operation ends (14 R380). -/
def execFlashOpComplete (o : OpOutcome) (s : State) : Host.Outcome State Fault Refusal := .next (flashDone o s)

/-- A SESSKEY message is submitted and checked (R257 to R259, R262). -/
def execSesskey (i : Initiator) (v : Word) (s : State) : Host.Outcome State Fault Refusal := .next (messageRow i v s)

/-- An OWNERKEY message is submitted and checked (R257 to R259, R262). -/
def execOwnerkey (i : Initiator) (v : Word) (s : State) : Host.Outcome State Fault Refusal := .next (messageRow i v s)

/-- An OWNERLOCK message is submitted and checked (R256 to R259, R262). -/
def execOwnerlock (i : Initiator) (v : Word) (s : State) : Host.Outcome State Fault Refusal := .next (messageRow i v s)

/-- A PROFILE message is submitted and checked (R257 to R259, R262). -/
def execProfile (i : Initiator) (v : Word) (s : State) : Host.Outcome State Fault Refusal := .next (messageRow i v s)

/-- The message in progress ends (R260 to R262). -/
def execMessageComplete (s : State) : Host.Outcome State Fault Refusal := .next (messageDone s)

/-- The statement is written (R263). -/
def execAttestationComplete (s : State) : Host.Outcome State Fault Refusal := .next (attestationDone s)

/-- A chunk has been consumed (19 R466). -/
def execChunkConsumed (s : State) : Host.Outcome State Fault Refusal := .next (chunkRead s)

/-- CBC encryption (R246). -/
def execCbcEnc (s : State) : Host.Outcome State Fault Refusal := .next (modesServe 1 s)
/-- CBC decryption (R246). -/
def execCbcDec (s : State) : Host.Outcome State Fault Refusal := .next (modesServe 2 s)
/-- Counter mode (R246). -/
def execCtr (s : State) : Host.Outcome State Fault Refusal := .next (modesServe 3 s)
/-- CFB encryption (R246). -/
def execCfbEnc (s : State) : Host.Outcome State Fault Refusal := .next (modesServe 4 s)
/-- CFB decryption (R246). -/
def execCfbDec (s : State) : Host.Outcome State Fault Refusal := .next (modesServe 5 s)
/-- CCM* encryption with its MIC (R246). -/
def execCcmEnc (s : State) : Host.Outcome State Fault Refusal := .next (modesServe 6 s)
/-- CCM* decryption with its check (R246). -/
def execCcmDec (s : State) : Host.Outcome State Fault Refusal := .next (modesServe 7 s)

end Sys2Proof.Machine
end

