-- ==== Sys2Proof/Machine/Cores.lean ====
section
/-!
DEFINITION. Bundles as a core issues, holds and commits them (12_oathano_isa R297 to R313, R325, R326; 11_tillers R267 to R285):
fetch, the checks in their order, local memory and local I/O, the fabric, the queue port and the AES instruction.
-/

namespace Sys2Proof.Machine

/-! ## A core's addresses (11 R267 to R271) -/

/-- Local memory. -/
def isLocal (a : Nat) : Bool := decide (a < 0x10000)
/-- Local I/O. -/
def isLocalIo (a : Nat) : Bool := decide (0x10000 ≤ a ∧ a < 0x20000)
/-- The fabric. -/
def isFabric (a : Nat) : Bool := decide (0x20000 ≤ a)

/-- A word of local memory: a Tiller's own, or the Crown core's alias of Crown RAM. -/
def localGet (s : State) (k a : Nat) : Word := if k < 32 then lget s k a else mget s (0x04010000 + a)

/-- Write a word of local memory. -/
def localSet (s : State) (k a : Nat) (v : Word) : State := if k < 32 then lset s k a v else mset s (0x04010000 + a) v

/-- The row of a local address is poisoned. -/
def localBad (s : State) (k a : Nat) : Bool := if k < 32 then badLocal s k a else badAt s (0x04010000 + a)

/-- The split rule of R268 refuses a local address. -/
def splitBars (s : State) (k a : Nat) : Bool :=
  decide (k = 32) && !secureNow s 32 && decide (a < (rget s Reg.tilCsplit).toNat)

/-- Consecutive words of local memory. -/
def localGets (s : State) (k a n : Nat) : List Word := (List.range n).map fun j => localGet s k (a + j)

/-- Write consecutive words of local memory; rows written whole are poisoned no more (01 R41). -/
def localSets (s : State) (k a : Nat) (ws : List Word) : State :=
  let s := (ws.zipIdx).foldl (fun s e => localSet s k (a + e.2) e.1) s
  if k < 32 then
    { s with flt := { s.flt with
        bad := s.flt.bad.filter fun e => !(decide (e.1 = k ∧ a ≤ 8 * e.2 ∧ 8 * e.2 + 8 ≤ a + ws.length)) } }
  else healRange s (0x04010000 + a) ws.length

/-- A read of local I/O (R271; 17 R429): the value, and what a claim changes. -/
def ioRead (s : State) (k a : Nat) : Word × State :=
  let o := a - 0x10000
  if o < 16 then (w16 (qstat s k o), s)
  else if o = 0x10 then (w16 k, s)
  else if o = 0x20 then intClaim s k false
  else if o = 0x22 then intClaim s k true
  else (0, s)

/-- A write of local I/O (R271; 17 R430). -/
def ioWrite (s : State) (k a : Nat) (v : Word) : State :=
  let o := a - 0x10000
  if o = 0x21 then intComplete s k false v
  else if o = 0x23 then intComplete s k true v
  else s

/-! ## Deterministic mode at an address (11 R284; 17 R432, R434) -/

/-- The granule that holds an address of the Granary. -/
def granuleAt (a : Nat) : Nat := (a - 0x03000000) / 64

/-- Some fixed rule decides the access (R286), or no descriptor does. -/
def descFor (s : State) (lvl kind a : Nat) : Option FenceDesc :=
  match fenceFixed true lvl kind a, s.fence.force with
  | none, some ds => fenceDesc ds a
  | _, _ => none

/-- The DET cause of a load or a fetch at an address.  Log 80 (DESIGN CHOICE). -/
def detLoad (s : State) (k kind a : Nat) : Option Trap :=
  let o := a - 0x10000
  if isLocal a then none
  else if isLocalIo a then (if o ≤ 0x10 ∨ o = 0x20 ∨ o = 0x22 then some trapDetq else none)
  else if winOf a = 0x1003 then (if kind = accExec then none else some (trapDetmem a))
  else
    match descFor s (coreLevel s k) kind a with
    | some d =>
      if bit d.attr 1 then (if holdsGranule s k (granuleAt a) then none else some (trapDetmem a))
      else if bit d.attr 0 then none
      else some (trapDetmem a)
    | none => none

/-- The DET cause of a store at an address.  Log 80 (DESIGN CHOICE). -/
def detStore (s : State) (k a : Nat) : Option Trap :=
  let o := a - 0x10000
  if isLocal a then none
  else if isLocalIo a then (if o = 0x21 ∨ o = 0x23 then some trapDetq else none)
  else
    match descFor s (coreLevel s k) accWrite a with
    | some d => if bit d.attr 1 ∧ ¬ holdsGranule s k (granuleAt a) then some (trapDetmem a) else none
    | none => none

/-! ## Fetch (11 R270; R301) -/

/-- A trap found, with the state as its records leave it. -/
abbrev TrapAt := Trap × State

/-- A fetch from this range reaches the fence (11 R270). -/
def fetchRange (k a : Nat) : Bool := decide (regionOf a = .shared ∨ (regionOf a = .bootRom ∧ k = 32))

/-- The fetch of a word is refused: by its range, or by the fence (11 R270; R325 item 1). -/
def fetchFence (s : State) (k a : Nat) : Option TrapAt :=
  if isLocal a then none
  else if fetchRange k a then
    match fenceCheck s true k (coreLevel s k) accExec a with
    | (false, s) => some (trapFence a, s)
    | (true, _) => none
  else some (trapFence a, s)

/-- What else bars the fetch of a word: SECMEM, DETMEM, POISON, which R325 does not place.  Log 75 (DESIGN CHOICE). -/
def fetchBar (s : State) (k a : Nat) : Option TrapAt :=
  if isLocal a then
    (if splitBars s k a then some (trapSecmem a, s)
     else if localBad s k a then some (trapPoison a, (poisonMet s k a).2)
     else none)
  else
    match (if detNow s k then detLoad s k accExec a else none) with
    | some t => some (t, s)
    | none => if badAt s a then some (trapPoison a, (poisonMet s k a).2) else none

/-- A word fetched.  Log 75 (DESIGN CHOICE). -/
def fetchWord (s : State) (k a : Nat) : Word := if isLocal a then localGet s k a else mget s a

/-- The addresses of the words of a bundle, of at most `n` syllables, up to the first syllable with STOP.  Log 75 (DESIGN CHOICE). -/
def bundleWords (s : State) (k : Nat) : Nat → Nat → List Nat
  | _, 0 => []
  | a, n + 1 => a :: (a + 1) % 2 ^ 32 :: (if bit (fetchWord s k a) 15 then [] else bundleWords s k ((a + 2) % 2 ^ 32) n)

/-- The first trap of a list of checks.  Log 77 (DESIGN CHOICE). -/
def firstTrap {α β : Type} (f : α → Option β) (l : List α) : Option β := l.findSome? f

/-- Fetch the bundle at PC (R301; R325 item 1): FENCE of any of its words, ALIGN of PC, then what else bars a word.  Log 75 (DESIGN CHOICE). -/
def fetchBundle (s : State) (k pc : Nat) : TrapAt ⊕ List Word :=
  let as := bundleWords s k pc 4
  match firstTrap (fetchFence s k) as with
  | some t => .inl t
  | none =>
    if pc % 2 = 1 then .inl (trapAlign pc, s)
    else
      match firstTrap (fetchBar s k) as with
      | some t => .inl t
      | none => .inr (as.map (fetchWord s k))

/-! ## Decoding a bundle for a core -/

/-- What makes a syllable ILLOP (R324, R325): unlisted values, fields that must be 0, and what the core's kind or its status
rules out. A return with nothing to return from is one only where it executes.  Log 76 (DESIGN CHOICE). -/
def illegal (s : State) (k : Nat) (y : Syl) : Bool :=
  if y.isExt then decide (field y.w0 10 9 ≠ 0 ∨ field y.w0 2 1 ≠ 0)
  else
    match y.mnem with
    | none => true
    | some m =>
      let c := s.core k
      !legalFields m y.o ||
      (match m with
       | .scall | .sret => decide (k < 32)
       | .aes => decide (k = 32)
       | .mfc | .mtc => !crListed k (oImm9 y.o)
       | .reti => c.runs y && !bit c.sr 10 && !bit c.sr 9
       | .rett => c.runs y && !bit c.sr 11
       | _ => false)

/-- The instructions of a bundle that execute, in slot order (R299). -/
def insOf (c : CoreSt) (ys : List Syl) : List Ins :=
  ys.filterMap fun y =>
    if y.isExt ∨ ¬ c.runs y then none
    else y.mnem.map fun m => { m := m, o := y.o, imm := immOf ys y m }

/-! ## Checks of an executed syllable (R325 item 4) -/

/-- Words of the entry or block a queue instruction moves. -/
def spanLen (i : Ins) : Nat := if i.m = .aes then 8 else qWords (oQn i.o)

/-- The instruction works on a span of local memory. -/
def Mnem.spans (m : Mnem) : Bool := decide (m = .qpop ∨ m = .qpush ∨ m = .qtry ∨ m = .aes)

/-- The first word of the span. -/
def spanAt (c : CoreSt) (i : Ins) : Nat := (c.xOf (oXq i.o)).toNat

/-- A queue number outside its direction (11 R273).  Log 82 (DESIGN CHOICE). -/
def wrongQueue (i : Ins) : Bool :=
  match i.m with
  | .qpop | .qtry => decide (8 ≤ oQn i.o)
  | .qpush => decide (oQn i.o < 8)
  | _ => false

/-- PRIV (R314, R326).  Log 77 (DESIGN CHOICE). -/
def privBars (s : State) (k : Nat) (i : Ins) : Bool :=
  match i.m with
  | .mfc | .mtc => crSecure k (oImm9 i.o) && decide (coreLevel s k ≠ 0)
  | .scall => secureNow s k
  | .sret => !secureNow s k
  | _ => false

/-- A DET cause (R317, R316; 11 R284).  Log 80 (DESIGN CHOICE). -/
def detBars (s : State) (k : Nat) (i : Ins) : Option Trap :=
  let c := s.core k
  if i.m = .mtc ∧ clearsDet s k (oImm9 i.o) (c.wOf (oSi i.o)) then some trapDetins
  else if ¬ detNow s k then none
  else
    match i.m with
    | .mfc => if crTimed (oImm9 i.o) then some trapDetins else none
    | .wait => some trapDetins
    | .qtry => some trapDetq
    | .qpop => if oQn i.o = 6 then some trapDetq else none
    | _ =>
      firstTrap (fun a =>
        match (if i.m.loads then detLoad s k accRead a else none) with
        | some t => some t
        | none => if i.m.stores then detStore s k a else none) (c.addrs i)

/-- The Crown core's view of its alias in Crown RAM, or the core's own local memory: where atomics may work (R307). -/
def atomicPlace (a : Nat) : Bool := isLocal a || decide (regionOf a = .shared ∨ regionOf a = .granary)

/-- A word access that the fence refuses: the first kind of access refused at `a` (R292). -/
def fenceBars (s : State) (k : Nat) (i : Ins) (a : Nat) : Option TrapAt :=
  if ¬ isFabric a then none
  else
    match (if i.m.loads then fenceCheck s true k (coreLevel s k) accRead a else (true, s)) with
    | (false, s) => some (trapFence a, s)
    | (true, s) =>
      match (if i.m.stores then fenceCheck s true k (coreLevel s k) accWrite a else (true, s)) with
      | (false, s) => some (trapFence a, s)
      | (true, _) => none

/-- Poison that a load meets at `a` (01 R43): its record, and the event of the tag store's window.  Log 77 (DESIGN CHOICE). -/
def poisonBars (s : State) (k a : Nat) : Option TrapAt :=
  if isLocal a then (if localBad s k a then some (trapPoison a, (poisonMet s k a).2) else none)
  else if isLocalIo a then none
  else
    match regionOf a with
    | .block =>
      if a = Reg.nftWdata ∧ ¬ s.power.lost then
        let r := windowRead s
        if r.2.1 then some (trapPoison a, (poisonMet r.2.2 k a).2) else none
      else none
    | _ => if badAt s a then some (trapPoison a, (poisonMet s k a).2) else none

/-- Words of local memory that the instruction reads.  Log 78 (DESIGN CHOICE). -/
def readSpan (c : CoreSt) (i : Ins) : List Nat :=
  if i.m = .qpush ∨ i.m = .aes then (List.range (spanLen i)).map (spanAt c i + ·) else []

/-- The first cause that applies to an executed syllable.  Log 77 (DESIGN CHOICE). -/
def insTrap (s : State) (k : Nat) (i : Ins) : Option TrapAt :=
  let c := s.core k
  if privBars s k i then some (trapPriv, s)
  else
    match detBars s k i with
    | some t => some (t, s)
    | none =>
      if wrongQueue i then some (trapBadq, s)
      else if i.m.spans ∧ 0x10000 < spanAt c i + spanLen i then some (trapQaddr (spanAt c i), s)
      else if i.m.atomic ∧ ¬ atomicPlace (c.ea i).toNat then some (trapAtomic (c.ea i).toNat, s)
      else
        let as := c.addrs i
        match firstTrap (fenceBars s k i) as with
        | some t => some t
        | none =>
          let own := as.filter isLocal ++ (if i.m.spans then (List.range (spanLen i)).map (spanAt c i + ·) else [])
          match own.find? (splitBars s k) with
          | some a => some (trapSecmem a, s)
          | none => firstTrap (poisonBars s k) ((if i.m.loads then as else []) ++ readSpan c i)

/-- The debug port has enabled halt on break, when the core reaches its present bundle: a free value.  Log 83 (DESIGN CHOICE). -/
def haltOnBreak (c : CoreSt) : Bool := decide (Config.openValue 326 c.bcnt % 2 = 1)

/-- The trap that an instruction is: TRAP, and BRK where nothing halts the core (R326).  Log 83 (DESIGN CHOICE). -/
def insIsTrap (s : State) (k : Nat) (i : Ins) : Option Trap :=
  match i.m with
  | .trap => some (trapSw (oF i.o 7 0))
  | .brk => if haltOnBreak (s.core k) then none else some trapBreak
  | _ => none

/-- A flit that the core takes from the fabric carries an error that arose on the path (15 R385, R392): it is corrected and
recorded, or the data count as poisoned.  Log 81 (DESIGN CHOICE). -/
def flitMet (s : State) (k : Nat) (fl : List Upset) : Bool × State :=
  fl.foldl (fun r u =>
    let synd := flipSyndrome u.flips
    if synd = 0 then r
    else
      let s := bump r.2 Reg.fltNflit
      match codeBit synd with
      | some _ => (r.1, fault s { cls := 2, lasting := false, action := 0, typ := 8, inst := k, synd := synd, init := k })
      | none => (true, fault s { cls := 2, lasting := false, sub := 1, action := 4, typ := 8, inst := k, synd := synd, init := k }))
    (false, s)

/-- Executed syllables are checked in slot order, a load's flits with its own poison (R325 item 4): the trap found, and the state
as the records leave it. -/
def runChecks (k : Nat) (flits : List Upset) : List Ins → State → Option Trap × State
  | [], s => (none, s)
  | i :: l, s =>
    match insTrap s k i with
    | some (t, s) => (some t, s)
    | none =>
      match (if i.m.loads then (s.core k).addrs i else []).filter isFabric with
      | [] => runChecks k flits l s
      | a :: _ =>
        let fm := flitMet s k flits
        if fm.1 then (some (trapPoison a), fm.2) else runChecks k flits l fm.2

/-- The first cause of the executed syllables, the alignment of a branch target after them (R325 items 4 and 5).  Log 77 (DESIGN CHOICE). -/
def runTrap (s : State) (k : Nat) (is : List Ins) (flits : List Upset) : Option Trap × State :=
  match runChecks k flits is s with
  | (some t, s) => (some t, s)
  | (none, s) =>
    match firstTrap (fun i => (s.core k).target i (s.core k).pc) is with
    | some a => (if a.toNat % 2 = 1 then some (trapAlign a.toNat) else none, s)
    | none => (firstTrap (insIsTrap s k) is, s)

/-! ## The queue port (11 R272 to R278; R310 to R313) -/

/-- A completion entry of a queue is free and not reserved (R274). -/
def completionFree (s : State) (k q : Nat) : Bool :=
  match completionQueue q with
  | some r => decide ((inbound s k r).length + (s.core k).resv.nth r 0 < qDepth r)
  | none => true

/-- A push to `q` need not wait. -/
def pushReady (s : State) (k q : Nat) : Bool := decide ((outbound s k q).length < qDepth q) && completionFree s k q

/-- The queue on which an instruction must wait, if it must. -/
def stallsOn (s : State) (k : Nat) (i : Ins) : Option Nat :=
  match i.m with
  | .qpop => if (inbound s k (oQn i.o)).isEmpty then some (oQn i.o) else none
  | .qpush => if pushReady s k (oQn i.o) then none else some (oQn i.o)
  | .aes => if pushReady s k 11 then none else some 11
  | _ => none

/-- The entry at the head of an inbound queue leaves it. -/
def dropHead (s : State) (k q : Nat) : State := s.updCore k fun c => { c with qin := c.qin.upd q (·.drop 1) }

/-- An entry has left queue `q`: granules pass to the core, and what waited for the place goes on. -/
def popEffect (s : State) (k q : Nat) (ws : List Word) : State :=
  if q = 0 then sagePump (rxPopped s k ws)
  else if q = 6 then deliverAll s
  else if q = 7 then
    (if (holdOf s (ws.getD 0 0).toNat 37).isSome then passHold s (ws.getD 0 0).toNat k else s)
  else s

/-- Pop the entry at the head of queue `q` to local memory at `a` (R310, R311). -/
def popEntry (s : State) (k q a : Nat) : State :=
  match inbound s k q with
  | [] => s
  | (ws, _, side) :: _ =>
    popEffect ((localSets (dropHead s k q) k a ws).updCore k fun c => { c with qst := side }) k q ws

/-- A completion entry is reserved for a push to `q` (R274). -/
def reserveEntry (s : State) (k q : Nat) : State :=
  match completionQueue q with
  | some r => s.updCore k fun c => { c with resv := c.resv.upd r (· + 1) }
  | none => s

/-- An entry is pushed. -/
def pushOut (s : State) (k q : Nat) (ws : List Word) : State :=
  (reserveEntry s k q).updCore k fun c => { c with qout := c.qout.upd (q - 8) (· ++ [ws]) }

/-- The hold of the granules of `g` passes from the core to `owner` (R276, R277; 14 R361): whether the core held them. -/
def giveUp (s : State) (k g owner : Nat) : Bool × State :=
  if (holdOf s g k).isSome then
    (true, (passHold s g owner).updCore k fun c => { c with popped := c.popped.filter fun r => r.gran ≠ g })
  else (false, s)

/-- An AESCMD entry is pushed and served by the Culm's pair, or the engine that carries its work (R313; 09 R242, R243).  Log 82 (DESIGN CHOICE). -/
def aesPush (s : State) (k : Nat) (kop ksrc : Bool) (sel : Word) (block : List Word) : State :=
  aesServe (reserveEntry s k 11) { core := k, kop := kop, ksrc := ksrc, sel := sel, block := block }

/-- Push an entry to outbound queue `q` (R310).  Log 82 (DESIGN CHOICE). -/
def pushEntry (s : State) (k q : Nat) (ws : List Word) : State :=
  let g := fun n => (ws.getD n 0).toNat
  let lvl := w16 (coreLevel s k)
  if q = 8 then pushOut (giveUp s k (g 6) 36).2 k 8 ws
  else if q = 9 then sesPull (pushOut s k 9 (ws ++ [lvl]))
  else if q = 10 then modesPull k 4 (pushOut s k 10 (ws ++ [lvl]))
  else if q = 11 then aesPush s k false false 0 ws
  else if q = 13 then
    let r := giveUp s k (g 0) 38
    pushOut r.2 k 13 (ws ++ [w16 r.1.toNat])
  else if q = 14 then deliverAll (pushOut s k 14 ws)
  else if q = 15 then
    let r := giveUp s k (g 0) 37
    netService k 32 (pushOut r.2 k 15 (ws ++ [w16 r.1.toNat]))
  else pushOut s k q ws

/-- x[X] advances by the length of the span with INC = 1. -/
def incWrite (c : CoreSt) (i : Ins) : List Wr :=
  if oInc i.o then [.x (oXq i.o) (c.xOf (oXq i.o) + BitVec.ofNat 32 (spanLen i))] else []

/-- QTRY finds an entry. -/
def tryFinds (s : State) (k : Nat) (i : Ins) : Bool := decide (i.m = .qtry) && !(inbound s k (oQn i.o)).isEmpty

/-- Results in registers of a queue or AES instruction. -/
def queueWrites (s : State) (k : Nat) (i : Ins) : List Wr :=
  let c := s.core k
  match i.m with
  | .qpop | .qpush | .aes => incWrite c i
  | .qtry => .p (oPdq i.o) (tryFinds s k i) :: (if tryFinds s k i then incWrite c i else [])
  | _ => []

/-- The effect of a queue or AES instruction outside the core's registers; the words a push reads stand in `old`, the state
before the bundle (R298).  Log 78 (DESIGN CHOICE), 82 (DESIGN CHOICE). -/
def queueEffect (old s : State) (k : Nat) (i : Ins) : State :=
  let c := old.core k
  let a := spanAt c i
  match i.m with
  | .qpop => popEntry s k (oQn i.o) a
  | .qtry => if tryFinds old k i then popEntry s k (oQn i.o) a else s
  | .qpush => pushEntry s k (oQn i.o) (localGets old k a (spanLen i))
  | .aes => aesPush s k (decide (oF i.o 18 18 = 1)) (decide (oF i.o 17 17 = 1)) (c.wOf (oS i.o)) (localGets old k a 8)
  | _ => s

/-- What bars the pop of the entry at the head of a queue (R312; 11 R284): the entry leaves, and the bundle traps. A LATE
completion has been moved to local memory by then. -/
def popBars (s : State) (k : Nat) (i : Ins) : Option TrapAt :=
  match (if i.m = .qpop ∨ i.m = .qtry then inbound s k (oQn i.o) else []) with
  | [] => none
  | (ws, poison, _) :: _ =>
    let q := oQn i.o
    if poison then some (trapPoison 0, popEffect (poisonMet (dropHead s k q) k 0).2 k q ws)
    else if detNow s k ∧ q = 1 ∧ field (ws.getD 7 0) 3 0 = 5 then
      some (trapDetlate, localSets (dropHead s k q) k (spanAt (s.core k) i) ws)
    else none

/-! ## Memory (R306, R307) -/

/-- A word loaded: its value, and what the read changes. -/
def coreLoad (s : State) (k a : Nat) : Word × State :=
  if isLocal a then (localGet s k a, s)
  else if isLocalIo a then ioRead s k a
  else
    let r := fabricRead (coreInit k) a s
    (r.1, r.2.2)

/-- Words loaded in ascending order.  Log 78 (DESIGN CHOICE). -/
def coreLoads (k : Nat) : List Nat → State → List Word × State
  | [], s => ([], s)
  | a :: l, s =>
    let r := coreLoad s k a
    let q := coreLoads k l r.2
    (r.1 :: q.1, q.2)

/-- A store that reaches a register acts after the core's own commit. -/
def toRegister (a : Nat) : Bool := !isLocal a && (isLocalIo a || decide (regionOf a = .block))

/-- A word stored; through the fabric at the level `lvl` at which it was issued (01 R46). -/
def coreStore (s : State) (k lvl a : Nat) (v : Word) : State :=
  if isLocal a then localSet s k a v
  else if isLocalIo a then ioWrite s k a v
  else fabricWrite (coreInit k) lvl a v s

/-- The stores of an instruction to the addresses of one kind.  Log 78 (DESIGN CHOICE). -/
def coreStores (k lvl : Nat) (reg : Bool) (l : List (Nat × Word)) (s : State) : State :=
  l.foldl (fun s e => if toRegister e.1 == reg then coreStore s k lvl e.1 e.2 else s) s

/-! ## Commit (R298, R300) -/

/-- The next bundle, the status and the rest of what a slot 3 instruction does to its core.  Log 83 (DESIGN CHOICE). -/
def ctlEffect (s : State) (k : Nat) (i : Ins) (next : DWord) : State :=
  let c := s.core k
  match i.m with
  | .call | .callr => s.updCore k (·.write (.x 7 next))
  | .mtc => crWrite s k (oImm9 i.o) (c.wOf (oSi i.o))
  | .scall => s.updCore k fun c =>
      { c with spc := next, ssr := c.sr, sr := setBit (setBit (setBit (setBit c.sr 15 true) 13 false) 8 false) 7 false, pc := c.svec }
  | .sret => s.updCore k fun c => { c with sr := restored false c.ssr, pc := c.spc }
  | .reti => s.updCore k fun c =>
      if bit c.sr 10 then { c with sr := restored (decide (k = 32) && bit c.sr 15) c.esrf, pc := c.epcf }
      else { c with sr := restored (decide (k = 32) && bit c.sr 15) c.esrn, pc := c.epcn }
  | .rett => s.updCore k fun c => { c with sr := restored (decide (k = 32) && bit c.sr 15) c.tsr, pc := c.tpc }
  | .wait => if classOpen c.sr true || classOpen c.sr false then s.updCore k fun c => { c with hold := .wait } else s
  | .brk => (if k = 32 then lfLeave s else s).updCore k fun c => { c with hold := .halted }
  | _ => s

/-- Counters of a bundle that has issued (R314): FAB cycles, of which some held; how many is open.  Log 79 (DESIGN CHOICE). -/
def countCycles (s : State) (k : Nat) (commit : Bool) : State :=
  let h := Config.openValue 309 s.free
  bumpFree (s.updCore k fun c =>
    { c with cycle := (c.cycle + 1 + h) % 2 ^ 64, scnt := (c.scnt + h) % 2 ^ 32, bcnt := (c.bcnt + commit.toNat) % 2 ^ 32 })

/-- The instruction's MFC result, and the state as the read leaves it. -/
def mfcRead (s : State) (k : Nat) (i : Ins) : List Wr × State :=
  if i.m = .mfc then
    let r := crRead s k (oImm9 i.o)
    ([.w (oDi i.o) r.1], r.2)
  else ([], s)

/-- The results and reads of the executed instructions, in slot order, all from the state before the bundle.  Log 78 (DESIGN CHOICE). -/
def gather (k : Nat) : List Ins → State → (List Wr × List (Nat × Word)) × State
  | [], s => (([], []), s)
  | i :: l, s =>
    let c := s.core k
    let as := c.addrs i
    let ld := coreLoads k (if i.m.loads then as else []) s
    let mf := mfcRead ld.2 k i
    let pick := decide (Config.openValue 304 c.bcnt % 2 = 1)
    let ws := c.results i ++ c.loadWrites i ld.1 pick ++ queueWrites mf.2 k i ++ mf.1
    let st := if i.m.stores then as.zip (c.storeWords i ld.1) else []
    let r := gather k l mf.2
    ((ws ++ r.1.1, st ++ r.1.2), r.2)

/-- Commit a bundle: loads, results, memory stores, the queue instruction, the control instruction, and last a store that
reaches a register, which may stop or reset the core.  Log 78 (DESIGN CHOICE). -/
def commit (s : State) (k : Nat) (is : List Ins) (len : Nat) : State :=
  let s := stallOver s k
  let c := s.core k
  let lvl := coreLevel s k
  let next := c.pc + BitVec.ofNat 32 len
  let g := gather k is s
  let old := g.2
  let s := coreStores k lvl false g.1.2 old
  let s := is.foldl (fun s i => queueEffect old s k i) s
  let goal := (firstTrap (fun i => c.target i c.pc) is).getD next
  let ctl := is.foldl (fun s i => ctlEffect s k i next)
    (s.updCore k fun c => { c with hold := .none, bundle := [], pc := goal })
  let s := ctl.updCore k fun d =>
    (g.1.1.foldl CoreSt.write { d with sr := setBit d.sr 10 c.fast }) |> fun e => { e with sr := d.sr }
  coreStores k lvl true g.1.2 (countCycles s k true)

/-! ## Issue, and the ends of a bundle's waits (R309, R325) -/

/-- An executed instruction loads through the fabric. -/
def fabricLoads (c : CoreSt) (is : List Ins) : List Nat :=
  (is.filter fun i => i.m.loads).flatMap fun i => (c.addrs i).filter isFabric

/-- The bundle traps: cycles are counted, nothing is committed (R300). -/
def trapWith (s : State) (k : Nat) (t : Trap) (tnpc : DWord) : State := takeTrap (countCycles s k false) k t tnpc

/-- The bundle whose words have been fetched commits, or meets what bars the pop of its entry. -/
def finishBundle (s : State) (k : Nat) (is : List Ins) (len : Nat) : State :=
  match firstTrap (popBars s k) is with
  | some (t, s') => trapWith s' k t ((s.core k).pc + BitVec.ofNat 32 len)
  | none => commit s k is len

/-- The bundle goes on once its queue instruction need not wait: it is held for its fabric loads, or it commits. -/
def afterQueue (s : State) (k : Nat) (ws : List Word) (is : List Ins) : State :=
  if (fabricLoads (s.core k) is).isEmpty then finishBundle s k is ws.length
  else (stallOver s k).updCore k fun c => { c with hold := .fabric, bundle := ws }

/-- A fetched bundle is checked and issued (R325 items 2 to 5, R309). -/
def issueWords (s : State) (k : Nat) (ws : List Word) (flits : List Upset) : State :=
  let c := s.core k
  let ys := sylsOf ws
  let next := if (ys.getLast?.map Syl.stop) = some true then c.pc + BitVec.ofNat 32 ws.length else openNext s k
  if ¬ bundleLegal ys then trapWith s k trapIllbundle next
  else if ys.any (illegal s k) then trapWith s k trapIllop next
  else
    let is := insOf c ys
    match runTrap s k is flits with
    | (some t, s) => trapWith s k t next
    | (none, s) =>
      let s := if is.any fun i => decide ((i.m = .qpop ∨ i.m = .qtry) ∧ oQn i.o = 0) then rxIssue s k else s
      match firstTrap (stallsOn s k) is with
      | some q => s.updCore k fun c => { c with hold := .queue q, stallAt := s.time.now, bundle := ws }
      | none => afterQueue s k ws is

/-- A core issues the bundle at its PC (R297, R309); the upsets are the errors its accesses meet. -/
def issue (s : State) (k : Nat) (upsets : List Upset) : State :=
  if ¬ coreOn s k ∨ (s.core k).hold ≠ .none then s
  else
    let s := (upsets.filter fun u => u.unit ≠ 203).foldl (fun s u => rowError s u k false) s
    let flits := upsets.filter fun u => u.unit = 203
    let pc := (s.core k).pc.toNat
    match fetchBundle s k pc with
    | .inl (t, s) => trapWith s k t (openNext s k)
    | .inr ws =>
      if isFabric pc then
        let fm := flitMet s k flits
        if fm.1 then trapWith fm.2 k (trapPoison pc) (openNext fm.2 k) else issueWords fm.2 k ws []
      else issueWords s k ws flits

/-- The bundle that holds: its words, and the instructions of it that execute. -/
def heldIns (s : State) (k : Nat) : List Ins := insOf (s.core k) (sylsOf (s.core k).bundle)

/-- A stalled queue instruction goes on once the entry or the credit has come (11 R273, R274). -/
def stallEnd (s : State) (k : Nat) : State :=
  match (s.core k).hold with
  | .queue _ =>
    let is := heldIns s k
    if coreOn s k ∧ (firstTrap (stallsOn s k) is).isNone then afterQueue s k (s.core k).bundle is else s
  | _ => s

/-- The held bundle whose loads have returned: poisoned data trap, and otherwise it commits (R306). -/
def loadsDone (s : State) (k : Nat) : State :=
  let is := heldIns s k
  let len := (s.core k).bundle.length
  match firstTrap (poisonBars s k) (fabricLoads (s.core k) is) with
  | some (t, s') => trapWith s' k t ((s.core k).pc + BitVec.ofNat 32 len)
  | none => finishBundle s k is len

/-- The fabric loads of a held bundle return (R306, R309); a Tiller that has left ON since it issued them ends the bundle and drains
on (11 R281). -/
def loadsReturn (s : State) (k : Nat) : State :=
  if (s.core k).hold ≠ .fabric then s
  else if coreOn s k then
    let s := loadsDone s k
    if ¬ coreOn s k ∧ (s.core k).hold ≠ .stopped then tilGone s k else s
  else if k < 32 ∧ rfld s (Reg.tilStat k) 1 0 = 3 then
    let s := loadsDone s k
    if (s.core k).hold ≠ .stopped then tilGone s k else s
  else s

/-- A core has been stalled on one queue for `STALLMAX` µs (11 R283). -/
def stallTimeout (s : State) (k : Nat) : State :=
  let n := (rget s Reg.tilStallmax).toNat
  match (s.core k).hold with
  | .queue _ =>
    if ¬ coreOn s k ∨ n = 0 then s
    else
      let s := reach s ((s.core k).stallAt + (n * 3072 + 24) / 25)
      if k < 32 then evt s (Reg.tilEvt k) 3 else rsetBit s Reg.tilCstat 2 true
  | _ => s

/-- A core in debug halt goes on at the next bundle. -/
def CoreSt.resumed (c : CoreSt) : CoreSt := if c.hold = .halted then { c with hold := .none } else c

/-- The debug port releases the Crown core from debug halt, and with it every Tiller that halted (R326).  Log 83 (DESIGN CHOICE). -/
def debugResume (s : State) : State :=
  let s' := { s with cores := s.cores.each fun _ c => c.resumed }
  if (s.core 32).hold = .halted then lfLeave s' else s'

/-- A core reads a claim register on its own, outside the bundle rows (17 R429, R432): a core in deterministic mode traps.  Log 74 (DESIGN CHOICE). -/
def claimRow (s : State) (k : Nat) (fast : Bool) : State :=
  if ¬ coreOn s k then s
  else if detNow s k then takeTrap s k trapDetq (openNext s k)
  else showRead (intClaim s k fast)

/-- A core writes a complete register on its own (17 R430, R432).  Log 74 (DESIGN CHOICE). -/
def completeRow (s : State) (k : Nat) (fast : Bool) (v : Word) : State :=
  if ¬ coreOn s k then s
  else if detNow s k then takeTrap s k trapDetq (openNext s k)
  else intComplete s k fast v

/-! ## The commands -/

/-- A core issues one bundle (R297). -/
def execBundle (core : Fin 33) (upsets : List Upset) (s : State) : Host.Outcome State Fault Refusal :=
  if upsets.all Upset.wf then .next (issue s core upsets) else .fault (.illFormed "BUNDLE: no such macro or bit")

/-- A stalled queue instruction completes (11 R273). -/
def execQueueStallEnd (core : Fin 33) (s : State) : Host.Outcome State Fault Refusal := .next (stallEnd s core)

/-- The fabric loads of a held bundle return (R309). -/
def execFabricLoadReturn (core : Fin 33) (s : State) : Host.Outcome State Fault Refusal := .next (loadsReturn s core)

/-- A core takes an interrupt (R320).  Log 73 (DESIGN CHOICE). -/
def execInterruptEntry (core : Fin 33) (s : State) : Host.Outcome State Fault Refusal := .next (takeInterrupt s core)

/-- A core has been stalled for `STALLMAX` (11 R283). -/
def execStallTimeout (core : Fin 33) (s : State) : Host.Outcome State Fault Refusal := .next (stallTimeout s core)

/-- The Crown core leaves debug halt (R326). -/
def execDebugResume (s : State) : Host.Outcome State Fault Refusal := .next (debugResume s)

/-- A core reads a claim register (17 R429). -/
def execInterruptClaim (core : Fin 33) (fast : Bool) (s : State) : Host.Outcome State Fault Refusal := .next (claimRow s core fast)

/-- A core writes a complete register (17 R430). -/
def execInterruptComplete (core : Fin 33) (fast : Bool) (v : Word) (s : State) : Host.Outcome State Fault Refusal :=
  .next (completeRow s core fast v)

end Sys2Proof.Machine
end

