-- ==== Sys2Proof/Machine/TagBus.lean ====
section
/-!
DEFINITION. The field's access to the device map (18_field R446), the end of a page commit with what waits for it (R449, R453),
and the reader's register (R456).
-/

namespace Sys2Proof.Machine

/-- Words read for the field at L3 through the fence: none where one is refused (R446, R292).  Log 64 (DESIGN CHOICE). -/
def tagReads : Nat → Nat → State → Option (List Word) × State
  | _, 0, s => (some [], s)
  | a, n + 1, s =>
    match fenceCheck s false 38 3 accRead (a % 2 ^ 32) with
    | (false, s) => (none, s)
    | (true, s) =>
      let r := fabricRead .tag (a % 2 ^ 32) s
      let w := if r.2.1 then 0 else r.1
      let s := if r.2.1 then (poisonMet r.2.2 38 (a % 2 ^ 32)).2 else r.2.2
      let q := tagReads (a + 1) n s
      (q.1.map (w :: ·), q.2)

/-- Words written for the field up to a refusal: whether all were (R446). -/
def tagWrites : Nat → List Word → State → Bool × State
  | _, [], s => (true, s)
  | a, v :: vs, s =>
    match fenceCheck s false 38 3 accWrite (a % 2 ^ 32) with
    | (false, s) => (false, s)
    | (true, s) => tagWrites (a + 1) vs (fabricWrite .tag 3 (a % 2 ^ 32) v s)

/-- READ WORDS and WRITE WORDS are refused: the status, or none where they are accepted (R446). -/
def wordsRefused (s : State) : Option Nat :=
  if ¬ bit s.tag.nv 3 then some 0x6D00
  else if ¬ s.tag.app ∨ s.power.lost then some 0x6985
  else none

/-- READ WORDS (R446).  Log 86 (DESIGN CHOICE). -/
def tagReadWords (a n : Nat) (s : State) : State :=
  match wordsRefused s with
  | some x => answer s (statusWord x)
  | none =>
    if n = 0 ∨ 64 < n then answer s (statusWord 0x6700)
    else
      let r := tagReads a n s
      match r.1 with
      | some ws => answer r.2 (unpackOctets ws ++ statusWord 0x9000)
      | none => answer r.2 (statusWord 0x6982)

/-- WRITE WORDS (R446); MLc leaves room for at most 118 words.  Log 86 (DESIGN CHOICE). -/
def tagWriteWords (a : Nat) (data : List Word) (s : State) : State :=
  match wordsRefused s with
  | some x => answer s (statusWord x)
  | none =>
    if data.isEmpty ∨ 118 < data.length then answer s (statusWord 0x6700)
    else
      let r := tagWrites a data s
      answer r.2 (statusWord (if r.1 then 0x9000 else 0x6982))

/-- A field command that waited for a commit is served as soon as none of another runs (R453). -/
def serveHeld (s : State) : State :=
  if s.tag.busy.isSome then s
  else
    match s.tag.waiting with
    | some (.readWords a n) => tagReadWords a n (updTag s fun t => { t with waiting := none })
    | some (.writeWords a d) => tagWriteWords a d (updTag s fun t => { t with waiting := none })
    | _ => serveWaiting s

/-! ## The commands -/

/-- READ WORDS (R446). -/
def execReadWords (a n : Nat) (s : State) : Host.Outcome State Fault Refusal :=
  .next (tagServe (.readWords a n) (tagReadWords a n) s)

/-- WRITE WORDS (R446). -/
def execWriteWords (a : Nat) (data : List Word) (s : State) : Host.Outcome State Fault Refusal :=
  .next (tagServe (.writeWords a data) (tagWriteWords a data) s)

/-- The page commit in progress ends, and what waited for it goes on (R448, R449, R453). -/
def execPageCommitComplete (ok : Bool) (s : State) : Host.Outcome State Fault Refusal := .next (serveHeld (commitDone ok s))

/-- A write to `NFR_CTL` with REREAD (R456). -/
def execReread (_i : Initiator) (v : Word) (s : State) : Host.Outcome State Fault Refusal :=
  .next (nfrCtlWrite (setBit v 1 true) s)

end Sys2Proof.Machine
end

