-- ==== Sys2Proof/Machine/Dispatch.lean ====
section
/-!
DEFINITION. What each command does: one arm per command, each arm one call of the command's meaning.
-/

namespace Sys2Proof.Machine

/-- The effect of a command on everything but the queue of waiting commands. -/
def exec (i : Instr) (s : State) : Host.Outcome State Fault Refusal :=
  match i with
  | .registerWrite src a v => Sys2Proof.Machine.execRegisterWrite src a v s
  | .groupLatchRead src a => Sys2Proof.Machine.execGroupLatchRead src a s
  | .bridgeTimeout block src write => Sys2Proof.Machine.execBridgeTimeout block src write s
  | .refclkLoss => Sys2Proof.Machine.execRefclkLoss s
  | .vioWarning => Sys2Proof.Machine.execVioWarning s
  | .supplyWindowExit => Sys2Proof.Machine.execSupplyWindowExit s
  | .marginLow => Sys2Proof.Machine.execMarginLow s
  | .vrfDrop => Sys2Proof.Machine.execVrfDrop s
  | .powerOnReset => Sys2Proof.Machine.execPowerOnReset s
  | .externalReset => Sys2Proof.Machine.execExternalReset s
  | .watchdogReset => Sys2Proof.Machine.execWatchdogReset s
  | .softwareReset src v => Sys2Proof.Machine.execSoftwareReset src v s
  | .debugReset => Sys2Proof.Machine.execDebugReset s
  | .watchdogEnable src v => Sys2Proof.Machine.execWatchdogEnable src v s
  | .watchdogKick src v => Sys2Proof.Machine.execWatchdogKick src v s
  | .modeRequest writes => Sys2Proof.Machine.execModeRequest writes s
  | .modeTransitionComplete => Sys2Proof.Machine.execModeTransitionComplete s
  | .serviceReady src v => Sys2Proof.Machine.execServiceReady src v s
  | .bootPllLock => Sys2Proof.Machine.execBootPllLock s
  | .bootMemoryZeroise => Sys2Proof.Machine.execBootMemoryZeroise s
  | .bootFuseRead => Sys2Proof.Machine.execBootFuseRead s
  | .bootImageLoad => Sys2Proof.Machine.execBootImageLoad s
  | .holdPointRelease src v => Sys2Proof.Machine.execHoldPointRelease src v s
  | .bootGateArm => Sys2Proof.Machine.execBootGateArm s
  | .bootRadioStart => Sys2Proof.Machine.execBootRadioStart s
  | .startupCalibration vals => Sys2Proof.Machine.execStartupCalibration vals s
  | .bootTargetEntry => Sys2Proof.Machine.execBootTargetEntry s
  | .blockEnable src b v => Sys2Proof.Machine.execBlockEnable src b v s
  | .blockDisable src b v => Sys2Proof.Machine.execBlockDisable src b v s
  | .blockStartComplete b lanes => Sys2Proof.Machine.execBlockStartComplete b lanes s
  | .blockDrainComplete b => Sys2Proof.Machine.execBlockDrainComplete b s
  | .sampleCapture n samples cands => Sys2Proof.Machine.execSampleCapture n samples cands s
  | .gainStepUp p => Sys2Proof.Machine.execGainStepUp p s
  | .synthUnlock n => Sys2Proof.Machine.execSynthUnlock n s
  | .synthRelock n => Sys2Proof.Machine.execSynthRelock n s
  | .captureResume n => Sys2Proof.Machine.execCaptureResume n s
  | .txCommand n => Sys2Proof.Machine.execTxCommand n s
  | .blankingStart n => Sys2Proof.Machine.execBlankingStart n s
  | .txStart n => Sys2Proof.Machine.execTxStart n s
  | .txEnd n meas => Sys2Proof.Machine.execTxEnd n meas s
  | .receiveResume n => Sys2Proof.Machine.execReceiveResume n s
  | .tuneWrite src p v => Sys2Proof.Machine.execTuneWrite src p v s
  | .portDcMeasureDone p dci dcq => Sys2Proof.Machine.execPortDcMeasureDone p dci dcq s
  | .gateRequest r => Sys2Proof.Machine.execGateRequest r s
  | .panelGainApply => Sys2Proof.Machine.execPanelGainApply s
  | .iq src p at_ => Sys2Proof.Machine.execIq src p at_ s
  | .fbw src p at_ => Sys2Proof.Machine.execFbw src p at_ s
  | .dcstat src p at_ => Sys2Proof.Machine.execDcstat src p at_ s
  | .loleak src p at_ => Sys2Proof.Machine.execLoleak src p at_ s
  | .recip src n at_ => Sys2Proof.Machine.execRecip src n at_ s
  | .vcob src n at_ => Sys2Proof.Machine.execVcob src n at_ s
  | .refosc src => Sys2Proof.Machine.execRefosc src s
  | .calibrationBegin n => Sys2Proof.Machine.execCalibrationBegin n s
  | .calibrationComplete n vals => Sys2Proof.Machine.execCalibrationComplete n vals s
  | .refoscComplete err => Sys2Proof.Machine.execRefoscComplete err s
  | .calResultWrite src p k v => Sys2Proof.Machine.execCalResultWrite src p k v s
  | .ballDcFault p v => Sys2Proof.Machine.execBallDcFault p v s
  | .ballDcClear p v => Sys2Proof.Machine.execBallDcClear p v s
  | .afclr src p v => Sys2Proof.Machine.execAfclr src p v s
  | .headCurrentLimit n => Sys2Proof.Machine.execHeadCurrentLimit n s
  | .headShort n => Sys2Proof.Machine.execHeadShort n s
  | .headOverload n => Sys2Proof.Machine.execHeadOverload n s
  | .headOpen n => Sys2Proof.Machine.execHeadOpen n s
  | .headOpenClear n => Sys2Proof.Machine.execHeadOpenClear n s
  | .headBackdrive n => Sys2Proof.Machine.execHeadBackdrive n s
  | .vheadReversed v => Sys2Proof.Machine.execVheadReversed v s
  | .searchStart n => Sys2Proof.Machine.execSearchStart n s
  | .searchStop n => Sys2Proof.Machine.execSearchStop n s
  | .groupClose => Sys2Proof.Machine.execGroupClose s
  | .spikeletAllocation => Sys2Proof.Machine.execSpikeletAllocation s
  | .channelEstimate k => Sys2Proof.Machine.execChannelEstimate k s
  | .headerDecision k h => Sys2Proof.Machine.execHeaderDecision k h s
  | .frameCheck k psdu phr lam fm => Sys2Proof.Machine.execFrameCheck k psdu phr lam fm s
  | .decoderDeadlineMiss k => Sys2Proof.Machine.execDecoderDeadlineMiss k s
  | .ringOverrun k => Sys2Proof.Machine.execRingOverrun k s
  | .reservationWrite src n v => Sys2Proof.Machine.execReservationWrite src n v s
  | .summaryReceive f => Sys2Proof.Machine.execSummaryReceive f s
  | .softReceive f => Sys2Proof.Machine.execSoftReceive f s
  | .mergeBound k => Sys2Proof.Machine.execMergeBound k s
  | .usethResend n crc => Sys2Proof.Machine.execUsethResend n crc s
  | .usethLaneFault n lane => Sys2Proof.Machine.execUsethLaneFault n lane s
  | .clusterFormation census ring => Sys2Proof.Machine.execClusterFormation census ring s
  | .timingMessage off rate step => Sys2Proof.Machine.execTimingMessage off rate step s
  | .dirReceive f => Sys2Proof.Machine.execDirReceive f s
  | .handoverEffect => Sys2Proof.Machine.execHandoverEffect s
  | .handSend session => Sys2Proof.Machine.execHandSend session s
  | .handReceive f => Sys2Proof.Machine.execHandReceive f s
  | .recordAccept => Sys2Proof.Machine.execRecordAccept s
  | .winnowRelease => Sys2Proof.Machine.execWinnowRelease s
  | .horizonArm src v => Sys2Proof.Machine.execHorizonArm src v s
  | .horizonApply => Sys2Proof.Machine.execHorizonApply s
  | .slotBoundary => Sys2Proof.Machine.execSlotBoundary s
  | .reanchorArm src v => Sys2Proof.Machine.execReanchorArm src v s
  | .reanchorApply => Sys2Proof.Machine.execReanchorApply s
  | .bankSwitchArm src v => Sys2Proof.Machine.execBankSwitchArm src v s
  | .bankSwitch => Sys2Proof.Machine.execBankSwitch s
  | .txRequest core => Sys2Proof.Machine.execTxRequest core s
  | .claimDecision => Sys2Proof.Machine.execClaimDecision s
  | .expectedAckTimeout => Sys2Proof.Machine.execExpectedAckTimeout s
  | .linkStart => Sys2Proof.Machine.execLinkStart s
  | .linkStop => Sys2Proof.Machine.execLinkStop s
  | .admitSession => Sys2Proof.Machine.execAdmitSession s
  | .rehashComplete => Sys2Proof.Machine.execRehashComplete s
  | .remove => Sys2Proof.Machine.execRemove s
  | .setpol => Sys2Proof.Machine.execSetpol s
  | .setfresh => Sys2Proof.Machine.execSetfresh s
  | .fcres => Sys2Proof.Machine.execFcres s
  | .keyderive => Sys2Proof.Machine.execKeyderive s
  | .keyinstall => Sys2Proof.Machine.execKeyinstall s
  | .keyclear => Sys2Proof.Machine.execKeyclear s
  | .clrcnt => Sys2Proof.Machine.execClrcnt s
  | .sessionLookup => Sys2Proof.Machine.execSessionLookup s
  | .frameJudgement => Sys2Proof.Machine.execFrameJudgement s
  | .aesMismatch k => Sys2Proof.Machine.execAesMismatch k s
  | .knownAnswerTest e pass => Sys2Proof.Machine.execKnownAnswerTest e pass s
  | .modesSelfCheckFail => Sys2Proof.Machine.execModesSelfCheckFail s
  | .cbcEnc => Sys2Proof.Machine.execCbcEnc s
  | .cbcDec => Sys2Proof.Machine.execCbcDec s
  | .ctr => Sys2Proof.Machine.execCtr s
  | .cfbEnc => Sys2Proof.Machine.execCfbEnc s
  | .cfbDec => Sys2Proof.Machine.execCfbDec s
  | .ccmEnc => Sys2Proof.Machine.execCcmEnc s
  | .ccmDec => Sys2Proof.Machine.execCcmDec s
  | .derivation src v => Sys2Proof.Machine.execDerivation src v s
  | .handleFree src v => Sys2Proof.Machine.execHandleFree src v s
  | .sesskey src v => Sys2Proof.Machine.execSesskey src v s
  | .ownerkey src v => Sys2Proof.Machine.execOwnerkey src v s
  | .ownerlock src v => Sys2Proof.Machine.execOwnerlock src v s
  | .profile src v => Sys2Proof.Machine.execProfile src v s
  | .messageComplete => Sys2Proof.Machine.execMessageComplete s
  | .attestationRequest src v => Sys2Proof.Machine.execAttestationRequest src v s
  | .attestationComplete => Sys2Proof.Machine.execAttestationComplete s
  | .localMemoryAccess src t v => Sys2Proof.Machine.execLocalMemoryAccess src t v s
  | .bundle core upsets => Sys2Proof.Machine.execBundle core upsets s
  | .queueStallEnd core => Sys2Proof.Machine.execQueueStallEnd core s
  | .fabricLoadReturn core => Sys2Proof.Machine.execFabricLoadReturn core s
  | .interruptEntry core => Sys2Proof.Machine.execInterruptEntry core s
  | .stallTimeout core => Sys2Proof.Machine.execStallTimeout core s
  | .fenceCommit src v => Sys2Proof.Machine.execFenceCommit src v s
  | .granuleReservation core => Sys2Proof.Machine.execGranuleReservation core s
  | .recordReturn core => Sys2Proof.Machine.execRecordReturn core s
  | .epochBoundary => Sys2Proof.Machine.execEpochBoundary s
  | .moveComplete session => Sys2Proof.Machine.execMoveComplete session s
  | .ethFrameReceive n frame ts sub => Sys2Proof.Machine.execEthFrameReceive n frame ts sub s
  | .ethLinkChange n up => Sys2Proof.Machine.execEthLinkChange n up s
  | .datagramSent n ts sub => Sys2Proof.Machine.execDatagramSent n ts sub s
  | .flowload src v => Sys2Proof.Machine.execFlowload src v s
  | .mgmtRead => Sys2Proof.Machine.execMgmtRead s
  | .mgmtWrite => Sys2Proof.Machine.execMgmtWrite s
  | .rateCommit src v => Sys2Proof.Machine.execRateCommit src v s
  | .rateApply => Sys2Proof.Machine.execRateApply s
  | .stepCommit src v => Sys2Proof.Machine.execStepCommit src v s
  | .stepApply => Sys2Proof.Machine.execStepApply s
  | .ppsInEdge sub => Sys2Proof.Machine.execPpsInEdge sub s
  | .ppsLoopUpdate => Sys2Proof.Machine.execPpsLoopUpdate s
  | .ppsLoss => Sys2Proof.Machine.execPpsLoss s
  | .ppsOutEdge => Sys2Proof.Machine.execPpsOutEdge s
  | .hostRead a n => Sys2Proof.Machine.execHostRead a n s
  | .hostWrite a data => Sys2Proof.Machine.execHostWrite a data s
  | .hostStatus => Sys2Proof.Machine.execHostStatus s
  | .hostAbort a data reads => Sys2Proof.Machine.execHostAbort a data reads s
  | .hostBadCommand octet => Sys2Proof.Machine.execHostBadCommand octet s
  | .rxpop src => Sys2Proof.Machine.execRxpop src s
  | .rxret src v => Sys2Proof.Machine.execRxret src v s
  | .hresv src v => Sys2Proof.Machine.execHresv src v s
  | .hsend src v => Sys2Proof.Machine.execHsend src v s
  | .flashRead src => Sys2Proof.Machine.execFlashRead src s
  | .program src => Sys2Proof.Machine.execProgram src s
  | .erase4k src => Sys2Proof.Machine.execErase4k src s
  | .erase64k src => Sys2Proof.Machine.execErase64k src s
  | .flashOpComplete o => Sys2Proof.Machine.execFlashOpComplete o s
  | .patrolScrub found => Sys2Proof.Machine.execPatrolScrub found s
  | .marchTestComplete m pass => Sys2Proof.Machine.execMarchTestComplete m pass s
  | .faultPop src v => Sys2Proof.Machine.execFaultPop src v s
  | .fullSelftest src v => Sys2Proof.Machine.execFullSelftest src v s
  | .fullSelftestDone found => Sys2Proof.Machine.execFullSelftestDone found s
  | .portLoopSelftestStart p => Sys2Proof.Machine.execPortLoopSelftestStart p s
  | .portLoopSelftestDone p pass cond => Sys2Proof.Machine.execPortLoopSelftestDone p pass cond s
  | .pbadClear src n v => Sys2Proof.Machine.execPbadClear src n v s
  | .counterClear src a v => Sys2Proof.Machine.execCounterClear src a v s
  | .peakClear src v => Sys2Proof.Machine.execPeakClear src v s
  | .minClear src v => Sys2Proof.Machine.execMinClear src v s
  | .counterUpdate n => Sys2Proof.Machine.execCounterUpdate n s
  | .counterStartAt n => Sys2Proof.Machine.execCounterStartAt n s
  | .lfStep => Sys2Proof.Machine.execLfStep s
  | .capture n => Sys2Proof.Machine.execCapture n s
  | .captureRead src n => Sys2Proof.Machine.execCaptureRead src n s
  | .mainSupplyReturn => Sys2Proof.Machine.execMainSupplyReturn s
  | .rtcUnlock src v => Sys2Proof.Machine.execRtcUnlock src v s
  | .brownOut => Sys2Proof.Machine.execBrownOut s
  | .subAdvance => Sys2Proof.Machine.execSubAdvance s
  | .calendarCommit src v => Sys2Proof.Machine.execCalendarCommit src v s
  | .weekdayWrite src v => Sys2Proof.Machine.execWeekdayWrite src v s
  | .periodicWake => Sys2Proof.Machine.execPeriodicWake s
  | .trimMeasureStart src v => Sys2Proof.Machine.execTrimMeasureStart src v s
  | .trimMeasureEnd raw => Sys2Proof.Machine.execTrimMeasureEnd raw s
  | .tamper b => Sys2Proof.Machine.execTamper b s
  | .interruptClaim core fast => Sys2Proof.Machine.execInterruptClaim core fast s
  | .interruptComplete core fast v => Sys2Proof.Machine.execInterruptComplete core fast v s
  | .externalClaim src x => Sys2Proof.Machine.execExternalClaim src x s
  | .externalComplete src x v => Sys2Proof.Machine.execExternalComplete src x v s
  | .stolonFire src v => Sys2Proof.Machine.execStolonFire src v s
  | .fieldOn => Sys2Proof.Machine.execFieldOn s
  | .selectByName => Sys2Proof.Machine.execSelectByName s
  | .selectByFileId id => Sys2Proof.Machine.execSelectByFileId id s
  | .readBinary off len => Sys2Proof.Machine.execReadBinary off len s
  | .updateBinary off data => Sys2Proof.Machine.execUpdateBinary off data s
  | .readWords a n => Sys2Proof.Machine.execReadWords a n s
  | .writeWords a data => Sys2Proof.Machine.execWriteWords a data s
  | .deselect => Sys2Proof.Machine.execDeselect s
  | .fieldLoss => Sys2Proof.Machine.execFieldLoss s
  | .waitingTimeExtension wtxm => Sys2Proof.Machine.execWaitingTimeExtension wtxm s
  | .pageCommitComplete ok => Sys2Proof.Machine.execPageCommitComplete ok s
  | .backgroundErase => Sys2Proof.Machine.execBackgroundErase s
  | .windowWrite src v => Sys2Proof.Machine.execWindowWrite src v s
  | .hostPageCommit src v => Sys2Proof.Machine.execHostPageCommit src v s
  | .pageBufferDrop src v => Sys2Proof.Machine.execPageBufferDrop src v s
  | .harvestOn => Sys2Proof.Machine.execHarvestOn s
  | .detuningPing d => Sys2Proof.Machine.execDetuningPing d s
  | .reread src v => Sys2Proof.Machine.execReread src v s
  | .panelFullRead => Sys2Proof.Machine.execPanelFullRead s
  | .panelReadComplete o => Sys2Proof.Machine.execPanelReadComplete o s
  | .start src v => Sys2Proof.Machine.execStart src v s
  | .feed src v => Sys2Proof.Machine.execFeed src v s
  | .chunkConsumed => Sys2Proof.Machine.execChunkConsumed s
  | .applyComplete => Sys2Proof.Machine.execApplyComplete s
  | .abort src v => Sys2Proof.Machine.execAbort src v s
  | .activate src v => Sys2Proof.Machine.execActivate src v s
  | .activationComplete => Sys2Proof.Machine.execActivationComplete s
  | .confirm src v => Sys2Proof.Machine.execConfirm src v s
  | .trialDeadline => Sys2Proof.Machine.execTrialDeadline s
  | .fallbackComplete => Sys2Proof.Machine.execFallbackComplete s
  | .refclkReturn => Sys2Proof.Machine.execRefclkReturn s
  | .resetRelease => Sys2Proof.Machine.execResetRelease s
  | .vrfReturn => Sys2Proof.Machine.execVrfReturn s
  | .marginClear => Sys2Proof.Machine.execMarginClear s
  | .vbakLowOnMain => Sys2Proof.Machine.execVbakLowOnMain s
  | .headLimitRelease n => Sys2Proof.Machine.execHeadLimitRelease n s
  | .vheadReversalEnd => Sys2Proof.Machine.execVheadReversalEnd s
  | .usethRetrainComplete n => Sys2Proof.Machine.execUsethRetrainComplete n s
  | .debugResume => Sys2Proof.Machine.execDebugResume s
  | .heldFrameJudgement session => Sys2Proof.Machine.execHeldFrameJudgement session s
  | .reqa => Sys2Proof.Machine.execReqa s
  | .anticollision => Sys2Proof.Machine.execAnticollision s
  | .rats => Sys2Proof.Machine.execRats s
  | .tagUnlistedCommand cla ins => Sys2Proof.Machine.execTagUnlistedCommand cla ins s

end Sys2Proof.Machine
end

