-- ==== Sys2Proof/Machine/Idle.lean ====
section
/-!
DEFINITION. What the block does while no command waits (01_architecture R36; 12_oathano_isa R314; 17_interrupts_events R440): one
tick of the timebase passes, which is eight FAB cycles.
-/

namespace Sys2Proof.Machine

/-- A core's cycle counters over `n` FAB cycles: cycles held count while a stall, a fabric load or WAIT holds the core, and not
in debug halt (R309, R314, R326).  Log 2 (DESIGN CHOICE). -/
def CoreSt.passCycles (c : CoreSt) (n : Nat) : CoreSt :=
  match c.hold with
  | .stopped => c
  | .none | .halted => { c with cycle := (c.cycle + n) % 2 ^ 64 }
  | _ => { c with cycle := (c.cycle + n) % 2 ^ 64, scnt := (c.scnt + n) % 2 ^ 32 }

/-- Eight FAB cycles of the logic cells that run on the FAB clock.  Log 2 (DESIGN CHOICE). -/
def fabCells (s : State) : State := (List.range 8).foldl (fun s _ => stlCycle s) s

/-- One tick passes while the timebase runs; nothing happens while it does not.  Log 2 (DESIGN CHOICE). -/
def idle (s : State) : State :=
  if s.time.running ∧ ¬ s.power.lost then
    let s := fabCells (reach s (s.time.now + 1))
    { s with cores := s.cores.each fun _ c => c.passCycles 8 }
  else s

end Sys2Proof.Machine
end

