-- ==== Sys2Proof/Machine/Pins.lean ====
section
/-!
DEFINITION. Balls whose level or test access the electrical chapter fixes: XRST_N and the boundary-scan chain (21_electrical R489, R505).
-/

namespace Sys2Proof.Machine

/-- The level of XRST_N (R505): low from the start of a chip reset until boot ROM drives the flash interface at step 5 (02 R64), which a boot
that goes on to PROVISION has passed, and without core power.  Log 18 (DEDUCED). -/
def xrstN (s : State) : Bool := !s.power.lost && (decide (5 ≤ s.boot.step) || decide (modeOf s = 1))

/-- The balls of a group of R489 that carry digital signals. -/
inductive BallGroup where
  | host
  | flash
  | jtag
  | system
  deriving DecidableEq, Repr

/-- The balls of a group by name (R489). -/
def BallGroup.balls : BallGroup → List String
  | .host => ["CS_N", "SCK", "IO0", "IO1", "IO2", "IO3", "INT_N"]
  | .flash => ["XCK", "XCS_N", "XDQS", "XDQ0", "XDQ1", "XDQ2", "XDQ3", "XDQ4", "XDQ5", "XDQ6", "XDQ7", "XRST_N"]
  | .jtag => ["TCK", "TMS", "TDI", "TDO", "TRST_N"]
  | .system => ["RESET_N", "REFCLK", "PPS_IN", "PPS_OUT", "WAKE_N", "TAMPA_N", "TAMPB_N", "XLF_IN", "XLF_OUT", "VBAK", "TDIODE_P", "TDIODE_N"]

/-- The balls of the boundary-scan chain (R505): those of the host port, of the flash interface, and the digital ones of the system group;
no ball of another group, and so none that reaches a transmitter or an aerial head (01 R24). -/
def scanBalls : List String :=
  BallGroup.host.balls ++ BallGroup.flash.balls ++
    BallGroup.system.balls.filter fun b => decide (b ∉ ["REFCLK", "XLF_IN", "XLF_OUT", "VBAK", "TDIODE_P", "TDIODE_N"])

end Sys2Proof.Machine
end

