-- ==== Sys2Proof/Safety.lean ====
section
/-!
DEFINITION. What the statements speak of: a command that completes, the canonical form of every store, and the values that only
secure code may change.
-/

namespace Sys2Proof.Machine

/-- The command answers a next state, and `P` holds of it. -/
def Ends (c : Instr) (s : State) (P : State → Prop) : Prop := ∃ t, exec c s = .next t ∧ P t

/-- Every store is in its canonical form: registers, memories of the map, local memories, flash and tag store.  Log 10 (DEDUCED). -/
def Memory.wf (s : State) : Bool :=
  SMap.wf resetVal s.regs && SMap.wf memDefault s.mem && SMap.wf memDefault s.tlm && BMap.wf flashErased s.xsp.flash &&
    BMap.wf 0 s.tag.store

/-- Registers other than those of a list read as before. -/
def RegsBut (l : List Nat) (s t : State) : Prop := ∀ a, a ∉ l → rget t a = rget s a

/-- Every word of every memory reads as before: the map, local memories, flash and tag store. -/
def SameMemory (s t : State) : Prop := t.mem = s.mem ∧ t.tlm = s.tlm ∧ t.xsp.flash = s.xsp.flash ∧ t.tag.store = s.tag.store

/-- Registers other than those of a list, and every word of every memory, read as before. -/
def Only (l : List Nat) (s t : State) : Prop := RegsBut l s t ∧ SameMemory s t

/-- Registers outside the blocks whose windows a list names read as before, the counters that a management EVENT moves apart;
and so does every word of every memory. -/
def OnlyBlocks (ws : List Nat) (s t : State) : Prop :=
  (∀ a, a / 0x10000 ∉ ws → a ∉ ntxRegs → rget t a = rget s a) ∧ SameMemory s t

/-- What every chip reset leaves (02 R63, R64, R69; 20 R482): the queue, the kept registers and the Rosemary domain as they were,
every other register at its reset value, outputs quiet, memories zero, no core running, no granule held, and boot at step `k`. -/
def FreshFrom (k : Nat) (s t : State) : Prop :=
  t.pending = s.pending ∧ modeOf t = 0 ∧ t.boot.step = k ∧ t.power.quiet = true ∧
    (∀ a, keptByReset a = false → rget t a = resetVal a) ∧ (∀ a, a / 0x10000 = 0x1005 → rget t a = rget s a) ∧
    t.mem = [] ∧ t.tlm = [] ∧ t.cores = State.reset.cores ∧ t.holds = [] ∧ t.time = {} ∧ t.trans = none ∧ t.fence = {}

/-- Nothing that a draining block has accepted is left, so its drain may complete (02 R74; 03 R102, R103; 05 R149; 08 R221;
14 R358). -/
def drained (s : State) (b : BlockId) : Bool :=
  match b with
  | .prt p => !transmitting s (sheafOf p)
  | .shf n => sheafDrained s n
  | .awn n => searchDrained s n
  | .lnk => airEmpty s
  | .eth n => (s.eth.tx.nth n []).isEmpty
  | .til t => decide ((s.core t).hold ≠ .fabric)
  | .hed _ | .usl _ | .tmr _ | .nfr => true

/-- Spikelets beside the trellis decoders that hold their jobs: which of the free ones a job takes is not specified (06 R168). -/
def noDec (l : List Spikelet) : List Spikelet := l.map fun x => { x with dec := none }

/-- A spikelet's header may be decided: its weights are formed, every sample of the header has been read, and a trellis decoder holds
its job where it has one (06 R165, R168). -/
def headerDue (s : State) (x : Spikelet) : Bool :=
  x.header.isNone && (!x.own || x.est.isSome) && hasRead x (headTime x.slot x.det.coded) &&
    (!(wantsDecoder s x && x.own) || x.dec.isSome)

/-- A spikelet's frame may be checked: every sample has been read, a trellis decoder holds its job where it has one, and the
acknowledgement engine has room (06 R168; 09 R241). -/
def frameDue (s : State) (x : Spikelet) : Bool :=
  x.header.isSome && hasRead x (10000 * (x.endt - x.det.synct)) && (!wantsDecoder s x || x.dec.isSome) &&
    (memberOnly s || decide ((takenFrames s).length < 52))

/-- What decoding a spikelet's frame gives (06 R165, R168, R170). -/
def decodedOf (x : Spikelet) : Decoded :=
  decodeFrame x.slot x.det.coded x.len x.fcst x.dw (headMode x.header)
    (mergedSoft (ownSoft x x.len (headMode x.header) (softCount x.slot x.det.coded x.len (headMode x.header))) x.lam)

/-- The FCS of a decoded frame agrees (06 R172). -/
def fcsGood (x : Spikelet) : Bool :=
  decide ((decodedOf x).psdu.drop (x.len - fcsLen x.fcst) = fcsOf x.fcst ((decodedOf x).psdu.take (x.len - fcsLen x.fcst)))

/-- The next held session command is `c`, no lookup or judgement comes before it, the engine runs, neither a core nor the mailbox waits
with another, and no check of 09 R230 refuses it (09 R231, R232). -/
def NextCommand (s : State) (c : SesCmd) (r : List SesCmd) : Prop :=
  rxRuns s = true ∧ s.ses.held = c :: r ∧ nextEvent s = some (c.at_, 0) ∧ (∀ k, k < 33 → outbound s k 9 = []) ∧
    s.ses.mail = none ∧ sesRefusal s c = 0

/-- The key column of a session holds a key, and KEYV says so (09 R223, R254). -/
def HasKey (s : State) (n : Nat) (key : List Octet) : Prop :=
  (∀ j, j < 8 → sesWord s n (24 + j) = (packOctets (key.take 16)).getD j 0) ∧ bit (sesWord s n 0) 12 = true

/-- Every word of the mapped memories but a session's key column and its word 0 reads as before. -/
def KeyColumnOnly (s t : State) (n : Nat) : Prop :=
  ∀ a, a ≠ sesAddr n 0 → (a < sesAddr n 24 ∨ sesAddr n 31 < a) → mget t a = mget s a

/-- Core `k` works, nothing holds it, and the words of the bundle at its PC, a local address, can be fetched (11 R270; 12 R301). -/
def Fetches (s : State) (k : Nat) (ws : List Word) : Prop :=
  coreOn s k = true ∧ (s.core k).hold = .none ∧ (s.core k).pc.toNat % 2 = 0 ∧ isLocal (s.core k).pc.toNat = true ∧
    fetchBundle s k (s.core k).pc.toNat = .inr ws

/-- The instructions of a bundle that execute at core `k`. -/
def insAt (s : State) (k : Nat) (ws : List Word) : List Ins := insOf (s.core k) (sylsOf ws)

/-- The bundle `ws` at core `k` is legal, and no trap, fabric load, full or empty queue, poisoned entry or pop of RXREC holds it
or bars it (12 R300, R309). -/
def Unhindered (s : State) (k : Nat) (ws : List Word) : Prop :=
  bundleLegal (sylsOf ws) = true ∧ (sylsOf ws).any (illegal s k) = false ∧ runTrap s k (insAt s k ws) [] = (none, s) ∧
    fabricLoads (s.core k) (insAt s k ws) = [] ∧ firstTrap (stallsOn s k) (insAt s k ws) = none ∧
    firstTrap (popBars s k) (insAt s k ws) = none ∧
    ((insAt s k ws).any fun i => decide ((i.m = .qpop ∨ i.m = .qtry) ∧ oQn i.o = 0)) = false

/-- Core `k`'s bundle is the one syllable `y`, which executes `m`, ends the bundle and holds no field its instruction bars. -/
def OneSyllable (s : State) (k : Nat) (y : Syl) (m : Mnem) : Prop :=
  Fetches s k [y.w0, y.w1] ∧ y.stop = true ∧ y.isExt = false ∧ y.mnem = some m ∧ legalFields m y.o = true ∧
    (s.core k).runs y = true

/-- Tiller `n`, in no trap and with a vector, has taken a trap (12 R323; 11 R282): PC, status and cause saved, TRP set, the PC at
TVEC, the cause and the address in `TILt_TRAP` and `TILt_TRAPPC`, and no other register of the core's instructions changed. -/
def TrapTaken (s t : State) (n : Fin 32) (cause : Word) : Prop :=
  (t.core n).tpc = evenAddr (s.core n).pc.toNat ∧ (t.core n).tsr = (s.core n).sr ∧ (t.core n).tcause = cause ∧
    (t.core n).sr = setBit (s.core n).sr 11 true ∧ (t.core n).pc = (s.core n).tvec ∧ (t.core n).w = (s.core n).w ∧
    (t.core n).p = (s.core n).p ∧ (t.core n).x = (s.core n).x ∧ (t.core n).a = (s.core n).a ∧
    rget t (Reg.tilTrap n) = w16 (0x8000 + cause.toNat % 256) ∧ rgroup t (Reg.tilTrappc n) 2 = (s.core n).pc.toNat / 2 * 2 ∧
    OnlyBlocks [0x1019] s t

/-- Sage has no record, marker, placement or move in hand, and Winnow none released. -/
def SageIdle (s : State) : Prop :=
  s.sage.waiting = [] ∧ s.win.released = [] ∧ s.sage.markers = [] ∧ s.sage.places = [] ∧ s.sage.moves = []

/-- An initiator's read of the register at `a` is carried out: the debug port's is the whole access, so that the chip works, the fence
lets it through and no timeout has ended it (11 R292; 01 R31). -/
def readServed (s : State) (i : Initiator) (a : Nat) : Bool :=
  decide (i ≠ .debug) ||
  (fabRuns s && decide (regionOf a = .block ∧ a ≠ Reg.nftWdata ∧ fenceJudge s false 2 accRead a = none) &&
    !s.flt.ended.contains (endMark .debug a false))

/-- The group at `b` reads as the words `ws` through each initiator's latches (00 R5, R6). -/
def ReadsGroup (s : State) (b : Nat) (ws : List Word) : Prop :=
  1 < ws.length ∧ ∀ i k, k < ws.length → (regRead i (b + k) s).1 = (groupRead s i b k ws).1 ∧
    (regRead i (b + k) s).2.latches = (groupRead s i b k ws).2.latches

/-- An address of a block window whose writes have no effect but the register's own (00 R16): no control register of a block, none that
clears counters, and no gain or tuner register. -/
def plainReg (a : Nat) : Bool :=
  (blockAt a).isNone &&
  (match winOf a with
   | 0x1007 => decide (a ≠ Reg.aesCtl)
   | 0x100B => decide (a ≠ Reg.rglCtl)
   | 0x1010 => decide (offOf a < 0x4000 ∧ offOf a % 256 ≠ 2 ∧ offOf a % 256 ≠ 4)
   | 0x1011 => true
   | 0x1013 => true
   | 0x1018 => decide (a ≠ Reg.sagCtl)
   | 0x101F => true
   | _ => false)

/-- What a write of `v` leaves in a register that holds `old` (00 R13, R16): RW bits take the written value, W1C bits written 1
clear, W1S bits written 1 set, and every other bit stays. -/
def writtenTo (r : RegRow) (old v : Word) : Word :=
  (((old &&& ~~~ w16 r.rw) ||| (v &&& w16 r.rw)) &&& ~~~ (v &&& w16 r.w1c)) ||| (v &&& w16 r.w1s)

/-- Registers whose reads change more than a latch (11 R269; 14 R370, R376; 16 R410; 17 R433; 18 R453). -/
def readActs (a : Nat) : Bool :=
  decide (a = Reg.intXclaim0 ∨ a = Reg.intXclaim1 ∨ (Reg.tmrnCap 0 ≤ a ∧ a ≤ Reg.tmrnCap 31) ∨ a = Reg.tbsPpscap ∨
    (winOf a = 0x1019 ∧ 0x100 ≤ offOf a ∧ offOf a < 0x300 ∧ offOf a % 16 = 9) ∨ (Reg.hspRxpop ≤ a ∧ a ≤ Reg.hspRxpop + 3) ∨
    a = Reg.nftWdata)

end Sys2Proof.Machine

namespace Sys2Proof

/-! ## Kinds of commands -/

/-- Commands that may write a word of a memory: of the device map, a local memory, the flash or the tag store. -/
def Instr.writesMemory : Instr → Bool
  | .registerWrite _ _ _ | .vioWarning | .supplyWindowExit | .marginLow | .powerOnReset | .externalReset | .watchdogReset
  | .softwareReset _ _ | .debugReset | .watchdogEnable _ _ | .watchdogKick _ _ | .modeRequest _ | .serviceReady _ _
  | .bootMemoryZeroise | .bootImageLoad | .holdPointRelease _ _ | .bootTargetEntry | .blockEnable _ _ _ | .blockDisable _ _ _
  | .frameCheck _ _ _ _ _ | .handoverEffect | .handSend _ | .handReceive _ | .recordAccept | .winnowRelease | .horizonArm _ _
  | .horizonApply | .admitSession | .remove | .setpol | .setfresh | .fcres | .keyderive | .keyinstall | .keyclear | .clrcnt
  | .sessionLookup | .frameJudgement | .cbcEnc | .cbcDec | .ctr | .cfbEnc | .cfbDec | .ccmEnc | .ccmDec | .attestationComplete
  | .localMemoryAccess _ _ _ | .bundle _ _ | .queueStallEnd _ | .fabricLoadReturn _ | .granuleReservation _
  | .ethFrameReceive _ _ _ _ | .datagramSent _ _ _ | .mgmtRead | .mgmtWrite | .hostWrite _ _ | .hostAbort _ _ _ | .rxret _ _
  | .hresv _ _ | .hsend _ _ | .flashOpComplete _ | .patrolScrub _ | .fullSelftestDone _ | .counterClear _ _ _
  | .interruptClaim _ _ | .interruptComplete _ _ _ | .writeWords _ _ | .pageCommitComplete _ | .start _ _ | .feed _ _
  | .chunkConsumed | .abort _ _ | .activate _ _ | .activationComplete | .confirm _ _ | .trialDeadline | .fallbackComplete
  | .heldFrameJudgement _ | .modesSelfCheckFail | .sampleCapture _ _ _ => true
  | _ => false

/-- Commands that may change a core: its registers, its queues or its hold. -/
def Instr.actsOnCores : Instr → Bool
  | .registerWrite _ _ _ | .groupLatchRead _ _ | .refclkLoss | .vioWarning | .supplyWindowExit | .vrfDrop | .powerOnReset
  | .externalReset | .watchdogReset | .softwareReset _ _ | .debugReset | .watchdogEnable _ _ | .watchdogKick _ _
  | .modeRequest _ | .modeTransitionComplete | .serviceReady _ _ | .bootPllLock | .holdPointRelease _ _ | .bootRadioStart
  | .bootTargetEntry | .blockEnable _ _ _ | .blockDisable _ _ _ | .blockStartComplete _ _ | .blockDrainComplete _
  | .synthUnlock _ | .txCommand _ | .txEnd _ _ | .handoverEffect | .handSend _ | .handReceive _ | .recordAccept
  | .winnowRelease | .horizonArm _ _ | .horizonApply | .txRequest _ | .claimDecision | .expectedAckTimeout | .linkStop
  | .admitSession | .remove | .setpol | .setfresh | .fcres | .keyderive | .keyinstall | .keyclear | .clrcnt | .sessionLookup
  | .frameJudgement | .cbcEnc | .cbcDec | .ctr | .cfbEnc | .cfbDec | .ccmEnc | .ccmDec | .sesskey _ _ | .ownerkey _ _
  | .ownerlock _ _ | .profile _ _ | .messageComplete | .attestationComplete | .bundle _ _ | .queueStallEnd _
  | .fabricLoadReturn _ | .interruptEntry _ | .granuleReservation _ | .recordReturn _ | .epochBoundary | .moveComplete _
  | .ethFrameReceive _ _ _ _ | .datagramSent _ _ _ | .mgmtRead | .mgmtWrite | .hostRead _ _ | .hostWrite _ _
  | .hostAbort _ _ _ | .rxpop _ | .rxret _ _ | .hresv _ _ | .hsend _ _ | .flashOpComplete _ | .counterClear _ _ _
  | .interruptClaim _ _ | .interruptComplete _ _ _ | .readWords _ _ | .writeWords _ _ | .pageCommitComplete _ | .start _ _
  | .feed _ _ | .chunkConsumed | .abort _ _ | .activate _ _ | .activationComplete | .confirm _ _ | .trialDeadline
  | .fallbackComplete | .debugResume | .heldFrameJudgement _ | .knownAnswerTest _ _ | .modesSelfCheckFail => true
  | _ => false

/-- Commands after which a one-time fuse may have changed (10 R255 to R260; 19 R475). -/
def Instr.blowsFuses : Instr → Bool
  | .registerWrite _ _ _ | .vioWarning | .supplyWindowExit | .powerOnReset | .externalReset | .watchdogReset
  | .softwareReset _ _ | .debugReset | .watchdogEnable _ _ | .watchdogKick _ _ | .serviceReady _ _ | .holdPointRelease _ _
  | .cbcEnc | .cbcDec | .ctr | .cfbEnc | .cfbDec | .ccmEnc | .ccmDec | .messageComplete | .attestationComplete | .bundle _ _
  | .queueStallEnd _ | .fabricLoadReturn _ | .mgmtRead | .mgmtWrite | .hostWrite _ _ | .hostAbort _ _ _ | .flashOpComplete _
  | .counterClear _ _ _ | .interruptClaim _ _ | .interruptComplete _ _ _ | .writeWords _ _ | .pageCommitComplete _
  | .confirm _ _ | .modesSelfCheckFail => true
  | _ => false

/-- Commands after which another fence set may be in force (11 R288, R291). -/
def Instr.commitsFence : Instr → Bool
  | .registerWrite _ _ _ | .vioWarning | .supplyWindowExit | .powerOnReset | .externalReset | .watchdogReset
  | .softwareReset _ _ | .debugReset | .watchdogEnable _ _ | .watchdogKick _ _ | .serviceReady _ _ | .bootFuseRead
  | .bootImageLoad | .holdPointRelease _ _ | .bootTargetEntry | .cbcEnc | .cbcDec | .ctr | .cfbEnc | .cfbDec | .ccmEnc
  | .ccmDec | .attestationComplete | .bundle _ _ | .queueStallEnd _ | .fabricLoadReturn _ | .fenceCommit _ _ | .mgmtRead
  | .mgmtWrite | .hostWrite _ _ | .hostAbort _ _ _ | .flashOpComplete _ | .counterClear _ _ _ | .interruptClaim _ _
  | .interruptComplete _ _ _ | .writeWords _ _ | .pageCommitComplete _ | .activationComplete | .fallbackComplete
  | .modesSelfCheckFail => true
  | _ => false

/-- Commands that may change ports, sheaves, searches, detections or the link timing unit. -/
def Instr.actsOnRadio : Instr → Bool
  | .registerWrite _ _ _ | .refclkLoss | .vioWarning | .supplyWindowExit | .vrfDrop | .powerOnReset | .externalReset
  | .watchdogReset | .softwareReset _ _ | .debugReset | .watchdogEnable _ _ | .watchdogKick _ _ | .modeRequest _
  | .serviceReady _ _ | .holdPointRelease _ _ | .bootRadioStart | .startupCalibration _ | .blockEnable _ _ _
  | .blockDisable _ _ _ | .blockStartComplete _ _ | .blockDrainComplete _ | .sampleCapture _ _ _ | .gainStepUp _
  | .synthUnlock _ | .synthRelock _ | .captureResume _ | .txCommand _ | .blankingStart _ | .txStart _ | .txEnd _ _
  | .receiveResume _ | .tuneWrite _ _ _ | .portDcMeasureDone _ _ _ | .gateRequest _ | .iq _ _ _ | .fbw _ _ _ | .dcstat _ _ _
  | .loleak _ _ _ | .recip _ _ _ | .vcob _ _ _ | .calibrationBegin _ | .calibrationComplete _ _ | .ballDcFault _ _
  | .ballDcClear _ _ | .afclr _ _ _ | .searchStart _ | .searchStop _ | .groupClose | .spikeletAllocation | .handReceive _
  | .reanchorArm _ _ | .reanchorApply | .bankSwitchArm _ _ | .bankSwitch | .txRequest _ | .claimDecision | .expectedAckTimeout
  | .linkStart | .linkStop | .frameJudgement | .cbcEnc | .cbcDec | .ctr | .cfbEnc | .cfbDec | .ccmEnc | .ccmDec
  | .attestationComplete | .bundle _ _ | .queueStallEnd _ | .fabricLoadReturn _ | .mgmtRead | .mgmtWrite | .hostWrite _ _
  | .hostAbort _ _ _ | .flashOpComplete _ | .portLoopSelftestStart _ | .portLoopSelftestDone _ _ _ | .pbadClear _ _ _
  | .counterClear _ _ _ | .interruptClaim _ _ | .interruptComplete _ _ _ | .writeWords _ _ | .pageCommitComplete _
  | .heldFrameJudgement _ | .start _ _ | .feed _ _ | .activate _ _ | .abort _ _ | .confirm _ _ | .trialDeadline
  | .bootTargetEntry | .modesSelfCheckFail | .fullSelftestDone _ | .sessionLookup | .admitSession | .remove | .setpol
  | .setfresh | .fcres | .keyderive | .keyinstall | .keyclear | .clrcnt => true
  | _ => false

/-- Commands that may move the timebase or change supplies, boot sequence or mode transition. -/
def Instr.actsOnTime : Instr → Bool
  | .registerWrite _ _ _ | .refclkLoss | .vioWarning | .supplyWindowExit | .marginLow | .vrfDrop | .powerOnReset
  | .externalReset | .watchdogReset | .softwareReset _ _ | .debugReset | .watchdogEnable _ _ | .watchdogKick _ _
  | .modeRequest _ | .modeTransitionComplete | .serviceReady _ _ | .bootPllLock | .bootMemoryZeroise | .bootFuseRead
  | .bootImageLoad | .holdPointRelease _ _ | .bootGateArm | .startupCalibration _ | .bootTargetEntry | .blockStartComplete _ _
  | .blockDrainComplete _ | .sampleCapture _ _ _ | .gainStepUp _ | .synthRelock _ | .captureResume _ | .blankingStart _
  | .txStart _ | .txEnd _ _ | .receiveResume _ | .panelGainApply | .calibrationBegin _ | .searchStart _ | .searchStop _
  | .groupClose | .decoderDeadlineMiss _ | .summaryReceive _ | .mergeBound _ | .timingMessage _ _ _ | .handoverEffect
  | .handSend _ | .recordAccept | .winnowRelease | .horizonArm _ _ | .horizonApply | .slotBoundary | .reanchorApply
  | .bankSwitch | .claimDecision | .expectedAckTimeout | .linkStart | .linkStop | .admitSession | .remove | .setpol
  | .setfresh | .fcres | .keyderive | .keyinstall | .keyclear | .clrcnt | .sessionLookup | .frameJudgement | .cbcEnc | .cbcDec
  | .ctr | .cfbEnc | .cfbDec | .ccmEnc | .ccmDec | .attestationComplete | .bundle _ _ | .queueStallEnd _ | .fabricLoadReturn _
  | .stallTimeout _ | .epochBoundary | .mgmtRead | .mgmtWrite | .rateCommit _ _ | .rateApply | .stepCommit _ _ | .stepApply
  | .ppsInEdge _ | .ppsLoopUpdate | .ppsLoss | .ppsOutEdge | .hostWrite _ _ | .hostAbort _ _ _ | .flashOpComplete _
  | .counterClear _ _ _ | .counterStartAt _ | .interruptClaim _ _ | .interruptComplete _ _ _ | .writeWords _ _
  | .pageCommitComplete _ | .activationComplete | .trialDeadline | .fallbackComplete | .refclkReturn | .resetRelease
  | .vrfReturn | .marginClear | .heldFrameJudgement _ | .bootRadioStart | .modesSelfCheckFail | .detuningPing _
  | .panelFullRead | .iq _ _ _ | .fbw _ _ _ | .dcstat _ _ _ | .loleak _ _ _ | .recip _ _ _ | .vcob _ _ _ | .refosc _
  | .refoscComplete _ | .headerDecision _ _ | .frameCheck _ _ _ _ _ => true
  | _ => false

end Sys2Proof
end

