-- ==== Sys2Proof/Certificates/Slice0/Obligations.lean ====
section
/-!
DEFINITION. The statements for the provers.  `Ends c s P` says that command `c` answers a next state and that `P` holds of it, so
each of its clauses is a completion statement; the clauses of one statement name the commands of one family.
-/

open Sys2Proof Sys2Proof.Machine

/-! ## The machine as a whole -/

/-- A step takes the command at the front of the queue and runs it on the state with the queue's rest (the model's own form).  Choices of the model within it: log entry 1. -/
def Obligations.StepRunsFront : Prop :=
  ∀ (c : Instr) (r : List Instr) (s : State), step { s with pending := c :: r } = exec c { s with pending := r }

/-- On an empty queue the block idles for one tick of a running timebase, eight FAB cycles, which each core that is not stopped
counts, and a core that a stall, a fabric load or WAIT holds counts as held as well; a block whose timebase stands still does nothing
(the model's choice, log entry 2; 01 R36, 12 R314). -/
def Obligations.IdleTick : Prop :=
  ∀ s : State, s.pending = [] →
    ((s.time.running = true ∧ s.power.lost = false →
      ∃ t, step s = .next t ∧ t.time.now = s.time.now + 1 ∧ SameMemory s t ∧ (∀ a, rget t a = rget s a) ∧
        ∀ k, k < 33 →
          (t.core k).cycle = (if (s.core k).hold = .stopped then (s.core k).cycle else ((s.core k).cycle + 8) % 2 ^ 64) ∧
          (t.core k).scnt =
            (if (s.core k).hold = .stopped ∨ (s.core k).hold = .none ∨ (s.core k).hold = .halted then (s.core k).scnt else ((s.core k).scnt + 8) % 2 ^ 32)) ∧
     (s.time.running = false ∨ s.power.lost = true → step s = .next s))

/-- Every well-formed command completes: `exec` answers a next state for it in every state, and stops only on an operand list
that no sender could form.  No command changes the queue of waiting commands, so a step takes exactly the front one away (the model's
own form).  Choices of the model within it: log entries 1, 14. -/
def Obligations.WellFormedCompletes : Prop :=
  (∀ (c : Instr) (s : State), (c.wf = true → ∃ t, exec c s = .next t) ∧ (c.wf = false → ∃ w, exec c s = .fault (.illFormed w))) ∧
    (∀ (c : Instr) (s t : State), exec c s = .next t → t.pending = s.pending) ∧
    ∀ (c : Instr) (r : List Instr) (s t : State), s.pending = c :: r → step s = .next t → t.pending = r

/-- Right after a power-on reset every register holds its reset value, no command waits, the mode is BOOT, the boot sequence
stands after step 1, no granule is held, the timebase stands still, every core is stopped, the fence's reset set is in force
(02 R62, R63, R69; 11 R291; 20 R482), and every store has its canonical form.  Choices of the model within it: log entry 8. -/
def Obligations.AtReset : Prop :=
  (∀ a, rget State.reset a = resetVal a) ∧ State.reset.pending = [] ∧ modeOf State.reset = 0 ∧ State.reset.boot.step = 1 ∧
    State.reset.holds = [] ∧ State.reset.time.running = false ∧ State.reset.fence.force = none ∧
    (∀ k, k < 33 → (State.reset.core k).hold = .stopped) ∧ (∀ n, n < 32 → stateOf State.reset (.til (Fin.ofNat 32 n)) = 0) ∧
    Memory.wf State.reset = true

/-- Every step keeps the canonical form of every store: registers, mapped memories, local memories, flash and tag store hold
strictly rising addresses and no entry equal to what an unlisted address reads as.  Choices of the model within it: log entry 10. -/
def Obligations.CanonicalKept : Prop := ∀ s t : State, Memory.wf s = true → step s = .next t → Memory.wf t = true

/-! ## Frames: what the commands leave alone -/

/-- A command that cannot write a memory word leaves every word of every memory as it was: the mapped memories, the local
memories, the flash and the tag store. -/
def Obligations.FrameMemory : Prop :=
  ∀ (c : Instr) (s t : State), c.writesMemory = false → exec c s = .next t → SameMemory s t

/-- A command that acts on no core leaves every register, queue and hold of all 33 cores as it was.  One-time fuses change only with an
update message, a firmware confirmation, or a stop of fuse programming by a reset or by the change to RETAIN, which a register write may
ask for as well; the fence's set in force changes only with a commit (by software or boot ROM) or a reset. -/
def Obligations.FrameCoresAndSecrets : Prop :=
  ∀ (c : Instr) (s t : State), exec c s = .next t →
    (c.actsOnCores = false → t.cores = s.cores) ∧ (c.blowsFuses = false → t.fuses = s.fuses) ∧
      (c.commitsFence = false → t.fence = s.fence)

/-- A command of no radio family leaves the radio as it was: ports, sheaves, searches, open groups and detections, and the link
timing unit's air charges and plan; and one that neither waits for an instant nor resets the chip leaves the timebase, the supplies,
the boot sequence and the mode transition as they were. -/
def Obligations.FrameRadioAndTime : Prop :=
  ∀ (c : Instr) (s t : State), exec c s = .next t →
    (c.actsOnRadio = false → t.ports = s.ports ∧ t.sheaves = s.sheaves ∧ t.searches = s.searches ∧ t.groups = s.groups ∧
      t.detq = s.detq ∧ t.lnk = s.lnk) ∧
    (c.actsOnTime = false → t.time = s.time ∧ t.power = s.power ∧ t.boot = s.boot ∧ t.trans = s.trans ∧
      t.samplePhase = s.samplePhase)

/-! ## Resets, supplies, boot (02, 21) -/

/-- The resets (02 R62, R63, R65, R67; 21 R505): each starts the chip afresh at boot step 1, a held RESET_N at step 0, with XRST_N low; a
power-on reset
arms the load of `SYS_BOOTCFG` and reads the cause 0x0001; every other one sets its own cause bit, and that of a watchdog whose count
has reached its period by then, and keeps the others; in RETAIN there is none.  The release of RESET_N starts boot from step 1.  Choices of the model within it: log entries 22, 23. -/
def Obligations.ChipResets : Prop :=
  ∀ s : State,
    Ends .powerOnReset s (fun t => FreshFrom (if s.power.resetLow then 0 else 1) s t ∧ t.boot.armed = true ∧
      t.power.lost = false ∧ rget t Reg.sysRstcause = 0x0001) ∧
    (s.power.lost = false →
      Ends .externalReset s (fun t => FreshFrom 0 s t ∧ t.power.resetLow = true ∧
        rget t Reg.sysRstcause = (rget s Reg.sysRstcause ||| 0x0002 ||| if watchdogDue s then 0x0004 else 0)) ∧
      (watchdogDue s = false → exec .watchdogReset s = .next s) ∧
      (rbit s Reg.sysWdctl 0 = true ∧ s.wdog.restart = false ∧ max 1 (rget s Reg.sysWdper).toNat ≤ s.wdog.count →
        Ends .watchdogReset s fun t => FreshFrom (if s.power.resetLow then 0 else 1) s t ∧
          rget t Reg.sysRstcause = (rget s Reg.sysRstcause ||| 0x0004)) ∧
      (∀ i, levelOf s i = 0 ∨ levelOf s i = 2 →
        Ends (.softwareReset i 0x5A3C) s fun t => FreshFrom (if s.power.resetLow then 0 else 1) s t ∧
          rget t Reg.sysRstcause = (rget s Reg.sysRstcause ||| 0x0008 ||| if watchdogDue s then 0x0004 else 0)) ∧
      Ends .debugReset s (fun t => FreshFrom (if s.power.resetLow then 0 else 1) s t ∧
        rget t Reg.sysRstcause = (rget s Reg.sysRstcause ||| 0x0010 ||| if watchdogDue s then 0x0004 else 0)) ∧
      (s.power.resetLow = true →
        exec .resetRelease s = .next { s with power := { s.power with resetLow := false }, boot := { s.boot with step := 1 } })) ∧
    (s.power.lost = true → exec .externalReset s = .next s ∧ exec .debugReset s = .next s ∧ exec .vioWarning s = .next s) ∧
    (∀ k t, k ≤ 1 → FreshFrom k s t → xrstN t = false)

/-- The registers of SYS that one write acts on (02 R61, R68, R71): EN of the watchdog sets and then holds, a kick asks for a
restart, READY sets and makes boot step 9 step 10, and the release of the hold point, while boot waits there, reads the target mode.  Choices of the model within it: log entry 12. -/
def Obligations.SysRegisters : Prop :=
  ∀ (s : State) (i : Initiator) (v : Word),
    (rbit s Reg.sysWdctl 0 = false →
      Ends (.watchdogEnable i v) s fun t => rget t Reg.sysWdctl = (v &&& 3) ∧ RegsBut [Reg.sysWdctl] s t ∧
        t.wdog.restart = (s.wdog.restart || bit v 0) ∧ SameMemory s t) ∧
    (rbit s Reg.sysWdctl 0 = true → exec (.watchdogEnable i v) s = .next s) ∧
    (levelOf s i = 0 ∧ rbit s Reg.sysWdctl 0 = true →
      exec (.watchdogKick i 0xB00C) s = .next { s with wdog := { s.wdog with restart := true } }) ∧
    (levelOf s i ≠ 0 ∨ v ≠ 0xB00C → exec (.watchdogKick i v) s = .next s) ∧
    (levelOf s i ≤ 1 ∧ bit v 0 = true →
      Ends (.serviceReady i v) s fun t => rget t Reg.sysSvcready = 1 ∧ RegsBut [Reg.sysSvcready] s t ∧
        t.boot.step = (if s.boot.step = 9 then 10 else s.boot.step) ∧ SameMemory s t) ∧
    ((levelOf s i = 0 ∨ levelOf s i = 2) ∧ modeOf s = 0 ∧ rbit s Reg.sysBootstat 5 = true ∧ 1 ≤ rfld s Reg.sysBootcfg 2 0 ∧
        rfld s Reg.sysBootcfg 2 0 ≤ 6 →
      Ends (.holdPointRelease i 0x60D0) s fun t => rbit t Reg.sysBootstat 5 = false ∧ t.boot.target = rfld s Reg.sysBootcfg 2 0 ∧
        t.boot.startcal = rbit s Reg.sysBootcfg 3 ∧ RegsBut [Reg.sysBootstat] s t ∧ SameMemory s t)


/-- Losses of supply and clock and their returns (02 R58; 16 R413, R416; 21 R493, R495, R496; 01 R38): VIO below its warning
threshold, or a core supply outside its window, puts the chip in RETAIN with the Rosemary domain locked and on VBAK; a margin
monitor below its limit ends an apply; a loss of VRF stops every sheaf that is ON, with a record for each; a loss of REFCLK ends every
transmission, empties every sheaf's queues and holds the PLL, with a record; each return clears what its loss set, and a low VBAK on
the main supply sets its flag.  Choices of the model within it: log entries 22, 27, 29, 36. -/
def Obligations.SupplyLosses : Prop :=
  ∀ s : State,
    (s.power.lost = false → ∀ c, c = .vioWarning ∨ c = .supplyWindowExit →
      Ends c s fun t => t.power.lost = true ∧ t.power.quiet = true ∧
        rget t Reg.sysMode = w16 (7 + 16 * modeOf s + 256 * 7) ∧ rbit t Reg.rtcStat 15 = true ∧ t.rtc.onVbak = true ∧
        t.rtc.running = false ∧ t.mem = [] ∧ t.tlm = [] ∧ t.cores = State.reset.cores ∧ t.holds = [] ∧
        t.tag.store = s.tag.store ∧ (∀ a, a / 0x10000 ≠ 0x1000 → a / 0x10000 ≠ 0x1005 → rget t a = resetVal a)) ∧
    (updState s ≠ 1 → exec .marginLow s = .next { s with power := { s.power with marginLow := true } }) ∧
    (updState s = 1 → Ends .marginLow s fun t => t.power.marginLow = true ∧ updState t = 0 ∧ rget t Reg.updRes = 4 ∧
      rbit t Reg.updEvt 1 = true ∧ t.upd.chunk = none) ∧
    exec .marginClear s = .next { s with power := { s.power with marginLow := false } } ∧
    (s.power.lost = false ∧ s.power.vrfLow = false → (∀ n, n < 8 → shfState s n ≠ 2) →
      exec .vrfDrop s = .next { s with power := { s.power with vrfLow := true } }) ∧
    (s.power.lost = false ∧ s.power.vrfLow = false →
      exec .vrfDrop s = .next ((List.range 8).foldl vrfStop { s with power := { s.power with vrfLow := true } })) ∧
    (s.power.lost = false ∧ s.power.vrfLow = false → Ends .vrfDrop s fun t => t.power.vrfLow = true ∧
      t.flt.seq = s.flt.seq + ((List.range 8).filter fun n => shfState s n = 2).length ∧
      ∀ n : Fin 8, (shfState s n = 2 → shfState t n = 3 ∧ enOf t (.shf n) = false ∧ (t.sheaf n).onAir = none ∧
          (t.sheaf n).accepted = [] ∧ (t.sheaf n).cmds = []) ∧ (shfState s n ≠ 2 → t.sheaf n = s.sheaf n)) ∧
    (s.power.lost = true ∨ s.power.vrfLow = true → exec .vrfDrop s = .next s) ∧
    exec .vrfReturn s = .next { s with power := { s.power with vrfLow := false } } ∧
    (s.power.lost = false ∧ s.power.refLost = false →
      Ends .refclkLoss s fun t => t.power.refLost = true ∧ t.power.pllHold = true ∧ rbit t Reg.fltEvt 1 = true ∧
        t.flt.seq = s.flt.seq + 1 ∧ ∀ n, n < 8 → (t.sheaf n).onAir = none ∧ (t.sheaf n).accepted = [] ∧ (t.sheaf n).cmds = []) ∧
    (s.power.lost = true ∨ s.power.refLost = true → exec .refclkLoss s = .next s) ∧
    (s.power.refLost = true →
      Ends .refclkReturn s fun t => t.power.refLost = false ∧ t.power.pllHold = false ∧ t.power.relock = someUnlocked s ∧ Only [] s t) ∧
    (s.power.refLost = false → exec .refclkReturn s = .next s) ∧
    exec .mainSupplyReturn s = .next { s with rtc := { s.rtc with onVbak := false, stopped := false } } ∧
    (s.rtc.onVbak = false → Ends .vbakLowOnMain s fun t =>
      rget t Reg.rtcStat = setBit (rget s Reg.rtcStat) 13 true ∧ Only [Reg.rtcStat] s t)

/-- A brown-out of the Rosemary domain on VBAK (16 R416, R423): the calendar stands at 2000-01-01 and stops, the listed registers
clear, what initiators have latched and staged of its groups goes, the flag sets and the backup words go as a tamper's do, and the interface
locks.  A tamper pin sets its own flag and clears the backup words alone.  Choices of the model within it: log entry 72. -/
def Obligations.BackupLosses : Prop :=
  ∀ s : State,
    (s.rtc.onVbak = true → Ends .brownOut s fun t =>
      rget t Reg.rtcCal = 0 ∧ rget t (Reg.rtcCal + 1) = 0 ∧ rget t (Reg.rtcCal + 2) = 0x0101 ∧ rget t (Reg.rtcCal + 3) = 0 ∧
        t.rtc.stopped = true ∧ rbit t Reg.rtcStat 3 = true ∧ rbit t Reg.rtcStat 15 = true ∧ rget t Reg.rtcWday = 0 ∧
        rget t Reg.rtcTrim = 0 ∧ rgroup t Reg.rtcWake 2 = 0 ∧ rgroup t Reg.rtcNsw 2 = 0 ∧ rbit t Reg.rtcTamp 2 = true ∧
        (∀ k, k < 16 → rget t (Reg.rtcBkup k) = 0) ∧ rbit t Reg.rtcEvt 2 = true ∧
        (∀ i a, a / 0x10000 = 0x1005 → latched t i a = none) ∧ (∀ e ∈ t.staged, e.1.2 / 0x10000 ≠ 0x1005) ∧ SameMemory s t) ∧
    (s.rtc.onVbak = false → exec .brownOut s = .next s) ∧
    (∀ b : Bool, Ends (.tamper b) s fun t =>
      rget t Reg.rtcTamp = setBit (rget s Reg.rtcTamp) b.toNat true ∧ (∀ k, k < 16 → rget t (Reg.rtcBkup k) = 0) ∧
        rget t Reg.rtcEvt = (rget s Reg.rtcEvt ||| 0x0004) ∧
        Only (Reg.rtcTamp :: Reg.rtcEvt :: ((List.range 16).map Reg.rtcBkup ++ ntxRegs)) s t)

/-- The steps of the boot sequence (02 R63, R69 to R72, R509): each runs from the state after the one before, with no failure
judged.  Step 2 starts the timebase at 0 and the Crown core in boot ROM; step 3 zeroises; step 4 reads fuses under the boot
fence and draws the seeds, and a failed check ends there; steps 5 and 6 name the image that verifies and hold where HOLD says so, and
without a usable image boot enters PROVISION; step 7 arms the gate; step 8 starts every sheaf, port and search once, and completes once
they have started and start-up calibration has run; step 9 enters the target mode.  Choices of the model within it: log entries 17, 18, 19, 20. -/
def Obligations.BootSteps : Prop :=
  ∀ s : State,
    (bootAt s 1 = true → Ends .bootPllLock s fun t => t.boot.step = 2 ∧ t.time.running = true ∧ t.time.now = 0 ∧
      (t.core 32).hold = .none ∧ (t.core 32).pc = 0x04000000 ∧ (t.core 32).sr = 0x8000 ∧ Only [] s t) ∧
    (bootAt s 2 = true → Ends .bootMemoryZeroise s fun t => t.boot.step = 3 ∧ t.mem = [] ∧ t.tlm = [] ∧
      t.boot.mrom = sha256 romOctets ∧ t.regs = s.regs ∧ t.cores = s.cores) ∧
    (bootAt s 3 = true ∧ s.fuses.intact = false → Ends .bootFuseRead s fun t => t.boot.step = 4 ∧ t.boot.failed = true ∧
      t.ses = s.ses) ∧
    (bootAt s 3 = true ∧ s.fuses.intact = true ∧ profilesOk s.fuses.profiles = true → Ends .bootFuseRead s fun t =>
      t.boot.step = 4 ∧ t.boot.failed = false ∧ t.ses.seedNo = (s.free + 1) * 2 ^ 32 ∧
        t.win.mix = (s.free + 1) * 2 ^ 32 + 2 ^ 31 ∧ t.fuses = s.fuses ∧
        t.fence = (fenceCommit (fenceStage (bootStep s 4) bootFence)).fence) ∧
    (bootAt s 4 = true ∧ rfld s Reg.sysBootstat 11 8 = 3 → Ends .bootImageLoad s fun t => t.boot.step = 6 ∧
      t.boot.failed = true ∧ modeOf t = 1 ∧ rfld t Reg.sysBootstat 11 8 = 3) ∧
    (bootAt s 4 = true ∧ rfld s Reg.sysBootstat 11 8 ≠ 3 → Ends .bootImageLoad s fun t =>
      (t.boot.step = 6 ∧ t.xsp.flash = (rejectTrials s).xsp.flash)) ∧
    (∀ u, bootAt s 4 = true ∧ rfld s Reg.sysBootstat 11 8 ≠ 3 →
      u = rset (rsetFld (rejectTrials s) Reg.xspStat 2 1 (if (rejectTrials s).xsp.slow then 1 else 3)) Reg.xspSize
        (w16 (rejectTrials s).xsp.mib) →
      ((bootBank u).1 = none → Ends .bootImageLoad s fun t => t.boot.step = 6 ∧ t.boot.failed = true ∧ modeOf t = 1 ∧
        rfld t Reg.sysBootstat 11 8 = 2) ∧
      (∀ b, (bootBank u).1 = some b → Ends .bootImageLoad s fun t => t.boot.step = 6 ∧ t.boot.bank = b ∧
        t.boot.entry = imgEntry u b ∧ t.boot.armed = false ∧ rbit t Reg.sysBootstat 5 = rbit t Reg.sysBootcfg 4)) ∧
    (bootAt s 6 = true ∧ rbit s Reg.sysBootstat 5 = false → Ends .bootGateArm s fun t => t.boot.step = 7 ∧
      t.power.quiet = false ∧ rget t Reg.rglStat = setBit (rget s Reg.rglStat) 0 true ∧ Only [Reg.rglStat] s t) ∧
    (bootAt s 7 = true ∧ rxOn s.boot.target = false → exec .bootRadioStart s = .next s) ∧
    (s.boot.radio = true → exec .bootRadioStart s = .next s) ∧
    (bootAt s 7 = true ∧ s.boot.radio = false ∧ rxOn s.boot.target = true → Ends .bootRadioStart s fun t =>
      t.boot = { s.boot with radio := true } ∧ winState t = 2 ∧ SameMemory s t ∧
        (∀ n : Fin 8, shfState s n = 0 → loOk (rbit s (Reg.shfCtl n) 1) (rfld s (Reg.shfDiv n) 1 0) (rgroup s (Reg.shfLo n) 2) = true →
          shfState t n = 1 ∧ enOf t (.shf n) = true) ∧
        (∀ p : Fin 64, prtState s p = 0 → prtState t p = 1 ∧ enOf t (.prt p) = true) ∧
        ∀ n : Fin 8, stateOf s (.awn n) = 0 → enOf s (.awn n) = false → rbit s (Reg.awnStat n) 2 = false →
          stateOf t (.awn n) = 1 ∧ enOf t (.awn n) = true) ∧
    (bootAt s 7 = true ∧ radioReady s = true ∧ (s.boot.startcal = false ∨ rxOn s.boot.target = false) →
      ∀ v, Ends (.startupCalibration v) s fun t => t.boot.step = 8 ∧
        rget t Reg.sysBootstat = setBit (rget s Reg.sysBootstat) 6 true ∧ Only [Reg.sysBootstat] s t) ∧
    (bootAt s 7 = true ∧ radioReady s = true ∧ s.boot.startcal = true ∧ rxOn s.boot.target = true →
      ∀ v, Ends (.startupCalibration v) s fun t => t.boot.step = 8 ∧ rbit t Reg.sysBootstat 6 = true ∧ SameMemory s t) ∧
    (bootAt s 8 = true ∧ s.boot.target = 1 → Ends .bootTargetEntry s fun t => t.boot.step = 9 ∧ modeOf t = 1 ∧
      t.cores = s.cores ∧ SameMemory s t) ∧
    (bootAt s 8 = true ∧ 2 ≤ s.boot.target ∧ s.boot.target ≤ 6 → Ends .bootTargetEntry s fun t => t.boot.step = 9 ∧
      modeOf t = s.boot.target ∧ (t.core 32).pc = BitVec.ofNat 32 s.boot.entry ∧ (t.core 32).hold = .none)

/-! ## Modes (02 R53 to R60, R508) -/

/-- A mode request (02 R53, R54, R56, R57): it is judged in the order LEVEL, KEY, BUSY, TARGET, NOCLUSTER, the first cause that applies
being the result; `SYS_MODESTAT` records who asked for what, and the result of one that is refused at once, of one that is accepted
at its completion.  An accepted request sets TRANS and begins the transition, which ends with the mode changed and the Crown core at
ENTRY of the running image.  Choices of the model within it: log entries 31, 32. -/
def Obligations.ModeRequests : Prop :=
  ∀ (s : State) (i : Initiator) (v : Word),
    (∀ r, modeRefusal s (levelOf s i) v = some r → Ends (.modeRequest [(i, v)]) s fun t =>
      rfld t Reg.sysModestat 3 0 = r ∧ rbit t Reg.sysModestat 15 = true ∧ rfld t Reg.sysModestat 12 10 = modeInit i ∧
        rfld t Reg.sysModestat 9 8 = levelOf s i ∧ rfld t Reg.sysModestat 6 4 = field v 2 0 ∧
        rbit t Reg.sysModestat 7 = rbit s Reg.sysModestat 7 ∧ t.trans = s.trans ∧ Only [Reg.sysModestat] s t) ∧
    (modeRefusal s (levelOf s i) v = none → Ends (.modeRequest [(i, v)]) s fun t => rbit t Reg.sysMode 3 = true ∧
      t.trans = some { target := field v 2 0, restart := restartsSheaves (modeOf s) (field v 2 0), cores := true, init := modeInit i } ∧
      rfld t Reg.sysModestat 12 10 = modeInit i ∧ rfld t Reg.sysModestat 9 8 = levelOf s i ∧ rfld t Reg.sysModestat 6 4 = field v 2 0) ∧
    (levelOf s i = 1 ∨ levelOf s i = 3 → modeRefusal s (levelOf s i) v = some 3) ∧
    (levelOf s i = 0 ∨ levelOf s i = 2 →
      (field v 15 8 ≠ 0xC5 → modeRefusal s (levelOf s i) v = some 5) ∧
      (field v 15 8 = 0xC5 →
        (rbit s Reg.sysMode 3 = true ∨ updState s ∈ [1, 3, 5] → modeRefusal s (levelOf s i) v = some 2) ∧
        (rbit s Reg.sysMode 3 = false → updState s ∉ [1, 3, 5] →
          (targetOffered (modeOf s) (field v 2 0) = false → modeRefusal s (levelOf s i) v = some 4) ∧
          (targetOffered (modeOf s) (field v 2 0) = true →
            (field v 2 0 = 4 → clusterServes s = false → modeRefusal s (levelOf s i) v = some 6) ∧
            (field v 2 0 ≠ 4 ∨ clusterServes s = true → modeRefusal s (levelOf s i) v = none))))) ∧
    (∀ x, s.trans = some x → transitionReady s x = true → Ends .modeTransitionComplete s fun t =>
      t.trans = none ∧ (x.target < 8 → modeOf t = x.target ∧ rbit t Reg.sysMode 3 = false) ∧ rfld t Reg.sysModestat 3 0 = 1 ∧
        rbit t Reg.sysModestat 15 = true ∧ rfld t Reg.sysModestat 12 4 = rfld s Reg.sysModestat 12 4 ∧
        (t.core 32).pc = BitVec.ofNat 32 s.boot.entry ∧ (t.core 32).hold = .none ∧ SameMemory s t) ∧
    (s.trans = none → exec .modeTransitionComplete s = .next s)

/-! ## Blocks with an enable (02 R73 to R77) -/

/-- A block that is OFF and whose EN is written 1 becomes STARTING where its chapter lets it run (02 R75; 03 R89, R102, R103;
04 R127; 05 R148; 08 R220; 11 R280; 13 R339; 14 R358; 16 R401, R403; 18 R456); a sheaf whose LO check fails, and a link timing
unit whose template or bank fails, sets its event and drains.  Choices of the model within it: log entry 24. -/
def Obligations.BlockStarts : Prop :=
  ∀ (s : State) (i : Initiator) (v : Word),
    (∀ n : Fin 2, stateOf s (.eth n) = 0 → unitOn s ethernetIn = true → Ends (.blockEnable i (.eth n) v) s fun t =>
      stateOf t (.eth n) = 1 ∧ enOf t (.eth n) = true ∧ Only [Reg.ethnCtl n, Reg.ethnStat n] s t) ∧
    (∀ n : Fin 2, stateOf s (.usl n) = 0 → unitOn s usethIn = true → Ends (.blockEnable i (.usl n) v) s fun t =>
      stateOf t (.usl n) = 1 ∧ enOf t (.usl n) = true ∧ t.usl.trained.nth n 0 = 0 ∧
        Only [Reg.uslnCtl n, Reg.uslnStat n] s t) ∧
    (∀ n : Fin 32, stateOf s (.til n) = 0 → unitOn s tillersIn = true → Ends (.blockEnable i (.til n) v) s fun t =>
      stateOf t (.til n) = 1 ∧ enOf t (.til n) = true ∧ (t.core n).w = .rep 32 0 ∧
        (t.core n).sr = (if bit v 1 then 0x3000 else 0x2000) ∧ (t.core n).pc = BitVec.ofNat 32 (rlong s (Reg.tilEntry n)) ∧
        rget t (Reg.tilTrap n) = 0 ∧ OnlyBlocks [0x1019] s t) ∧
    (∀ n : Fin 32, stateOf s (.tmr n) = 0 → (s.tmr n).member = false → field v 3 1 ≤ 3 → field v 5 4 ≠ 3 →
      Ends (.blockEnable i (.tmr n) v) s fun t => stateOf t (.tmr n) = 1 ∧ (t.tmr n).pre = 0 ∧ (t.tmr n).caps = [] ∧
        OnlyBlocks [0x1004] s t) ∧
    (stateOf s .nfr = 0 → 4 ≤ s.boot.step → bit v 1 = false → Ends (.blockEnable i .nfr v) s fun t =>
      stateOf t .nfr = 1 ∧ enOf t .nfr = true ∧ Only [Reg.nfrCtl, Reg.nfrStat] s t) ∧
    (∀ n : Fin 8, stateOf s (.shf n) = 0 → rxSealed s = false →
      (loOk (bit v 1) (rfld s (Reg.shfDiv n) 1 0) (rgroup s (Reg.shfLo n) 2) = true → Ends (.blockEnable i (.shf n) v) s fun t =>
        stateOf t (.shf n) = 1 ∧ enOf t (.shf n) = true ∧ (t.sheaf n).lo = rgroup s (Reg.shfLo n) 2 ∧
          (t.sheaf n).div = divOf (rfld s (Reg.shfDiv n) 1 0) ∧ Only [Reg.shfCtl n, Reg.shfStat n] s t) ∧
      (loOk (bit v 1) (rfld s (Reg.shfDiv n) 1 0) (rgroup s (Reg.shfLo n) 2) = false → Ends (.blockEnable i (.shf n) v) s fun t =>
        stateOf t (.shf n) = 3 ∧ enOf t (.shf n) = false ∧ rbit t (Reg.shfEvt n) 0 = true ∧
          Only (Reg.shfCtl n :: Reg.shfStat n :: Reg.shfEvt n :: ntxRegs) s t)) ∧
    (∀ p : Fin 64, stateOf s (.prt p) = 0 → shfState s (sheafOf p) = 0 → Ends (.blockEnable i (.prt p) v) s fun t =>
      stateOf t (.prt p) = 1 ∧ enOf t (.prt p) = true ∧ Only [Reg.prtCtl p, Reg.prtStat p, Reg.prtClips p] s t) ∧
    (∀ n : Fin 8, stateOf s (.awn n) = 0 → enOf s (.awn n) = false → rbit s (Reg.awnStat n) 2 = false → rxSealed s = false →
      Ends (.blockEnable i (.awn n) v) s fun t => stateOf t (.awn n) = 1 ∧ enOf t (.awn n) = true ∧
        (t.search n).startAt.isSome = true ∧ (t.search n).entries.length ≤ 48 ∧ OnlyBlocks [0x1013] s t) ∧
    (∀ n : Fin 8, stateOf s (.hed n) = 0 → Ends (.blockEnable i (.hed n) v) s fun t =>
      ((stateOf t (.hed n) = 1 ∧ enOf t (.hed n) = true) ∨
        (stateOf t (.hed n) = 3 ∧ enOf t (.hed n) = false ∧ rbit t (Reg.hedEvt n) 3 = true)) ∧
      (rbit s Reg.hedGstat 1 = true → stateOf t (.hed n) = 3)) ∧
    (stateOf s .lnk = 0 → tplOk (tplWritten s) = false → Ends (.blockEnable i .lnk v) s fun t =>
      stateOf t .lnk = 3 ∧ enOf t .lnk = false ∧ rbit t Reg.lnkEvt 0 = true) ∧
    (stateOf s .lnk = 0 → tplOk (tplWritten s) = true → Ends (.blockEnable i .lnk v) s fun t =>
      (stateOf t .lnk = 1 ∧ enOf t .lnk = true) ∨ (stateOf t .lnk = 3 ∧ enOf t .lnk = false ∧ rbit t Reg.lnkEvt 8 = true))

/-- A block that is STARTING or ON and whose EN is written 0 drains, EN reading 0 (02 R75), where its stop is not held to an
instant (bit 1 of its control register clear), a port's sheaf transmits nothing, and a counter is no member of a group.  Choices of the model within it: log entries 24, 25. -/
def Obligations.BlockStops : Prop :=
  ∀ (s : State) (i : Initiator) (b : BlockId) (v : Word),
    stateOf s b = 1 ∨ stateOf s b = 2 → enOf s b = true → bit v 1 = false →
    (∀ n, b = .tmr n → (s.tmr n).member = false) → (∀ p, b = .prt p → transmitting s (sheafOf p) = false) →
      Ends (.blockDisable i b v) s fun t => stateOf t b = 3 ∧ enOf t b = false

/-- A block's start completes (02 R75; 03 R91, R103; 05 R148; 08 R220; 11 R280; 13 R339; 18 R456): a STARTING block becomes ON; a
Useth port of which no lane trained sets its event and drains; any other block stays as it is.  Choices of the model within it: log entry 24. -/
def Obligations.BlockStartCompletes : Prop :=
  ∀ (s : State) (l : Fin 16),
    (∀ b, stateOf s b ≠ 1 → exec (.blockStartComplete b l) s = .next s) ∧
    (∀ b, (∃ n, b = .eth n) ∨ (∃ n, b = .tmr n) ∨ (∃ n, b = .hed n ∧ s.power.quiet = false) → stateOf s b = 1 →
      exec (.blockStartComplete b l) s = .next (setState s b 2)) ∧
    (∀ n, s.power.quiet = true → exec (.blockStartComplete (.hed n) l) s = .next s) ∧
    (stateOf s .nfr = 1 → Ends (.blockStartComplete .nfr l) s fun t => stateOf t .nfr = 2 ∧ rfld t Reg.nfrEvt 7 4 = 0 ∧
      t.reader = { s.reader with due := true, pingAt := s.time.now } ∧ Only [Reg.nfrStat, Reg.nfrEvt] s t) ∧
    (∀ n : Fin 32, stateOf s (.til n) = 1 → Ends (.blockStartComplete (.til n) l) s fun t =>
      stateOf t (.til n) = 2 ∧ (t.core n).hold = .none ∧ (t.core n).pc = (s.core n).pc) ∧
    (∀ p : Fin 64, stateOf s (.prt p) = 1 → shfState s (sheafOf p) = 2 → (s.port p).dcPend = false →
      exec (.blockStartComplete (.prt p) l) s = .next (setState s (.prt p) 2)) ∧
    (∀ n : Fin 8, stateOf s (.shf n) = 1 → Ends (.blockStartComplete (.shf n) l) s fun t =>
      shfState t n = 2 ∧ rbit t (Reg.shfStat n) 2 = true ∧ (t.sheaf n).capture = some (sampleAt s s.time.now)) ∧
    (∀ (n : Fin 8) (k : Nat), stateOf s (.awn n) = 1 → (s.search n).startAt = some k → shfState s n = 2 → rxRuns s = true →
      Ends (.blockStartComplete (.awn n) l) s fun t => stateOf t (.awn n) = 2 ∧ (t.search n).startAt = none ∧
        (t.search n).began = sampleAt s (max k s.time.now) ∧ (t.search n).seq = 0 ∧ Only [Reg.awnStat n] s t) ∧
    (stateOf s .lnk = 1 → Ends (.blockStartComplete .lnk l) s fun t => stateOf t .lnk = 2 ∧ t.lnk.startAt = none ∧
      (∃ a, t.lnk.anchors = [a] ∧ a.tick = s.lnk.atSel.getD a.from_ ∧ a.asn = rgroup s Reg.lnkAsn0 4 % 2 ^ 40 ∧
        t.time.now = max s.time.now a.from_) ∧ SameMemory s t) ∧
    (∀ n : Fin 2, stateOf s (.usl n) = 1 → l.val &&& rfld s (Reg.uslnCtl n) 4 1 = 0 →
      Ends (.blockStartComplete (.usl n) l) s fun t => stateOf t (.usl n) = 3 ∧ enOf t (.usl n) = false ∧
        rbit t (Reg.uslnEvt n) 1 = true ∧ Only (Reg.uslnCtl n :: Reg.uslnStat n :: Reg.uslnEvt n :: ntxRegs) s t) ∧
    (∀ n : Fin 2, stateOf s (.usl n) = 1 → l.val &&& rfld s (Reg.uslnCtl n) 4 1 ≠ 0 → (∀ e ∈ s.usl.laneOff, e.1 ≠ n.val) →
      Ends (.blockStartComplete (.usl n) l) s fun t => stateOf t (.usl n) = 2 ∧ rbit t (Reg.uslnStat n) 2 = true ∧
        rfld t (Reg.uslnStat n) 7 4 = l.val &&& rfld s (Reg.uslnCtl n) 4 1 ∧ rbit t (Reg.uslnEvt n) 0 = true ∧
        rbit t (Reg.uslnPeer n) 15 = true ∧ rbit t (Reg.uslnPeer n) 14 = decide (n = 0) ∧
        Only (Reg.uslnStat n :: Reg.uslnPeer n :: Reg.uslnEvt n :: ntxRegs) s t)

/-- A block's drain completes once nothing it has accepted is left (02 R74 to R77): it becomes OFF, or STARTING where a restart
is pending in EN, and a sheaf, an output, a counter or the link timing unit whose start check then fails drains again with EN 0; before,
and in any other STATE, the command does nothing.  Choices of the model within it: log entry 24. -/
def Obligations.BlockDrainCompletes : Prop :=
  ∀ (s : State) (b : BlockId),
    (stateOf s b ≠ 3 ∨ drained s b = false → exec (.blockDrainComplete b) s = .next s) ∧
    (stateOf s b = 3 → drained s b = true → enOf s b = false →
      Ends (.blockDrainComplete b) s fun t => stateOf t b = 0 ∧ enOf t b = false) ∧
    (stateOf s b = 3 → drained s b = true → enOf s b = true →
      ((∃ n, b = .eth n) ∨ (∃ n, b = .til n) ∨ (∃ n, b = .usl n) ∨ (∃ n, b = .prt n) ∨ (∃ n, b = .awn n) ∨ (b = .nfr ∧ 4 ≤ s.boot.step)) →
      Ends (.blockDrainComplete b) s fun t => stateOf t b = 1 ∧ enOf t b = true) ∧
    (stateOf s b = 3 → drained s b = true → enOf s b = true →
      ((∃ n, b = .shf n) ∨ (∃ n, b = .hed n) ∨ (∃ n, b = .tmr n) ∨ b = .lnk) →
      Ends (.blockDrainComplete b) s fun t => (stateOf t b = 1 ∧ enOf t b = true) ∨ (stateOf t b = 3 ∧ enOf t b = false))

/-! ## Register accesses (00 R4 to R16; 01 R31; 11 R269) -/

/-- Writes of registers that have no effect of their own (00 R7, R13, R14, R16; 11 R292): a write changes the register's RW bits, clears
W1C bits and sets W1S bits written 1, and changes nothing else; an address that lists no register ignores it and reads 0; of a register
group a lower word is staged and the highest commits the group; the debug port's access, which has no other command, is judged by the
fence first: let through, it acts so, and refused, it writes nothing, reads 0 and is counted, its status word saying which.  Choices of
the model within it: log entries 11, 12, 96. -/
def Obligations.RegisterWrites : Prop :=
  ∀ (s : State) (i : Initiator) (v : Word),
    (∀ a r k, plainReg a = true → regAt a = some (r, k) → (groupOf a).2 ≤ 1 →
      (i ≠ .debug → exec (.registerWrite i a v) s = .next (rset s a (writtenTo r (rget s a) v))) ∧
      (fabRuns s = true → s.flt.ended.contains (endMark .debug a true) = false → fenceJudge s false 2 accWrite a = none →
        Ends (.registerWrite .debug a v) s fun t => rget t a = writtenTo r (rget s a) v ∧ t.out.dbgSt = 0x0001 ∧ Only [a] s t)) ∧
    (∀ a, plainReg a = true → regAt a = none → i ≠ .debug → exec (.registerWrite i a v) s = .next s ∧
      (liveWord s a = none → liveGroup s a = none → Ends (.groupLatchRead i a) s fun t => t.out.read = 0 ∧ Only [] s t)) ∧
    (∀ b n k, winOf b = 0x1011 ∨ winOf b = 0x1013 ∨ winOf b = 0x101F → 1 < n → k < n → groupOf (b + k) = (b, n) → i ≠ .debug →
      winOf (b + k) = winOf b → blockAt (b + k) = none → (k + 1 < n → exec (.registerWrite i (b + k) v) s = .next (stageWord s i (b + k) v)) ∧
        (k + 1 = n → exec (.registerWrite i (b + k) v) s = .next (commitPlain (clearStaged s i b n) b (commitWords s i b n v)))) ∧
    (∀ a, fabRuns s = true → fenceJudge s false 2 accWrite a ≠ none → Ends (.registerWrite .debug a v) s fun t =>
      t.out.dbgSt = 0x0201 ∧ rget t Reg.fenNref = rget s Reg.fenNref + 1 ∧ rbit t Reg.fenEvt 0 = true ∧
        Only (Reg.fenNref :: Reg.fenFaddr :: (Reg.fenFaddr + 1) :: Reg.fenFinfo :: Reg.fenEvt :: ntxRegs) s t) ∧
    (∀ a, fabRuns s = true → fenceJudge s false 2 accRead a ≠ none → Ends (.groupLatchRead .debug a) s fun t =>
      t.out.read = 0 ∧ t.out.dbgSt = 0x0201 ∧ rget t Reg.fenNref = rget s Reg.fenNref + 1 ∧ rbit t Reg.fenEvt 0 = true ∧
        Only (Reg.fenNref :: Reg.fenFaddr :: (Reg.fenFaddr + 1) :: Reg.fenFinfo :: Reg.fenEvt :: ntxRegs) s t) ∧
    (fabRuns s = false → ∀ a, exec (.registerWrite .debug a v) s = .next s ∧ exec (.groupLatchRead .debug a) s = .next s) ∧
    (i ≠ .debug →
      (∀ q : Fin 8, exec (.registerWrite i (Reg.awnPthr q) v) s =
        .next (rset s (Reg.awnPthr q) ((rget s (Reg.awnPthr q) &&& 0xFF00) ||| (v &&& 0x00FF)))) ∧
      (exec (.registerWrite i Reg.calEvt v) s = .next (rset s Reg.calEvt (rget s Reg.calEvt &&& ~~~(v &&& 0x01FF)))) ∧
      (exec (.registerWrite i 0x100B00FF v) s = .next s) ∧
      (exec (.registerWrite i Reg.awnAt v) s = .next (stageWord s i Reg.awnAt v)) ∧
      (exec (.registerWrite i (Reg.awnAt + 3) v) s =
        .next (commitPlain (clearStaged s i Reg.awnAt 4) Reg.awnAt (commitWords s i Reg.awnAt 4 v))))

/-- Reading the lowest word of a group returns it and latches the higher words for the initiator, which then reads them so until it
reads the lowest word again, whatever the registers hold by then; before an initiator's first such read a higher word reads live
(00 R5, R6, R9), wherever the read is served.  The register groups read so, those that show other state and those whose reads act among
them. -/
def Obligations.GroupLatches : Prop :=
  ∀ (s : State) (i : Initiator),
    (∀ b ws, ReadsGroup s b ws →
      (readServed s i b = true → Ends (.groupLatchRead i b) s fun t => t.out.read = ws.getD 0 0 ∧
        (∀ k, 1 ≤ k → k < ws.length → latched t i (b + k) = some (ws.getD k 0)) ∧
        (∀ a, a ≤ b ∨ b + ws.length ≤ a → latched t i a = latched s i a) ∧
        ∀ j a, initIndex j ≠ initIndex i → latched t j a = latched s j a) ∧
      (∀ k w, readServed s i (b + k) = true → 1 ≤ k → k < ws.length → latched s i (b + k) = some w → Ends (.groupLatchRead i (b + k)) s fun t =>
        t.out.read = w ∧ t.latches = s.latches) ∧
      (∀ k, readServed s i (b + k) = true → 1 ≤ k → k < ws.length → latched s i (b + k) = none → Ends (.groupLatchRead i (b + k)) s fun t =>
        t.out.read = ws.getD k 0 ∧ t.latches = s.latches)) ∧
    (∀ b n, 1 < n → (∀ k, k < n → groupAt s (b + k) = (b, n) ∧ liveWord s (b + k) = none ∧ liveGroup s (b + k) = none ∧
      readActs (b + k) = false) → ReadsGroup s b ((List.range n).map fun k => rget s (b + k))) ∧
    ReadsGroup s Reg.awnAt ((List.range 4).map fun k => rget s (Reg.awnAt + k)) ∧
    ReadsGroup s Reg.tbsNow (wordsOf 4 (shadow s)) ∧ ReadsGroup s Reg.sagEpoch (wordsOf 2 (epochAt s (shadow s))) ∧
    ReadsGroup s Reg.lnkAsn (wordsOf 4 (if lnkOn s then asnAt s (shadow s) else 0)) ∧
    (∀ b : Fin 8, ReadsGroup s (Reg.lnkAirUsed b) (wordsOf 2 (airShown s b))) ∧
    ReadsGroup s Reg.tbsPpscap ((List.range 4).map fun k => rget s (Reg.tbsPpscap + k)) ∧
    (∃ ws, ws.length = 4 ∧ ReadsGroup s Reg.hspRxpop ws) ∧
    (∀ h : Fin 32, 1 < tmrWidth s h → (∀ k, k < tmrWidth s h → h.val + k < 32 ∧ tmrHead s (h.val + k) = h.val) →
      ReadsGroup s (Reg.tmrnCap h) (wordsOf (tmrWidth s h) ((s.tmr h).caps.headD (s.tmr h).capLast)))

/-- Reads and writes that act: an access behind a register bridge that times out ends with a fault record, a read with 0 (01
R31); a local memory is reached while its Tiller is OFF, its address advancing, and an access in any other STATE sets the event
(11 R269); `CLRCNT` and `CLRCLIP` of every block that has one, `CLRPEAK` and `CLRMIN` clear counters and marks (03 to 15; 06 R161, 07
R182).  Choices of the model within it: log entry 65. -/
def Obligations.ActingAccesses : Prop :=
  ∀ (s : State) (i : Initiator),
    (∀ b w, bridged b = true → Ends (.bridgeTimeout b i w) s fun t => t.flt.seq = s.flt.seq + 1 ∧
      t.flt.ended = s.flt.ended ++ [(initIndex i, b, w)] ∧
      (w = false → t.out.read = 0) ∧ Only fltRegs s t) ∧
    (∀ (n : Fin 32) (v : Word), stateOf s (.til n) = 0 → Ends (.localMemoryAccess i n (some v)) s fun t =>
      lget t n (rget s (Reg.tilLmaddr n)).toNat = v ∧
        (∀ m a, 65536 * m + a % 65536 ≠ 65536 * n.val + (rget s (Reg.tilLmaddr n)).toNat → lget t m a = lget s m a) ∧
        rget t (Reg.tilLmaddr n) = rget s (Reg.tilLmaddr n) + 1 ∧ RegsBut [Reg.tilLmaddr n] s t ∧ t.mem = s.mem) ∧
    (∀ n : Fin 32, stateOf s (.til n) = 0 → Ends (.localMemoryAccess i n none) s fun t =>
      t.out.read = lget s n (rget s (Reg.tilLmaddr n)).toNat ∧ rget t (Reg.tilLmaddr n) = rget s (Reg.tilLmaddr n) + 1 ∧
        Only [Reg.tilLmaddr n] s t) ∧
    (∀ (n : Fin 32) (v : Option Word), stateOf s (.til n) ≠ 0 → Ends (.localMemoryAccess i n v) s fun t =>
      rget t (Reg.tilEvt n) = (rget s (Reg.tilEvt n) ||| 0x0010) ∧ (v = none → t.out.read = 0) ∧
        Only (Reg.tilEvt n :: ntxRegs) s t) ∧
    (∀ v, bit v 0 = true → Ends (.counterClear i Reg.aesCtl v) s fun t => (∀ k, k < 5 → rget t (Reg.aesNmis k) = 0) ∧
      Only ((List.range 5).map Reg.aesNmis) s t) ∧
    (∀ a b l v, (a, b, l) ∈ [(Reg.rglCtl, 0, [Reg.rglNrefuse, Reg.rglNclamp]), (Reg.sesCtl, 2, (List.range 7).map (Reg.sesNnosess + ·)),
          (Reg.spkCtl, 1, (List.range 8).map (Reg.spkNalloc + ·)), (Reg.winCtl, 0, (List.range 6).map (Reg.winNrel + ·)),
          (Reg.sagCtl, 5, (List.range 6).map (Reg.sagNmig + ·)), (Reg.fltCtl, 1, (List.range 8).map (Reg.fltNce + ·)),
          (Reg.uslCtl, 1, [Reg.uslNcontrib, Reg.uslNlatesum, Reg.uslNnoann, Reg.uslnNretry 0, Reg.uslnNcrc 0, Reg.uslnNretry 1, Reg.uslnNcrc 1]),
          (Reg.ethCtl, 0, [Reg.ethNbadout, Reg.ethNmrej] ++ [0, 1].flatMap fun n => (List.range 5).map (Reg.ethnNtx n + ·))] →
      bit v b = true → (a = Reg.spkCtl → bit v 2 = false) → (a = Reg.winCtl ∨ a = Reg.ethCtl → bit v 1 = false) →
      Ends (.counterClear i a v) s fun t => (∀ x ∈ l, rget t x = 0) ∧ Only (a :: l) s t) ∧
    (∀ (n : Fin 8) v, bit v 3 = true → Ends (.counterClear i (Reg.awnCtl n) v) s fun t =>
      rget t (Reg.awnNdet n) = 0 ∧ rget t (Reg.awnNmerge n) = 0 ∧ rget t (Reg.awnNdisc n) = 0) ∧
    (∀ (p : Fin 64) v, bit v 2 = true → Ends (.counterClear i (Reg.prtCtl p) v) s fun t => rget t (Reg.prtClips p) = 0) ∧
    (∀ (n : Fin 32) v, bit v 3 = true → bit v 0 = true → enOf s (.til n) = true → Ends (.counterClear i (Reg.tilCtl n) v) s fun t =>
      rget t (Reg.tilNlost n) = 0) ∧
    (∀ v, bit v 5 = true → bit v 0 = true → Ends (.counterClear i Reg.lnkCtl v) s fun t => ∀ k, k < 7 → rget t (Reg.lnkNack + k) = 0) ∧
    (∀ v, Ends (.peakClear i v) s fun t => rget t Reg.spkPeak = w16 s.spks.length ∧
      Only (Reg.spkCtl :: Reg.spkPeak :: (List.range 8).map (Reg.spkNalloc + ·)) s t) ∧
    (∀ v, Ends (.minClear i v) s fun t => (∀ p, p < 16 → rget t (Reg.winMin p) = w16 (freeCount s p)) ∧
      OnlyBlocks [0x1015] s t)

/-! ## Ports, sheaves, transmissions (03) -/

/-- A port's gain steps one state towards GSET under AUTO; its tuner code is held and takes effect at once while the sheaf captures, and
at E where it comes during a transmission; its own static DC measurement, complete, makes it ON again with the estimates (03 R81, R99,
R103).  A sample instant of a sheaf that does not capture, or whose next transmission's blanking is due, does nothing; one of a sheaf
that captures moves the timebase to it and the offset estimates on from what they hold, puts the ports' samples into the ring, with zeros
and a mark for each port that gives none, or without a credit of the sample queue discards them under one record for the interval (R78,
R84, R95; 01 R28; 06 R162, R164).  Choices of the model within it: log entries 5, 6, 26, 37. -/
def Obligations.PortCommands : Prop :=
  ∀ s : State,
    (∀ p : Fin 64, rbit s (Reg.prtGain p) 3 = true → rfld s (Reg.prtGain p) 2 0 < gainOf s p → Ends (.gainStepUp p) s fun t =>
      gainOf t p = gainOf s p - 1 ∧ rfld t (Reg.prtGain p) 7 5 = gainOf s p - 1 ∧
        rfld t (Reg.prtGain p) 3 0 = rfld s (Reg.prtGain p) 3 0 ∧ (t.port p).midSince = (s.port p).midSince + 6144000 ∧
        t.time.now = max s.time.now ((s.port p).midSince + 6144000) ∧ Only [Reg.prtStat p, Reg.prtGain p] s t) ∧
    (∀ p : Fin 64, rbit s (Reg.prtGain p) 3 = false ∨ rfld s (Reg.prtGain p) 2 0 ≥ gainOf s p → exec (.gainStepUp p) s = .next s) ∧
    (∀ (i : Initiator) (p : Fin 64) (v : Word), Ends (.tuneWrite i p v) s fun t =>
      rget t (Reg.prtTune p) = ((rget s (Reg.prtTune p) &&& 0xC0C0) ||| (v &&& 0x3F3F)) ∧ Only [Reg.prtTune p] s t ∧
        (capturing s (sheafOf p) = true → (t.port p).tuneAct = rget t (Reg.prtTune p)) ∧
        (capturing s (sheafOf p) = false → (t.port p).tuneAct = (s.port p).tuneAct ∧
          (transmitting s (sheafOf p) = true → (t.port p).tuneAtE = true))) ∧
    (∀ (p : Fin 64) (dci dcq : Word) (j : CalJob), (s.sheaf (sheafOf p)).job = some j → j.own = true → j.running = true →
      8 * sheafOf p + j.port = p.val → enOf s (.prt p) = true → Ends (.portDcMeasureDone p dci dcq) s fun t =>
        rget t (Reg.prtDci p) = dci ∧ rget t (Reg.prtDcq p) = dcq ∧ prtState t p = 2 ∧ SameMemory s t) ∧
    (∀ (n : Fin 8) (x : SampleSet) (c : List Candidate), capturesWf x c = true →
      (capturing s n = false ∨ blankDue s n (sampleTick s n) = true → exec (.sampleCapture n x c) s = .next s) ∧
      (capturing s n = true → blankDue s n (sampleTick s n) = false → Ends (.sampleCapture n x c) s fun t =>
        t.time.now = max s.time.now (sampleTick s n) ∧
        ((s.sheaf n).job = none → ∀ k e, x.ports[k]? = some e → prtState s (8 * n + k) ≠ 0 → portHeld s (8 * n + k) = false →
          rget t (Reg.prtDci (8 * n + k)) = Config.dcTrack (rget s (Reg.prtDci (8 * n + k))) e.i ∧
            rget t (Reg.prtDcq (8 * n + k)) = Config.dcTrack (rget s (Reg.prtDcq (8 * n + k))) e.q) ∧
        (x.credit = true → x.upsets = [] → ∃ l r, (t.sheaf n).ring = l ++ [r] ∧ r.tick = sampleTick s n ∧ ((s.sheaf n).job = none →
          r.live = (portsOf n).map (portLive s) ∧ r.x = x.ports.zipIdx.map fun e =>
            if portLive s (8 * n + e.2) = true then (i16 (clampInt (-32768) 32767 e.1.i), i16 (clampInt (-32768) 32767 e.1.q)) else (0, 0))) ∧
        (x.credit = true → x.upsets = [] → s.flt.bad = [] → OnlyBlocks [0x1010] s t) ∧
        (x.credit = false → (t.sheaf n).ring = (s.sheaf n).ring ∧ (∃ q r, (t.sheaf n).lost = q :: r ∧ q.last = sampleTick s n) ∧
          ((∀ q, (s.sheaf n).lost.head? = some q → q.last + 8 ≠ sampleTick s n) → t.flt.seq = s.flt.seq + 1))))

/-- A transmission command at a sheaf (03 R87; 09 R245): it is accepted, in order of start, when the sheaf takes commands and none of
the cases of R87 holds, and refused with every bit that applies otherwise; a request's command that is refused ends the request, and one
whose securing comes late sets `SES_EVT.SECLATE` besides.  Choices of the model within it: log entries 27, 28, 50. -/
def Obligations.TransmitCommands : Prop :=
  ∀ (s : State) (n : Fin 8),
    ((s.sheaf n).cmds = [] → exec (.txCommand n) s = .next s) ∧
    ∀ (c : TxCmd) (r : List TxCmd), (s.sheaf n).cmds = c :: r →
      (takesTx s n c = true → txCases s n c = 0 → secLate s c = false → Ends (.txCommand n) s fun t => (t.sheaf n).cmds = r ∧
        (t.sheaf n).accepted = insertTx c (s.sheaf n).accepted ∧ Only [] s t) ∧
      (takesTx s n c = true → txCases s n c ≠ 0 → c.for_ = .other → Ends (.txCommand n) s fun t => (t.sheaf n).cmds = r ∧
        (t.sheaf n).accepted = (s.sheaf n).accepted ∧ rget t (Reg.shfEvt n) = (rget s (Reg.shfEvt n) ||| txCases s n c) ∧
        Only (Reg.shfEvt n :: ntxRegs) s t) ∧
      (takesTx s n c = false → c.for_ = .other → Ends (.txCommand n) s fun t => (t.sheaf n).cmds = r ∧
        (t.sheaf n).accepted = (s.sheaf n).accepted ∧ Only [] s t) ∧
      (∀ id b, c.for_ = .request id b → takesTx s n c = false ∨ txCases s n c ≠ 0 → Ends (.txCommand n) s fun t =>
        (t.sheaf n).cmds = r ∧ (t.sheaf n).accepted = (s.sheaf n).accepted ∧ (∀ q ∈ t.lnk.reqs, q.id ≠ id)) ∧
      (secLate s c = true → Ends (.txCommand n) s fun t => (t.sheaf n).cmds = r ∧
        (t.sheaf n).accepted = (s.sheaf n).accepted ∧ rbit t Reg.sesEvt 7 = true)

/-- The instants of a transmission (03 R86, R93 to R98): blanking begins 40.0 µs before the start T, with the LO nudged for the
first of a run whose one stream asks for it; at T the sheaf transmits, each stream's oscillator word fixed, and the count advances; at
the end E the nudge goes, and the receiver resumes at the first sample 40.0 µs later, unless another transmission's blanking has come by
then.  Choices of the model within it: log entries 3, 6, 35. -/
def Obligations.TransmitInstants : Prop :=
  ∀ (s : State) (n : Fin 8) (c : TxCmd),
    (∀ r, (s.sheaf n).accepted = c :: r → (s.sheaf n).onAir = none → (s.sheaf n).ready = false → Ends (.blankingStart n) s fun t =>
      blanked t n = true ∧ (t.sheaf n).ready = true ∧ (t.sheaf n).capture = none ∧ (t.sheaf n).accepted = c :: r ∧
        (t.sheaf n).blankAt5 = c.t5 - turn5 ∧ t.time.now = max s.time.now ((c.t5 - turn5 + 4) / 5) ∧
        (∀ df, mayNudge s n c = some df → continues s n c = false → (t.sheaf n).nudged = true ∧
          (t.sheaf n).nudge = nudgeOf df (s.sheaf n).div ∧ rbit t (Reg.shfStat n) 5 = true) ∧
        (mayNudge s n c = none ∨ continues s n c = true → (t.sheaf n).nudge = (s.sheaf n).nudge) ∧ SameMemory s t) ∧
    (∀ r, (s.sheaf n).accepted = c :: r → (s.sheaf n).ready = true → Ends (.txStart n) s fun t => transmitting t n = true ∧
      (t.sheaf n).accepted = r ∧ (∃ p, (t.sheaf n).onAir = some { c with power := p, osc := oscWords s n c }) ∧
        (t.sheaf n).ready = false ∧ rget t (Reg.shfTxcnt n) = rget s (Reg.shfTxcnt n) + 1 ∧
        t.time.now = max s.time.now ((c.t5 + 4) / 5) ∧ SameMemory s t) ∧
    (∀ m, measWf m = true → (s.sheaf n).onAir = some c → (s.sheaf n).accepted = [] → c.for_ = .other → Ends (.txEnd n m) s fun t =>
      transmitting t n = false ∧ (t.sheaf n).onAir = none ∧ (t.sheaf n).resume5 = c.e5 + turn5 ∧ (t.sheaf n).nudge = 0 ∧
        rbit t (Reg.shfStat n) 5 = false ∧ t.time.now = max s.time.now ((c.e5 + 4) / 5) ∧ SameMemory s t) ∧
    (blanked s n = true → clearOfTx s n (resumeTick s n) = true → rbit s (Reg.shfStat n) 2 = true →
      shfState s n = 2 ∨ shfState s n = 3 → Ends (.receiveResume n) s fun t =>
        blanked t n = false ∧ (t.sheaf n).capture = some (resumeTick s n) ∧ (t.sheaf n).relockAt = none ∧
          t.time.now = max s.time.now (resumeTick s n) ∧ SameMemory s t) ∧
    (blanked s n = false ∨ clearOfTx s n (resumeTick s n) = false ∨ rbit s (Reg.shfStat n) 2 = false →
      exec (.receiveResume n) s = .next s)

/-- Loss and return of a synthesiser's lock (03 R92; 01 R38): LOCK clears with its event and capture ends; lock returned, capture
resumes at the first sample at least 40.0 µs (4,916 ticks) later that no transmission's blanking covers.  Choices of the model within it: log entries 3, 27. -/
def Obligations.SynthLock : Prop :=
  ∀ (s : State) (n : Fin 8),
    (shfState s n = 2 → rbit s (Reg.shfStat n) 2 = true → (s.sheaf n).onAir = none → (s.sheaf n).accepted = [] → (s.sheaf n).cmds = [] →
      Ends (.synthUnlock n) s fun t => rbit t (Reg.shfStat n) 2 = false ∧ rbit t (Reg.shfEvt n) 1 = true ∧ blanked t n = true ∧
        (t.sheaf n).capture = none ∧ (t.sheaf n).relockAt = none ∧ SameMemory s t) ∧
    (shfState s n = 2 → rbit s (Reg.shfStat n) 2 = false → vcobUntil s n = none → Ends (.synthRelock n) s fun t =>
      rget t (Reg.shfStat n) = setBit (rget s (Reg.shfStat n)) 2 true ∧ (t.sheaf n).relockAt = some s.time.now ∧
        Only [Reg.shfStat n] s t) ∧
    (∀ k, (s.sheaf n).relockAt = some k → rbit s (Reg.shfStat n) 2 = true → blanked s n = true →
      shfState s n = 2 ∨ shfState s n = 3 → clearOfTx s n (resumeTick s n) = true → Ends (.captureResume n) s fun t =>
        (t.sheaf n).capture = some (resumeTick s n) ∧ k + 4916 ≤ resumeTick s n ∧ (t.sheaf n).relockAt = none ∧ blanked t n = false ∧
          t.time.now = max s.time.now (resumeTick s n) ∧ SameMemory s t) ∧
    ((s.sheaf n).relockAt = none ∨ clearOfTx s n (resumeTick s n) = false → exec (.captureResume n) s = .next s)

/-! ## Calibration and the aerial (04 R114 to R128) -/

/-- A calibration request on a free unit that is ON is accepted: `CALs_SSTAT` reads BUSY, its kind and port, and the request waits
for its instant, `CAL_AT` or at once, with LATE where `CAL_AT` has passed; while another is pending it is refused BUSY, and for a unit
that is not ON it is refused STATE, with nothing but RESULT changed and the event set; REFOSC begins while the timebase is disciplined and
ends without a reference otherwise (04 R115, R116, R122; 14 R367).  Choices of the model within it: log entries 33, 102. -/
def Obligations.CalibrationRequests : Prop :=
  ∀ (s : State) (i : Initiator) (at_ : Bool),
    (∀ (p : Fin 64) (k : Nat) (c : Instr), (k, c) ∈ [(1, Instr.iq i p at_), (2, .fbw i p at_), (3, .dcstat i p at_), (4, .loleak i p at_)] →
      (calBusy s (sheafOf p) = true → Ends c s fun t => rfld t (Reg.calSstat (sheafOf p)) 2 0 = 2 ∧
        rbit t Reg.calEvt (sheafOf p) = true ∧ t.sheaves = s.sheaves ∧ Only (Reg.calSstat (sheafOf p) :: Reg.calEvt :: ntxRegs) s t) ∧
      (calBusy s (sheafOf p) = false → prtState s p ≠ 2 ∨ shfState s (sheafOf p) ≠ 2 → Ends c s fun t =>
        rfld t (Reg.calSstat (sheafOf p)) 2 0 = 3 ∧ rbit t Reg.calEvt (sheafOf p) = true ∧ t.sheaves = s.sheaves ∧
          Only (Reg.calSstat (sheafOf p) :: Reg.calEvt :: ntxRegs) s t) ∧
      (calBusy s (sheafOf p) = false → prtState s p = 2 → shfState s (sheafOf p) = 2 → Ends c s fun t =>
        rbit t (Reg.calSstat (sheafOf p)) 15 = true ∧ rfld t (Reg.calSstat (sheafOf p)) 13 11 = k ∧
          rfld t (Reg.calSstat (sheafOf p)) 10 8 = 0 ∧ rfld t (Reg.calSstat (sheafOf p)) 7 5 = p.val % 8 ∧
          rbit t (Reg.calSstat (sheafOf p)) 14 = (at_ && decide (rgroup s Reg.calAt 4 < shadow s)) ∧
          (t.sheaf (sheafOf p)).job = some { kind := k, port := p.val % 8, start :=
            (if at_ = true ∧ shadow s ≤ rgroup s Reg.calAt 4 then rgroup s Reg.calAt 4 else s.time.now) } ∧
          Only [Reg.calSstat (sheafOf p)] s t)) ∧
    (∀ (n : Fin 8) (k : Nat) (c : Instr), (k, c) ∈ [(5, Instr.recip i n at_), (6, .vcob i n at_)] → calBusy s n = false →
      shfState s n = 2 → (k = 5 → 2 ≤ (enPorts s n).length) → Ends c s fun t => rbit t (Reg.calSstat n) 15 = true ∧
        rfld t (Reg.calSstat n) 13 11 = k ∧ (t.sheaf n).job.map CalJob.kind = some k ∧ (t.sheaf n).job.map CalJob.start = some
          (if at_ = true ∧ shadow s ≤ rgroup s Reg.calAt 4 then rgroup s Reg.calAt 4 else s.time.now) ∧ Only [Reg.calSstat n] s t) ∧
    (∀ (n : Fin 8) (k : Nat) (c : Instr), (k, c) ∈ [(5, Instr.recip i n at_), (6, .vcob i n at_)] →
      (calBusy s n = true → Ends c s fun t => rfld t (Reg.calSstat n) 2 0 = 2 ∧ rbit t Reg.calEvt n = true ∧
        t.sheaves = s.sheaves ∧ Only (Reg.calSstat n :: Reg.calEvt :: ntxRegs) s t) ∧
      (calBusy s n = false → shfState s n ≠ 2 → Ends c s fun t => rfld t (Reg.calSstat n) 2 0 = 3 ∧ rbit t Reg.calEvt n = true ∧
        t.sheaves = s.sheaves ∧ Only (Reg.calSstat n :: Reg.calEvt :: ntxRegs) s t)) ∧
    (rbit s Reg.calRefstat 0 = true → exec (.refosc i) s = .next s) ∧
    (rbit s Reg.calRefstat 0 = false → disciplined s = true → Ends (.refosc i) s fun t =>
      rget t Reg.calRefstat = setBit (setBit (rget s Reg.calRefstat) 2 false) 0 true ∧ t.time.refosc = s.time.now ∧
        Only [Reg.calRefstat] s t) ∧
    (rbit s Reg.calRefstat 0 = false → disciplined s = false → Ends (.refosc i) s fun t =>
      rget t Reg.calRefstat = setBit (rget s Reg.calRefstat) 2 true ∧ rbit t Reg.calEvt 8 = true ∧
        Only (Reg.calRefstat :: Reg.calEvt :: ntxRegs) s t)

/-- A calibration runs (04 R117, R120 to R122): DCSTAT holds its port out of service and VCOB blanks the sheaf, its lock lost; the
end writes its results, RESULT OK and the event; REFOSC stores its error; a write of a result register acts at L0 and L1 only.  Choices of the model within it: log entries 3, 6. -/
def Obligations.CalibrationRuns : Prop :=
  ∀ (s : State) (n : Fin 8) (j : CalJob),
    ((s.sheaf n).job = some j → j.running = false → j.kind = 3 → shfState s n = 2 → blanked s n = false → transmitting s n = false →
      Ends (.calibrationBegin n) s fun t => portHeld t (8 * n + j.port) = true ∧ rfld t (Reg.calSstat n) 10 8 = (j.begun + 1) % 8 ∧
        (t.sheaf n).job = some { j with running := true, begun := j.begun + 1, ends := sampleAt s (max j.start s.time.now) + 61440 } ∧
        t.time.now = max s.time.now (sampleAt s (max j.start s.time.now)) ∧
        Only [Reg.calSstat n, Reg.prtStat (8 * n + j.port)] s t) ∧
    ((s.sheaf n).job = some j → j.running = false → j.kind = 6 → shfState s n = 2 → blanked s n = false → transmitting s n = false →
      (s.sheaf n).accepted = [] → Ends (.calibrationBegin n) s fun t => blanked t n = true ∧ rbit t (Reg.shfStat n) 2 = false ∧
        (t.sheaf n).capture = none ∧ ((∀ x ∈ s.spks, x.det.sheaf ≠ n.val) → Only [Reg.calSstat n, Reg.shfStat n] s t)) ∧
    (∀ v, (s.sheaf n).job = some j → j.running = true → j.own = false → j.kind = 1 → j.port < 8 →
      Ends (.calibrationComplete n v) s fun t => rget t (Reg.calIqg (8 * n + j.port)) = v.vals.getD 0 0 ∧
        rget t (Reg.calIqp (8 * n + j.port)) = v.vals.getD 1 0 ∧ rbit t (Reg.calValid (8 * n + j.port)) 0 = true ∧
        rfld t (Reg.calSstat n) 2 0 = 1 ∧ rbit t (Reg.calSstat n) 15 = false ∧ rbit t Reg.calEvt n = true ∧ SameMemory s t) ∧
    (∀ v, (s.sheaf n).job = some j → j.running = true → j.own = false → j.port < 8 → 2 ≤ j.kind ∧ j.kind ≤ 4 →
      Ends (.calibrationComplete n v) s fun t =>
        rfld t (Reg.calSstat n) 2 0 = 1 ∧ rbit t (Reg.calSstat n) 15 = false ∧ rbit t Reg.calEvt n = true ∧ SameMemory s t ∧
        (j.kind = 2 → rbit t (Reg.calValid (8 * n + j.port)) 1 = true) ∧
        (j.kind = 3 → rget t (Reg.prtDci (8 * n + j.port)) = v.vals.getD 0 0 ∧ rget t (Reg.prtDcq (8 * n + j.port)) = v.vals.getD 1 0) ∧
        (j.kind = 4 → rbit t (Reg.calValid (8 * n + j.port)) 2 = true)) ∧
    (∀ v, (s.sheaf n).job = some j → j.running = true → j.own = false → j.kind = 6 → Ends (.calibrationComplete n v) s fun t =>
      rfld t (Reg.calVcob n) 5 0 = (v.vals.getD 0 0).toNat % 64 ∧ rbit t (Reg.shfStat n) 2 = true ∧ rfld t (Reg.calSstat n) 2 0 = 1 ∧
        rbit t (Reg.calSstat n) 15 = false ∧ rbit t Reg.calEvt n = true) ∧
    (∀ e, rbit s Reg.calRefstat 0 = true → Ends (.refoscComplete e) s fun t => rget t Reg.calReferr = e ∧
      rfld t Reg.calRefstat 1 0 = 2 ∧ rbit t Reg.calEvt 8 = true ∧ t.time.now = max s.time.now (s.time.refosc + 125829120) ∧ Only (Reg.calReferr :: Reg.calRefstat :: Reg.calEvt :: ntxRegs) s t) ∧
    (∀ (i : Initiator) (p : Fin 64) (k : Fin 7) (v : Word),
      (levelOf s i ≤ 1 → k.val < 2 → exec (.calResultWrite i p k v) s = .next (rset s (Reg.calIqg p + k) v)) ∧
      (2 ≤ levelOf s i → exec (.calResultWrite i p k v) s = .next s))

/-- Aerial faults (04 R125): ball DC of 1.0 V or more is FAULT with cause DC at once; below 0.5 V it leaves that fault for CHECK;
a write of 1 to `HEDp_AFCLR` does so for the other causes.  The HEADn outputs (04 R127, R128): the limit, and what ends it; a short, an overload and a back-driven output each set their
event and stop the output; an open one goes on; VHEAD reversed stops every output that is driven.  Choices of the model within it: log entries 6, 36. -/
def Obligations.AerialFaultsAndHeads : Prop :=
  (∀ (s : State) (p : Fin 64) (v : Word),
    (100 ≤ v.toInt.natAbs → Ends (.ballDcFault p v) s fun t => rget t (Reg.hedBalldc p) = v ∧ rget t (Reg.hedAflt p) = 0x000E ∧
      rbit t (Reg.prtStat p) 2 = true ∧ OnlyBlocks [0x1010, 0x1020] s t) ∧
    (v.toInt.natAbs < 50 → rget s (Reg.hedAflt p) = 0x000E → Ends (.ballDcClear p v) s fun t => rget t (Reg.hedBalldc p) = v ∧
      rget t (Reg.hedAflt p) = 0x0003 ∧ OnlyBlocks [0x1010, 0x1020] s t) ∧
    (∀ i c, c = 1 ∨ c = 2 → rget s (Reg.hedAflt p) = w16 (4 * c + 2) → Ends (.afclr i p 1) s fun t =>
      rget t (Reg.hedAflt p) = 0x0003 ∧ OnlyBlocks [0x1010, 0x1020] s t) ∧
    (∀ i, v ≠ 1 ∨ aflt s p ≠ 2 ∨ rfld s (Reg.hedAflt p) 3 2 = 3 → exec (.afclr i p v) s = .next s)) ∧
  ∀ (s : State) (n : Fin 8),
    (hedDriven s n = true → exec (.headCurrentLimit n) s = .next (rsetBit s (Reg.hedStat n) 3 true)) ∧
    exec (.headLimitRelease n) s = .next (rsetBit s (Reg.hedStat n) 3 false) ∧
    (hedState s n = 0 → exec (.headBackdrive n) s = .next s) ∧
    (∀ c b, (c, b) ∈ [(Instr.headShort n, 0), (.headOverload n, 4), (.headBackdrive n, 2)] → hedState s n = 2 →
      rbit s (Reg.hedStat n) 3 = true → s.power.quiet = false → Ends c s fun t => rbit t (Reg.hedEvt n) b = true ∧ hedState t n = 3 ∧
        enOf t (.hed n) = false ∧ OnlyBlocks [0x1010, 0x1020] s t) ∧
    (hedState s n = 2 → Ends (.headOpen n) s fun t => rbit t (Reg.hedEvt n) 1 = true ∧ rbit t (Reg.hedStat n) 2 = true ∧
      hedState t n = 2 ∧ OnlyBlocks [0x1010, 0x1020] s t) ∧
    (Ends (.headOpenClear n) s fun t => rget t (Reg.hedStat n) = setBit (rget s (Reg.hedStat n)) 2 false ∧
      OnlyBlocks [0x1010, 0x1020] s t) ∧
    (∀ v : Word, v.toInt < -50 → Ends (.vheadReversed v) s fun t => rget t Reg.hedVhead = v ∧ rbit t Reg.hedGstat 1 = true ∧
      (∀ k : Fin 8, hedState t k = if hedDriven s k = true then 3 else hedState s k) ∧ OnlyBlocks [0x1020] s t) ∧
    (rbit s Reg.hedGstat 1 = true → Ends .vheadReversalEnd s fun t => rbit t Reg.hedGstat 1 = false ∧
      rget t Reg.hedVhead = Config.supplyReading s.free ∧ Only [Reg.hedVhead, Reg.hedGstat] s t)

/-! ## Search and spikelets (05, 06; 13 R347 to R350) -/

/-- Starts, stops and groups of the search (05 R142, R143, R148, R149): a search begins at the first sample at or after its
instant with its sheaf ON; a held stop excludes the candidates from its instant on; of the open groups the one that ends first
closes, with one record from its winner.  Choices of the model within it: log entries 3, 37. -/
def Obligations.SearchInstants : Prop :=
  ∀ s : State,
    (∀ (n : Fin 8) (k : Nat), (s.search n).startAt = some k → stateOf s (.awn n) = 1 → shfState s n = 2 →
      Ends (.searchStart n) s fun t => stateOf t (.awn n) = 2 ∧ (t.search n).startAt = none ∧
        (t.search n).began = sampleAt s (max k s.time.now) ∧ (t.search n).seq = 0 ∧
        t.time.now = max s.time.now (sampleAt s (max k s.time.now)) ∧ Only [Reg.awnStat n] s t) ∧
    (∀ (n : Fin 8) (k : Nat), (s.search n).heldStop = some k → stateOf s (.awn n) = 2 → Ends (.searchStop n) s fun t =>
      stateOf t (.awn n) = 3 ∧ enOf t (.awn n) = false ∧ rbit t (Reg.awnStat n) 2 = false ∧ (t.search n).stopAt = some k ∧
        (t.search n).heldStop = none ∧ t.time.now = max s.time.now k ∧ Only [Reg.awnCtl n, Reg.awnStat n] s t) ∧
    (s.groups = [] → exec .groupClose s = .next s) ∧
    (s.groups ≠ [] → Ends .groupClose s fun t => ∃ f ∈ s.groups, (∀ d ∈ s.groups, f.a + f.w ≤ d.a + d.w) ∧
      t.groups = s.groups.filter (· ≠ f) ∧ t.time.now = max s.time.now (f.a + f.w) ∧ SameMemory s t ∧
      (winner f = none → t.detq = s.detq ∧ t.regs = s.regs) ∧
      (∀ w, winner f = some w → w.sheaf < 8 → t.detq = s.detq ++ [detOf s w] ∧
        rget t (Reg.awnNdet w.sheaf) = rget s (Reg.awnNdet w.sheaf) + 1))

/-- Allocation of spikelets (06 R160, R161, R167): the record at the head of the queue takes the lowest free spikelet where the pool's
conditions hold, ending BLANKED at once where its sheaf's blanking began after its SYNCT, and yields a POOL verdict otherwise; a
reservation whose sum with the others passes 1,024 is refused.  Choices of the model within it: log entries 39, 42. -/
def Obligations.SpikeletPool : Prop :=
  ∀ s : State,
    (∀ (d : Det) (r : List Det), s.detq = d :: r → mayAllocate s d.sheaf = true → (s.sheaf d.sheaf).blankAt5 ≤ 5 * d.synct →
      Ends .spikeletAllocation s fun t => t.detq = r ∧
        (∃ x, noDec t.spks = x :: noDec s.spks ∧ x.det = d ∧ x.id = freeSpike s ∧ x.origin = chipNum s ∧ x.header = none ∧
          x.est = none ∧ x.hold = none) ∧ rget t Reg.spkNalloc = rget s Reg.spkNalloc + 1 ∧ Only [Reg.spkNalloc, Reg.spkPeak] s t) ∧
    (∀ (d : Det) (r : List Det), s.detq = d :: r → mayAllocate s d.sheaf = true → 5 * d.synct < (s.sheaf d.sheaf).blankAt5 →
      Ends .spikeletAllocation s fun t => t.detq = r ∧ noDec t.spks = noDec s.spks ∧ rget t Reg.spkNalloc = rget s Reg.spkNalloc + 1 ∧
        rget t Reg.spkNblank = rget s Reg.spkNblank + 1 ∧ rbit t Reg.spkEvt 6 = true ∧ SameMemory s t) ∧
    (∀ (d : Det) (r : List Det), s.detq = d :: r → mayAllocate s d.sheaf = false → Ends .spikeletAllocation s fun t =>
      t.detq = r ∧ t.spks = s.spks ∧ rget t Reg.spkNpool = rget s Reg.spkNpool + 1 ∧ rbit t Reg.spkEvt 0 = true ∧ SameMemory s t) ∧
    (s.detq = [] → exec .spikeletAllocation s = .next s) ∧
    (∀ (i : Initiator) (n : Fin 8) (v : Word),
      ((((List.range 8).filter (· ≠ n.val)).map (resOf s)).sum + min 1024 (field v 10 0) ≤ 1024 →
        Ends (.reservationWrite i n v) s fun t => rget t (Reg.spkRes n) = ((rget s (Reg.spkRes n) &&& 0xF800) ||| (v &&& 0x07FF)) ∧ Only [Reg.spkRes n] s t) ∧
      (1024 < (((List.range 8).filter (· ≠ n.val)).map (resOf s)).sum + min 1024 (field v 10 0) →
        Ends (.reservationWrite i n v) s fun t => rbit t Reg.spkEvt 7 = true ∧ Only (Reg.spkEvt :: ntxRegs) s t))

/-- A spikelet's life (06 R162, R163, R165, R166, R168, R169, R172): the channel estimate from the samples of the ring since the
estimation interval; a header that fails ends it HDRBAD, and one that is decided fixes LEN and the end and reserves granules in its
sheaf's partition, or ends it without them; a decoded frame whose FCS agrees passes on with its PSDU and its granules, one whose FCS
does not ends unless bad frames are kept, and one whose PHR differs ends HDRBAD; a missed deadline and an overtaken ring each count, with
their events.  Choices of the model within it: log entries 3, 43, 44, 100, 101, 104. -/
def Obligations.SpikeletLife : Prop :=
  ∀ (s : State) (k : Fin 1024) (x : Spikelet), spikeOf s k = some x →
    (x.est.isSome = true ∨ x.own = false → exec (.channelEstimate k) s = .next s) ∧
    (∀ rows, x.est = none → x.own = true → 100 * s.time.now ≤ firstSample x + 24576000 → lostOf s x = none →
      rows = (s.sheaf x.det.sheaf).ring.filter (fun r => decide (firstSample x ≤ 100 * r.tick)) → ringPoison s x.det.sheaf rows = none →
      Ends (.channelEstimate k) s fun t => t.regs = s.regs ∧ SameMemory s t ∧ noDec t.spks = noDec (s.spks.map fun y =>
        if y.id = k.val then { x with buf := rows, est := some (estimate { x with buf := rows }) } else y)) ∧
    (x.est = none → x.own = true → firstSample x + 24576000 < 100 * s.time.now → Ends (.channelEstimate k) s fun t =>
      rget t Reg.spkNinteg = rget s Reg.spkNinteg + 1 ∧ t.flt.seq = s.flt.seq + 1 ∧ noDec t.spks = noDec (s.spks.filter fun y => y.id ≠ x.id)) ∧
    (∀ t₀, headerDue s x = false → exec (.headerDecision k t₀) s = .next s) ∧
    (∀ t₀, headerDue s x = true → decidedHead x = none → x.late = false → s.usl.sums = [] → s.usl.softs = [] →
      Ends (.headerDecision k t₀) s fun t => noDec t.spks = noDec (s.spks.filter fun y => y.id ≠ x.id) ∧
        rget t Reg.spkNhdr = rget s Reg.spkNhdr + 1 ∧ rbit t Reg.spkEvt 4 = true ∧ t.time.now = max s.time.now t₀ ∧
        Only (Reg.spkNhdr :: Reg.spkEvt :: ntxRegs) s t) ∧
    (∀ t₀ i p, headerDue s x = true → decidedHead x = some i → inCluster s = false → memberOnly s = false → s.usl.sums = [] →
      s.usl.softs = [] → p = partFor s (field (rget s (Reg.winRxmap (x.det.sheaf / 4))) (4 * (x.det.sheaf % 4) + 3) (4 * (x.det.sheaf % 4))) →
      (s.win.stopped = false → (i.len + 127) / 128 + 1 ≤ freeCount s p → (i.len + 127) / 128 + 1 ≤ (freeGranules s p).length →
        Ends (.headerDecision k t₀) s fun t => t.time.now = max s.time.now t₀ ∧ ∃ y ∈ t.spks, y.id = x.id ∧ y.len = i.len ∧
          y.header = some (headerOf x.slot x.det.coded (headSoft x)) ∧ y.fcst = i.fcst ∧ y.dw = i.dw ∧
          (x.own = true → y.endt =
            lastSampleBefore s (10000 * x.det.synct + 625 * x.det.subt + bodyTime x.slot x.det.coded i.len i.mode) 10000) ∧
          (∃ g, y.hold = some g ∧ g.data.length = (i.len + 127) / 128 ∧ g.owner = 34 ∧ g ∈ t.holds) ∧ SameMemory s t) ∧
      (s.win.stopped = true ∨ freeCount s p < (i.len + 127) / 128 + 1 → Ends (.headerDecision k t₀) s fun t =>
        noDec t.spks = noDec (s.spks.filter fun y => y.id ≠ x.id) ∧ rget t Reg.spkNgran = rget s Reg.spkNgran + 1 ∧
          rbit t Reg.spkEvt 1 = true ∧ SameMemory s t)) ∧
    (∀ t₀ dec merge ups, ups.all Upset.wf = true → frameDue s x = false → exec (.frameCheck k t₀ dec merge ups) s = .next s) ∧
    (∀ t₀ dec merge, frameDue s x = true → inCluster s = false → memberOnly s = false →
      t₀ ≤ x.endt + ldTicks x.slot x.det.coded + mergeBound s →
      ((decodedOf x).phr = false → Ends (.frameCheck k t₀ dec merge []) s fun t =>
        noDec t.spks = noDec (s.spks.filter fun y => y.id ≠ x.id) ∧ t.frames = s.frames ∧ rget t Reg.spkNhdr = rget s Reg.spkNhdr + 1) ∧
      (∀ h, (decodedOf x).phr = true → fcsGood x = true → x.hold = some h → Ends (.frameCheck k t₀ dec merge []) s fun t =>
        noDec t.spks = noDec (s.spks.filter fun y => y.id ≠ k.val) ∧
          (∃ f, t.frames = s.frames ++ [f] ∧ f.good = true ∧ f.psdu = (decodedOf x).psdu ∧ f.hold = h ∧ f.det = x.det) ∧
          t.nextFrame = s.nextFrame + 1 ∧ t.time.now = max s.time.now (max t₀ x.endt) ∧ t.regs = s.regs) ∧
      (∀ h, (decodedOf x).phr = true → fcsGood x = false → x.hold = some h → Ends (.frameCheck k t₀ dec merge []) s fun t =>
        rget t Reg.spkNfcs = rget s Reg.spkNfcs + 1 ∧ rbit t Reg.spkEvt 5 = true ∧
          noDec t.spks = noDec (s.spks.filter fun y => y.id ≠ x.id) ∧ (rbit s Reg.spkCtl 0 = false → t.frames = s.frames) ∧
          (rbit s Reg.spkCtl 0 = true → ∃ f, t.frames = s.frames ++ [f] ∧ f.good = false ∧ f.psdu = (decodedOf x).psdu ∧ f.hold = h))) ∧
    (x.header.isSome = true → x.late = false → memberOnly s = false → Ends (.decoderDeadlineMiss k) s fun t =>
      rget t Reg.spkNlate = rget s Reg.spkNlate + 1 ∧ rbit t Reg.spkEvt 2 = true ∧ (∀ y ∈ t.spks, y.id = k.val → y.late = true) ∧
        t.time.now = max s.time.now (x.endt + ldTicks x.slot x.det.coded + mergeBound s) ∧ SameMemory s t) ∧
    (x.header.isNone = true ∨ x.late = true → exec (.decoderDeadlineMiss k) s = .next s) ∧
    (x.own = true → Ends (.ringOverrun k) s fun t => rget t Reg.spkNinteg = rget s Reg.spkNinteg + 1 ∧
      rbit t Reg.spkEvt 3 = true ∧ t.flt.seq = s.flt.seq + 1 ∧ noDec t.spks = noDec (s.spks.filter fun y => y.id ≠ x.id) ∧
      SameMemory s t)

/-! ## Link timing (08 R193 to R202, R220, R221) -/

/-- The slot grid (08 R193, R195, R202, R220, R221): a boundary is the next slot start; a re-anchor is armed for its tick and
takes effect there, or at once with the event where its tick has passed; a switch is armed, and applied at its slot where the bank meets
R201; the unit enters ON with one anchor, at `LNK_AT` or within 2 µs, and a held stop drains it, completing the requests not granted and
ending the frames whose acknowledgement is undecided.  Choices of the model within it: log entries 3, 53, 55. -/
def Obligations.SlotGrid : Prop :=
  ∀ (s : State) (i : Initiator) (v : Word),
    (lnkOn s = false → exec .slotBoundary s = .next s) ∧
    (lnkOn s = true → Ends .slotBoundary s fun t => t.time.now = max s.time.now (nextBoundary s (s.time.now + 1)) ∧ t.lnk = s.lnk ∧
      Only ntxRegs s t) ∧
    (lnkOn s = true → shadow s ≤ rgroup s Reg.lnkAt 4 → Ends (.reanchorArm i v) s fun t =>
      (∃ a, t.lnk.reanchor = some a ∧ a.from_ = rgroup s Reg.lnkAt 4 ∧ a.tick = rgroup s Reg.lnkAt 4 ∧
        a.asn = ofWords (commitWords s i Reg.lnkAsn0 4 v) % 2 ^ 40) ∧ rbit t Reg.lnkStat 4 = true ∧ SameMemory s t) ∧
    (lnkOn s = true → rgroup s Reg.lnkAt 4 < shadow s → Ends (.reanchorArm i v) s fun t =>
      t.lnk.anchors = { from_ := s.time.now, tick := rgroup s Reg.lnkAt 4, asn := ofWords (commitWords s i Reg.lnkAsn0 4 v) % 2 ^ 40 } ::
        s.lnk.anchors ∧ rbit t Reg.lnkEvt 1 = true ∧ SameMemory s t) ∧
    (lnkOn s = false → Ends (.reanchorArm i v) s fun t => t.lnk = s.lnk ∧ rgroup t Reg.lnkAsn0 4 = ofWords (commitWords s i Reg.lnkAsn0 4 v) % 2 ^ 64) ∧
    (s.lnk.reanchor = none ∨ lnkOn s = false → exec .reanchorApply s = .next s) ∧
    (∀ a, s.lnk.reanchor = some a → lnkOn s = true → Ends .reanchorApply s fun t =>
      t.lnk.anchors = a :: s.lnk.anchors ∧ t.lnk.reanchor = none ∧ rbit t Reg.lnkStat 4 = false ∧
        t.time.now = max s.time.now a.from_ ∧ Only [Reg.lnkStat] s t) ∧
    (lnkOn s = true → rbit s Reg.lnkSwctl 1 = false → bit v 1 = true → Ends (.bankSwitchArm i v) s fun t =>
      t.lnk.switch = some (rgroup s Reg.lnkSwasn 4 % 2 ^ 40) ∧ rbit t Reg.lnkSwctl 1 = true ∧ rbit t Reg.lnkSwctl 0 = bit v 0 ∧
        rbit t Reg.lnkStat 3 = true ∧ Only (Reg.lnkSwctl :: Reg.lnkStat :: Reg.lnkEvt :: ntxRegs) s t) ∧
    (∀ n, s.lnk.switch = some n → lnkOn s = true → Ends .bankSwitch s fun t => t.lnk.switch = none ∧
      rbit t Reg.lnkSwctl 1 = false ∧ t.time.now = max s.time.now (switchTick s n).1 ∧
      (bankOk s (rbit s Reg.lnkSwctl 0).toNat = true →
        t.lnk.bank = (rbit s Reg.lnkSwctl 0).toNat ∧ rbit t Reg.lnkEvt 7 = true) ∧
      (bankOk s (rbit s Reg.lnkSwctl 0).toNat = false → t.lnk.bank = s.lnk.bank ∧ rbit t Reg.lnkEvt 8 = true) ∧
      Only (Reg.lnkSwctl :: Reg.lnkStat :: Reg.lnkEvt :: ntxRegs) s t) ∧
    (∀ k, stateOf s .lnk = 1 → s.lnk.startAt = some k → Ends .linkStart s fun t => stateOf t .lnk = 2 ∧ t.lnk.since = k ∧
      t.lnk.anchors = [{ from_ := k, tick := s.lnk.atSel.getD k, asn := rgroup s Reg.lnkAsn0 4 % 2 ^ 40 }] ∧
      t.time.now = max s.time.now k ∧ Only (Reg.lnkStat :: Reg.lnkEvt :: ntxRegs) s t) ∧
    (stateOf s .lnk = 1 → s.lnk.startAt = none → Ends .linkStart s fun t => stateOf t .lnk = 2 ∧ t.time.now = t.lnk.since ∧
      s.time.now < t.lnk.since ∧ t.lnk.since ≤ s.time.now + 245 ∧
      t.lnk.anchors = [{ from_ := t.lnk.since, tick := s.lnk.atSel.getD t.lnk.since, asn := rgroup s Reg.lnkAsn0 4 % 2 ^ 40 }]) ∧
    (stateOf s .lnk ≠ 1 → exec .linkStart s = .next s) ∧
    (s.lnk.heldStop = none → exec .linkStop s = .next s) ∧
    (∀ k, s.lnk.heldStop = some k → stateOf s .lnk = 2 → Ends .linkStop s fun t => stateOf t .lnk = 3 ∧ enOf t .lnk = false ∧
      t.lnk.heldStop = none ∧ t.lnk.reanchor = none ∧ t.lnk.switch = none ∧ (∀ f ∈ t.frames, f.plan = none) ∧
      (∀ r ∈ t.lnk.reqs, r.granted = true) ∧ t.time.now = max s.time.now k ∧ SameMemory s t)

/-! ## Timers and the Rosemary domain (16) -/

/-- A free-running 16-bit counter (16 R402, R404, R407, R409, R410): a source event advances the prescaler or the count, which
wraps; the first tick of a start at `TMR_AT` is counted; a capture buffers the count, two deep; a read removes
the head.  An LF step pulse (16 R408; 02 R68; 17 R441) clocks the watchdog's divider and count, and neither moves the timebase nor
touches a memory; the pulses that LF cells see are used up.  Choices of the model within it: log entries 70, 92. -/
def Obligations.CounterCommands : Prop :=
  (∀ (s : State) (n : Fin 32),
    (tmrCounting s n = true → rfld s (Reg.tmrnCtl n) 3 1 ≤ 1 → lfRunning s = false →
      (s.tmr n).pre < (rget s (Reg.tmrnPre n)).toNat → Ends (.counterUpdate n) s fun t =>
        (t.tmr n).pre = (s.tmr n).pre + 1 ∧ Only [] s t) ∧
    (tmrCounting s n = true → rfld s (Reg.tmrnCtl n) 3 1 ≤ 1 → lfRunning s = false →
      (rget s (Reg.tmrnPre n)).toNat ≤ (s.tmr n).pre → tmrWidth s n = 1 → (s.tmr n).wrote = false → rfld s (Reg.tmrnCtl n) 5 4 = 0 →
      Ends (.counterUpdate n) s fun t => (t.tmr n).pre = 0 ∧ rget t (Reg.tmrnCnt n) = rget s (Reg.tmrnCnt n) + 1 ∧
        Only (Reg.tmrnCnt n :: Reg.tmrnEvt n :: ntxRegs) s t) ∧
    (tmrCounting s n = false → exec (.counterUpdate n) s = .next s) ∧
    (∀ k, (s.tmr n).startAt = some k → stateOf s (.tmr n) = 2 → lfRunning s = false → Ends (.counterStartAt n) s fun t =>
      (t.tmr n).startAt = none ∧ t.time.now = max s.time.now k ∧ OnlyBlocks [0x1004] s t) ∧
    (n.val ∈ s.stl.caps → (s.tmr n).member = false → stateOf s (.tmr n) = 2 → (s.tmr n).caps.length < 2 →
      Ends (.capture n) s fun t => (t.tmr n).caps = (s.tmr n).caps ++ [tmrQty s (Reg.tmrnCnt 0) n] ∧
        rbit t (Reg.tmrnEvt n) 4 = true ∧ Only (Reg.tmrnEvt n :: ntxRegs) s t) ∧
    (n.val ∈ s.stl.caps → (s.tmr n).member = false → stateOf s (.tmr n) = 2 → 2 ≤ (s.tmr n).caps.length →
      Ends (.capture n) s fun t => (t.tmr n).caps = (s.tmr n).caps ∧ rbit t (Reg.tmrnEvt n) 5 = true ∧
        Only (Reg.tmrnEvt n :: ntxRegs) s t) ∧
    (∀ (i : Initiator) (c : Nat) (l : List Nat), (s.tmr n).member = false → (s.tmr n).caps = c :: l → tmrWidth s n = 1 →
      Ends (.captureRead i n) s fun t => t.out.read = wordOf c 0 ∧ (t.tmr n).caps = l ∧ (t.tmr n).capLast = c ∧ Only [] s t)) ∧
  (∀ s : State, Ends .lfStep s fun t =>
      t.rtc.sec = false ∧ t.rtc.wake = false ∧ t.rtc.half = !s.rtc.half ∧ t.time = s.time ∧ SameMemory s t ∧
        (rbit s Reg.sysWdctl 0 = false → t.wdog = s.wdog) ∧
        (rbit s Reg.sysWdctl 0 = true → s.wdog.restart = true → t.wdog = {}) ∧
        (rbit s Reg.sysWdctl 0 = true → rbit s Reg.sysWdctl 1 = false → s.wdog.restart = false →
          t.wdog.div = (s.wdog.div + 1) % 32 ∨ 31 < s.wdog.div) ∧
        (rbit s Reg.sysWdctl 0 = true → rbit s Reg.sysWdctl 1 = false → s.wdog.restart = false → 31 ≤ s.wdog.div →
          t.wdog.div = 0 ∧ t.wdog.count = s.wdog.count + 1))

/-- The Rosemary calendar (16 R413 to R422): writes act only while the interface is unlocked, which the key at L0 does; a commit
is taken whole or refused whole; SUB advances and carries into a correct calendar; WAKE comes at its period; a measurement runs
from GO to its end.  Choices of the model within it: log entry 71. -/
def Obligations.RosemaryCommands : Prop :=
  ∀ (s : State) (i : Initiator) (v : Word),
    (levelOf s i = 0 → s.rtc.onVbak = false → exec (.rtcUnlock i 0x52D1) s = .next (rsetBit s Reg.rtcStat 15 false)) ∧
    (levelOf s i ≠ 0 ∨ s.rtc.onVbak = true ∨ v ≠ 0x52D1 → exec (.rtcUnlock i v) s = .next s) ∧
    (rtcLocked s = true → exec (.calendarCommit i v) s = .next s ∧ exec (.weekdayWrite i v) s = .next s ∧
      exec (.trimMeasureStart i v) s = .next s) ∧
    (rtcLocked s = false → (calOf (commitWords s i Reg.rtcCal 4 v)).ok = true → Ends (.calendarCommit i v) s fun t =>
      calNow t = calOf (commitWords s i Reg.rtcCal 4 v) ∧ rbit t Reg.rtcStat 3 = false ∧ t.rtc.div = 0 ∧
        Only [Reg.rtcCal, Reg.rtcCal + 1, Reg.rtcCal + 2, Reg.rtcCal + 3, Reg.rtcStat] s t) ∧
    (rtcLocked s = false → (calOf (commitWords s i Reg.rtcCal 4 v)).ok = false → Ends (.calendarCommit i v) s fun t =>
      rget t Reg.rtcStat = setBit (rget s Reg.rtcStat) 1 true ∧ Only [Reg.rtcStat] s t) ∧
    (rtcLocked s = false → Ends (.weekdayWrite i v) s fun t => rget t Reg.rtcWday = ((rget s Reg.rtcWday &&& 0xFFF8) ||| (v &&& 7)) ∧
      Only [Reg.rtcWday] s t) ∧
    (s.rtc.stopped = false → (calNow s).sub < 255 → Ends .subAdvance s fun t => calNow t = { calNow s with sub := (calNow s).sub + 1 } ∧
      Only [Reg.rtcCal, Reg.rtcCal + 1, Reg.rtcCal + 2, Reg.rtcCal + 3] s t) ∧
    (s.rtc.stopped = false → (calNow s).sub = 255 → (calNow s).ok = true → Ends .subAdvance s fun t =>
      calNow t = { (calNow s).tick with sub := 0 } ∧ (calNow t).ok = true ∧ rbit t Reg.rtcEvt 1 = true ∧ t.rtc.sec = true ∧
        SameMemory s t) ∧
    (s.rtc.stopped = true → exec .subAdvance s = .next s) ∧
    (1 ≤ rgroup s Reg.rtcWake 2 → rgroup s Reg.rtcWake 2 ≤ 16777216 → rgroup s Reg.rtcWake 2 ≤ s.rtc.wakeCnt →
      Ends .periodicWake s fun t => rbit t Reg.rtcEvt 0 = true ∧ t.rtc.wakeCnt = 0 ∧ t.out.wakeN = s.out.wakeN + 1 ∧
        Only (Reg.rtcEvt :: ntxRegs) s t) ∧
    (rtcLocked s = false → s.rtc.running = false → bit v 15 = true → Ends (.trimMeasureStart i v) s fun t =>
      t.rtc.running = true ∧ rfld t Reg.rtcMstat 15 14 = 1 ∧ Only [Reg.rtcMctl, Reg.rtcMstat] s t) ∧
    (∀ n : Int, s.rtc.running = true → rbit s Reg.rtcMctl 13 = true → rbit s Reg.rtcMctl 14 = true → Ends (.trimMeasureEnd (some n)) s fun t =>
      t.rtc.running = false ∧ rfld t Reg.rtcMstat 15 14 = 2 ∧ rget t Reg.rtcMerr = i16 (trimError (trimLen s) n.toNat) ∧
        rget t Reg.rtcTrim = rget t Reg.rtcMerr ∧ rbit t Reg.rtcEvt 3 = true ∧
        Only (Reg.rtcMstat :: Reg.rtcMerr :: Reg.rtcTrim :: Reg.rtcEvt :: ntxRegs) s t) ∧
    (s.rtc.running = true → Ends (.trimMeasureEnd none) s fun t => t.rtc.running = false ∧ rfld t Reg.rtcMstat 15 14 = 3 ∧
      rbit t Reg.rtcEvt 3 = true ∧ Only (Reg.rtcMstat :: Reg.rtcEvt :: ntxRegs) s t)

/-! ## The timebase (14 R367 to R371) -/

/-- Discipline of the timebase: rate and step commits act with SRC SOFT only, arm for their instants, and apply there; a step
waits for a quiet chip; PPS_IN edges are captured, drive the loop, and their loss ends it; PPS_OUT rises on its grid.  Choices of the model within it: log entries 3, 30. -/
def Obligations.Timebase : Prop :=
  ∀ (s : State) (i : Initiator) (v : Word),
    (rfld s Reg.tbsCtl 1 0 ≠ 1 → exec (.rateCommit i v) s = .next s ∧ exec (.stepCommit i v) s = .next s) ∧
    (rfld s Reg.tbsCtl 1 0 = 1 → shadow s ≤ rgroup s Reg.tbsRateat 4 → Ends (.rateCommit i v) s fun t =>
      t.time.rateAt = some (rgroup s Reg.tbsRateat 4) ∧ rbit t Reg.tbsStat 1 = true ∧ t.time.rate = s.time.rate ∧
        t.time.rateNew = sext 32 (ofWords (commitWords s i Reg.tbsRate 2 v)) ∧
        Only [Reg.tbsRate, Reg.tbsRate + 1, Reg.tbsStat] s t) ∧
    (rfld s Reg.tbsCtl 1 0 = 1 → rgroup s Reg.tbsRateat 4 < shadow s → Ends (.rateCommit i v) s fun t =>
      t.time.rate = trimOf (sext 32 (ofWords (commitWords s i Reg.tbsRate 2 v))) ∧ rbit t Reg.tbsEvt 1 = true ∧ t.time.rateAt = none) ∧
    (∀ k, s.time.rateAt = some k → Ends .rateApply s fun t => t.time.rate = trimOf s.time.rateNew ∧ t.time.rateAt = none ∧
      t.time.now = max s.time.now k ∧ rget t Reg.tbsStat = setBit (rget s Reg.tbsStat) 1 false ∧ Only [Reg.tbsStat] s t) ∧
    (rfld s Reg.tbsCtl 1 0 = 1 → Ends (.stepCommit i v) s fun t => t.time.stepAt = some (rgroup s Reg.tbsStepat 4) ∧
      t.time.stepBy = sext 64 (ofWords (commitWords s i Reg.tbsStep 4 v)) ∧ rbit t Reg.tbsStat 2 = true ∧ t.time.now = s.time.now) ∧
    (∀ k, s.time.stepAt = some k → stepFree s = true → Ends .stepApply s fun t => rbit t Reg.tbsStat 2 = false ∧
      t.time.now = max s.time.now k + s.time.stepBy.toNat ∧ t.time.stepAt = none ∧ rbit t Reg.tbsEvt 3 = true ∧
      Only (Reg.tbsStat :: Reg.tbsEvt :: ntxRegs) s t) ∧
    (∀ k, s.time.stepAt = some k → stepFree s = false → exec .stepApply s = .next s) ∧
    (∀ b : Fin 16, Ends (.ppsInEdge b) s fun t => rgroup t Reg.tbsPpscap 4 = s.time.now % 2 ^ 64 ∧
      rfld t Reg.tbsPpssub 3 0 = b.val ∧ rbit t Reg.tbsPpssub 15 = true ∧ rbit t Reg.tbsEvt 0 = true ∧
      (rbit s Reg.tbsPpssub 15 = true → rbit t Reg.tbsPpssub 14 = true) ∧ SameMemory s t) ∧
    (∀ k e, s.time.ppsErr = some (k, e) → Ends .ppsLoopUpdate s fun t => t.time.now = max s.time.now (k + 1024) ∧
      t.time.rate = trimOf (rsigned s Reg.tbsRate 2 - ppsStep s e) ∧ t.time.ppsErr = none ∧ SameMemory s t) ∧
    (∀ p, s.time.ppsPrev = some p → Ends .ppsLoss s fun t => t.time.now = max s.time.now (p / 16 + 135168000) ∧
      t.time.ppsPrev = none ∧ t.time.ppsGood = 0 ∧ rbit t Reg.tbsStat 0 = false ∧ rbit t Reg.tbsEvt 2 = true ∧
      Only (Reg.tbsStat :: Reg.tbsEvt :: ntxRegs) s t) ∧
    (ppsDriven s = true → Ends .ppsOutEdge s fun t => ∃ k, t.time.ppsOut = some k ∧ k ≤ t.time.now ∧ Only [] s t ∧
      (k - rgroup s Reg.tbsPpsoat 4) % ppsPeriod s = 0)

/-! ## Interrupts, Stolon, the fence (11 R286 to R292; 17) -/

/-- Claim and complete (17 R425, R429, R430, R433): a target outside the cores claims its lowest pending source, which becomes
active there and loses its pending edge; a second claim reads it again; a complete of a source not active there sets the error.  Choices of the model within it: log entries 90, 91. -/
def Obligations.ExternalInterrupts : Prop :=
  ∀ (s : State) (i : Initiator) (x : Fin 2),
    (∀ n l, (∀ e ∈ s.int.active, e.2 ≠ 33 + x.val) → pendingFor s (33 + x) = n :: l → Ends (.externalClaim i x) s fun t =>
      t.out.read = w16 n ∧ (n, 33 + x.val) ∈ t.int.active ∧ n ∉ t.int.edge ∧ Only ntxRegs s t) ∧
    ((∀ e ∈ s.int.active, e.2 ≠ 33 + x.val) → pendingFor s (33 + x) = [] →
      exec (.externalClaim i x) s = .next { s with out := { s.out with read := 0xFFFF } }) ∧
    (∀ n, s.int.active = [(n, 33 + x.val)] → exec (.externalClaim i x) s = .next { s with out := { s.out with read := w16 (0x8000 + n) } }) ∧
    (∀ n, n < 144 → s.int.active = [(n, 33 + x.val)] → Ends (.externalComplete i x (w16 n)) s fun t =>
      t.int.active = [] ∧ Only ntxRegs s t) ∧
    (∀ v, (∀ e ∈ s.int.active, e.2 ≠ 33 + x.val) → exec (.externalComplete i x v) s = .next (rsetBit s Reg.intErr 0 true)) ∧
    (∀ v : Word, chEnabled s (field v 6 0) = false → exec (.stolonFire i v) s = .next s) ∧
    (∀ v : Word, chEnabled s (field v 6 0) = true → Ends (.stolonFire i v) s fun t => Only ntxRegs s t ∧ t.stl.pulses = [])

/-- A commit of the fence (11 R286, R289 to R292): only L0 writes the register, and another level is refused by the fixed rule and
recorded; a set that meets R290 comes into force whole, and one that does not changes nothing but the status.  Choices of the model within it: log entry 12. -/
def Obligations.FenceCommits : Prop :=
  ∀ (s : State) (i : Initiator),
    (levelOf s i = 0 → firstBad (stagedSet s) = none → Ends (.fenceCommit i 0xFE4C) s fun t =>
      t.fence.force = some (stagedSet s) ∧ rfld t Reg.fenStat 1 0 = 1 ∧ rget t Reg.fenCmtseq = rget s Reg.fenCmtseq + 1 ∧
        rbit t Reg.fenEvt 2 = true ∧ Only (Reg.fenStat :: Reg.fenCmtseq :: Reg.fenEvt :: ntxRegs) s t) ∧
    (∀ k, levelOf s i = 0 → firstBad (stagedSet s) = some k → Ends (.fenceCommit i 0xFE4C) s fun t => t.fence = s.fence ∧
      rfld t Reg.fenStat 1 0 = 2 ∧ rfld t Reg.fenStat 13 8 = k ∧ rbit t Reg.fenEvt 1 = true ∧
        Only (Reg.fenStat :: Reg.fenEvt :: ntxRegs) s t) ∧
    (∀ v, levelOf s i = 0 → v ≠ 0xFE4C → exec (.fenceCommit i v) s = .next s) ∧
    (∀ v, levelOf s i ≠ 0 → rbit s Reg.fenEvt 0 = false → Ends (.fenceCommit i v) s fun t => t.fence = s.fence ∧
      rget t Reg.fenNref = rget s Reg.fenNref + 1 ∧ rgroup t Reg.fenFaddr 2 = Reg.fenCommit ∧
        rget t Reg.fenFinfo = w16 (initIndex i * 64 + levelOf s i * 16 + 1 * 4 + 2) ∧ rbit t Reg.fenEvt 0 = true)

/-! ## Gate, requests, claims (04 R109 to R113; 08 R205 to R217; 18 R461) -/

/-- A request at the regulatory gate (04 R109, R113): where the gate passes it, it enters the sheaf's transmit queue with no port's
power raised above what was asked or above the port's cap; while the gate is not armed, or the mode seals transmission, it is refused and
counted with a regulatory record; and the oldest change of the panel record that still waits changes the gains of all ports at once, at
the first slot boundary at least 1 ms later or 1 ms later without the link timing unit (R111).  Choices of the model within it: log entries 34, 87. -/
def Obligations.GateRequests : Prop :=
  ∀ s : State,
    (∀ (r : GateReq) (g : GateArgs), r.wf = true → r.wave ≠ .loop →
      g = { sheaf := r.sheaf, streams := r.streams.map fun x => (x.centre * hz, x.df * hz), wave := r.wave, t5 := r.t5,
            us := airUs (r.e5 - r.t5), tick := r.t5 / 5, power := r.power } →
      (∀ p, (gateJudge s g).1.power = some p → Ends (.gateRequest r) s fun t =>
        (∃ c, (t.sheaf r.sheaf).cmds = (s.sheaf r.sheaf).cmds ++ [c] ∧ c.t5 = r.t5 ∧ c.e5 = r.e5 ∧ c.streams = g.streams ∧ c.power = p) ∧
        (∀ k w, p[k]? = some (some w) → ∃ w0, r.power[k]? = some (some w0) ∧ w ≤ w0 ∧ w ≤ portCap s (8 * r.sheaf + k) r.t5 ∧
          portServes s (8 * r.sheaf + k) r.t5 = true) ∧ SameMemory s t) ∧
      (rbit s Reg.rglStat 0 = false → r.wave ≠ .cw → Ends (.gateRequest r) s fun t => t.sheaves = s.sheaves ∧
        rget t Reg.rglNrefuse = rget s Reg.rglNrefuse + 1 ∧ rbit t Reg.rglEvt 4 = true ∧
        (∃ v, t.win.inbox = s.win.inbox ++ [v] ∧ recKind v = 4) ∧ t.lnk = s.lnk ∧ Only (Reg.rglNrefuse :: Reg.rglEvt :: ntxRegs) s t)) ∧
    (s.reader.pend = [] → exec .panelGainApply s = .next s) ∧
    (∀ k rec later, s.reader.pend = (k, rec) :: later → Ends .panelGainApply s fun t => t.reader.shown = rec ∧
      t.reader.pend = later ∧ (∀ p, p < 64 → rget t (Reg.rglGain p) = i16 (gainOfPort t p)) ∧ rbit t Reg.rglStat 1 = !rec.isEmpty ∧
      t.time.now = max s.time.now (if lnkOn s then nextBoundary s (k + 122880) else k + 122880) ∧ OnlyBlocks [0x1000, 0x100B] s t)

/-- Transmit requests and their claims (08 R205 to R210, R217): the request at the head of a core's queue is held, or ends with the
status of its refusal; a request's claim is taken at its D, and is granted by plan and gate, put off by a busy plan, or ends with a
regulatory record; an acknowledgement that does not come leaves the request pending again while attempts are left, and ends it after
that.  Choices of the model within it: log entries 3, 52. -/
def Obligations.RequestsAndClaims : Prop :=
  ∀ s : State,
    (∀ (k : Fin 33) (ws : List Word) (l : List (List Word)), outbound s k 8 = ws :: l → s.lnk.reqs.length < 4096 →
      (reqRefusal s (reqFrom s (requester s k 8) ws).1 (reqFrom s (requester s k 8) ws).2 = none → Ends (.txRequest k) s fun t =>
        t.lnk.reqs = s.lnk.reqs ++ [(reqFrom s (requester s k 8) ws).1] ∧ t.lnk.nextId = s.lnk.nextId + 1 ∧ outbound t k 8 = l ∧ Only [] s t) ∧
      (∀ st, requester s k 8 = k.val → reqRefusal s (reqFrom s k ws).1 (reqFrom s k ws).2 = some st → coreOn s k = true → 0 < (s.core k).resv.nth 1 0 →
        (∀ q ∈ s.lnk.reqs, q.id ≠ s.lnk.nextId) → Ends (.txRequest k) s fun t => t.lnk.reqs = s.lnk.reqs ∧ outbound t k 8 = l ∧
          inbound t k 1 = inbound s k 1 ++ [([0, 0, 0, 0, 0, 0, 0, w16 st], false, 0)] ∧
          (st = 5 → rget t Reg.lnkNtxlate = rget s Reg.lnkNtxlate + 1 ∧ rbit t Reg.lnkEvt 2 = true) ∧
          Only (Reg.lnkNtxlate :: Reg.lnkEvt :: ntxRegs) s t)) ∧
    (lnkOn s = false ∨ nextClaim s = none → exec .claimDecision s = .next s) ∧
    (∀ (c : Claim) (r : Req) (u : State), lnkOn s = true → nextClaim s = some c → c.cls = 2 → reqOf s c.id = some r →
      u = prunePlan (reach s c.d) c.d →
      (planNo u (sageSelect u r.session c.d r.pwr).1 c.t5 ((2000 * c.t5 + reqTime u r + 1999) / 2000) c.cell.isSome = none →
        Ends .claimDecision s fun t => t.time.now = max s.time.now c.d ∧ SameMemory s t ∧
          ((∃ q ∈ t.lnk.reqs, q.id = r.id ∧ q.granted = true ∧ q.made = r.made + 1) ∧
              (∃ g ∈ t.lnk.plan, g.sheaf = (sageSelect u r.session c.d r.pwr).1 ∧ g.t5 = c.t5) ∨
            (∀ q ∈ t.lnk.reqs, q.id ≠ r.id) ∧ t.lnk.plan = u.lnk.plan ∧ ∃ v, t.win.inbox = s.win.inbox ++ [v] ∧ recKind v = 4)) ∧
      (planNo u (sageSelect u r.session c.d r.pwr).1 c.t5 ((2000 * c.t5 + reqTime u r + 1999) / 2000) c.cell.isSome = some .busy →
        Ends .claimDecision s fun t => t.time.now = max s.time.now c.d ∧ Only [] s t ∧ t.lnk.plan = u.lnk.plan ∧
          t.lnk.reqs = s.lnk.reqs.map fun q =>
            if q.id = r.id then { q with after := if c.cell.isSome then c.d + 1 else c.d + 122880 } else q)) ∧
    (s.lnk.expected = [] → exec .expectedAckTimeout s = .next s) ∧
    (∀ (x : Expect) (r : Req), s.lnk.expected = [x] → reqOf s x.req = some r → r.made < r.attempts → lnkOn s = true →
      Ends .expectedAckTimeout s fun t => t.lnk.expected = [] ∧ rget t Reg.lnkNmiss = rget s Reg.lnkNmiss + 1 ∧
        rbit t Reg.lnkEvt 5 = true ∧ t.time.now = max s.time.now ((x.hi + 9999) / 10000) ∧
        (t.lnk.reqs = s.lnk.reqs.map fun q =>
          if q.id = r.id then { q with granted := false, viaCell := false, after := (x.hi + 9999) / 10000 + 122880 } else q) ∧
        Only (Reg.lnkNmiss :: Reg.lnkEvt :: ntxRegs) s t) ∧
    (∀ (x : Expect) (r : Req), s.lnk.expected = [x] → reqOf s x.req = some r → r.attempts ≤ r.made →
      Ends .expectedAckTimeout s fun t => t.lnk.expected = [] ∧ (∀ q ∈ t.lnk.reqs, q.id ≠ r.id) ∧
        rget t Reg.lnkNmiss = rget s Reg.lnkNmiss + 1 ∧ SameMemory s t)

/-! ## Winnow and Sage (07 R178 to R192; 11 R276, R277; 13 R327 to R331) -/

/-- Records at Winnow (07 R178 to R181, R192): a frame record accepted before its release time is held in key order, one accepted
later is released at once and counted; the release point never moves back, no record it has reached stays held, and each released record takes
the next SEQ; a new horizon is armed for its tick and takes effect there, or at once, with its event, where the tick has passed.
Choices of the model within it: log entries 3, 45. -/
def Obligations.WinnowRecords : Prop :=
  ∀ s : State,
    (s.win.inbox = [] → exec .recordAccept s = .next s) ∧
    (∀ (r : Rec) (l : List Rec), s.win.inbox = r :: l → winState s = 2 → recKind r = 1 → shadow s < recEndt r + horizon s →
      Ends .recordAccept s fun t => t.win.inbox = l ∧
        t.win.held = insertRec { r with order := s.win.order } s.win.held ∧ t.win.order = s.win.order + 1 ∧ t.win.seq = s.win.seq) ∧
    (∀ (r : Rec) (l : List Rec), s.win.inbox = r :: l → winState s = 2 → recKind r = 1 → recEndt r + horizon s ≤ shadow s →
      Ends .recordAccept s fun t => t.win.inbox = l ∧ t.win.held = s.win.held ∧ s.win.seq < t.win.seq ∧
        rget t Reg.winNlate = rget s Reg.winNlate + 1 ∧ rbit t Reg.winEvt 3 = true) ∧
    (Ends .winnowRelease s fun t => s.win.rp ≤ t.win.rp ∧ (∀ r ∈ t.win.held, r ∈ s.win.held ∧ t.win.rp < recEndt r) ∧
      t.win.seq = s.win.seq + (s.win.held.length - t.win.held.length) ∧ t.win.inbox = s.win.inbox) ∧
    (∀ (i : Initiator) (v : Word), shadow s ≤ rgroup s Reg.winHorat 4 → Ends (.horizonArm i v) s fun t =>
      t.win.horAt = some (rgroup s Reg.winHorat 4, clampNat 2 40 (field v 5 0)) ∧ rbit t Reg.winHor 15 = true ∧
        horizon t = horizon s ∧ rfld t Reg.winHor 5 0 = field v 5 0) ∧
    (∀ (i : Initiator) (v : Word), rgroup s Reg.winHorat 4 < shadow s → Ends (.horizonArm i v) s fun t => t.win.horAt = none ∧
      rbit t Reg.winHor 15 = false ∧ rfld t Reg.winHor 13 8 = clampNat 2 40 (field v 5 0) ∧ rbit t Reg.winEvt 5 = true ∧
        s.win.rp ≤ t.win.rp ∧ ∀ r ∈ t.win.held, t.win.rp < recEndt r) ∧
    (s.win.horAt = none → exec .horizonApply s = .next s) ∧
    (∀ k n, s.win.horAt = some (k, n) → n < 64 → Ends .horizonApply s fun t => t.win.horAt = none ∧ rbit t Reg.winHor 15 = false ∧
      rfld t Reg.winHor 13 8 = n ∧ t.time.now = max s.time.now (k + 3) ∧ s.win.rp ≤ t.win.rp ∧ k - 1 - horizon s ≤ t.win.rp ∧
        ∀ r ∈ t.win.held, t.win.rp < recEndt r)

/-- Granules and placement (07 R184; 11 R276, R277; 13 R327 to R331): a core's reservation is granted with granules of its
partition, all at once, or refused with status 1, and with status 2 for a length out of range; a return of granules the core held
frees them, and a return of one it did not hold is an event; an epoch begins at the boundary that follows the one taken last, shows the loads
and counts from 0; a move completes once its old core has consumed RELEASE.  Choices of the model within it: log entries 44, 45, 46, 68. -/
def Obligations.SagePlacement : Prop :=
  ∀ (s : State) (k : Fin 33),
    (outbound s k 12 = [] → exec (.granuleReservation k) s = .next s) ∧
    (∀ (ws : List Word) (l : List (List Word)), outbound s k 12 = ws :: l → coreOn s k = true → 0 < (s.core k).resv.nth 5 0 →
      (field (ws.getD 0 0) 10 0 = 0 ∨ 2045 < field (ws.getD 0 0) 10 0 → Ends (.granuleReservation k) s fun t =>
        inbound t k 5 = inbound s k 5 ++ [([0xFFFF, 2], false, 0)] ∧ outbound t k 12 = l ∧ t.holds = s.holds ∧ Only [] s t) ∧
      (∀ u h, 1 ≤ field (ws.getD 0 0) 10 0 → field (ws.getD 0 0) 10 0 ≤ 2045 →
        reserve s (txPart s k) ((field (ws.getD 0 0) 10 0 + 4 + 127) / 128) k = some (u, h) → Ends (.granuleReservation k) s fun t =>
          inbound t k 5 = inbound s k 5 ++ [([w16 h.gmeta, 0], false, 0)] ∧ t.holds = h :: s.holds ∧ h.owner = k.val ∧
            h.data.length ≤ (field (ws.getD 0 0) 10 0 + 131) / 128) ∧
      (1 ≤ field (ws.getD 0 0) 10 0 → field (ws.getD 0 0) 10 0 ≤ 2045 →
        reserve s (txPart s k) ((field (ws.getD 0 0) 10 0 + 4 + 127) / 128) k = none → Ends (.granuleReservation k) s fun t =>
          inbound t k 5 = inbound s k 5 ++ [([0xFFFF, 1], false, 0)] ∧ t.holds = s.holds ∧
            (∃ v, t.win.inbox = s.win.inbox ++ [v] ∧ recKind v = 2) ∧ Only [] s t)) ∧
    (∀ (ws : List Word) (l : List (List Word)) (h : Holding), outbound s k 13 = ws :: l → ws.getD 1 0 = 1 →
      holdOf s (ws.getD 0 0).toNat 38 = some h → SageIdle s → Ends (.recordReturn k) s fun t => outbound t k 13 = l ∧
        t.holds = s.holds.filter (fun x => x.gmeta ≠ h.gmeta) ∧ Only [] s t) ∧
    (∀ (n : Fin 32) (ws : List Word) (l : List (List Word)), outbound s n 13 = ws :: l → ws.getD 1 0 ≠ 1 →
      Ends (.recordReturn (Fin.castLE (by decide) n)) s fun t => outbound t n 13 = l ∧ t.holds = s.holds ∧ rbit t (Reg.tilEvt n) 2 = true ∧
        Only (Reg.tilEvt n :: ntxRegs) s t) ∧
    (SageIdle s → inCluster s = false → Ends .epochBoundary s fun t => (∀ c, c < 33 → t.sage.load.nth c 0 = 0) ∧
        t.sage.last = nextEpoch s s.sage.last ∧ t.time.now = max s.time.now (nextEpoch s s.sage.last) ∧
        (∀ c, c < 32 → rget t (Reg.sagLoad c) = w16 (min 0xFFFF (loadOf s c))) ∧ OnlyBlocks [0x1018] s t) ∧
    (∀ (n : Fin 16384) (m : Move), 0 < n.val → (s.sage.moves.find? fun x => x.session = n.val) = some m → m.stage = 4 → eligible s m.dest = true →
      Ends (.moveComplete n) s fun t => (∀ x ∈ t.sage.moves, x.session ≠ n.val) ∧
        (∃ p ∈ t.sage.places, p.session = n.val ∧ p.core = m.dest) ∧ rget t Reg.sagNmig = rget s Reg.sagNmig + 1 ∧ SameMemory s t) ∧
    (∀ (n : Fin 16384) (m : Move), (s.sage.moves.find? fun x => x.session = n.val) = some m → m.stage ≠ 4 → coreOn s m.from_ = true →
      exec (.moveComplete n) s = .next s)

/-! ## Sessions (09 R223 to R241) -/

/-- The session commands at their AT (09 R227 to R233, R239, R254, R261): one that no check of R230 refuses changes its session's
record as listed, an ADMIT and a REMOVE no other record's first sixteen words and the others no further word at all; a rehash that an ADMIT
schedules has built a stash of at most 32 entries or none, and its end (R228) puts the generation built in force with its seed and stash, or,
where no seed served, leaves the present one in force with its event; and it changes no memory.  Choices of the model within it: log
entries 48, 50. -/
def Obligations.SessionCommands : Prop :=
  (∀ (s : State) (c : SesCmd) (r : List SesCmd), NextCommand s c r → s.ses.gen ≤ 1 → inCluster s = false →
    (c.op = 1 → Ends .admitSession s fun t => sesValid t c.session = true ∧ sesKeyOf t c.session = c.key ∧
      bit (sesWord t c.session 0) 12 = false ∧ sesWord t c.session 7 = (c.w 13 &&& 0xFF03) ∧
      (s.ses.rehash = false → ∀ b, t.ses.build = some b → s.ses.build = none → b.2.length ≤ 32) ∧
      (∀ n w, n < 16384 → n ≠ c.session → w < 16 → sesWord t n w = sesWord s n w)) ∧
    (c.op = 2 → Ends .remove s fun t => (∀ w, w < 16 ∨ 24 ≤ w ∧ w < 32 → sesWord t c.session w = 0) ∧
      (∀ n w, n < 16384 → n ≠ c.session → w < 16 → sesWord t n w = sesWord s n w)) ∧
    (c.op = 3 → Ends .setpol s fun t => sesWord t c.session 0 = ((sesWord s c.session 0 &&& ~~~0x08FF) ||| (c.w 6 &&& 0x08FF)) ∧
      sesWord t c.session 7 = (c.w 13 &&& 0xFF03) ∧ ∀ a, a ≠ sesAddr c.session 0 → a ≠ sesAddr c.session 7 → mget t a = mget s a) ∧
    (c.op = 4 → Ends .setfresh s fun t =>
      sesFresh t c.session = (if bit (sesWord s c.session 0) 14 then c.fresh else c.fresh % 2 ^ 32) ∧
      bit (sesWord t c.session 13) 15 = bit (c.w 14) 15 ∧
      (bit (c.w 14) 14 = true → sesWord t c.session 8 = c.w 27 ∧ sesWord t c.session 9 = c.w 28 ∧
        bit (sesWord t c.session 13) 14 = false) ∧
      ∀ a, a < sesAddr c.session 8 ∨ sesAddr c.session 13 < a → mget t a = mget s a) ∧
    (c.op = 5 → sesNum s c.session 8 2 + (c.w 18).toNat - 1 < 0xFFFFFFFF → Ends .fcres s fun t =>
      sesNum t c.session 8 2 = sesNum s c.session 8 2 + (c.w 18).toNat ∧
      (c.from_ ≤ 32 → coreOn s c.from_ = true → 0 < (s.core c.from_).resv.nth 2 0 → inbound t c.from_ 2 = inbound s c.from_ 2 ++
        [([0x50, w16 c.session] ++ wordsOf 2 (sesNum s c.session 8 2), false, 0)]) ∧
      ∀ a, a ≠ sesAddr c.session 8 → a ≠ sesAddr c.session 9 → a ≠ sesAddr c.session 13 → mget t a = mget s a) ∧
    (∀ key, c.op = 6 → derivedKey s c = some key → Ends .keyderive s fun t => HasKey t c.session key ∧ KeyColumnOnly s t c.session) ∧
    (∀ key, c.op = 7 → installKey s (c.w 18) = some key → Ends .keyinstall s fun t =>
      HasKey t c.session key ∧ KeyColumnOnly s t c.session) ∧
    (c.op = 8 → Ends .keyclear s fun t => (∀ j, j < 8 → sesWord t c.session (24 + j) = 0) ∧ bit (sesWord t c.session 0) 12 = false ∧
      KeyColumnOnly s t c.session) ∧
    (c.op = 9 → Ends .clrcnt s fun t => sesWord t c.session 14 = 0 ∧ sesWord t c.session 15 = 0 ∧
      ∀ a, a ≠ sesAddr c.session 14 → a ≠ sesAddr c.session 15 → mget t a = mget s a)) ∧
  ∀ s : State,
    (s.ses.rehash = false → exec .rehashComplete s = .next s) ∧
    (∀ seed l, s.ses.rehash = true → s.ses.build = some (seed, l) → Ends .rehashComplete s fun t => t.ses.rehash = false ∧
      t.ses.gen = 1 - s.ses.gen ∧ t.ses.seedNo = seed ∧ t.ses.stash = l ∧ t.ses.build = none ∧
      rget t Reg.sesRhseq = rget s Reg.sesRhseq + 1 ∧ rbit t Reg.sesEvt 4 = true ∧ SameMemory s t) ∧
    (s.ses.rehash = true → s.ses.build = none → Ends .rehashComplete s fun t => t.ses.rehash = false ∧ t.ses.gen = s.ses.gen ∧
      t.ses.seedNo = s.ses.seedNo ∧ t.ses.stash = s.ses.stash ∧ rget t Reg.sesRhseq = rget s Reg.sesRhseq ∧ rbit t Reg.sesEvt 5 = true ∧
      SameMemory s t)

/-- Lookup and judgement of a frame (08 R204; 09 R225, R231, R234 to R237; 13 R354), each where it is the one frame and no command
waits: the filter drops it and counts it; a session found is snapshotted; a frame without security that its session lets in is recorded;
one whose counter is older than FRESH is withheld and counted, its granules returned, and one newer moves FRESH; a frame held for a handover is judged at Th.  Choices of the model within it: log entries 3, 48. -/
def Obligations.FrameJudgements : Prop :=
  ∀ (s : State) (f : Frame) (h : MacHdr), s.frames = [f] → s.ses.held = [] → s.sage.dirPend = [] → s.lnk.expected = [] → s.flt.bad = [] →
    s.flt.badRows = [] → frameHdr f = some h → f.bad = false → f.late = false → f.missing = [] → f.plan = none → f.answers = none →
    (f.looked = false → h.ftype ≠ 2 → filterPass s h = false → s.lnk.promisc = false → Ends .sessionLookup s fun t => t.frames = [] ∧
      t.holds = s.holds.filter (fun x => x.gmeta ≠ f.hold.gmeta) ∧ rget t Reg.lnkNfilt = rget s Reg.lnkNfilt + 1 ∧
      rbit t Reg.lnkEvt 6 = true ∧ t.time.now = max s.time.now (lookTick s f) ∧ Only (Reg.lnkNfilt :: Reg.lnkEvt :: ntxRegs) s t) ∧
    (∀ n, f.looked = false → h.ftype ≠ 2 → filterPass s h = true → f.good = true → inCluster s = false →
      (frameLook s h).bind (sesFind s) = some n → Ends .sessionLookup s fun t =>
        (∃ g, t.frames = [g] ∧ g.session = n ∧ g.looked = true ∧ g.snap = mgets s (sesAddr n 0) 8 ∧ g.psdu = f.psdu) ∧
        rget t Reg.sesNlook = rget s Reg.sesNlook + 1 ∧ t.time.now = max s.time.now (lookTick s f) ∧ Only [Reg.sesNlook] s t) ∧
    (f.looked = true → f.judged = false → heldFrame s f = false → f.good = true → f.pass = true → h.ar = false → inCluster s = false →
      f.session ≠ 0 → sesValid s f.session = true →
      (h.sec = false → bit (f.snap.getD 0 0) 0 = true → Ends .frameJudgement s fun t => t.frames = [] ∧
        rget t Reg.sesNaccept = rget s Reg.sesNaccept + 1 ∧ (∃ r, t.win.inbox = s.win.inbox ++ [r] ∧ recKind r = 1 ∧ recEndt r = f.endt % 2 ^ 64) ∧
        t.time.now = max s.time.now (judgeTick s f) ∧ Only [Reg.sesNaccept] s t) ∧
      (∀ v, h.sec = true → h.ver ≠ 0 → bit (f.snap.getD 0 0) h.level = true → bit (f.snap.getD 0 0) 14 = false → h.fc = some v → v < 0xFFFFFFFF →
        f.key ≠ [] → ackDead s = false → h.kidm = field (f.snap.getD 7 0) 1 0 → (h.kidm ≠ 0 → h.kidx = field (f.snap.getD 7 0) 15 8) →
        (openFrame f h v).1 = true → bit (sesWord s f.session 13) 15 = true →
        (v < sesFresh s f.session → Ends .frameJudgement s fun t => t.frames = [] ∧ t.win.inbox = s.win.inbox ∧
          t.holds = s.holds.filter (fun x => x.gmeta ≠ f.hold.gmeta) ∧ rget t Reg.sesNreplay = rget s Reg.sesNreplay + 1 ∧
          rbit t Reg.sesEvt 2 = true ∧ sesFresh t f.session = sesFresh s f.session) ∧
        (sesFresh s f.session < v → Ends .frameJudgement s fun t => t.frames = [] ∧ (∃ r, t.win.inbox = s.win.inbox ++ [r] ∧ recKind r = 1) ∧
          sesFresh t f.session = v ∧ rget t Reg.sesNaccept = rget s Reg.sesNaccept + 1))) ∧
    (∀ (n : Fin 16384) (x : Handover), s.sage.hands = [x] → x.out = false → x.arrived = true → x.done = false → x.session = n.val →
      f.looked = true → f.judged = false → f.session = n.val → n.val ≠ 0 → judgeTick s f < x.th → f.good = true → f.pass = true → h.sec = false →
      sesValid s n = true → bit (sesWord s n 0) 0 = true → Ends (.heldFrameJudgement n) s fun t => t.frames = [] ∧
        (∃ r, t.win.inbox = s.win.inbox ++ [r] ∧ recKind r = 1) ∧ t.sage.hands = [{ x with done := true }] ∧
        t.time.now = max s.time.now x.th)

/-! ## Cipher engines and keys (09 R243 to R247; 10 R249 to R265; 15 R393, R394) -/

/-- Self-checks and the modes engine (09 R243, R246, R247; 15 R393, R394): a mismatch quarantines a pair in service and counts;
its known-answer test returns it to service or retires it with a record; a failed self-check of the modes engine quarantines it, and the
descriptor it carries ends with POISON; a descriptor at the head that its command serves completes with its status, and one that is
refused says why, or, once the engine is retired, ends with POISON; while the engine is tested, descriptors wait.  Choices of the model
within it: log entries 57, 58, 59. -/
def Obligations.CipherEngines : Prop :=
  ∀ s : State,
    (∀ k : Fin 5, (pairOf s k).svc = 0 → Ends (.aesMismatch k) s fun t => (pairOf t k).svc = 1 ∧
      (pairOf t k).fails = shadow s :: (pairOf s k).fails ∧ rget t (Reg.aesNmis k) = rget s (Reg.aesNmis k) + 1 ∧
      rbit t Reg.aesEvt k = true ∧ SameMemory s t) ∧
    (∀ k : Fin 5, (pairOf s k).svc ≠ 0 → exec (.aesMismatch k) s = .next s) ∧
    (∀ (e : Fin 6) (pass : Bool), (pairOf s e).svc ≠ 1 → exec (.knownAnswerTest e pass) s = .next s) ∧
    (∀ e : Fin 6, (pairOf s e).svc = 1 → Ends (.knownAnswerTest e false) s fun t => (pairOf t e).svc = 2 ∧ t.flt.seq = s.flt.seq + 1 ∧
      rget t Reg.fltNkat = rget s Reg.fltNkat + 1 ∧ rbit t Reg.fltEvt 1 = true ∧ SameMemory s t) ∧
    (∀ e : Fin 6, (pairOf s e).svc = 1 → e.val = 5 ∨ (pairOf s e).fails.length < max 1 (rfld s Reg.fltAesmax 3 0) →
      Ends (.knownAnswerTest e true) s fun t => (pairOf t e).svc = 0 ∧ t.flt.seq = s.flt.seq + 1 ∧
        rget t Reg.fltNkat = rget s Reg.fltNkat + 1 ∧ SameMemory s t) ∧
    ((pairOf s 5).svc = 0 → Ends .modesSelfCheckFail s fun t => (pairOf t 5).svc = 1 ∧
      ((pairOf s 4).svc ≠ 0 ∨ s.key.modes = [] → rbit t Reg.aesEvt 10 = true ∧ t.key = s.key ∧ SameMemory s t)) ∧
    (∀ (d : ModesDesc) (r : List ModesDesc), (pairOf s 5).svc = 0 → (pairOf s 4).svc = 0 → s.key.modes = d :: r →
      (d.bad = true → exec .modesSelfCheckFail s = .next (pairService (modesEnd (modesNext (evt s Reg.aesEvt 10)) d 5) 5 1)) ∧
      (∀ key ws v n w, d.bad = false → ModesDesc.key (modesNext (evt s Reg.aesEvt 10)) d = some key →
        engineReads 36 d.core d.level d.src ((d.inLen + 1) / 2) (loadKey (modesNext (evt s Reg.aesEvt 10)) 5 key) = (ws, true, false, v) →
        engineWrites 36 d.core d.level d.dst (packOctets (ModesDesc.run key d ((unpackOctets ws).take d.inLen)).2) v = (n, true, w) →
        exec .modesSelfCheckFail s =
          .next (pairService (modesEnd (poisonRange (healRange w d.dst n) d.dst n) d 5) 5 1))) ∧
    ((pairOf s 5).svc ≠ 0 → exec .modesSelfCheckFail s = .next s) ∧
    (∀ (c : Instr) (op : Nat), (c, op) ∈ [(Instr.cbcEnc, 1), (.cbcDec, 2), (.ctr, 3), (.cfbEnc, 4), (.cfbDec, 5), (.ccmEnc, 6), (.ccmDec, 7)] →
      ((pairOf s 5).svc = 1 ∨ s.key.modes = [] → exec c s = .next s) ∧
      (∀ (d : ModesDesc) (r : List ModesDesc), s.key.modes = d :: r → (pairOf s 5).svc = 2 → d.op = op → d.unlisted = false → d.bad = true →
        exec c s = .next (modesEnd (modesNext s) d 5)) ∧
      (∀ (d : ModesDesc) (r : List ModesDesc), s.key.modes = d :: r → (pairOf s 5).svc = 0 → d.unlisted = false →
        (d.op ≠ op → exec c s = .next s) ∧
        (d.op = op → d.bad = true → exec c s = .next (modesEnd (modesNext s) d 4)) ∧
        (d.op = op → d.bad = false → ModesDesc.key (modesNext s) d = none → exec c s = .next (modesEnd (modesNext s) d 2)) ∧
        (∀ key ws v n w, d.op = op → d.bad = false → ModesDesc.key (modesNext s) d = some key →
          engineReads 36 d.core d.level d.src ((d.inLen + 1) / 2) (loadKey (modesNext s) 5 key) = (ws, true, false, v) →
          ModesDesc.keyBad v d = false →
          engineWrites 36 d.core d.level d.dst (packOctets (ModesDesc.run key d ((unpackOctets ws).take d.inLen)).2) v = (n, true, w) →
          exec c s = .next (modesEnd (healRange w d.dst n) d (ModesDesc.run key d ((unpackOctets ws).take d.inLen)).1))))

/-- The key tree (10 R249, R252 to R254): only L0 derives and frees; a child of a live node with a USE within its parent's fills the
lowest free slot with the derived key, every refusal leaves the tree as it is with its status, and a freed handle is free.  Choices of the model within it: log entry 57. -/
def Obligations.KeyTree : Prop :=
  ∀ (s : State) (i : Initiator),
    (∀ v, levelOf s i ≠ 0 ∨ v ≠ 0x4B44 → exec (.derivation i v) s = .next s) ∧
    (levelOf s i = 0 → handleSlot s (rget s Reg.keyDparent) = none → Ends (.derivation i 0x4B44) s fun t => rget t Reg.keyDres = 2 ∧
      t.key = s.key ∧ rbit t Reg.keyEvt 0 = true ∧ Only (Reg.keyDres :: Reg.keyEvt :: ntxRegs) s t) ∧
    (∀ p k, levelOf s i = 0 → handleSlot s (rget s Reg.keyDparent) = some p → bit (rget s (Reg.keyHinfo p)) 14 = false →
      field (rget s (Reg.keyHinfo p)) 13 11 < 4 → rbit s (Reg.keyDlabel 7) 15 = false →
      rfld s Reg.keyDuse 5 0 &&& field (rget s (Reg.keyHinfo p)) 9 4 = rfld s Reg.keyDuse 5 0 → freeSlot s = some k →
      Ends (.derivation i 0x4B44) s fun t => rget t Reg.keyDres = 0 ∧ rbit t Reg.keyEvt 0 = true ∧
        slotKey t k = kdf (slotKey s p) (labelOctets s) (field (rget s (Reg.keyHinfo p)) 13 11 + 1) ∧
        rget t (Reg.keyHinfo k) =
          w16 (0x8000 + (field (rget s (Reg.keyHinfo p)) 13 11 + 1) * 2048 + 1024 + rfld s Reg.keyDuse 5 0 * 16) ∧
        (∀ j, j ≠ k → slotKey t j = slotKey s j) ∧ OnlyBlocks [0x1006] s t) ∧
    (∀ p, levelOf s i = 0 → handleSlot s (rget s Reg.keyDparent) = some p → bit (rget s (Reg.keyHinfo p)) 14 = true →
      Ends (.derivation i 0x4B44) s fun t => rget t Reg.keyDres = 3 ∧ t.key = s.key) ∧
    (∀ v, levelOf s i ≠ 0 ∨ handleSlot s v = none ∨ handleSlot s v = some 0 → exec (.handleFree i v) s = .next s) ∧
    (∀ v k, levelOf s i = 0 → handleSlot s v = some (k + 1) → Ends (.handleFree i v) s fun t => rget t (Reg.keyHinfo (k + 1)) = 0 ∧
      handleSlot t v = none ∧ (∀ h ∈ t.key.handles, h.slot ≠ k + 1) ∧ Only [Reg.keyHinfo (k + 1)] s t)

/-- Update messages and statements (10 R256 to R265): a message from L1 or L3 is refused with LEVEL, one from L0 or L2 is read through the
fence and judged, and one that passes takes effect at its completion with MSG programmed to its CTR, a SESSKEY whose slot has been
filled meanwhile ending without one; a statement is captured at its request and written, signed, at its completion.  Choices of the model
within it: log entries 57, 60. -/
def Obligations.MessagesAndStatements : Prop :=
  ∀ (s : State) (i : Initiator),
    (∀ c, c = .sesskey i 0x4D53 ∨ c = .ownerkey i 0x4D53 ∨ c = .ownerlock i 0x4D53 ∨ c = .profile i 0x4D53 →
      (levelOf s i = 1 ∨ levelOf s i = 3 → s.key.msg = none → Ends c s fun t => rfld t (Reg.keyMsgres 0) 3 0 = 1 ∧
        rbit t Reg.keyEvt 1 = true ∧ t.key.msg = none ∧ t.fuses = s.fuses) ∧
      (levelOf s i = 0 ∨ levelOf s i = 2 → s.key.msg.isSome = true → exec c s = .next s) ∧
      (∀ j ws w, levelOf s i = 0 ∨ levelOf s i = 2 → s.key.msg = none → modeOf s ≠ 0 → modeOf s ≠ 5 → s.power.marginLow = false →
        j = { addr := rlong s Reg.keyMsgaddr, len := (rget s Reg.keyMsglen).toNat, init := initIndex i, level := levelOf s i } →
        engineReads 37 j.init j.level j.addr ((j.len + 1) / 2) { s with key := { s.key with msg := some j } } = (ws, true, false, w) →
        (msgJudge w ((unpackOctets ws).take j.len) j.len = 0 → exec c s =
          .next { w with key := { w.key with msg := some { j with passed := some ((unpackOctets ws).take j.len) } } }) ∧
        (∀ st, msgJudge w ((unpackOctets ws).take j.len) j.len = st → st ≠ 0 → exec c s =
          .next (msgOver w st (((unpackOctets ws).take j.len).getD 5 0).toNat 0)))) ∧
    (s.key.msg = none → exec .messageComplete s = .next s) ∧
    (∀ j m, s.key.msg = some j → j.passed = some m → m.getD 5 0 = 1 → freeSlot s = none → Ends .messageComplete s fun t =>
      t.key.msg = none ∧ t.fuses.msg = ofOctetsLE (slice m 16 4) ∧ rget t (Reg.keyMsgres 0) = 0x10A ∧
        t.key.handles = s.key.handles ∧ SameMemory s t) ∧
    (∀ j m, s.key.msg = some j → j.passed = some m → 1 ≤ (m.getD 5 0).toNat → (m.getD 5 0).toNat ≤ 4 →
      (m.getD 5 0 = 1 → freeSlot s ≠ none) → (m.getD 5 0 = 4 → emptySlot s ≠ none) → Ends .messageComplete s fun t => t.key.msg = none ∧
      t.fuses.msg = ofOctetsLE (slice m 16 4) ∧ rget t Reg.keyCtrmsg = w16 t.fuses.msg ∧ rbit t Reg.keyEvt 1 = true ∧
      rget t (Reg.keyMsgres 0) = w16 ((m.getD 5 0).toNat % 16 * 256) ∧
      (m.getD 5 0 = 2 → t.fuses.owner = slice m 24 64) ∧
      (m.getD 5 0 = 3 → (ownerLocked t = true ↔ (m.getD 24 0).toNat = 1)) ∧
      (m.getD 5 0 = 1 → ∀ k, freeSlot s = some k → slotKey t k = sesskeyOf s m ∧ rbit t (Reg.keyHinfo k) 14 = true) ∧
      (m.getD 5 0 = 4 → ∀ k, emptySlot s = some k → t.fuses.profiles = s.fuses.profiles.set k (packOctets (slice m 24 404))) ∧
      SameMemory s t) ∧
    (∀ v, v ≠ 0x4154 → exec (.attestationRequest i v) s = .next s) ∧
    (s.key.att.isSome = true → exec (.attestationRequest i 0x4154) s = .next s) ∧
    (levelOf s i = 3 → s.key.att = none → Ends (.attestationRequest i 0x4154) s fun t => rget t Reg.keyAttres = 1 ∧ t.key = s.key) ∧
    (levelOf s i ≤ 2 → s.key.att = none → modeOf s ≠ 0 → exec (.attestationRequest i 0x4154) s =
      .next { s with key := { s.key with att := some ⟨statement s, rlong s Reg.keyAttaddr, initIndex i, levelOf s i⟩ } }) ∧
    (∀ j ok w, s.key.att = some j →
      engineStore 37 j.init j.level j.addr (packOctets (j.octets ++ ecdsaSign (deviceKey s 0x8001) (sha256 j.octets)))
        { s with key := { s.key with att := none } } = (ok, w) →
      exec .attestationComplete s = .next (attEnd w (if ok then 0 else 2)))

/-! ## Cores (11 R273, R283; 12 R297 to R326; 17 R427 to R432) -/

/-- Bundles (12 R293, R297 to R301, R304, R309, R323, R324): a bundle that nothing bars or holds commits; an arithmetic syllable
writes its one result, a syllable whose guard fails nothing, a store and a load in local memory move one word, a branch goes to
its target, and an illegal bundle and `TRAP` take a trap; a held bundle goes on once what holds it has ended, that of a Tiller which drains
ending with it; and the release of debug halt lets every halted core go on.  Choices of the model within it: log entries 47, 75, 76, 77, 78, 83. -/
def Obligations.Bundles : Prop :=
  ∀ s : State,
    (∀ (k : Fin 33) (ws : List Word), Fetches s k ws → Unhindered s k ws →
      exec (.bundle k []) s = .next (commit s k (insAt s k ws) ws.length)) ∧
    (∀ k : Fin 33, coreOn s k = false ∨ (s.core k).hold ≠ .none → exec (.bundle k []) s = .next s) ∧
    (∀ (k : Fin 33) (y : Syl) (m : Mnem), OneSyllable s k y m → (m ∈ mnemArith ∨ m ∈ [Mnem.mull, .mulhs, .mulhu, .mulq]) →
      Ends (.bundle k []) s fun t => (t.core k).pc = (s.core k).pc + 2 ∧
        (∀ r, r < 32 → (t.core k).wOf r = if r = oD y.o ∧ r ≠ 0 then alu2 m ((s.core k).wOf (oS y.o)) ((s.core k).wOf (oT y.o))
          else (s.core k).wOf r) ∧
        (t.core k).p = (s.core k).p ∧ (t.core k).x = (s.core k).x ∧ (t.core k).a = (s.core k).a ∧ (t.core k).sr = (s.core k).sr ∧
        (t.core k).qin = (s.core k).qin ∧ (t.core k).qout = (s.core k).qout ∧
        (∀ j, j < 33 → j ≠ k.val → t.core j = s.core j) ∧ Only [Reg.tilCstat] s t) ∧
    (∀ (k : Fin 33) (y : Syl), Fetches s k [y.w0, y.w1] → y.stop = true → y.isExt = false → illegal s k y = false →
      (s.core k).runs y = false → Ends (.bundle k []) s fun t => (t.core k).pc = (s.core k).pc + 2 ∧ (t.core k).w = (s.core k).w ∧
        (t.core k).p = (s.core k).p ∧ (t.core k).x = (s.core k).x ∧ (t.core k).a = (s.core k).a ∧ (t.core k).sr = (s.core k).sr ∧
        Only [Reg.tilCstat] s t) ∧
    (∀ (n : Fin 32) (y : Syl) (a : Nat), OneSyllable s n y .st → oAm y.o = 0 →
      a = ((s.core n).xOf (oXm y.o) + BitVec.ofInt 32 (sext 9 (oImm9 y.o))).toNat → a < 65536 →
      Ends (.bundle (Fin.castLE (by decide) n) []) s fun t => lget t n a = (s.core n).wOf (oDi y.o) ∧
        (∀ m b, 65536 * m + b % 65536 ≠ 65536 * n.val + a → lget t m b = lget s m b) ∧ (t.core n).pc = (s.core n).pc + 2 ∧
        (t.core n).w = (s.core n).w ∧ (t.core n).x = (s.core n).x ∧ t.regs = s.regs ∧ t.mem = s.mem) ∧
    (∀ (n : Fin 32) (y : Syl) (a : Nat), OneSyllable s n y .ld → oAm y.o = 0 →
      a = ((s.core n).xOf (oXm y.o) + BitVec.ofInt 32 (sext 9 (oImm9 y.o))).toNat → a < 65536 → badLocal s n a = false →
      Ends (.bundle (Fin.castLE (by decide) n) []) s fun t => (t.core n).pc = (s.core n).pc + 2 ∧
        (∀ r, r < 32 → (t.core n).wOf r = if r = oDi y.o ∧ r ≠ 0 then lget s n a else (s.core n).wOf r) ∧
        (t.core n).x = (s.core n).x ∧ Only [] s t) ∧
    (∀ (k : Fin 33) (y : Syl), OneSyllable s k y .br → Ends (.bundle k []) s fun t =>
      (t.core k).pc = (s.core k).pc + 2 * BitVec.ofInt 32 (sext 19 y.o) ∧ (t.core k).w = (s.core k).w ∧
        (t.core k).x = (s.core k).x ∧ Only [Reg.tilCstat] s t) ∧
    (∀ n : Fin 32, (s.core n).tvec ≠ 0 → bit (s.core n).sr 11 = false →
      (∀ ws, Fetches s n ws → bundleLegal (sylsOf ws) = false → Ends (.bundle (Fin.castLE (by decide) n) []) s fun t =>
        TrapTaken s t n 0x0002) ∧
      (∀ ws, Fetches s n ws → bundleLegal (sylsOf ws) = true → (sylsOf ws).any (illegal s n) = true →
        Ends (.bundle (Fin.castLE (by decide) n) []) s fun t => TrapTaken s t n 0x0001) ∧
      (∀ y, OneSyllable s n y .trap → Ends (.bundle (Fin.castLE (by decide) n) []) s fun t =>
        TrapTaken s t n (w16 (oF y.o 7 0 * 256 + 0x20)) ∧ (t.core n).tnpc = (s.core n).pc + 2)) ∧
    (∀ k : Fin 33, (∀ q, (s.core k).hold ≠ .queue q) → exec (.queueStallEnd k) s = .next s) ∧
    (∀ (k : Fin 33) (q : Nat) (is : List Ins), (s.core k).hold = .queue q → is = insAt s k (s.core k).bundle →
      (firstTrap (stallsOn s k) is ≠ none → exec (.queueStallEnd k) s = .next s) ∧
      (coreOn s k = true → firstTrap (stallsOn s k) is = none → fabricLoads (s.core k) is = [] →
        firstTrap (popBars s k) is = none → exec (.queueStallEnd k) s = .next (commit s k is (s.core k).bundle.length)) ∧
      (coreOn s k = true → firstTrap (stallsOn s k) is = none → fabricLoads (s.core k) is ≠ [] →
        Ends (.queueStallEnd k) s fun t => (t.core k).hold = .fabric ∧ (t.core k).pc = (s.core k).pc ∧ Only [Reg.tilCstat] s t)) ∧
    (∀ k : Fin 33, (s.core k).hold ≠ .fabric → exec (.fabricLoadReturn k) s = .next s) ∧
    (∀ (k : Fin 33) (is : List Ins) (t : State), (s.core k).hold = .fabric → is = insAt s k (s.core k).bundle →
      firstTrap (poisonBars s k) (fabricLoads (s.core k) is) = none → firstTrap (popBars s k) is = none →
      t = commit s k is (s.core k).bundle.length →
        (coreOn s k = true → exec (.fabricLoadReturn k) s =
          .next (if coreOn t k = false ∧ (t.core k).hold ≠ .stopped then tilGone t k else t)) ∧
        (k.val < 32 → rfld s (Reg.tilStat k) 1 0 = 3 → exec (.fabricLoadReturn k) s =
          .next (if (t.core k).hold ≠ .stopped then tilGone t k else t))) ∧
    (Ends .debugResume s fun t => (∀ k, k < 33 → t.core k = (s.core k).resumed) ∧ Only [] s t) ∧
    (∀ k, (s.core k).resumed = if (s.core k).hold = .halted then { s.core k with hold := .none } else s.core k)

/-- Deterministic mode and interrupts (17 R432; 11 R283; 12 R318 to R320; 17 R429, R430): in deterministic mode a core's read of a claim
register and write of a complete register trap with DETQ, as rows and as loads and stores of a bundle, and no interrupt is taken; in
any other mode an interrupt saves PC and status and goes on at its vector, a claim marks its source active and a completion ends it. -/
def Obligations.DeterministicInterrupts : Prop :=
  ∀ (s : State) (k : Fin 33),
    (coreOn s k = true → detNow s k = true →
      (∀ f, exec (.interruptClaim k f) s = .next (takeTrap s k trapDetq (openNext s k))) ∧
      (∀ f v, exec (.interruptComplete k f v) s = .next (takeTrap s k trapDetq (openNext s k))) ∧
      trapDetq.cause = 0x10 ∧
      (∀ n : Fin 32, k.val = n.val → (s.core n).tvec ≠ 0 → bit (s.core n).sr 11 = false →
        ∀ f, Ends (.interruptClaim k f) s fun t => TrapTaken s t n 0x0010 ∧ rbit t (Reg.tilEvt n) 1 = true)) ∧
    (coreOn s k = false → ∀ f v, exec (.interruptClaim k f) s = .next s ∧ exec (.interruptComplete k f v) s = .next s) ∧
    (detNow s k = true → exec (.interruptEntry k) s = .next s) ∧
    (∀ a, a = 0x10020 ∨ a = 0x10022 → detLoad s k accRead a = some trapDetq) ∧
    (∀ a, a = 0x10021 ∨ a = 0x10023 → detStore s k a = some trapDetq) ∧
    (nextInterrupt s k = none → exec (.interruptEntry k) s = .next s) ∧
    (∀ fast sec, coreOn s k = true → (s.core k).hold = .none ∨ (s.core k).hold = .wait ∨ (∃ q, (s.core k).hold = .queue q) →
      nextInterrupt s k = some (fast, sec) → Ends (.interruptEntry k) s fun t =>
        (fast = false → (t.core k).epcn = evenAddr (s.core k).pc.toNat ∧ (t.core k).esrn = (s.core k).sr ∧ bit (t.core k).sr 9 = true) ∧
        (fast = true → (t.core k).epcf = evenAddr (s.core k).pc.toNat ∧ (t.core k).esrf = (s.core k).sr ∧ bit (t.core k).sr 10 = true) ∧
        (sec = false → (t.core k).pc = if fast then (s.core k).ivecf else (s.core k).ivecn) ∧
        (sec = true → bit (t.core k).sr 15 = true ∧ (t.core k).pc = if fast then (s.core k).sivecf else (s.core k).sivecn) ∧
        (t.core k).hold = .none ∧ (t.core k).w = (s.core k).w ∧ (t.core k).fw = (s.core k).fw ∧ Only [Reg.tilCstat] s t) ∧
    (∀ n : Fin 32, coreOn s n = true → (∃ q, (s.core n).hold = .queue q) → rget s Reg.tilStallmax ≠ 0 →
      Ends (.stallTimeout (Fin.castLE (by decide) n)) s fun t => rget t (Reg.tilEvt n) = (rget s (Reg.tilEvt n) ||| 0x0008) ∧ t.cores = s.cores ∧
        t.time.now = max s.time.now ((s.core n).stallAt + ((rget s Reg.tilStallmax).toNat * 3072 + 24) / 25) ∧
        Only (Reg.tilEvt n :: ntxRegs) s t) ∧
    (coreOn s 32 = true → (∃ q, (s.core 32).hold = .queue q) → rget s Reg.tilStallmax ≠ 0 → Ends (.stallTimeout 32) s fun t =>
      rbit t Reg.tilCstat 2 = true ∧ t.cores = s.cores ∧ Only [Reg.tilCstat] s t) ∧
    (rget s Reg.tilStallmax = 0 ∨ (∀ q, (s.core k).hold ≠ .queue q) → exec (.stallTimeout k) s = .next s) ∧
    (∀ f, coreOn s k = true → detNow s k = false →
      (∀ n, activeClass s k f = some n → Ends (.interruptClaim k f) s fun t => t.out.read = w16 (0x8000 + n) ∧ t.int = s.int ∧ Only [] s t) ∧
      (∀ n, activeClass s k f = none → selectFor s k f (decide (k.val = 32) && bit (s.core 32).sr 15) = some n →
        Ends (.interruptClaim k f) s fun t => t.out.read = w16 n ∧ t.int.active = (n, k.val) :: s.int.active ∧
          t.int.edge = s.int.edge.filter (· ≠ n) ∧ SameMemory s t) ∧
      (activeClass s k f = none → selectFor s k f (decide (k.val = 32) && bit (s.core 32).sr 15) = none →
        Ends (.interruptClaim k f) s fun t => t.out.read = 0xFFFF ∧ t.int = s.int ∧ Only [] s t) ∧
      (∀ v, activeClass s k f = some v.toNat → Ends (.interruptComplete k f v) s fun t =>
        t.int.active = s.int.active.filter (fun e => e.1 ≠ v.toNat) ∧ SameMemory s t) ∧
      (∀ v, activeClass s k f ≠ some v.toNat → Ends (.interruptComplete k f v) s fun t => rbit t Reg.intErr 0 = true ∧ t.int = s.int ∧
        Only [Reg.intErr] s t))

/-! ## Clusters (13 R338 to R355) -/

/-- Cluster commands (13 R340, R342, R343, R346, R348, R350, R352, R354): formation loads the map and sets FORMED, or stops on a duplicate
chip number; timing messages, lane faults, retraining and resends show in the Useth registers; summaries, SOFT frames and the merge
bound act on the spikelet they name, a SOFT frame with the positions its summary announced; directory frames wait for their AT; and a
handover passes its session's record on to a chip that decodes and has an index free.  Choices of the model within it: log entries 68, 69, 93. -/
def Obligations.ClusterCommands : Prop :=
  ∀ s : State,
    (∀ l r, rbit s Reg.uslCtl 0 = false ∨ anyPortOn s = false → exec (.clusterFormation l r) s = .next s) ∧
    (∀ l r, rbit s Reg.uslCtl 0 = true → anyPortOn s = true →
      (duplicates ((ringFrom l).map CensusChip.chip) = true → Ends (.clusterFormation l r) s fun t => rbit t Reg.uslEvt 6 = true ∧
        t.usl = s.usl ∧ Only (Reg.uslEvt :: ntxRegs) s t) ∧
      (∀ pos, duplicates ((ringFrom l).map CensusChip.chip) = false →
        ((ringFrom l).findIdx? fun c => c.chip = chipNum s) = some pos → Ends (.clusterFormation l r) s fun t => inCluster t = true ∧
          t.usl.chips = ((ringFrom l).take 16).map (fun c => (c.chip, censusDecodes c)) ∧ t.usl.pos = pos ∧
          rfld t Reg.uslStat 7 4 = pos % 16 ∧ rfld t Reg.uslStat 3 0 = min 16 (ringFrom l).length - 1 ∧ rbit t Reg.uslStat 14 = r ∧
          (∀ d, (ringFrom l).findIdx? censusDecodes = some d → rfld t Reg.uslStat 11 8 = d % 16) ∧ rbit t Reg.uslEvt 0 = true ∧
          OnlyBlocks [0x101A] s t)) ∧
    (∀ off rate step, inCluster s = false → exec (.timingMessage off rate step) s = .next s) ∧
    (∀ off rate step, inCluster s = true → Ends (.timingMessage off rate step) s fun t => rget t Reg.uslToff = i16 off ∧
      rbit t Reg.uslStat 13 = decide (-(32 + 8 * (s.usl.chips.length : Int)) ≤ off ∧ off ≤ 32 + 8 * (s.usl.chips.length : Int)) ∧
      (rfld s Reg.tbsCtl 1 0 ≠ 3 ∨ isDefault s = true → t.time = s.time ∧ Only [Reg.uslToff, Reg.uslStat] s t) ∧
      (rfld s Reg.tbsCtl 1 0 = 3 → isDefault s = false → t.time.rate = trimOf rate)) ∧
    (∀ (n : Fin 2) crc, exec (.usethResend n crc) s =
      .next (if rbit s (Reg.uslnStat n) 2 then bump s (if crc then Reg.uslnNcrc n else Reg.uslnNretry n) else s)) ∧
    (∀ (n : Fin 2) (l : Fin 4), rfld s (Reg.uslnStat n) 1 0 ≠ 2 ∨ rbit s (Reg.uslnStat n) (4 + l) = false →
      exec (.usethLaneFault n l) s = .next s) ∧
    (∀ (n : Fin 2) (l : Fin 4), rfld s (Reg.uslnStat n) 1 0 = 2 → rbit s (Reg.uslnStat n) (4 + l) = true →
      Ends (.usethLaneFault n l) s fun t => rbit t (Reg.uslnStat n) (4 + l) = false ∧ rbit t (Reg.uslnStat n) 2 = false ∧
        t.flt.seq = s.flt.seq + 1 ∧ SameMemory s t ∧
        (2 ≤ (s.usl.faults.filter fun f => decide (f.1 = n.val ∧ f.2.1 = l.val ∧ s.time.now < f.2.2 + 1228800000)).length →
          rbit t (Reg.uslnEvt n) 2 = true ∧ (n.val, l.val) ∈ t.usl.laneOff) ∧
        (inCluster s = true → otherUp s n = false → inCluster t = false ∧ t.usl.chips = [] ∧ rbit t Reg.uslEvt 1 = true) ∧
        (inCluster s = true → otherUp s n = true → inCluster t = true ∧ (rbit s Reg.uslStat 14 = true → rbit t Reg.uslEvt 2 = true))) ∧
    (∀ n : Fin 2, rfld s (Reg.uslnStat n) 1 0 ≠ 2 ∨ rbit s (Reg.uslnStat n) 2 = true ∨ lastFault s n = none →
      exec (.usethRetrainComplete n) s = .next s) ∧
    (∀ (n : Fin 2) l, rfld s (Reg.uslnStat n) 1 0 = 2 → rbit s (Reg.uslnStat n) 2 = false → lastFault s n = some l →
      Ends (.usethRetrainComplete n) s fun t => rbit t (Reg.uslnEvt n) 3 = true ∧
        (∀ k, k < 4 → rbit t (Reg.uslnStat n) (4 + k) =
          ((s.usl.trained.nth n 0).testBit k && decide (k ≠ l) && !s.usl.laneOff.contains (n.val, k))) ∧
        Only (Reg.uslnStat n :: Reg.uslnEvt n :: ntxRegs) s t) ∧
    (∀ f : Summary, inCluster s = false ∨ decodes s = false ∨ f.src = chipNum s ∨ posOf s f.src = none →
      exec (.summaryReceive f) s = .next s) ∧
    (∀ f : Summary, inCluster s = true → decodes s = true → f.src ≠ chipNum s → (posOf s f.src).isSome = true → s.spks = [] →
      (f.endt + mergeBound s < f.arrive → Ends (.summaryReceive f) s fun t => t.spks = [] ∧
        rget t Reg.uslNlatesum = rget s Reg.uslNlatesum + 1 ∧ rbit t Reg.uslEvt 4 = true ∧
        (∃ v, t.win.inbox = s.win.inbox ++ [v] ∧ recKind v = 2) ∧ Only (Reg.uslNlatesum :: Reg.uslEvt :: ntxRegs) s t) ∧
      (f.arrive ≤ f.endt + mergeBound s → f.count = 0 → exec (.summaryReceive f) s = .next (reach s f.arrive)) ∧
      (f.arrive ≤ f.endt + mergeBound s → f.count ≠ 0 → mayAllocate s f.sheaf = true → Ends (.summaryReceive f) s fun t =>
        (∃ x, t.spks = [x] ∧ x.own = false ∧ x.endt = f.endt ∧ x.len = f.len ∧ x.origin = f.src ∧ x.det.synct = f.synct) ∧
        Only [Reg.spkNalloc, Reg.spkPeak] s t)) ∧
    (∀ f : SoftFrame, s.spks.find? (softFor f) = none →
      ((∀ g ∈ s.usl.sums, ¬ (g.src = f.src ∧ g.synct = f.synct ∧ g.sheaf = f.sheaf)) → exec (.softReceive f) s = .next s) ∧
      (∀ g ∈ s.usl.sums, g.src = f.src ∧ g.synct = f.synct ∧ g.sheaf = f.sheaf → exec (.softReceive f) s =
        .next { s with usl := { s.usl with softs := s.usl.softs ++ [f] } })) ∧
    (∀ (f : SoftFrame) x a, s.spks = [x] → softFor f x = true →
      (x.ann.find? fun b => decide (b.chip = f.src) && decide (b.synct = f.synct)) = some a →
      Ends (.softReceive f) s fun t => Only [] s t ∧ ∃ y, t.spks = [y] ∧ y.id = x.id ∧ y.header = x.header ∧
        (∀ b ∈ y.ann, b.chip = f.src → b.got ≤ b.count) ∧
        ∀ p, y.lam.getD p 0 = x.lam.getD p 0 +
          if f.first ≤ p ∧ p < f.first + f.lam.length ∧ a.first ≤ p ∧ p < a.first + a.count then
            clampInt (-127) 127 (f.lam.getD (p - f.first) 0) else 0) ∧
    (∀ (k : Fin 1024) x, spikeOf s k = some x → x.header.isNone = true ∨ x.bound = true ∨ inCluster s = false →
      exec (.mergeBound k) s = .next s) ∧
    (∀ (k : Fin 1024) x, spikeOf s k = some x → x.header.isSome = true → x.bound = false → inCluster s = true →
      Ends (.mergeBound k) s fun t => t.time.now = max s.time.now (x.endt + mergeBound s) ∧
        t.spks = s.spks.map (fun y => if y.id = k.val then { y with bound := true } else y) ∧
        (missingOf x = [] → t.regs = s.regs) ∧
        (missingOf x ≠ [] → rget t Reg.uslNcontrib = rget s Reg.uslNcontrib + w16 (missingOf x).length ∧ rbit t Reg.uslEvt 3 = true) ∧
        Only (Reg.uslNcontrib :: Reg.uslEvt :: ntxRegs) s t) ∧
    (∀ f : DirFrame, inCluster s = false ∨ decodes s = false → exec (.dirReceive f) s = .next s) ∧
    (∀ f : DirFrame, inCluster s = true → decodes s = true → f.remove = true ∨ f.owner ≠ chipNum s ∨ f.src = chipNum s →
      (shadow s ≤ f.at_ → Ends (.dirReceive f) s fun t => t.sage.dir = s.sage.dir ∧ t.sage.dirPend =
        s.sage.dirPend ++ [(f.at_, ⟨f.mode, f.pan, f.addr⟩, if f.remove then none else some f.owner)] ∧ Only [] s t) ∧
      (f.at_ < shadow s → s.sage.dir.length < 65536 → Ends (.dirReceive f) s fun t => rbit t Reg.sagEvt 3 = true ∧
        t.sage.dir = (if f.remove then [] else [(⟨f.mode, f.pan, f.addr⟩, f.owner)]) ++
          s.sage.dir.filter (fun e => e.1 ≠ ⟨f.mode, f.pan, f.addr⟩) ∧ Only (Reg.sagEvt :: ntxRegs) s t)) ∧
    ((s.sage.hands.filter fun h => !h.eff) = [] → exec .handoverEffect s = .next s) ∧
    (∀ h, s.sage.hands = [h] → h.eff = false → s.sage.dirPend = [] → SageIdle s →
      (h.out = true → Ends .handoverEffect s fun t => t.sage.hands = [{ h with eff := true }] ∧
        rget t Reg.sagNhout = rget s Reg.sagNhout + 1 ∧ rbit t Reg.sagStat 15 = false ∧ rbit t Reg.sagEvt 0 = true ∧
        t.time.now = max s.time.now h.e ∧ Only (Reg.sagNhout :: Reg.sagStat :: Reg.sagEvt :: ntxRegs) s t) ∧
      (h.out = false → decodes s = false ∨ freeIndex s = none → Ends .handoverEffect s fun t => t.mem = s.mem ∧
        t.sage.hands = [{ h with eff := true, done := true }] ∧ rget t Reg.sagNhin = rget s Reg.sagNhin ∧
        t.time.now = max s.time.now h.e) ∧
      (∀ n, h.out = false → decodes s = true → freeIndex s = some n → s.ses.gen ≤ 1 → Ends .handoverEffect s fun t => sesValid t n = true ∧
        t.sage.hands = [{ h with eff := true, session := n }] ∧ rget t Reg.sagNhin = rget s Reg.sagNhin + 1 ∧
        rbit t Reg.sagEvt 0 = true ∧ t.time.now = max s.time.now h.e)) ∧
    (∀ (n : Fin 16384) h kek, s.sage.hands = [h] → h.out = true → h.eff = true → h.done = false → h.session = n.val →
      clusterKey s = some kek → s.ses.gen ≤ 1 → SageIdle s →
      (oldFramesDone s h.e = false → exec (.handSend n) s = .next s) ∧
      (oldFramesDone s h.e = true → Ends (.handSend n) s fun t => t.time.now = max s.time.now (h.e + 368640) ∧
        (∃ th, h.e + 368640 ≤ th ∧ t.sage.hands = [{ h with done := true, th := th }]) ∧ (∀ w, w < 16 → sesWord t n w = 0) ∧
        (∀ p, posOf s h.peer = some p → rbit s Reg.uslStat 14 = false ∨ rbit s (Reg.uslnStat 0) 2 = true ∨ rbit s (Reg.uslnStat 1) 2 = true →
          ∃ n f, t.out.usl = s.out.usl ++ [(n, 4, f)]))) ∧
    (∀ f : HandFrame, handContent s f = none → exec (.handReceive f) s = .next s) ∧
    (∀ (f : HandFrame) key ws h, handContent s f = some (key, ws) → s.sage.hands = [h] → h.out = false → h.eff = true →
      h.arrived = false → h.done = false → h.peer = f.src → h.key = key → shadow s ≤ f.th → Ends (.handReceive f) s fun t =>
        t.sage.hands = [{ h with arrived := true, th := f.th }] ∧ t.regs = s.regs ∧
        ∀ w, w < 16 → w < ws.length → sesWord t h.session w = ws.getD w 0) ∧
    (∀ (f : HandFrame) key ws h, handContent s f = some (key, ws) → s.sage.hands = [h] → h.out = false → h.eff = true →
      h.arrived = false → h.done = false → h.peer = f.src → h.key = key → f.th < shadow s → s.frames = [] →
      Ends (.handReceive f) s fun t => t.sage.hands = [{ h with arrived := true, th := f.th, done := true }] ∧
        rget t Reg.sagNhlate = rget s Reg.sagNhlate + 1 ∧ rbit t Reg.sagEvt 2 = true)

/-! ## Backhaul, host port and management (14 R357 to R377) -/

/-- Backhaul lanes and the host's queue (14 R357 to R363, R376, R377): a bad frame is counted and a PAUSE frame changes nothing; any other
one is counted, and one the lane accepts goes to the management engine, or to the core of its class, or is dropped with its count where that
core does not work; an entry that a lane has sent goes out and its granules return; a loaded flow table restarts DSEQ; and the host pops,
returns, reserves and sends granules it holds.  Choices of the model within it: log entries 66, 67. -/
def Obligations.BackhaulCommands : Prop :=
  ∀ (s : State) (i : Initiator),
    (∀ (n : Fin 2) up, laneOn s n = false → exec (.ethLinkChange n up) s = .next s) ∧
    (∀ n : Fin 2, laneOn s n = true → Ends (.ethLinkChange n true) s fun t => laneUp t n = true ∧ t.eth.tx = s.eth.tx ∧
      Only (Reg.ethnStat n :: ntxRegs) s t) ∧
    (∀ n : Fin 2, laneOn s n = true → Ends (.ethLinkChange n false) s fun t => laneUp t n = false ∧
      t.eth.tx.nth n [] = (s.eth.tx.nth n []).take 1 ∧
      rget t (Reg.ethnNdown n) = rget s (Reg.ethnNdown n) + w16 ((s.eth.tx.nth n []).length - 1) ∧
      Only [Reg.ethnStat n, Reg.ethnNdown n] s t) ∧
    (∀ (n : Fin 2) f ts sub, laneUp s n = false → exec (.ethFrameReceive n f ts sub) s = .next s) ∧
    (∀ (n : Fin 2) f ts sub, laneUp s n = true →
      (f.length < 64 ∨ 1522 < f.length ∨ octetsLE 4 (crc32 (f.take (f.length - 4))) ≠ f.drop (f.length - 4) →
        exec (.ethFrameReceive n f ts sub) s = .next (bump s (Reg.ethnNbad n))) ∧
      (∀ d, d = f.take (f.length - 4) → 64 ≤ f.length → f.length ≤ 1522 → octetsLE 4 (crc32 d) = f.drop (f.length - 4) →
        (isPause d = true → exec (.ethFrameReceive n f ts sub) s = .next s) ∧
        (isPause d = false → laneAccepts s n d = false → exec (.ethFrameReceive n f ts sub) s = .next (bump s (Reg.ethnNrx n))) ∧
        (∀ m, isPause d = false → laneAccepts s n d = true → mgmtPayload s n d = some m →
          exec (.ethFrameReceive n f ts sub) s = .next (mgmtArrive (bump s (Reg.ethnNrx n)) n m)) ∧
        (∀ c, isPause d = false → laneAccepts s n d = true → mgmtPayload s n d = none →
          c = (if isPtp d then rfld s Reg.ethRxcore 13 8 else rfld s Reg.ethRxcore 5 0) →
          (coreOn s c = false → Ends (.ethFrameReceive n f ts sub) s fun t =>
            rget t (Reg.ethnNrx n) = rget s (Reg.ethnNrx n) + 1 ∧ rget t (Reg.ethnNdrop n) = rget s (Reg.ethnNdrop n) + 1 ∧
            Only [Reg.ethnNrx n, Reg.ethnNdrop n] s t) ∧
          (∀ u h, coreOn s c = true → c ≤ 32 → (inbound s c 7).length < 32 →
            reserve (bump s (Reg.ethnNrx n)) (partFor s (rfld s Reg.ethRxpart 3 0)) ((d.length + 127) / 128) 37 = some (u, h) →
            Ends (.ethFrameReceive n f ts sub) s fun t => inbound t c 7 =
              inbound s c 7 ++ [([w16 h.gmeta, w16 (n.val * 16384 + d.length), 0, 0], false, 0)] ∧
              rget t (Reg.ethnNrx n) = rget s (Reg.ethnNrx n) + 1)))) ∧
    (∀ (n : Fin 2) ts sub, s.eth.tx.nth n [] = [] → exec (.datagramSent n ts sub) s = .next s) ∧
    (∀ (n : Fin 2) ts sub e l, s.eth.tx.nth n [] = e :: l → e.fld 1 13 12 = 2 → e.fld 1 11 11 = 0 →
      Ends (.datagramSent n ts sub) s fun t => t.eth.tx.nth n [] = l ∧ t.holds = s.holds.filter (fun x => x.gmeta ≠ e.hold.gmeta) ∧
        t.out.net = s.out.net ++ [(n.val, netBody s 2 e.hold.gmeta ++ octetsLE 4 (crc32 (netBody s 2 e.hold.gmeta)))] ∧
        rget t (Reg.ethnNtx n) = rget s (Reg.ethnNtx n) + 1 ∧ Only [Reg.ethnNtx n] s t) ∧
    (∀ (n : Fin 2) ts sub e l, s.eth.tx.nth n [] = e :: l → e.fld 1 13 12 ≤ 1 → Ends (.datagramSent n ts sub) s fun t =>
      t.eth.tx.nth n [] = l ∧ t.holds = s.holds.filter (fun x => x.gmeta ≠ e.hold.gmeta) ∧ t.out.net.length = s.out.net.length +
        (if (netBody s (e.fld 1 13 12) e.hold.gmeta).length ≤ 1408 then 1 else 2) ∧ Only [Reg.ethnNtx n] s t) ∧
    (∀ v, bit v 1 = true → bit v 0 = false → Ends (.flowload i v) s fun t => t.eth.dseq = List.replicate 16 0 ∧
      t.eth.flows = (List.range 16).map (fun k => mgets s (rgroup s Reg.ethFlowbase 2 + 32 * k) 32) ∧ rbit t Reg.ethStat 0 = true ∧
      Only [Reg.ethStat] s t) ∧
    (s.eth.hostq = [] → Ends (.rxpop i) s fun t => t.out.read = 0xFFFF ∧ Only [] s t ∧ t.holds = s.holds ∧
      ∀ k, 1 ≤ k → k < 4 → latched t i (Reg.hspRxpop + k) = some 0) ∧
    (∀ e l, s.eth.hostq = e :: l → (∀ k, k < 33 → outbound s k 15 = []) → Ends (.rxpop i) s fun t => t.out.read = w16 e.hold.gmeta ∧
      t.eth.hostq = l ∧ latched t i (Reg.hspRxpop + 1) = some (w16 (e.fld 1 13 12)) ∧
      latched t i (Reg.hspRxpop + 2) = some (e.words.getD 2 0) ∧ Only [] s t) ∧
    (∀ v : Word, holdOf s v.toNat 33 = none → (∀ c, c = Instr.rxret i v ∨ c = Instr.hsend i v → Ends c s fun t =>
      rget t Reg.hspEvt = (rget s Reg.hspEvt ||| 0x0004) ∧ t.holds = s.holds ∧ t.cores = s.cores ∧ Only (Reg.hspEvt :: ntxRegs) s t)) ∧
    (∀ (v : Word) h, holdOf s v.toNat 33 = some h →
      (Ends (.rxret i v) s fun t => t.holds = s.holds.filter (fun x => x.gmeta ≠ h.gmeta) ∧ Only [] s t) ∧
      (coreOn s (rfld s Reg.hspCtl 5 0) = true → (inbound s (rfld s Reg.hspCtl 5 0) 7).length < 32 → Ends (.hsend i v) s fun t =>
        inbound t (rfld s Reg.hspCtl 5 0) 7 = inbound s (rfld s Reg.hspCtl 5 0) 7 ++
          [([v, w16 (0xA000 + granLen s v.toNat), 0, 0], false, 0)] ∧
        (∀ x ∈ t.holds, x.gmeta = v.toNat → x.owner = rfld s Reg.hspCtl 5 0) ∧ Only [] s t) ∧
      (32 ≤ (inbound s (rfld s Reg.hspCtl 5 0) 7).length → Ends (.hsend i v) s fun t => rbit t Reg.hspEvt 4 = true ∧
        t.holds = s.holds ∧ t.cores = s.cores ∧ Only (Reg.hspEvt :: ntxRegs) s t)) ∧
    (∀ v, field v 10 0 = 0 ∨ 2045 < field v 10 0 → Ends (.hresv i v) s fun t => rget t Reg.hspHgran = 0xFFFF ∧
      rbit t Reg.hspEvt 5 = true ∧ t.holds = s.holds ∧ Only (Reg.hspHgran :: Reg.hspEvt :: ntxRegs) s t) ∧
    (∀ v, 1 ≤ field v 10 0 → field v 10 0 ≤ 2045 →
      (reserve s (partFor s (rfld s Reg.hspCtl 9 6)) ((field v 10 0 + 4 + 127) / 128) 33 = none → Ends (.hresv i v) s fun t =>
        rget t Reg.hspHgran = 0xFFFF ∧ rbit t Reg.hspEvt 3 = true ∧ t.holds = s.holds ∧ Only (Reg.hspHgran :: Reg.hspEvt :: ntxRegs) s t) ∧
      (∀ u h, reserve s (partFor s (rfld s Reg.hspCtl 9 6)) ((field v 10 0 + 4 + 127) / 128) 33 = some (u, h) →
        Ends (.hresv i v) s fun t => rget t Reg.hspHgran = w16 h.gmeta ∧ t.holds = h :: s.holds ∧ h.owner = 33))

/-- The host port and the management engine (14 R365, R373 to R375; 01 R31): a transaction carries its words out in ascending order and says
how many; a word that the mode bars, or whose bridge has timed out, reads 0 and changes nothing; STATUS shows and clears ABORTED; an abandoned transaction and an unlisted
command set their event; and a management request at the head of the queue is performed and answered.  Choices of the model within it: log entries 64, 65, 66. -/
def Obligations.PortTransactions : Prop :=
  ∀ s : State,
    (fabRuns s = false → (∀ a n, exec (.hostRead a n) s = .next s) ∧ (∀ a d, hostDataWf d = true → exec (.hostWrite a d) s = .next s) ∧
      exec .hostStatus s = .next s ∧ (∀ o, exec (.hostBadCommand o) s = .next s)) ∧
    (fabRuns s = true →
      (∀ a (n : Fin 256), exec (.hostRead a n) s = .next (hostAnswer (portReads .host a (n.val + 1) s).2
        ((portReads .host a (n.val + 1) s).1.map Prod.fst) (txnStatus ((portReads .host a (n.val + 1) s).1.map Prod.snd)))) ∧
      (∀ a, a < 2 ^ 32 → modeServes s a = false → Ends (.hostRead a 0) s fun t => t.out.host = [0, 0] ∧ t.out.hostSt = 0x0801 ∧ Only [] s t) ∧
      (∀ a v, a < 2 ^ 32 → modeServes s a = false → Ends (.hostWrite a [v]) s fun t => t.out.hostSt = 0x0801 ∧ Only [] s t) ∧
      (∀ a, a < 2 ^ 32 → regionOf a = .shared → fenceCheck s false (initIndex .host) (levelOf s .host) accRead a = (true, s) →
        badAt s a = false → Ends (.hostRead a 0) s fun t => t.out.host = octetsBE 2 (mget s a).toNat ∧ t.out.hostSt = 1 ∧ Only [] s t) ∧
      (∀ a v, a < 2 ^ 32 → regionOf a = .shared → fenceCheck s false (initIndex .host) (levelOf s .host) accWrite a = (true, s) →
        Ends (.hostWrite a [v]) s fun t => mget t a = v ∧ (∀ b, b ≠ a → mget t b = mget s b) ∧ t.out.host = [] ∧ t.out.hostSt = 1 ∧
          t.regs = s.regs ∧ t.tlm = s.tlm) ∧
      (∀ a, a < 2 ^ 32 → modeServes s a = true → regionOf a = .block → s.flt.ended.contains (endMark .host a false) = true →
        fenceCheck s false (initIndex .host) (levelOf s .host) accRead a = (true, s) → Ends (.hostRead a 0) s fun t =>
          t.out.host = [0, 0] ∧ t.out.hostSt = 0x0401 ∧ t.flt.ended = s.flt.ended.erase (endMark .host a false) ∧ Only [] s t) ∧
      (Ends .hostStatus s fun t => t.out.host = octetsBE 2 (portStatus s).toNat ∧ t.eth.aborted = false ∧ Only [] s t) ∧
      (∀ a, Ends (.hostAbort a [] 0) s fun t => t.eth.aborted = true ∧ rget t Reg.hspEvt = (rget s Reg.hspEvt ||| 0x0001) ∧
        Only (Reg.hspEvt :: ntxRegs) s t) ∧
      (∀ a v, modeServes s (a % 2 ^ 32) = false → Ends (.hostAbort a [v] 0) s fun t => t.eth.aborted = true ∧
        Only (Reg.hspEvt :: ntxRegs) s t) ∧
      (∀ o, o ≠ 0x0B → o ≠ 0x02 → o ≠ 0x05 → Ends (.hostBadCommand o) s fun t =>
        rget t Reg.hspEvt = (rget s Reg.hspEvt ||| 0x0002) ∧ t.eth.aborted = s.eth.aborted ∧ Only (Reg.hspEvt :: ntxRegs) s t) ∧
      (∀ m lane rest, s.eth.mgmtq = (m, lane) :: rest →
        ((m.getD 3 0).toNat ≠ 1 → exec .mgmtRead s = .next s) ∧ ((m.getD 3 0).toNat ≠ 2 → exec .mgmtWrite s = .next s) ∧
        (∀ l u, (m.getD 3 0).toNat = 1 → portReads .mgmt (ofOctetsLE (slice m 8 4)) (m.getD 12 0).toNat
            { s with eth := { s.eth with mgmtq := rest } } = (l, u) → exec .mgmtRead s = .next (mgmtRespond u lane 0x81
              (ofOctetsLE (slice m 4 4)) (ofOctetsLE (slice m 8 4)) (m.getD 12 0).toNat (mgmtStatusOf (l.map Prod.snd))
              (unpackOctets (l.map Prod.fst)))) ∧
        (∀ l u, (m.getD 3 0).toNat = 2 → portWrites .mgmt (ofOctetsLE (slice m 8 4)) (packOctets (slice m 16 (2 * (m.getD 12 0).toNat)))
            { s with eth := { s.eth with mgmtq := rest } } = (l, u) → fabRuns u = true → exec .mgmtWrite s = .next (mgmtRespond u lane 0x82
              (ofOctetsLE (slice m 4 4)) (ofOctetsLE (slice m 8 4)) (m.getD 12 0).toNat (mgmtStatusOf l) [])))) ∧
    (s.eth.mgmtq = [] → exec .mgmtRead s = .next s ∧ exec .mgmtWrite s = .next s)

/-! ## Flash and faults (14 R378 to R380; 15 R381 to R400) -/

/-- The fault record queue (15 R399): it holds 128 records; its head is read in `FLT_REC0` to `FLT_REC11` and stays until a write of 0x0001
to `FLT_POP` removes it; when it is full a transient record is lost, and a lasting one replaces the oldest transient record or is lost
where none is held; each loss adds 1 to `FLT_NLOST` and sets LOST, and each record offered takes the next SEQ. -/
def Obligations.FaultRecords : Prop :=
  ∀ (s : State) (i : Initiator) (f : FaultInfo),
    (fault s f).flt.seq = s.flt.seq + 1 ∧
    (∃ r : List Word, r.length = 12 ∧ r.getD 4 0 = w16 s.flt.seq ∧ recLasting r = f.lasting ∧
      (s.flt.recs.length < 128 → (fault s f).flt.recs = s.flt.recs ++ [r] ∧ rget (fault s f) Reg.fltNlost = rget s Reg.fltNlost) ∧
      (128 ≤ s.flt.recs.length →
        rget (fault s f) Reg.fltNlost = rget s Reg.fltNlost + 1 ∧ rbit (fault s f) Reg.fltEvt 5 = true ∧
        (f.lasting = false → (fault s f).flt.recs = s.flt.recs) ∧
        (f.lasting = true → (∀ q ∈ s.flt.recs, recLasting q = true) → (fault s f).flt.recs = s.flt.recs) ∧
        (∀ a q b, f.lasting = true → s.flt.recs = a ++ q :: b → (∀ x ∈ a, recLasting x = true) → recLasting q = false →
          (fault s f).flt.recs = a ++ b ++ [r]))) ∧
    rbit (fault s f) Reg.fltEvt 0 = true ∧ (f.lasting = true → rbit (fault s f) Reg.fltEvt 1 = true) ∧ Only fltRegs s (fault s f) ∧
    (∀ k, k < 12 → readServed s i (Reg.fltRec k) = true → Ends (.groupLatchRead i (Reg.fltRec k)) s fun t => t.out.read = (s.flt.recs.headD []).getD k 0 ∧
      t.flt = s.flt ∧ Only [] s t) ∧
    (exec (.faultPop i 1) s = .next { s with flt := { s.flt with recs := s.flt.recs.drop 1 } }) ∧
    (∀ v, v ≠ 1 → exec (.faultPop i v) s = .next s)

/-- Rows, self-tests and exclusions (15 R382, R386 to R390, R395 to R397, R400): a scrub corrects a row with one flipped bit and moves it to
a spare; its march test returns it with its spare, or retires it; a full self-test is accepted in MAINTAIN only and ends with its result; a port
loop self-test that a large DC estimate or faint records call for waits or runs, and returns the port or excludes it; and a write to a
`FLT_PBADn` clears the bits written 1.  Choices of the model within it: log entries 43, 88. -/
def Obligations.SelfTests : Prop :=
  ∀ (s : State) (i : Initiator),
    (∀ l, l.all Upset.wf = true → rbit s Reg.fltCtl 0 = false → exec (.patrolScrub l) s = .next s) ∧
    (∀ (m : Fin 32) (r b : Nat), rbit s Reg.fltCtl 0 = true → r < 8192 → b < 128 → s.flt.bad = [] → s.flt.badRows = [] →
      s.flt.tests = [] → spares s m ≠ 0 → spares s m ≤ 64 → (m.val, r) ∉ s.flt.retired →
      Ends (.patrolScrub [{ unit := m, row := r, flips := [b] }]) s fun t =>
        (∀ n a, lget t n a = lget s n a) ∧ t.mem = s.mem ∧ rget t Reg.fltNce = rget s Reg.fltNce + 1 ∧ spares t m = spares s m - 1 ∧
        (∃ x, t.flt.tests = [x] ∧ x.unit = m.val ∧ x.row = r ∧ x.synd = codeColumn b ∧ x.sub = 8)) ∧
    (∀ (m : Fin 32) (r a b : Nat), rbit s Reg.fltCtl 0 = true → r < 8192 → a < b → b < 128 → s.flt.bad = [] → s.flt.badRows = [] →
      s.flt.tests = [] → spares s m ≠ 0 → (m.val, r) ∉ s.flt.retired →
      Ends (.patrolScrub [{ unit := m, row := r, flips := [a, b] }]) s fun t => badLocal t m (8 * r) = true ∧
        rget t Reg.fltNue = rget s Reg.fltNue + 1 ∧ rbit t Reg.fltEvt 2 = true) ∧
    (∀ (m : Fin 201) ok, (∀ x ∈ s.flt.tests, x.unit ≠ m.val) → exec (.marchTestComplete m ok) s = .next s) ∧
    (∀ (m : Fin 201) x, s.flt.tests = [x] → x.unit = m.val → timesReturned s m x.row + 1 < max 1 (rfld s Reg.fltRptmax 3 0) →
      Ends (.marchTestComplete m true) s fun t => t.flt.tests = [] ∧ spares t m = min 64 (spares s m + 1) ∧
        t.flt.retired = s.flt.retired ∧ timesReturned t m x.row = timesReturned s m x.row + 1 ∧
        rget t Reg.fltNreturn = rget s Reg.fltNreturn + 1 ∧ t.flt.seq = s.flt.seq + 1 ∧ SameMemory s t) ∧
    (∀ (m : Fin 201) x ok, s.flt.tests = [x] → x.unit = m.val →
      ok = false ∨ max 1 (rfld s Reg.fltRptmax 3 0) ≤ timesReturned s m x.row + 1 →
      Ends (.marchTestComplete m ok) s fun t => t.flt.tests = [] ∧ spares t m = spares s m ∧ (m.val, x.row) ∈ t.flt.retired ∧
        rget t Reg.fltNretire = rget s Reg.fltNretire + 1 ∧ t.flt.seq = s.flt.seq + 1 ∧ SameMemory s t) ∧
    (∀ v, v ≠ 0x0F75 ∨ s.flt.ft.isSome = true → exec (.fullSelftest i v) s = .next s) ∧
    (s.flt.ft = none → modeOf s ≠ 6 → Ends (.fullSelftest i 0x0F75) s fun t => rget t Reg.fltFtres = 0x8000 ∧ t.flt = s.flt ∧
      Only [Reg.fltFtres] s t) ∧
    (s.flt.ft = none → modeOf s = 6 → Ends (.fullSelftest i 0x0F75) s fun t => t.flt.ft = some (rfld s Reg.fltFtsel 4 0) ∧ Only [] s t) ∧
    (∀ o, s.flt.ft = none → exec (.fullSelftestDone o) s = .next s) ∧
    (∀ o sel, s.flt.ft = some sel → Ends (.fullSelftestDone o) s fun t => t.flt.ft = none ∧ rbit t Reg.fltEvt 7 = true ∧
      (o.rows = [] → o.engines = [] → o.ports = [] → rget t Reg.fltFtres = 0x4000 ∧ t.flt.seq = s.flt.seq) ∧
      (sel.testBit 1 = true → (∀ n w, n < 16384 → w < 32 → sesWord t n w = 0) ∧ rget t Reg.sesNsess = 0) ∧
      (sel.testBit 0 = false → sel.testBit 1 = false → t.mem = s.mem)) ∧
    (∀ p : Fin 64, loopDue s p = false → exec (.portLoopSelftestStart p) s = .next s) ∧
    (∀ (p : Fin 64) v, loopDue s p = true → rbit s (Reg.prtCtl p) 0 = true → v = s.updPort p (fun h => { h with dcOver := none, faint := 0 }) →
      ((∀ l ∈ s.flt.loops, l.port ≠ p.val) → shfState s (sheafOf p) ≠ 2 →
        exec (.portLoopSelftestStart p) s = .next { v with flt := { s.flt with loops := s.flt.loops ++ [{ port := p }] } }) ∧
      (∀ u, s.flt.loops = [] → shfState s (sheafOf p) = 2 → (s.sheaf (sheafOf p)).job = none → blanked s (sheafOf p) = false →
        gateLoop (holdPort { v with flt := { s.flt with loops := [{ port := p, begun := 1, running := true }] } } p true) p 600 = (true, u) →
        exec (.portLoopSelftestStart p) s = .next u)) ∧
    (∀ (p : Fin 64) ok c, s.flt.loops = [] → exec (.portLoopSelftestDone p ok c) s = .next s) ∧
    (∀ (p : Fin 64) ok (c : Fin 8), s.flt.loops = [{ port := p, begun := 1, running := true }] → (∀ q, (s.port q).dcPend = false) →
      1 ≤ c.val → c.val ≤ 4 → Ends (.portLoopSelftestDone p ok c) s fun t =>
        t.flt.loops = [] ∧ rget t Reg.fltNport = rget s Reg.fltNport + 1 ∧ t.flt.seq = s.flt.seq + 1 ∧
        rbit t (Reg.fltPbad (p / 16)) (p % 16) = (rbit s (Reg.fltPbad (p / 16)) (p % 16) || !ok)) ∧
    (∀ (n : Fin 4) v, Ends (.pbadClear i n v) s fun t => rget t (Reg.fltPbad n) = (rget s (Reg.fltPbad n) &&& ~~~v) ∧
      SameMemory s t)

/-- The external flash (14 R379, R380): an operation is refused with its cause, or runs; a READ that ends moves octets to memory, an
erase leaves 0xFF, and a failed one leaves each byte of its range old, new or 0xFF.  Choices of the model within it: log entry 62. -/
def Obligations.FlashOperations : Prop :=
  ∀ (s : State) (i : Initiator),
    (∀ c op, (c, op) ∈ [(Instr.flashRead i, 1), (Instr.program i, 2), (Instr.erase4k i, 3), (Instr.erase64k i, 4)] →
      (s.xsp.job.isSome = true → exec c s = .next s) ∧
      (∀ r, s.xsp.job = none → xspRefuse s op (rlong s Reg.xspFaddr) (rget s Reg.xspLen).toNat = some r → Ends c s fun t =>
        rfld t Reg.xspRes 2 0 = r ∧ rbit t Reg.xspStat 0 = false ∧ rbit t Reg.xspEvt 0 = true ∧ rbit t Reg.xspEvt 1 = true ∧
        t.xsp = s.xsp ∧ Only (Reg.xspRes :: Reg.xspStat :: Reg.xspEvt :: ntxRegs) s t) ∧
      (s.xsp.job = none → xspRefuse s op (rlong s Reg.xspFaddr) (rget s Reg.xspLen).toNat = none → Ends c s fun t =>
        t.xsp.job = some ⟨op, rlong s Reg.xspFaddr, rlong s Reg.xspMaddr, (rget s Reg.xspLen).toNat, initIndex i, levelOf s i⟩ ∧
        rbit t Reg.xspStat 0 = true ∧ Only [Reg.xspStat] s t)) ∧
    (∀ f n, modeOf s ≠ 1 → f < bankBase s (rbit s Reg.sysBootstat 4).toNat + bankSize s →
      bankBase s (rbit s Reg.sysBootstat 4).toNat < f + 4096 → f % 4096 = 0 → f + 4096 ≤ flashSize s → xspRefuse s 3 f n = some 1) ∧
    (∀ o, s.xsp.job = none → exec (.flashOpComplete o) s = .next s) ∧
    (∀ j, s.xsp.job = some j → 3 ≤ j.op →
      (Ends (.flashOpComplete .done) s fun t => t.xsp.job = none ∧ rfld t Reg.xspRes 2 0 = 0 ∧ rbit t Reg.xspStat 0 = false ∧
        rbit t Reg.xspEvt 0 = true ∧ (∀ a, j.faddr ≤ a → a < j.faddr + xspSpan j.op j.len → flashGet t a 1 = [0xFF]) ∧
        (∀ a, a < j.faddr ∨ j.faddr + xspSpan j.op j.len ≤ a → flashGet t a 1 = flashGet s a 1) ∧ t.mem = s.mem) ∧
      (∀ o c, (o, c) ∈ [(OpOutcome.fail, 6), (.timeout, 7)] → Ends (.flashOpComplete o) s fun t => t.xsp.job = none ∧
        rfld t Reg.xspRes 2 0 = c ∧ rbit t Reg.xspEvt 1 = true ∧
        (∀ a, flashGet t a 1 = flashGet s a 1 ∨ (j.faddr ≤ a ∧ a < j.faddr + xspSpan j.op j.len ∧ flashGet t a 1 = [0xFF])) ∧
        t.mem = s.mem)) ∧
    (∀ j ok w o, s.xsp.job = some j → j.op = 1 →
      engineStore j.init j.init j.level j.maddr (packOctets (flashGet s j.faddr j.len)) s = (ok, w) →
      exec (.flashOpComplete o) s = .next (xspEnd w (if ok then 0 else 5))) ∧
    (∀ j ws v, s.xsp.job = some j → j.op = 2 → engineReads j.init j.init j.level j.maddr (j.len / 2) s = (ws, true, false, v) →
      exec (.flashOpComplete .done) s = .next (xspEnd (flashPut v j.faddr
        (List.zipWith (· &&& ·) (flashGet v j.faddr (unpackOctets ws).length) (unpackOctets ws))) 0))

/-! ## The commissioning tag and the panel reader (18 R443 to R461) -/

/-- The tag on the air (18 R443 to R447, R450, R455): a field brings it from IDLE to ISO-DEP by its answers; a served command selects,
reads or updates a file and answers its status; a command that comes during another's commit waits; an answer that is not ready asks for
more time until 60 ms have been granted; and the end of the field or DESELECT ends
the session.  Choices of the model within it: log entries 85, 86. -/
def Obligations.FieldCommands : Prop :=
  ∀ s : State,
    (s.tag.field = true → exec .fieldOn s = .next s) ∧
    (s.tag.field = false → Ends .fieldOn s fun t => t.tag.field = true ∧ t.tag.active = 0 ∧ t.tag.uid.length = 4 ∧
      t.tag.uid.getD 0 0 = 0x08 ∧ Only ntxRegs s t) ∧
    (s.tag.field = true → s.tag.active = 0 → Ends .reqa s fun t => t.tag.active = 1 ∧ t.out.tag = [0x04, 0x00] ∧ Only [] s t) ∧
    (s.tag.field = true → s.tag.active = 1 → Ends .anticollision s fun t => t.tag.active = 2 ∧
      t.out.tag = s.tag.uid ++ [s.tag.uid.foldl (· ^^^ ·) 0, 0x20] ∧ Only [] s t) ∧
    (s.tag.field = true → s.tag.active = 2 → Ends .rats s fun t => t.tag.active = 3 ∧ t.out.tag = [0x05, 0x78, 0x80, 0x20, 0x00] ∧
      Only [] s t) ∧
    (∀ c, c ∈ [Instr.reqa, .anticollision, .rats, .selectByName, .deselect, .fieldLoss, .harvestOn] → s.tag.field = false →
      exec c s = .next s) ∧
    (tagListens s = true → s.tag.busy.isSome = true → (∀ c, c = .selectByName ∨ (∃ id, c = .selectByFileId id) ∨
      (∃ o n, c = .readBinary o n) ∨ (∃ o d, c = .updateBinary o d) ∨ (∃ a n, c = .readWords a n) ∨ (∃ a d, c = .writeWords a d) →
        exec c s = .next { s with tag := { s.tag with waiting := some c, wtx := 0 } })) ∧
    (tagListens s = true → s.tag.busy = none →
      (Ends .selectByName s fun t => t.tag.app = true ∧ t.tag.file = 0 ∧ t.out.tag = [0x90, 0x00] ∧ Only [] s t) ∧
      (∀ id : Word, s.tag.app = true → 0xE103 ≤ id.toNat → id.toNat ≤ 0xE107 → Ends (.selectByFileId id) s fun t =>
        t.tag.file = id.toNat - 0xE102 ∧ t.out.tag = [0x90, 0x00] ∧ Only [] s t) ∧
      (∀ id : Word, s.tag.app = false ∨ id.toNat < 0xE103 ∨ 0xE107 < id.toNat → Ends (.selectByFileId id) s fun t =>
        t.tag = { s.tag with wtx := 0 } ∧ t.out.tag = [0x6A, 0x82] ∧ Only [] s t) ∧
      (∀ off n, s.tag.file ≠ 0 → off < fileSize s.tag.file → n ≤ 240 → off + n ≤ fileSize s.tag.file →
        (fileBad s s.tag.file off n = false → Ends (.readBinary off n) s fun t =>
          t.out.tag = fileOctets s s.tag.file off n ++ [0x90, 0x00] ∧ t.tag = { s.tag with wtx := 0 } ∧ Only [] s t) ∧
        (fileBad s s.tag.file off n = true → Ends (.readBinary off n) s fun t => t.out.tag = [0x65, 0x81] ∧
          rbit t Reg.nftEvt 5 = true ∧ Only (Reg.nftEvt :: ntxRegs) s t)) ∧
      (∀ off n, s.tag.file = 0 → Ends (.readBinary off n) s fun t => t.out.tag = [0x69, 0x85] ∧ Only [] s t) ∧
      (∀ off d, s.tag.file ≠ 0 → fieldMayWrite s s.tag.file = false → Ends (.updateBinary off d) s fun t =>
        t.out.tag = [0x69, 0x82] ∧ t.tag = { s.tag with wtx := 0 } ∧ Only [] s t) ∧
      (∀ off d p l, s.tag.file ≠ 0 → fieldMayWrite s s.tag.file = true → d ≠ [] → d.length ≤ 240 →
        off + d.length ≤ fileSize s.tag.file → off / 32 = (off + d.length - 1) / 32 → s.tag.queue = [] → s.tag.freeq = p :: l →
        Ends (.updateBinary off d) s fun t => t.tag.due = true ∧ t.tag.freeq = l ∧ Only [] s t ∧
          ∃ c, t.tag.busy = some c ∧ c.phys = p ∧ c.src = 0 ∧ c.page = filePage s.tag.file + off / 32 ∧
            ∀ j, j < 32 → c.data.getD j 0 = if off ≤ 32 * (off / 32) + j ∧ 32 * (off / 32) + j < off + d.length
              then d.getD (32 * (off / 32) + j - off) 0 else (pageData s (filePage s.tag.file + off / 32)).getD j 0) ∧
      (bit s.tag.nv 3 = false → (∀ a n, Ends (.readWords a n) s fun t => t.out.tag = [0x6D, 0x00] ∧ Only [] s t) ∧
        ∀ a d, Ends (.writeWords a d) s fun t => t.out.tag = [0x6D, 0x00] ∧ Only [] s t) ∧
      (bit s.tag.nv 3 = true → s.tag.app = true → s.power.lost = false →
        (∀ a n ws u, 1 ≤ n → n ≤ 64 → tagReads a n { s with tag := { s.tag with wtx := 0 } } = (some ws, u) → exec (.readWords a n) s =
          .next { u with out := { u.out with tag := unpackOctets ws ++ [0x90, 0x00] } }) ∧
        (∀ a d u, d ≠ [] → d.length ≤ 118 → tagWrites a d { s with tag := { s.tag with wtx := 0 } } = (true, u) → exec (.writeWords a d) s =
          .next { u with out := { u.out with tag := [0x90, 0x00] } })) ∧
      (∀ cla ins, cla ≠ 0x00 → cla ≠ 0x80 → Ends (.tagUnlistedCommand cla ins) s fun t => t.out.tag = [0x6E, 0x00] ∧ Only [] s t) ∧
      (∀ ins, ins ≠ 0xA4 → ins ≠ 0xB0 → ins ≠ 0xD6 → Ends (.tagUnlistedCommand 0 ins) s fun t => t.out.tag = [0x6D, 0x00] ∧
        t.tag = s.tag ∧ Only [] s t)) ∧
    (s.tag.field = true → s.tag.active = 3 → Ends .deselect s fun t => t.out.tag = [0xC2] ∧ t.tag.active = 0 ∧ t.tag.app = false ∧
      t.tag.file = 0 ∧ (s.tag.app = true → rbit t Reg.nftEvt 2 = true) ∧ (∀ a, latched t .tag a = none) ∧
      t.tag.store = s.tag.store ∧ Only (Reg.nftEvt :: ntxRegs) s t) ∧
    (s.tag.field = true → Ends .fieldLoss s fun t => t.tag.field = false ∧ t.tag.active = 0 ∧ t.tag.app = false ∧ t.tag.harv = false ∧
      (∀ c ∈ t.tag.queue, c.src ≠ 0) ∧ (s.power.lost = false → t.tag.busy = s.tag.busy) ∧
      (s.power.lost = true → t.tag.busy = none) ∧ rbit t Reg.nftEvt 1 = true ∧ t.tag.store = s.tag.store ∧
      Only (Reg.nftEvt :: ntxRegs) s t) ∧
    (∀ w, s.tag.field = false ∨ (s.tag.due = false ∧ s.tag.waiting = none) → exec (.waitingTimeExtension w) s = .next s) ∧
    (∀ w, s.tag.field = true → s.tag.due = true ∨ s.tag.waiting ≠ none →
      (s.tag.wtx < 49 → Ends (.waitingTimeExtension w) s fun t => t.tag = { s.tag with wtx := s.tag.wtx + min w 59 } ∧
        t.out.tag = [0xF2, BitVec.ofNat 8 (min w 59)] ∧ Only [] s t) ∧
      (49 ≤ s.tag.wtx → Ends (.waitingTimeExtension w) s fun t => t.tag = { s.tag with due := false, waiting := none, wtx := 0 } ∧
        t.out.tag = [0x65, 0x81] ∧ Only [] s t)) ∧
    (s.tag.field = true → (bit s.tag.nv 0 = true → Ends .harvestOn s fun t => t.tag.harv = true ∧ Only [] s t) ∧
      (bit s.tag.nv 0 = false → exec .harvestOn s = .next s))

/-- Page commits and the host's window (18 R448, R449, R453, R454): a verified commit makes F live with the new octets and releases
the old page; a released page is erased in the background; a window write opens a buffer, and
`NFT_PCOMMIT` hands it to a commit.  Choices of the model within it: log entry 85. -/
def Obligations.PageCommits : Prop :=
  ∀ (s : State) (i : Initiator),
    (∀ ok, s.tag.busy = none → s.tag.waiting = none → exec (.pageCommitComplete ok) s = .next s) ∧
    (∀ c, s.tag.busy = some c → s.tag.queue = [] → s.tag.waiting = none → c.data.length = 32 →
      (Ends (.pageCommitComplete true) s fun t => t.tag.busy = none ∧ livePage t c.page =
          some (c.phys, match livePage s c.page with | some (_, g) => (g + 1) % 63 | none => 0) ∧ pageData t c.page = c.data ∧
        (∀ p, p ≠ c.page → livePage t p = livePage s p) ∧ t.tag.freeq = s.tag.freeq ∧
        (∀ f g, livePage s c.page = some (f, g) → t.tag.erase = s.tag.erase ++ [f]) ∧
        (c.src = 1 → rfld t Reg.nftPstat 2 0 = 1 ∧ rbit t Reg.nftEvt 0 = true) ∧
        (c.src = 0 → rget t Reg.nftFpage = w16 (c.page % 256) ∧ rbit t Reg.nftEvt 3 = true ∧
          (s.tag.due = true → t.tag.due = false ∧ t.out.tag = [0x90, 0x00]))) ∧
      (Ends (.pageCommitComplete false) s fun t => t.tag.busy = none ∧ t.tag.live = s.tag.live ∧ t.tag.store = s.tag.store ∧
        t.tag.freeq = s.tag.freeq.drop 2 ∧ t.tag.erase = s.tag.erase ++ [c.phys] ++ s.tag.freeq.take 2 ∧
        (c.src = 1 → rfld t Reg.nftPstat 2 0 = 3 ∧ rbit t Reg.nftEvt 0 = true) ∧
        (c.src = 0 → s.tag.due = true → t.tag.due = false ∧ t.out.tag = [0x65, 0x81]))) ∧
    (∀ f l, s.tag.busy = none → s.tag.queue = [] → s.tag.erase = f :: l → tagPowered s = true → Ends .backgroundErase s fun t =>
      t.tag.erase = l ∧ t.tag.freeq = s.tag.freeq ++ [f] ∧ t.tag.store = s.tag.store ∧ Only [] s t) ∧
    (s.tag.busy.isSome = true ∨ s.tag.queue ≠ [] ∨ s.tag.erase = [] → exec .backgroundErase s = .next s) ∧
    (s.power.lost = true → ∀ v, exec (.windowWrite i v) s = .next s ∧ exec (.hostPageCommit i v) s = .next s ∧
      exec (.pageBufferDrop i v) s = .next s) ∧
    (s.power.lost = false →
      (∀ v : Word, s.tag.buf = none → Ends (.windowWrite i v) s fun t =>
        t.tag.buf = some (rfld s Reg.nftWaddr 11 0 / 16,
          ((pageData s (rfld s Reg.nftWaddr 11 0 / 16)).set (2 * (rfld s Reg.nftWaddr 11 0 % 16)) (BitVec.ofNat 8 v.toNat)).set
            (2 * (rfld s Reg.nftWaddr 11 0 % 16) + 1) (BitVec.ofNat 8 (v.toNat / 256))) ∧
        rfld t Reg.nftWaddr 11 0 = (rfld s Reg.nftWaddr 11 0 + 1) % 4096 ∧ Only [Reg.nftWaddr] s t) ∧
      (∀ v, bit v 0 = false → exec (.pageBufferDrop i v) s = .next s) ∧
      (∀ v, v ≠ 0x5047 → exec (.hostPageCommit i v) s = .next s) ∧
      (s.tag.buf = none → Ends (.hostPageCommit i 0x5047) s fun t => rfld t Reg.nftPstat 2 0 = 4 ∧ t.tag = s.tag ∧
        Only [Reg.nftPstat] s t) ∧
      (∀ p b f l, s.tag.buf = some (p, b) → s.tag.app = false → s.tag.busy = none → s.tag.queue = [] → s.tag.freeq = f :: l →
        Ends (.hostPageCommit i 0x5047) s fun t => rfld t Reg.nftPstat 2 0 = 5 ∧ t.tag.buf = none ∧ t.tag.freeq = l ∧
          t.tag.busy = some { page := p, src := 1, data := b, phys := f } ∧ Only [Reg.nftPstat] s t))

/-- The page buffer of the host's window (18 R454): while it is open a window write to another page is ignored and sets
`NFT_EVT.PAGE`; a write of 1 to `NFT_CTL.DROP` discards it, and so does every chip reset, which leaves the store. -/
def Obligations.PageBuffer : Prop :=
  ∀ (s : State) (i : Initiator), s.power.lost = false →
    (∀ v p b, s.tag.buf = some (p, b) → p ≠ rfld s Reg.nftWaddr 11 0 / 16 → Ends (.windowWrite i v) s fun t =>
      t.tag.buf = some (p, b) ∧ rbit t Reg.nftEvt 4 = true ∧ Only (Reg.nftWaddr :: Reg.nftEvt :: ntxRegs) s t) ∧
    (∀ v, bit v 0 = true → exec (.pageBufferDrop i v) s = .next { s with tag := { s.tag with buf := none } }) ∧
    (∀ c, c = .powerOnReset ∨ c = .externalReset ∨ c = .debugReset ∨
        (c = .watchdogReset ∧ rbit s Reg.sysWdctl 0 = true ∧ s.wdog.restart = false ∧ max 1 (rget s Reg.sysWdper).toNat ≤ s.wdog.count) ∨
        (c = .softwareReset i 0x5A3C ∧ (levelOf s i = 0 ∨ levelOf s i = 2)) → Ends c s fun t => t.tag.buf = none ∧
      t.tag.store = s.tag.store)

/-- The panel reader (18 R456 to R461): the next ping comes `NFR_PINGPER` ms after the last; one beyond the threshold and REREAD ask for a
full read, and without either the next comes `NFR_REFRESH` s after the end of the last; a read that ends VALID holds its record
and its identity, and one that ends otherwise counts and, with no tag or the third time, withdraws it.  Choices of the model within it: log entry 87. -/
def Obligations.PanelReader : Prop :=
  ∀ (s : State) (i : Initiator),
    (∀ d, stateOf s .nfr ≠ 2 → exec (.detuningPing d) s = .next s) ∧
    (∀ d : Word, stateOf s .nfr = 2 →
      (((d.toNat : Int) - s.reader.dref).natAbs ≤ (rget s Reg.nfrDetthr).toNat → Ends (.detuningPing d) s fun t =>
        rget t Reg.nfrDetune = d ∧ t.reader = { s.reader with pingAt := t.time.now } ∧
        t.time.now = max s.time.now (s.reader.pingAt + 122880 * clampNat 10 10000 (rget s Reg.nfrPingper).toNat) ∧
        Only [Reg.nfrDetune] s t) ∧
      ((rget s Reg.nfrDetthr).toNat < ((d.toNat : Int) - s.reader.dref).natAbs → Ends (.detuningPing d) s fun t =>
        rget t Reg.nfrDetune = d ∧ t.reader = { s.reader with pingAt := t.time.now, due := true } ∧ rbit t Reg.nfrEvt 3 = true ∧
        t.time.now = max s.time.now (s.reader.pingAt + 122880 * clampNat 10 10000 (rget s Reg.nfrPingper).toNat) ∧
        Only (Reg.nfrDetune :: Reg.nfrEvt :: ntxRegs) s t)) ∧
    (∀ v, stateOf s .nfr = 2 → enOf s .nfr = true → bit v 0 = true → Ends (.reread i v) s fun t => t.reader.due = true ∧
      stateOf t .nfr = 2 ∧ SameMemory s t) ∧
    (stateOf s .nfr = 2 → s.reader.reading = false → s.reader.due = true → exec .panelFullRead s =
      .next { s with reader := { s.reader with due := false, reading := true } }) ∧
    (stateOf s .nfr = 2 → s.reader.reading = false → s.reader.due = false → exec .panelFullRead s =
      .next { reach s (s.reader.readAt + 122880000 * max 1 (rget s Reg.nfrRefresh).toNat) with
        reader := { s.reader with reading := true } }) ∧
    (stateOf s .nfr ≠ 2 ∨ s.reader.reading = true → exec .panelFullRead s = .next s) ∧
    (∀ o, s.reader.reading = false → exec (.panelReadComplete o) s = .next s) ∧
    (s.reader.reading = true →
      (∀ d, panelJudge s d = 1 → s.reader.record ≠ d → Ends (.panelReadComplete (.octets d)) s fun t => t.reader.record = d ∧
        t.reader.reading = false ∧ t.reader.fails = 0 ∧ t.reader.pend = s.reader.pend ++ [(s.time.now, d)] ∧
        t.reader.readAt = s.time.now ∧ rfld t Reg.nfrEvt 7 4 = 1 ∧
        rbit t Reg.nfrEvt 0 = true ∧ rgroup t Reg.nfrPanelid 4 = ofOctetsLE (slice d 8 8) ∧ OnlyBlocks [0x101F] s t) ∧
      (∀ d, panelJudge s d = 1 → s.reader.record = d → Ends (.panelReadComplete (.octets d)) s fun t => t.reader.record = d ∧
        t.reader.pend = s.reader.pend ∧ t.reader.fails = 0 ∧ Only [Reg.nfrEvt] s t) ∧
      (∀ o r, (∃ d, o = .octets d ∧ r = panelJudge s d ∧ r ≠ 1) ∨ (o = .collision ∧ r = 3) ∨ (o = .badProtocol ∧ r = 4) ∨
          (o = .timeout ∧ r = 5) → s.reader.fails < 2 → Ends (.panelReadComplete o) s fun t => t.reader.record = s.reader.record ∧
        t.reader.fails = s.reader.fails + 1 ∧ rfld t Reg.nfrEvt 7 4 = r ∧ rbit t Reg.nfrEvt 2 = true ∧
        Only (Reg.nfrEvt :: ntxRegs) s t) ∧
      (∀ o r, (o = .noTag ∧ r = 2) ∨ (2 ≤ s.reader.fails ∧ ((∃ d, o = .octets d ∧ r = panelJudge s d ∧ r ≠ 1) ∨
          (o = .collision ∧ r = 3) ∨ (o = .badProtocol ∧ r = 4) ∨ (o = .timeout ∧ r = 5))) → s.reader.record ≠ [] →
        Ends (.panelReadComplete o) s fun t => t.reader.record = [] ∧ t.reader.pend = s.reader.pend ++ [(s.time.now, [])] ∧
          rfld t Reg.nfrEvt 7 4 = r ∧ rbit t Reg.nfrEvt 1 = true ∧ rgroup t Reg.nfrPanelid 4 = 0 ∧ OnlyBlocks [0x101F] s t))

/-! ## Updates (19 R464 to R474) -/

/-- The refusals of START and ACTIVATE in their order, and an apply from START to its end (19 R465 to R468): START erases the trailer
sector of the bank that does not run and reads a chunk; each chunk is interpreted, CHUNK sets, and the next is accepted; END leads to the
checks; ABORT ends an apply.  Choices of the model within it: log entry 63. -/
def Obligations.UpdateApply : Prop :=
  ∀ (s : State) (i : Initiator) (v : Word),
    (field v 15 8 ≠ 0x55 → ∀ c ∈ [Instr.start i v, .feed i v, .activate i v, .abort i v], exec c s = .next s) ∧
    (field v 15 8 = 0x55 → levelOf s i ≠ 0 → levelOf s i ≠ 2 → ∀ c ∈ [Instr.start i v, .feed i v, .activate i v, .abort i v],
      exec c s = .next (rset s Reg.updRes 2)) ∧
    (field v 15 8 = 0x55 → levelOf s i = 0 ∨ levelOf s i = 2 →
      (∀ c ok, (c, ok) ∈ [(Instr.start i v, decide (updState s = 0 ∨ updState s = 2)), (.activate i v, decide (updState s = 2))] →
        (modeOf s = 0 ∨ modeOf s = 1 ∨ modeOf s = 5 → exec c s = .next (rset s Reg.updRes 3)) ∧
        (2 ≤ modeOf s → modeOf s ≠ 5 →
          (s.power.marginLow = true → exec c s = .next (rset s Reg.updRes 4)) ∧
          (s.power.marginLow = false → ownerLocked s = true → exec c s = .next (rset s Reg.updRes 5)) ∧
          (s.power.marginLow = false → ownerLocked s = false →
            ok = false ∨ rbit s Reg.sysMode 3 = true ∨ s.xsp.job.isSome = true → exec c s = .next (rset s Reg.updRes 6)))) ∧
      (2 ≤ modeOf s → modeOf s ≠ 5 → s.power.marginLow = false → ownerLocked s = false → rbit s Reg.sysMode 3 = false →
        s.xsp.job = none → updState s = 0 ∨ updState s = 2 → Ends (.start i v) s fun t => updState t = 1 ∧
          runBank t = runBank s ∧ targetBank t = 1 - runBank s ∧
          t.upd.chunk = some (rlong s Reg.updAddr, (rget s Reg.updLen).toNat, initIndex i, levelOf s i) ∧ t.upd.stream = [] ∧
          t.upd.header = none ∧ t.upd.written = 0 ∧ t.upd.newHash = none ∧
          (∀ a, bankBase s (1 - runBank s) + bankSize s - 4096 ≤ a → a < bankBase s (1 - runBank s) + bankSize s - 4096 + 4096 →
            flashGet t a 1 = [0xFF]) ∧
          (∀ a, a < bankBase s (1 - runBank s) + bankSize s - 4096 ∨ bankBase s (1 - runBank s) + bankSize s - 4096 + 4096 ≤ a →
            flashGet t a 1 = flashGet s a 1) ∧ RegsBut [Reg.updStat] s t ∧ t.mem = s.mem ∧ t.tlm = s.tlm ∧ t.tag = s.tag) ∧
      (updState s = 1 ∧ s.upd.chunk = none ∧ s.upd.newHash = none → exec (.feed i v) s = .next { s with upd := { s.upd with
        chunk := some (rlong s Reg.updAddr, (rget s Reg.updLen).toNat, initIndex i, levelOf s i) } }) ∧
      (updState s ≠ 1 ∨ s.upd.chunk.isSome = true ∨ s.upd.newHash.isSome = true → exec (.feed i v) s = .next s) ∧
      (updState s ≠ 1 → exec (.abort i v) s = .next s) ∧
      (updState s = 1 → Ends (.abort i v) s fun t => updState t = 0 ∧ rget t Reg.updRes = 14 ∧ rbit t Reg.updEvt 1 = true ∧
        t.upd.chunk = none ∧ t.upd.header = none ∧ (∀ a, a < bankBase s (1 - runBank s) → flashGet t a 1 = flashGet s a 1) ∧
        RegsBut (Reg.updStat :: Reg.updRes :: Reg.updEvt :: ntxRegs) s t ∧ t.mem = s.mem ∧ t.tlm = s.tlm ∧ t.tag = s.tag)) ∧
    (s.upd.chunk = none ∨ updState s ≠ 1 → exec .chunkConsumed s = .next s) ∧
    (∀ a n x l, s.upd.chunk = some (a, n, x, l) → updState s = 1 →
      (n % 2 = 1 ∨ n < 2 → Ends .chunkConsumed s fun t => updState t = 0 ∧ rget t Reg.updRes = 8 ∧ rbit t Reg.updEvt 1 = true ∧
        t.upd.chunk = none ∧ Only (Reg.updStat :: Reg.updRes :: Reg.updEvt :: ntxRegs) s t) ∧
      (∀ ws u, n % 2 = 0 → 2 ≤ n → engineReads x x l a (n / 2) s = (ws, false, false, u) → Ends .chunkConsumed s fun t =>
        updState t = 0 ∧ rget t Reg.updRes = 7 ∧ rbit t Reg.updEvt 1 = true ∧ t.upd.chunk = none ∧ SameMemory u t) ∧
      (∀ ws u, n % 2 = 0 → 2 ≤ n → engineReads x x l a (n / 2) s = (ws, true, false, u) → s.upd.stream = [] →
        (s.upd.header = none → (unpackOctets ws).length < 64 → Ends .chunkConsumed s fun t => t.upd.stream = unpackOctets ws ∧
          t.upd.chunk = none ∧ rbit t Reg.updEvt 0 = true ∧ Only (Reg.updEvt :: ntxRegs) u t) ∧
        (s.upd.header = none → (∀ bl nl, deltaHead u (unpackOctets ws) = .head bl nl → (unpackOctets ws).length = 64 →
          Ends .chunkConsumed s fun t => t.upd.header = some (bl, nl) ∧ t.upd.stream = [] ∧ t.upd.chunk = none ∧
            rbit t Reg.updEvt 0 = true ∧ Only (Reg.updEvt :: ntxRegs) u t)) ∧
        (∀ k, s.upd.header = none → deltaHead u (unpackOctets ws) = .bad k → Ends .chunkConsumed s fun t =>
          updState t = 0 ∧ rget t Reg.updRes = w16 k ∧ rbit t Reg.updEvt 1 = true ∧ t.upd.header = none ∧ SameMemory u t) ∧
        (∀ bl nl, s.upd.header = some (bl, nl) →
          (∀ d : List Octet, unpackOctets ws = [0x02, 0, 0, 0] ++ octetsLE 4 d.length ++ d → 1 ≤ d.length → d.length % 2 = 0 →
            d.length < 65536 → s.upd.written + d.length ≤ nl → Ends .chunkConsumed s fun t =>
              flashGet t (bankBase u (targetBank u) + s.upd.written) d.length = d ∧ t.upd.written = s.upd.written + d.length ∧
              t.upd.stream = [] ∧ t.upd.chunk = none ∧ rbit t Reg.updEvt 0 = true ∧
              (∀ b, b < bankBase u (targetBank u) + s.upd.written → flashGet t b 1 = flashGet s b 1) ∧
              RegsBut (Reg.updEvt :: ntxRegs) u t ∧ t.mem = u.mem) ∧
          (∀ m src, unpackOctets ws = [0x01, 0, 0, 0] ++ octetsLE 4 m ++ octetsLE 4 src → 1 ≤ m → m < 2 ^ 32 → src < 2 ^ 32 →
            src + m ≤ bl → s.upd.written + m ≤ nl → Ends .chunkConsumed s fun t =>
              flashGet t (bankBase u (targetBank u) + s.upd.written) m = bankGet u (runBank u) src m ∧
              t.upd.written = s.upd.written + m ∧ t.upd.stream = [] ∧ t.upd.chunk = none ∧ rbit t Reg.updEvt 0 = true ∧
              (∀ b, b < bankBase u (targetBank u) + s.upd.written → flashGet t b 1 = flashGet s b 1) ∧
              RegsBut (Reg.updEvt :: ntxRegs) u t ∧ t.mem = u.mem) ∧
          (∀ h : List Octet, unpackOctets ws = [0x03, 0, 0, 0, 0, 0, 0, 0] ++ h → h.length = 32 → s.upd.written = nl →
            Ends .chunkConsumed s fun t => t.upd.newHash = some h ∧ t.upd.chunk = none ∧ rbit t Reg.updEvt 0 = true ∧
              Only (Reg.updEvt :: ntxRegs) u t)))) ∧
    (updState s ≠ 1 ∨ s.upd.header = none ∨ s.upd.newHash = none → exec .applyComplete s = .next s) ∧
    (∀ bl nl h, updState s = 1 → s.upd.header = some (bl, nl) → s.upd.newHash = some h → Ends .applyComplete s fun t =>
      t.upd.chunk = none ∧ t.upd.newHash = none ∧ rbit t Reg.updEvt 1 = true ∧
        Only (Reg.updStat :: Reg.updRes :: Reg.updEvt :: ntxRegs) s t ∧
        (sha256 (bankGet s (targetBank s) 0 nl) ≠ h → updState t = 0 ∧ rget t Reg.updRes = 10) ∧
        (sha256 (bankGet s (targetBank s) 0 nl) = h →
          imgVerifies s (targetBank s) = false ∨ imgFenceOk s (targetBank s) = false → updState t = 0 ∧ rget t Reg.updRes = 11) ∧
        (sha256 (bankGet s (targetBank s) 0 nl) = h → imgVerifies s (targetBank s) = true → imgFenceOk s (targetBank s) = true →
          updState t = 2 ∧ rget t Reg.updRes = 1 ∧ t.upd.imgHash = imgHash s (targetBank s)))

/-- Activation, trial and fall-back (19 R469 to R473): ACTIVATE programs TRIAL and begins the pause; the image's hash and fence table are
checked and it starts with its deadline, or the fall-back begins; CONFIRM before the deadline programs CONFIRM and advances the IMAGE
counter; a deadline that passes programs REJECT, and the old image runs again.  Choices of the model within it: log entry 63. -/
def Obligations.UpdateActivation : Prop :=
  ∀ (s : State) (i : Initiator) (v : Word),
    (field v 15 8 = 0x55 → levelOf s i = 0 ∨ levelOf s i = 2 → 2 ≤ modeOf s → modeOf s ≠ 5 → s.power.marginLow = false →
      ownerLocked s = false → rbit s Reg.sysMode 3 = false → s.xsp.job = none → updState s = 2 →
      (activateSize s = false → exec (.activate i v) s = .next (rset s Reg.updRes 12)) ∧
      (activateSize s = true → activateOverlap s = true → exec (.activate i v) s = .next (rset s Reg.updRes 13)) ∧
      (activateSize s = true → activateOverlap s = false → Ends (.activate i v) s fun t => updState t = 3 ∧
        markSet t (targetBank s) 0 = true ∧ rget t Reg.sysSvcready = 0 ∧ (t.core 32).hold = .stopped ∧
        (∀ n : Fin 32, stateOf t (.til n) ≠ 1 ∧ stateOf t (.til n) ≠ 2) ∧ t.upd = s.upd ∧ t.boot = s.boot ∧ t.time = s.time)) ∧
    (updState s ≠ 3 → exec .activationComplete s = .next s) ∧
    (updState s = 3 →
      (imgHash s (targetBank s) ≠ s.upd.imgHash → Ends .activationComplete s fun t => updState t = 5 ∧ rget t Reg.updRes = 10 ∧
        t.upd.cause = 10 ∧ markSet t (targetBank s) 2 = true ∧ t.boot = s.boot ∧ RegsBut [Reg.updStat, Reg.updRes] s t) ∧
      (imgHash s (targetBank s) = s.upd.imgHash → (commitImageFence (loadSections s (targetBank s)) (targetBank s)).1 = false →
        Ends .activationComplete s fun t => updState t = 5 ∧ rget t Reg.updRes = 11 ∧ t.upd.cause = 11 ∧
          markSet t (targetBank s) 2 = true ∧ t.boot = s.boot ∧ t.fence = s.fence) ∧
      (imgHash s (targetBank s) = s.upd.imgHash → (commitImageFence (loadSections s (targetBank s)) (targetBank s)).1 = true →
        Ends .activationComplete s fun t => updState t = 4 ∧ rget t Reg.updRes = 1 ∧ t.boot.bank = targetBank s ∧
          runBank t = targetBank s ∧ rbit t Reg.sysBootstat 4 = decide (targetBank s = 1) ∧
          t.boot.entry = imgEntry s (targetBank s) ∧ t.boot.mimg = imgHash s (targetBank s) ∧
          (t.core 32).pc = BitVec.ofNat 32 (imgEntry s (targetBank s)) ∧ (t.core 32).hold = .none ∧ (t.core 32).sr = 0x8000 ∧
          t.upd.deadline = s.time.now + clampNat 1 3600 (rfld s Reg.updHealthT 11 0) * 122880000 ∧
          rbit t Reg.updEvt 1 = true ∧ rbit t Reg.updEvt 2 = true ∧ t.time.now = s.time.now ∧ t.xsp = s.xsp)) ∧
    (levelOf s i ≤ 2 → updState s = 4 → shadow s < s.upd.deadline → 1 ≤ s.xsp.mib → Ends (.confirm i 0xC04F) s fun t =>
      updState t = 0 ∧ rget t Reg.updRes = 1 ∧ rbit t Reg.updEvt 1 = true ∧ markSet t (targetBank s) 1 = true ∧
        t.fuses = { s.fuses with image := max s.fuses.image (imgVersion s (targetBank s)) } ∧ t.cores = s.cores ∧ t.mem = s.mem ∧
        RegsBut (Reg.updStat :: Reg.updRes :: Reg.updEvt :: ntxRegs) s t) ∧
    (2 < levelOf s i ∨ v ≠ 0xC04F ∨ updState s ≠ 4 ∨ s.upd.deadline ≤ shadow s → exec (.confirm i v) s = .next s) ∧
    (updState s ≠ 4 → exec .trialDeadline s = .next s) ∧
    (updState s = 4 → Ends .trialDeadline s fun t => updState t = 5 ∧ t.upd.cause = 15 ∧ markSet t (targetBank s) 2 = true ∧
      rget t Reg.sysSvcready = 0 ∧ (t.core 32).hold = .stopped ∧ t.time.now = max s.time.now s.upd.deadline ∧ t.boot = s.boot) ∧
    (updState s ≠ 5 → exec .fallbackComplete s = .next s) ∧
    (updState s = 5 → Ends .fallbackComplete s fun t => updState t = 0 ∧ rget t Reg.updRes = w16 s.upd.cause ∧
      rbit t Reg.updEvt 3 = true ∧ t.boot.bank = 1 - targetBank s ∧ runBank t = 1 - targetBank s ∧
      (t.core 32).pc = BitVec.ofNat 32 (imgEntry s (1 - targetBank s)) ∧ (t.core 32).hold = .none ∧ t.xsp = s.xsp ∧
      t.time.now = s.time.now)
end

