-- ==== Sys2Proof/Laws/Store.lean ====
section
/-!
SUPPORT. The sparse stores: a read after a write, and the canonical form that every operation keeps; the banks.
-/

namespace Sys2Proof.Machine

/-! ## Stores of words -/

theorem SMap.above_iff (a : Nat) (m : SMap) : SMap.above a m = true ↔ ∀ e ∈ m, a < e.1 := by
  simp [SMap.above]

theorem SMap.above_erase {a : Nat} {m : SMap} (b : Nat) (h : SMap.above a m = true) : SMap.above a (SMap.erase m b) = true := by
  induction m with
  | nil => exact h
  | cons e r ih =>
    simp only [SMap.above_iff, List.mem_cons, forall_eq_or_imp] at *
    simp only [SMap.erase]
    split
    · exact ih h.2
    · simp only [List.mem_cons, forall_eq_or_imp]
      exact ⟨h.1, ih h.2⟩

theorem SMap.above_insert {a b : Nat} {m : SMap} {v : Word} (h : SMap.above a m = true) (hb : a < b) :
    SMap.above a (SMap.insert m b v) = true := by
  induction m with
  | nil => simp [SMap.insert, SMap.above, hb]
  | cons e r ih =>
    simp only [SMap.above_iff, List.mem_cons, forall_eq_or_imp] at *
    simp only [SMap.insert]
    split
    · simp only [List.mem_cons, forall_eq_or_imp]; exact ⟨hb, h.1, h.2⟩
    · split
      · simp only [List.mem_cons, forall_eq_or_imp]; exact ⟨hb, h.2⟩
      · simp only [List.mem_cons, forall_eq_or_imp]; exact ⟨h.1, ih h.2⟩

theorem SMap.wf_cons (d : Nat → Word) (e : Nat × Word) (r : SMap) :
    SMap.wf d (e :: r) = true ↔ e.2 ≠ d e.1 ∧ SMap.above e.1 r = true ∧ SMap.wf d r = true := by
  simp [SMap.wf, and_assoc]

theorem SMap.wf_erase {d : Nat → Word} {m : SMap} (a : Nat) (h : SMap.wf d m = true) : SMap.wf d (SMap.erase m a) = true := by
  induction m with
  | nil => exact h
  | cons e r ih =>
    obtain ⟨h1, h2, h3⟩ := (SMap.wf_cons d e r).mp h
    simp only [SMap.erase]
    split
    · exact ih h3
    · exact (SMap.wf_cons d _ _).mpr ⟨h1, SMap.above_erase a h2, ih h3⟩

theorem SMap.wf_insert {d : Nat → Word} {m : SMap} {a : Nat} {v : Word} (h : SMap.wf d m = true) (hv : v ≠ d a) :
    SMap.wf d (SMap.insert m a v) = true := by
  induction m with
  | nil => simp [SMap.insert, SMap.wf, SMap.above, hv]
  | cons e r ih =>
    obtain ⟨h1, h2, h3⟩ := (SMap.wf_cons d e r).mp h
    simp only [SMap.insert]
    split
    · rename_i hlt
      refine (SMap.wf_cons d _ _).mpr ⟨hv, ?_, h⟩
      rw [SMap.above_iff] at h2 ⊢
      intro x hx
      rcases List.mem_cons.mp hx with rfl | hx
      · exact hlt
      · exact Nat.lt_trans hlt (h2 x hx)
    · split
      · rename_i hlt heq
        exact (SMap.wf_cons d _ _).mpr ⟨hv, heq ▸ h2, h3⟩
      · rename_i hlt hne
        exact (SMap.wf_cons d _ _).mpr ⟨h1, SMap.above_insert h2 (by omega), ih h3⟩

/-- A write keeps the canonical form. -/
theorem SMap.wf_set {d : Nat → Word} {m : SMap} (a : Nat) (v : Word) (h : SMap.wf d m = true) : SMap.wf d (SMap.set d m a v) = true := by
  unfold SMap.set
  split
  · exact SMap.wf_erase a h
  · exact SMap.wf_insert h ‹_›

/-- Leaving entries out keeps the canonical form. -/
theorem SMap.wf_filter {d : Nat → Word} {m : SMap} (p : Nat × Word → Bool) (h : SMap.wf d m = true) : SMap.wf d (m.filter p) = true := by
  induction m with
  | nil => rfl
  | cons e r ih =>
    obtain ⟨h1, h2, h3⟩ := (SMap.wf_cons d e r).mp h
    rw [List.filter_cons]
    split
    · refine (SMap.wf_cons d _ _).mpr ⟨h1, ?_, ih h3⟩
      rw [SMap.above_iff] at h2 ⊢
      exact fun x hx => h2 x (List.mem_filter.mp hx).1
    · exact ih h3

theorem SMap.get_erase_self (d : Nat → Word) (m : SMap) (a : Nat) : SMap.get d (SMap.erase m a) a = d a := by
  induction m with
  | nil => rfl
  | cons e r ih =>
    simp only [SMap.erase]
    split
    · exact ih
    · simp only [SMap.get]
      rw [if_neg ‹_›, ih]

theorem SMap.get_erase_ne {d : Nat → Word} {m : SMap} {a b : Nat} (h : b ≠ a) : SMap.get d (SMap.erase m a) b = SMap.get d m b := by
  induction m with
  | nil => rfl
  | cons e r ih =>
    simp only [SMap.erase, SMap.get]
    split
    · rename_i heq
      rw [if_neg (heq ▸ h), ih]
    · simp only [SMap.get, ih]

theorem SMap.get_insert_self (d : Nat → Word) (m : SMap) (a : Nat) (v : Word) : SMap.get d (SMap.insert m a v) a = v := by
  induction m with
  | nil => simp [SMap.insert, SMap.get]
  | cons e r ih =>
    simp only [SMap.insert]
    split
    · simp [SMap.get]
    · split
      · simp [SMap.get]
      · simp only [SMap.get]
        rw [if_neg ‹_›, ih]

theorem SMap.get_insert_ne {d : Nat → Word} {m : SMap} {a b : Nat} {v : Word} (h : b ≠ a) :
    SMap.get d (SMap.insert m a v) b = SMap.get d m b := by
  induction m with
  | nil => simp [SMap.insert, SMap.get, h]
  | cons e r ih =>
    simp only [SMap.insert]
    split
    · simp only [SMap.get]; rw [if_neg h]
    · split
      · rename_i heq
        simp only [SMap.get]
        rw [if_neg h, if_neg (heq ▸ h)]
      · simp only [SMap.get, ih]

/-- A read after a write to the same place gives the value written. -/
theorem SMap.get_set_self (d : Nat → Word) (m : SMap) (a : Nat) (v : Word) : SMap.get d (SMap.set d m a v) a = v := by
  unfold SMap.set
  split
  · rename_i hv; rw [SMap.get_erase_self, hv]
  · exact SMap.get_insert_self d m a v

/-- A write leaves every other place alone. -/
theorem SMap.get_set_ne {d : Nat → Word} {m : SMap} {a b : Nat} {v : Word} (h : b ≠ a) :
    SMap.get d (SMap.set d m a v) b = SMap.get d m b := by
  unfold SMap.set
  split
  · exact SMap.get_erase_ne h
  · exact SMap.get_insert_ne h

/-! ## Stores of octets -/

theorem BMap.wf_cons (d : Octet) (e : Nat × Octet) (r : BMap) :
    BMap.wf d (e :: r) = true ↔ e.2 ≠ d ∧ (∀ x ∈ r, e.1 < x.1) ∧ BMap.wf d r = true := by
  simp [BMap.wf, and_assoc]

theorem BMap.mem_erase {m : BMap} {a : Nat} {x : Nat × Octet} (h : x ∈ BMap.erase m a) : x ∈ m := by
  induction m with
  | nil => exact h
  | cons e r ih =>
    simp only [BMap.erase] at h
    split at h
    · exact List.mem_cons_of_mem _ (ih h)
    · rcases List.mem_cons.mp h with rfl | h
      · exact List.mem_cons_self ..
      · exact List.mem_cons_of_mem _ (ih h)

theorem BMap.mem_insert {m : BMap} {a : Nat} {v : Octet} {x : Nat × Octet} (h : x ∈ BMap.insert m a v) : x.1 = a ∨ x ∈ m := by
  induction m with
  | nil => left; simp [BMap.insert] at h; exact h ▸ rfl
  | cons e r ih =>
    simp only [BMap.insert] at h
    split at h
    · rcases List.mem_cons.mp h with rfl | h
      · exact .inl rfl
      · exact .inr h
    · split at h
      · rcases List.mem_cons.mp h with rfl | h
        · exact .inl rfl
        · exact .inr (List.mem_cons_of_mem _ h)
      · rcases List.mem_cons.mp h with rfl | h
        · exact .inr (List.mem_cons_self ..)
        · exact (ih h).imp id (List.mem_cons_of_mem _)

theorem BMap.wf_erase {d : Octet} {m : BMap} (a : Nat) (h : BMap.wf d m = true) : BMap.wf d (BMap.erase m a) = true := by
  induction m with
  | nil => exact h
  | cons e r ih =>
    obtain ⟨h1, h2, h3⟩ := (BMap.wf_cons d e r).mp h
    simp only [BMap.erase]
    split
    · exact ih h3
    · exact (BMap.wf_cons d _ _).mpr ⟨h1, fun x hx => h2 x (BMap.mem_erase hx), ih h3⟩

theorem BMap.wf_insert {d : Octet} {m : BMap} {a : Nat} {v : Octet} (h : BMap.wf d m = true) (hv : v ≠ d) :
    BMap.wf d (BMap.insert m a v) = true := by
  induction m with
  | nil => simp [BMap.insert, BMap.wf, hv]
  | cons e r ih =>
    obtain ⟨h1, h2, h3⟩ := (BMap.wf_cons d e r).mp h
    simp only [BMap.insert]
    split
    · rename_i hlt
      refine (BMap.wf_cons d _ _).mpr ⟨hv, fun x hx => ?_, h⟩
      rcases List.mem_cons.mp hx with rfl | hx
      · exact hlt
      · exact Nat.lt_trans hlt (h2 x hx)
    · split
      · rename_i hlt heq
        exact (BMap.wf_cons d _ _).mpr ⟨hv, heq ▸ h2, h3⟩
      · rename_i hlt hne
        refine (BMap.wf_cons d _ _).mpr ⟨h1, fun x hx => ?_, ih h3⟩
        rcases BMap.mem_insert hx with hx | hx
        · simp only at hlt hne ⊢; omega
        · exact h2 x hx

/-- A write of an octet keeps the canonical form. -/
theorem BMap.wf_set {d : Octet} {m : BMap} (a : Nat) (v : Octet) (h : BMap.wf d m = true) : BMap.wf d (BMap.set d m a v) = true := by
  unfold BMap.set
  split
  · exact BMap.wf_erase a h
  · exact BMap.wf_insert h ‹_›

/-- Writes of consecutive octets keep the canonical form. -/
theorem BMap.wf_setOctets {d : Octet} (l : List Octet) {m : BMap} (a : Nat) (h : BMap.wf d m = true) :
    BMap.wf d (BMap.setOctets d m a l) = true := by
  induction l generalizing m a with
  | nil => exact h
  | cons v r ih => exact ih _ (BMap.wf_set a v h)

/-- Leaving entries out keeps the canonical form. -/
theorem BMap.wf_filter {d : Octet} {m : BMap} (p : Nat × Octet → Bool) (h : BMap.wf d m = true) : BMap.wf d (m.filter p) = true := by
  induction m with
  | nil => rfl
  | cons e r ih =>
    obtain ⟨h1, h2, h3⟩ := (BMap.wf_cons d e r).mp h
    rw [List.filter_cons]
    split
    · exact (BMap.wf_cons d _ _).mpr ⟨h1, fun x hx => h2 x (List.mem_filter.mp hx).1, ih h3⟩
    · exact ih h3

/-! ## Banks -/

@[simp] theorem Bank.nth_upd_self {α : Type} {n : Nat} (b : Bank α n) {k : Nat} (f : α → α) (d : α) (h : k < n) :
    (b.upd k f).nth k d = f (b.nth k d) := by
  have hk : k < b.val.length := by rw [b.property]; exact h
  simp [Bank.nth, Bank.upd, List.getD_eq_getElem?_getD, hk]

@[simp] theorem Bank.nth_upd_ne {α : Type} {n : Nat} (b : Bank α n) {k j : Nat} (f : α → α) (d : α) (h : k ≠ j) :
    (b.upd k f).nth j d = b.nth j d := by
  simp [Bank.nth, Bank.upd, List.getD_eq_getElem?_getD, h]

@[simp] theorem Bank.nth_put_self {α : Type} {n : Nat} (b : Bank α n) {k : Nat} (a d : α) (h : k < n) : (b.put k a).nth k d = a := by
  have hk : k < b.val.length := by rw [b.property]; exact h
  simp [Bank.nth, Bank.put, List.getD_eq_getElem?_getD, hk]

@[simp] theorem Bank.nth_put_ne {α : Type} {n : Nat} (b : Bank α n) {k j : Nat} (a d : α) (h : k ≠ j) : (b.put k a).nth j d = b.nth j d := by
  simp [Bank.nth, Bank.put, List.getD_eq_getElem?_getD, h]

end Sys2Proof.Machine
end

