-- ==== Sys2Proof/Laws/State.lean ====
section
/-!
SUPPORT. What each update of the state leaves alone, one lemma per field, and the registers under them.
-/

namespace Sys2Proof.Machine

variable (s : State)

/-! ## `rset` -/

@[simp] theorem rset_pending (a : Nat) (v : Word) : (rset s a v).pending = s.pending := rfl
@[simp] theorem rset_latches (a : Nat) (v : Word) : (rset s a v).latches = s.latches := rfl
@[simp] theorem rset_staged (a : Nat) (v : Word) : (rset s a v).staged = s.staged := rfl
@[simp] theorem rset_mem (a : Nat) (v : Word) : (rset s a v).mem = s.mem := rfl
@[simp] theorem rset_tlm (a : Nat) (v : Word) : (rset s a v).tlm = s.tlm := rfl
@[simp] theorem rset_time (a : Nat) (v : Word) : (rset s a v).time = s.time := rfl
@[simp] theorem rset_power (a : Nat) (v : Word) : (rset s a v).power = s.power := rfl
@[simp] theorem rset_boot (a : Nat) (v : Word) : (rset s a v).boot = s.boot := rfl
@[simp] theorem rset_wdog (a : Nat) (v : Word) : (rset s a v).wdog = s.wdog := rfl
@[simp] theorem rset_trans (a : Nat) (v : Word) : (rset s a v).trans = s.trans := rfl
@[simp] theorem rset_ports (a : Nat) (v : Word) : (rset s a v).ports = s.ports := rfl
@[simp] theorem rset_sheaves (a : Nat) (v : Word) : (rset s a v).sheaves = s.sheaves := rfl
@[simp] theorem rset_searches (a : Nat) (v : Word) : (rset s a v).searches = s.searches := rfl
@[simp] theorem rset_groups (a : Nat) (v : Word) : (rset s a v).groups = s.groups := rfl
@[simp] theorem rset_samplePhase (a : Nat) (v : Word) : (rset s a v).samplePhase = s.samplePhase := rfl
@[simp] theorem rset_detq (a : Nat) (v : Word) : (rset s a v).detq = s.detq := rfl
@[simp] theorem rset_spks (a : Nat) (v : Word) : (rset s a v).spks = s.spks := rfl
@[simp] theorem rset_frames (a : Nat) (v : Word) : (rset s a v).frames = s.frames := rfl
@[simp] theorem rset_nextFrame (a : Nat) (v : Word) : (rset s a v).nextFrame = s.nextFrame := rfl
@[simp] theorem rset_holds (a : Nat) (v : Word) : (rset s a v).holds = s.holds := rfl
@[simp] theorem rset_win (a : Nat) (v : Word) : (rset s a v).win = s.win := rfl
@[simp] theorem rset_lnk (a : Nat) (v : Word) : (rset s a v).lnk = s.lnk := rfl
@[simp] theorem rset_fuses (a : Nat) (v : Word) : (rset s a v).fuses = s.fuses := rfl
@[simp] theorem rset_ses (a : Nat) (v : Word) : (rset s a v).ses = s.ses := rfl
@[simp] theorem rset_pairs (a : Nat) (v : Word) : (rset s a v).pairs = s.pairs := rfl
@[simp] theorem rset_key (a : Nat) (v : Word) : (rset s a v).key = s.key := rfl
@[simp] theorem rset_cores (a : Nat) (v : Word) : (rset s a v).cores = s.cores := rfl
@[simp] theorem rset_fence (a : Nat) (v : Word) : (rset s a v).fence = s.fence := rfl
@[simp] theorem rset_sage (a : Nat) (v : Word) : (rset s a v).sage = s.sage := rfl
@[simp] theorem rset_usl (a : Nat) (v : Word) : (rset s a v).usl = s.usl := rfl
@[simp] theorem rset_eth (a : Nat) (v : Word) : (rset s a v).eth = s.eth := rfl
@[simp] theorem rset_xsp (a : Nat) (v : Word) : (rset s a v).xsp = s.xsp := rfl
@[simp] theorem rset_flt (a : Nat) (v : Word) : (rset s a v).flt = s.flt := rfl
@[simp] theorem rset_tmrs (a : Nat) (v : Word) : (rset s a v).tmrs = s.tmrs := rfl
@[simp] theorem rset_rtc (a : Nat) (v : Word) : (rset s a v).rtc = s.rtc := rfl
@[simp] theorem rset_int (a : Nat) (v : Word) : (rset s a v).int = s.int := rfl
@[simp] theorem rset_stl (a : Nat) (v : Word) : (rset s a v).stl = s.stl := rfl
@[simp] theorem rset_tag (a : Nat) (v : Word) : (rset s a v).tag = s.tag := rfl
@[simp] theorem rset_reader (a : Nat) (v : Word) : (rset s a v).reader = s.reader := rfl
@[simp] theorem rset_upd (a : Nat) (v : Word) : (rset s a v).upd = s.upd := rfl
@[simp] theorem rset_free (a : Nat) (v : Word) : (rset s a v).free = s.free := rfl
@[simp] theorem rset_out (a : Nat) (v : Word) : (rset s a v).out = s.out := rfl
@[simp] theorem rset_core (a : Nat) (v : Word) (k : Nat) : (rset s a v).core k = s.core k := rfl
@[simp] theorem rset_port (a : Nat) (v : Word) (k : Nat) : (rset s a v).port k = s.port k := rfl
@[simp] theorem rset_sheaf (a : Nat) (v : Word) (k : Nat) : (rset s a v).sheaf k = s.sheaf k := rfl
@[simp] theorem rset_search (a : Nat) (v : Word) (k : Nat) : (rset s a v).search k = s.search k := rfl
@[simp] theorem rset_tmr (a : Nat) (v : Word) (k : Nat) : (rset s a v).tmr k = s.tmr k := rfl

/-! ## `lset` -/

@[simp] theorem lset_pending (t a : Nat) (v : Word) : (lset s t a v).pending = s.pending := rfl
@[simp] theorem lset_regs (t a : Nat) (v : Word) : (lset s t a v).regs = s.regs := rfl
@[simp] theorem lset_latches (t a : Nat) (v : Word) : (lset s t a v).latches = s.latches := rfl
@[simp] theorem lset_staged (t a : Nat) (v : Word) : (lset s t a v).staged = s.staged := rfl
@[simp] theorem lset_mem (t a : Nat) (v : Word) : (lset s t a v).mem = s.mem := rfl
@[simp] theorem lset_time (t a : Nat) (v : Word) : (lset s t a v).time = s.time := rfl
@[simp] theorem lset_power (t a : Nat) (v : Word) : (lset s t a v).power = s.power := rfl
@[simp] theorem lset_boot (t a : Nat) (v : Word) : (lset s t a v).boot = s.boot := rfl
@[simp] theorem lset_wdog (t a : Nat) (v : Word) : (lset s t a v).wdog = s.wdog := rfl
@[simp] theorem lset_trans (t a : Nat) (v : Word) : (lset s t a v).trans = s.trans := rfl
@[simp] theorem lset_ports (t a : Nat) (v : Word) : (lset s t a v).ports = s.ports := rfl
@[simp] theorem lset_sheaves (t a : Nat) (v : Word) : (lset s t a v).sheaves = s.sheaves := rfl
@[simp] theorem lset_searches (t a : Nat) (v : Word) : (lset s t a v).searches = s.searches := rfl
@[simp] theorem lset_groups (t a : Nat) (v : Word) : (lset s t a v).groups = s.groups := rfl
@[simp] theorem lset_samplePhase (t a : Nat) (v : Word) : (lset s t a v).samplePhase = s.samplePhase := rfl
@[simp] theorem lset_detq (t a : Nat) (v : Word) : (lset s t a v).detq = s.detq := rfl
@[simp] theorem lset_spks (t a : Nat) (v : Word) : (lset s t a v).spks = s.spks := rfl
@[simp] theorem lset_frames (t a : Nat) (v : Word) : (lset s t a v).frames = s.frames := rfl
@[simp] theorem lset_nextFrame (t a : Nat) (v : Word) : (lset s t a v).nextFrame = s.nextFrame := rfl
@[simp] theorem lset_holds (t a : Nat) (v : Word) : (lset s t a v).holds = s.holds := rfl
@[simp] theorem lset_win (t a : Nat) (v : Word) : (lset s t a v).win = s.win := rfl
@[simp] theorem lset_lnk (t a : Nat) (v : Word) : (lset s t a v).lnk = s.lnk := rfl
@[simp] theorem lset_fuses (t a : Nat) (v : Word) : (lset s t a v).fuses = s.fuses := rfl
@[simp] theorem lset_ses (t a : Nat) (v : Word) : (lset s t a v).ses = s.ses := rfl
@[simp] theorem lset_pairs (t a : Nat) (v : Word) : (lset s t a v).pairs = s.pairs := rfl
@[simp] theorem lset_key (t a : Nat) (v : Word) : (lset s t a v).key = s.key := rfl
@[simp] theorem lset_cores (t a : Nat) (v : Word) : (lset s t a v).cores = s.cores := rfl
@[simp] theorem lset_fence (t a : Nat) (v : Word) : (lset s t a v).fence = s.fence := rfl
@[simp] theorem lset_sage (t a : Nat) (v : Word) : (lset s t a v).sage = s.sage := rfl
@[simp] theorem lset_usl (t a : Nat) (v : Word) : (lset s t a v).usl = s.usl := rfl
@[simp] theorem lset_eth (t a : Nat) (v : Word) : (lset s t a v).eth = s.eth := rfl
@[simp] theorem lset_xsp (t a : Nat) (v : Word) : (lset s t a v).xsp = s.xsp := rfl
@[simp] theorem lset_flt (t a : Nat) (v : Word) : (lset s t a v).flt = s.flt := rfl
@[simp] theorem lset_tmrs (t a : Nat) (v : Word) : (lset s t a v).tmrs = s.tmrs := rfl
@[simp] theorem lset_rtc (t a : Nat) (v : Word) : (lset s t a v).rtc = s.rtc := rfl
@[simp] theorem lset_int (t a : Nat) (v : Word) : (lset s t a v).int = s.int := rfl
@[simp] theorem lset_stl (t a : Nat) (v : Word) : (lset s t a v).stl = s.stl := rfl
@[simp] theorem lset_tag (t a : Nat) (v : Word) : (lset s t a v).tag = s.tag := rfl
@[simp] theorem lset_reader (t a : Nat) (v : Word) : (lset s t a v).reader = s.reader := rfl
@[simp] theorem lset_upd (t a : Nat) (v : Word) : (lset s t a v).upd = s.upd := rfl
@[simp] theorem lset_free (t a : Nat) (v : Word) : (lset s t a v).free = s.free := rfl
@[simp] theorem lset_out (t a : Nat) (v : Word) : (lset s t a v).out = s.out := rfl
@[simp] theorem rget_lset (t a : Nat) (v : Word) (b : Nat) : rget (lset s t a v) b = rget s b := rfl
@[simp] theorem rbit_lset (t a : Nat) (v : Word) (b i : Nat) : rbit (lset s t a v) b i = rbit s b i := rfl
@[simp] theorem rfld_lset (t a : Nat) (v : Word) (b hi lo : Nat) : rfld (lset s t a v) b hi lo = rfld s b hi lo := rfl
@[simp] theorem lset_core (t a : Nat) (v : Word) (k : Nat) : (lset s t a v).core k = s.core k := rfl
@[simp] theorem lset_port (t a : Nat) (v : Word) (k : Nat) : (lset s t a v).port k = s.port k := rfl
@[simp] theorem lset_sheaf (t a : Nat) (v : Word) (k : Nat) : (lset s t a v).sheaf k = s.sheaf k := rfl
@[simp] theorem lset_search (t a : Nat) (v : Word) (k : Nat) : (lset s t a v).search k = s.search k := rfl
@[simp] theorem lset_tmr (t a : Nat) (v : Word) (k : Nat) : (lset s t a v).tmr k = s.tmr k := rfl

/-! ## `reach` -/

@[simp] theorem reach_pending (t : Nat) : (reach s t).pending = s.pending := rfl
@[simp] theorem reach_regs (t : Nat) : (reach s t).regs = s.regs := rfl
@[simp] theorem reach_latches (t : Nat) : (reach s t).latches = s.latches := rfl
@[simp] theorem reach_staged (t : Nat) : (reach s t).staged = s.staged := rfl
@[simp] theorem reach_mem (t : Nat) : (reach s t).mem = s.mem := rfl
@[simp] theorem reach_tlm (t : Nat) : (reach s t).tlm = s.tlm := rfl
@[simp] theorem reach_power (t : Nat) : (reach s t).power = s.power := rfl
@[simp] theorem reach_boot (t : Nat) : (reach s t).boot = s.boot := rfl
@[simp] theorem reach_wdog (t : Nat) : (reach s t).wdog = s.wdog := rfl
@[simp] theorem reach_trans (t : Nat) : (reach s t).trans = s.trans := rfl
@[simp] theorem reach_ports (t : Nat) : (reach s t).ports = s.ports := rfl
@[simp] theorem reach_sheaves (t : Nat) : (reach s t).sheaves = s.sheaves := rfl
@[simp] theorem reach_searches (t : Nat) : (reach s t).searches = s.searches := rfl
@[simp] theorem reach_groups (t : Nat) : (reach s t).groups = s.groups := rfl
@[simp] theorem reach_samplePhase (t : Nat) : (reach s t).samplePhase = s.samplePhase := rfl
@[simp] theorem reach_detq (t : Nat) : (reach s t).detq = s.detq := rfl
@[simp] theorem reach_spks (t : Nat) : (reach s t).spks = s.spks := rfl
@[simp] theorem reach_frames (t : Nat) : (reach s t).frames = s.frames := rfl
@[simp] theorem reach_nextFrame (t : Nat) : (reach s t).nextFrame = s.nextFrame := rfl
@[simp] theorem reach_holds (t : Nat) : (reach s t).holds = s.holds := rfl
@[simp] theorem reach_win (t : Nat) : (reach s t).win = s.win := rfl
@[simp] theorem reach_lnk (t : Nat) : (reach s t).lnk = s.lnk := rfl
@[simp] theorem reach_fuses (t : Nat) : (reach s t).fuses = s.fuses := rfl
@[simp] theorem reach_ses (t : Nat) : (reach s t).ses = s.ses := rfl
@[simp] theorem reach_pairs (t : Nat) : (reach s t).pairs = s.pairs := rfl
@[simp] theorem reach_key (t : Nat) : (reach s t).key = s.key := rfl
@[simp] theorem reach_cores (t : Nat) : (reach s t).cores = s.cores := rfl
@[simp] theorem reach_fence (t : Nat) : (reach s t).fence = s.fence := rfl
@[simp] theorem reach_sage (t : Nat) : (reach s t).sage = s.sage := rfl
@[simp] theorem reach_usl (t : Nat) : (reach s t).usl = s.usl := rfl
@[simp] theorem reach_eth (t : Nat) : (reach s t).eth = s.eth := rfl
@[simp] theorem reach_xsp (t : Nat) : (reach s t).xsp = s.xsp := rfl
@[simp] theorem reach_flt (t : Nat) : (reach s t).flt = s.flt := rfl
@[simp] theorem reach_tmrs (t : Nat) : (reach s t).tmrs = s.tmrs := rfl
@[simp] theorem reach_rtc (t : Nat) : (reach s t).rtc = s.rtc := rfl
@[simp] theorem reach_int (t : Nat) : (reach s t).int = s.int := rfl
@[simp] theorem reach_stl (t : Nat) : (reach s t).stl = s.stl := rfl
@[simp] theorem reach_tag (t : Nat) : (reach s t).tag = s.tag := rfl
@[simp] theorem reach_reader (t : Nat) : (reach s t).reader = s.reader := rfl
@[simp] theorem reach_upd (t : Nat) : (reach s t).upd = s.upd := rfl
@[simp] theorem reach_free (t : Nat) : (reach s t).free = s.free := rfl
@[simp] theorem reach_out (t : Nat) : (reach s t).out = s.out := rfl
@[simp] theorem rget_reach (t : Nat) (b : Nat) : rget (reach s t) b = rget s b := rfl
@[simp] theorem rbit_reach (t : Nat) (b i : Nat) : rbit (reach s t) b i = rbit s b i := rfl
@[simp] theorem rfld_reach (t : Nat) (b hi lo : Nat) : rfld (reach s t) b hi lo = rfld s b hi lo := rfl
@[simp] theorem reach_core (t : Nat) (k : Nat) : (reach s t).core k = s.core k := rfl
@[simp] theorem reach_port (t : Nat) (k : Nat) : (reach s t).port k = s.port k := rfl
@[simp] theorem reach_sheaf (t : Nat) (k : Nat) : (reach s t).sheaf k = s.sheaf k := rfl
@[simp] theorem reach_search (t : Nat) (k : Nat) : (reach s t).search k = s.search k := rfl
@[simp] theorem reach_tmr (t : Nat) (k : Nat) : (reach s t).tmr k = s.tmr k := rfl

/-! ## `bumpFree` -/

@[simp] theorem bumpFree_pending (n : Nat) : (bumpFree s n).pending = s.pending := rfl
@[simp] theorem bumpFree_regs (n : Nat) : (bumpFree s n).regs = s.regs := rfl
@[simp] theorem bumpFree_latches (n : Nat) : (bumpFree s n).latches = s.latches := rfl
@[simp] theorem bumpFree_staged (n : Nat) : (bumpFree s n).staged = s.staged := rfl
@[simp] theorem bumpFree_mem (n : Nat) : (bumpFree s n).mem = s.mem := rfl
@[simp] theorem bumpFree_tlm (n : Nat) : (bumpFree s n).tlm = s.tlm := rfl
@[simp] theorem bumpFree_time (n : Nat) : (bumpFree s n).time = s.time := rfl
@[simp] theorem bumpFree_power (n : Nat) : (bumpFree s n).power = s.power := rfl
@[simp] theorem bumpFree_boot (n : Nat) : (bumpFree s n).boot = s.boot := rfl
@[simp] theorem bumpFree_wdog (n : Nat) : (bumpFree s n).wdog = s.wdog := rfl
@[simp] theorem bumpFree_trans (n : Nat) : (bumpFree s n).trans = s.trans := rfl
@[simp] theorem bumpFree_ports (n : Nat) : (bumpFree s n).ports = s.ports := rfl
@[simp] theorem bumpFree_sheaves (n : Nat) : (bumpFree s n).sheaves = s.sheaves := rfl
@[simp] theorem bumpFree_searches (n : Nat) : (bumpFree s n).searches = s.searches := rfl
@[simp] theorem bumpFree_groups (n : Nat) : (bumpFree s n).groups = s.groups := rfl
@[simp] theorem bumpFree_samplePhase (n : Nat) : (bumpFree s n).samplePhase = s.samplePhase := rfl
@[simp] theorem bumpFree_detq (n : Nat) : (bumpFree s n).detq = s.detq := rfl
@[simp] theorem bumpFree_spks (n : Nat) : (bumpFree s n).spks = s.spks := rfl
@[simp] theorem bumpFree_frames (n : Nat) : (bumpFree s n).frames = s.frames := rfl
@[simp] theorem bumpFree_nextFrame (n : Nat) : (bumpFree s n).nextFrame = s.nextFrame := rfl
@[simp] theorem bumpFree_holds (n : Nat) : (bumpFree s n).holds = s.holds := rfl
@[simp] theorem bumpFree_win (n : Nat) : (bumpFree s n).win = s.win := rfl
@[simp] theorem bumpFree_lnk (n : Nat) : (bumpFree s n).lnk = s.lnk := rfl
@[simp] theorem bumpFree_fuses (n : Nat) : (bumpFree s n).fuses = s.fuses := rfl
@[simp] theorem bumpFree_ses (n : Nat) : (bumpFree s n).ses = s.ses := rfl
@[simp] theorem bumpFree_pairs (n : Nat) : (bumpFree s n).pairs = s.pairs := rfl
@[simp] theorem bumpFree_key (n : Nat) : (bumpFree s n).key = s.key := rfl
@[simp] theorem bumpFree_cores (n : Nat) : (bumpFree s n).cores = s.cores := rfl
@[simp] theorem bumpFree_fence (n : Nat) : (bumpFree s n).fence = s.fence := rfl
@[simp] theorem bumpFree_sage (n : Nat) : (bumpFree s n).sage = s.sage := rfl
@[simp] theorem bumpFree_usl (n : Nat) : (bumpFree s n).usl = s.usl := rfl
@[simp] theorem bumpFree_eth (n : Nat) : (bumpFree s n).eth = s.eth := rfl
@[simp] theorem bumpFree_xsp (n : Nat) : (bumpFree s n).xsp = s.xsp := rfl
@[simp] theorem bumpFree_flt (n : Nat) : (bumpFree s n).flt = s.flt := rfl
@[simp] theorem bumpFree_tmrs (n : Nat) : (bumpFree s n).tmrs = s.tmrs := rfl
@[simp] theorem bumpFree_rtc (n : Nat) : (bumpFree s n).rtc = s.rtc := rfl
@[simp] theorem bumpFree_int (n : Nat) : (bumpFree s n).int = s.int := rfl
@[simp] theorem bumpFree_stl (n : Nat) : (bumpFree s n).stl = s.stl := rfl
@[simp] theorem bumpFree_tag (n : Nat) : (bumpFree s n).tag = s.tag := rfl
@[simp] theorem bumpFree_reader (n : Nat) : (bumpFree s n).reader = s.reader := rfl
@[simp] theorem bumpFree_upd (n : Nat) : (bumpFree s n).upd = s.upd := rfl
@[simp] theorem bumpFree_out (n : Nat) : (bumpFree s n).out = s.out := rfl
@[simp] theorem rget_bumpFree (n : Nat) (b : Nat) : rget (bumpFree s n) b = rget s b := rfl
@[simp] theorem rbit_bumpFree (n : Nat) (b i : Nat) : rbit (bumpFree s n) b i = rbit s b i := rfl
@[simp] theorem rfld_bumpFree (n : Nat) (b hi lo : Nat) : rfld (bumpFree s n) b hi lo = rfld s b hi lo := rfl
@[simp] theorem bumpFree_core (n : Nat) (k : Nat) : (bumpFree s n).core k = s.core k := rfl
@[simp] theorem bumpFree_port (n : Nat) (k : Nat) : (bumpFree s n).port k = s.port k := rfl
@[simp] theorem bumpFree_sheaf (n : Nat) (k : Nat) : (bumpFree s n).sheaf k = s.sheaf k := rfl
@[simp] theorem bumpFree_search (n : Nat) (k : Nat) : (bumpFree s n).search k = s.search k := rfl
@[simp] theorem bumpFree_tmr (n : Nat) (k : Nat) : (bumpFree s n).tmr k = s.tmr k := rfl

/-! ## `updPort` -/

@[simp] theorem updPort_pending (p : Nat) (f : PortSt → PortSt) : (s.updPort p f).pending = s.pending := rfl
@[simp] theorem updPort_regs (p : Nat) (f : PortSt → PortSt) : (s.updPort p f).regs = s.regs := rfl
@[simp] theorem updPort_latches (p : Nat) (f : PortSt → PortSt) : (s.updPort p f).latches = s.latches := rfl
@[simp] theorem updPort_staged (p : Nat) (f : PortSt → PortSt) : (s.updPort p f).staged = s.staged := rfl
@[simp] theorem updPort_mem (p : Nat) (f : PortSt → PortSt) : (s.updPort p f).mem = s.mem := rfl
@[simp] theorem updPort_tlm (p : Nat) (f : PortSt → PortSt) : (s.updPort p f).tlm = s.tlm := rfl
@[simp] theorem updPort_time (p : Nat) (f : PortSt → PortSt) : (s.updPort p f).time = s.time := rfl
@[simp] theorem updPort_power (p : Nat) (f : PortSt → PortSt) : (s.updPort p f).power = s.power := rfl
@[simp] theorem updPort_boot (p : Nat) (f : PortSt → PortSt) : (s.updPort p f).boot = s.boot := rfl
@[simp] theorem updPort_wdog (p : Nat) (f : PortSt → PortSt) : (s.updPort p f).wdog = s.wdog := rfl
@[simp] theorem updPort_trans (p : Nat) (f : PortSt → PortSt) : (s.updPort p f).trans = s.trans := rfl
@[simp] theorem updPort_sheaves (p : Nat) (f : PortSt → PortSt) : (s.updPort p f).sheaves = s.sheaves := rfl
@[simp] theorem updPort_searches (p : Nat) (f : PortSt → PortSt) : (s.updPort p f).searches = s.searches := rfl
@[simp] theorem updPort_groups (p : Nat) (f : PortSt → PortSt) : (s.updPort p f).groups = s.groups := rfl
@[simp] theorem updPort_samplePhase (p : Nat) (f : PortSt → PortSt) : (s.updPort p f).samplePhase = s.samplePhase := rfl
@[simp] theorem updPort_detq (p : Nat) (f : PortSt → PortSt) : (s.updPort p f).detq = s.detq := rfl
@[simp] theorem updPort_spks (p : Nat) (f : PortSt → PortSt) : (s.updPort p f).spks = s.spks := rfl
@[simp] theorem updPort_frames (p : Nat) (f : PortSt → PortSt) : (s.updPort p f).frames = s.frames := rfl
@[simp] theorem updPort_nextFrame (p : Nat) (f : PortSt → PortSt) : (s.updPort p f).nextFrame = s.nextFrame := rfl
@[simp] theorem updPort_holds (p : Nat) (f : PortSt → PortSt) : (s.updPort p f).holds = s.holds := rfl
@[simp] theorem updPort_win (p : Nat) (f : PortSt → PortSt) : (s.updPort p f).win = s.win := rfl
@[simp] theorem updPort_lnk (p : Nat) (f : PortSt → PortSt) : (s.updPort p f).lnk = s.lnk := rfl
@[simp] theorem updPort_fuses (p : Nat) (f : PortSt → PortSt) : (s.updPort p f).fuses = s.fuses := rfl
@[simp] theorem updPort_ses (p : Nat) (f : PortSt → PortSt) : (s.updPort p f).ses = s.ses := rfl
@[simp] theorem updPort_pairs (p : Nat) (f : PortSt → PortSt) : (s.updPort p f).pairs = s.pairs := rfl
@[simp] theorem updPort_key (p : Nat) (f : PortSt → PortSt) : (s.updPort p f).key = s.key := rfl
@[simp] theorem updPort_cores (p : Nat) (f : PortSt → PortSt) : (s.updPort p f).cores = s.cores := rfl
@[simp] theorem updPort_fence (p : Nat) (f : PortSt → PortSt) : (s.updPort p f).fence = s.fence := rfl
@[simp] theorem updPort_sage (p : Nat) (f : PortSt → PortSt) : (s.updPort p f).sage = s.sage := rfl
@[simp] theorem updPort_usl (p : Nat) (f : PortSt → PortSt) : (s.updPort p f).usl = s.usl := rfl
@[simp] theorem updPort_eth (p : Nat) (f : PortSt → PortSt) : (s.updPort p f).eth = s.eth := rfl
@[simp] theorem updPort_xsp (p : Nat) (f : PortSt → PortSt) : (s.updPort p f).xsp = s.xsp := rfl
@[simp] theorem updPort_flt (p : Nat) (f : PortSt → PortSt) : (s.updPort p f).flt = s.flt := rfl
@[simp] theorem updPort_tmrs (p : Nat) (f : PortSt → PortSt) : (s.updPort p f).tmrs = s.tmrs := rfl
@[simp] theorem updPort_rtc (p : Nat) (f : PortSt → PortSt) : (s.updPort p f).rtc = s.rtc := rfl
@[simp] theorem updPort_int (p : Nat) (f : PortSt → PortSt) : (s.updPort p f).int = s.int := rfl
@[simp] theorem updPort_stl (p : Nat) (f : PortSt → PortSt) : (s.updPort p f).stl = s.stl := rfl
@[simp] theorem updPort_tag (p : Nat) (f : PortSt → PortSt) : (s.updPort p f).tag = s.tag := rfl
@[simp] theorem updPort_reader (p : Nat) (f : PortSt → PortSt) : (s.updPort p f).reader = s.reader := rfl
@[simp] theorem updPort_upd (p : Nat) (f : PortSt → PortSt) : (s.updPort p f).upd = s.upd := rfl
@[simp] theorem updPort_free (p : Nat) (f : PortSt → PortSt) : (s.updPort p f).free = s.free := rfl
@[simp] theorem updPort_out (p : Nat) (f : PortSt → PortSt) : (s.updPort p f).out = s.out := rfl
@[simp] theorem rget_updPort (p : Nat) (f : PortSt → PortSt) (b : Nat) : rget (s.updPort p f) b = rget s b := rfl
@[simp] theorem rbit_updPort (p : Nat) (f : PortSt → PortSt) (b i : Nat) : rbit (s.updPort p f) b i = rbit s b i := rfl
@[simp] theorem rfld_updPort (p : Nat) (f : PortSt → PortSt) (b hi lo : Nat) : rfld (s.updPort p f) b hi lo = rfld s b hi lo := rfl
@[simp] theorem updPort_core (p : Nat) (f : PortSt → PortSt) (k : Nat) : (s.updPort p f).core k = s.core k := rfl
@[simp] theorem updPort_sheaf (p : Nat) (f : PortSt → PortSt) (k : Nat) : (s.updPort p f).sheaf k = s.sheaf k := rfl
@[simp] theorem updPort_search (p : Nat) (f : PortSt → PortSt) (k : Nat) : (s.updPort p f).search k = s.search k := rfl
@[simp] theorem updPort_tmr (p : Nat) (f : PortSt → PortSt) (k : Nat) : (s.updPort p f).tmr k = s.tmr k := rfl

/-! ## `updSheaf` -/

@[simp] theorem updSheaf_pending (n : Nat) (f : SheafSt → SheafSt) : (s.updSheaf n f).pending = s.pending := rfl
@[simp] theorem updSheaf_regs (n : Nat) (f : SheafSt → SheafSt) : (s.updSheaf n f).regs = s.regs := rfl
@[simp] theorem updSheaf_latches (n : Nat) (f : SheafSt → SheafSt) : (s.updSheaf n f).latches = s.latches := rfl
@[simp] theorem updSheaf_staged (n : Nat) (f : SheafSt → SheafSt) : (s.updSheaf n f).staged = s.staged := rfl
@[simp] theorem updSheaf_mem (n : Nat) (f : SheafSt → SheafSt) : (s.updSheaf n f).mem = s.mem := rfl
@[simp] theorem updSheaf_tlm (n : Nat) (f : SheafSt → SheafSt) : (s.updSheaf n f).tlm = s.tlm := rfl
@[simp] theorem updSheaf_time (n : Nat) (f : SheafSt → SheafSt) : (s.updSheaf n f).time = s.time := rfl
@[simp] theorem updSheaf_power (n : Nat) (f : SheafSt → SheafSt) : (s.updSheaf n f).power = s.power := rfl
@[simp] theorem updSheaf_boot (n : Nat) (f : SheafSt → SheafSt) : (s.updSheaf n f).boot = s.boot := rfl
@[simp] theorem updSheaf_wdog (n : Nat) (f : SheafSt → SheafSt) : (s.updSheaf n f).wdog = s.wdog := rfl
@[simp] theorem updSheaf_trans (n : Nat) (f : SheafSt → SheafSt) : (s.updSheaf n f).trans = s.trans := rfl
@[simp] theorem updSheaf_ports (n : Nat) (f : SheafSt → SheafSt) : (s.updSheaf n f).ports = s.ports := rfl
@[simp] theorem updSheaf_searches (n : Nat) (f : SheafSt → SheafSt) : (s.updSheaf n f).searches = s.searches := rfl
@[simp] theorem updSheaf_groups (n : Nat) (f : SheafSt → SheafSt) : (s.updSheaf n f).groups = s.groups := rfl
@[simp] theorem updSheaf_samplePhase (n : Nat) (f : SheafSt → SheafSt) : (s.updSheaf n f).samplePhase = s.samplePhase := rfl
@[simp] theorem updSheaf_detq (n : Nat) (f : SheafSt → SheafSt) : (s.updSheaf n f).detq = s.detq := rfl
@[simp] theorem updSheaf_spks (n : Nat) (f : SheafSt → SheafSt) : (s.updSheaf n f).spks = s.spks := rfl
@[simp] theorem updSheaf_frames (n : Nat) (f : SheafSt → SheafSt) : (s.updSheaf n f).frames = s.frames := rfl
@[simp] theorem updSheaf_nextFrame (n : Nat) (f : SheafSt → SheafSt) : (s.updSheaf n f).nextFrame = s.nextFrame := rfl
@[simp] theorem updSheaf_holds (n : Nat) (f : SheafSt → SheafSt) : (s.updSheaf n f).holds = s.holds := rfl
@[simp] theorem updSheaf_win (n : Nat) (f : SheafSt → SheafSt) : (s.updSheaf n f).win = s.win := rfl
@[simp] theorem updSheaf_lnk (n : Nat) (f : SheafSt → SheafSt) : (s.updSheaf n f).lnk = s.lnk := rfl
@[simp] theorem updSheaf_fuses (n : Nat) (f : SheafSt → SheafSt) : (s.updSheaf n f).fuses = s.fuses := rfl
@[simp] theorem updSheaf_ses (n : Nat) (f : SheafSt → SheafSt) : (s.updSheaf n f).ses = s.ses := rfl
@[simp] theorem updSheaf_pairs (n : Nat) (f : SheafSt → SheafSt) : (s.updSheaf n f).pairs = s.pairs := rfl
@[simp] theorem updSheaf_key (n : Nat) (f : SheafSt → SheafSt) : (s.updSheaf n f).key = s.key := rfl
@[simp] theorem updSheaf_cores (n : Nat) (f : SheafSt → SheafSt) : (s.updSheaf n f).cores = s.cores := rfl
@[simp] theorem updSheaf_fence (n : Nat) (f : SheafSt → SheafSt) : (s.updSheaf n f).fence = s.fence := rfl
@[simp] theorem updSheaf_sage (n : Nat) (f : SheafSt → SheafSt) : (s.updSheaf n f).sage = s.sage := rfl
@[simp] theorem updSheaf_usl (n : Nat) (f : SheafSt → SheafSt) : (s.updSheaf n f).usl = s.usl := rfl
@[simp] theorem updSheaf_eth (n : Nat) (f : SheafSt → SheafSt) : (s.updSheaf n f).eth = s.eth := rfl
@[simp] theorem updSheaf_xsp (n : Nat) (f : SheafSt → SheafSt) : (s.updSheaf n f).xsp = s.xsp := rfl
@[simp] theorem updSheaf_flt (n : Nat) (f : SheafSt → SheafSt) : (s.updSheaf n f).flt = s.flt := rfl
@[simp] theorem updSheaf_tmrs (n : Nat) (f : SheafSt → SheafSt) : (s.updSheaf n f).tmrs = s.tmrs := rfl
@[simp] theorem updSheaf_rtc (n : Nat) (f : SheafSt → SheafSt) : (s.updSheaf n f).rtc = s.rtc := rfl
@[simp] theorem updSheaf_int (n : Nat) (f : SheafSt → SheafSt) : (s.updSheaf n f).int = s.int := rfl
@[simp] theorem updSheaf_stl (n : Nat) (f : SheafSt → SheafSt) : (s.updSheaf n f).stl = s.stl := rfl
@[simp] theorem updSheaf_tag (n : Nat) (f : SheafSt → SheafSt) : (s.updSheaf n f).tag = s.tag := rfl
@[simp] theorem updSheaf_reader (n : Nat) (f : SheafSt → SheafSt) : (s.updSheaf n f).reader = s.reader := rfl
@[simp] theorem updSheaf_upd (n : Nat) (f : SheafSt → SheafSt) : (s.updSheaf n f).upd = s.upd := rfl
@[simp] theorem updSheaf_free (n : Nat) (f : SheafSt → SheafSt) : (s.updSheaf n f).free = s.free := rfl
@[simp] theorem updSheaf_out (n : Nat) (f : SheafSt → SheafSt) : (s.updSheaf n f).out = s.out := rfl
@[simp] theorem rget_updSheaf (n : Nat) (f : SheafSt → SheafSt) (b : Nat) : rget (s.updSheaf n f) b = rget s b := rfl
@[simp] theorem rbit_updSheaf (n : Nat) (f : SheafSt → SheafSt) (b i : Nat) : rbit (s.updSheaf n f) b i = rbit s b i := rfl
@[simp] theorem rfld_updSheaf (n : Nat) (f : SheafSt → SheafSt) (b hi lo : Nat) : rfld (s.updSheaf n f) b hi lo = rfld s b hi lo := rfl
@[simp] theorem updSheaf_core (n : Nat) (f : SheafSt → SheafSt) (k : Nat) : (s.updSheaf n f).core k = s.core k := rfl
@[simp] theorem updSheaf_port (n : Nat) (f : SheafSt → SheafSt) (k : Nat) : (s.updSheaf n f).port k = s.port k := rfl
@[simp] theorem updSheaf_search (n : Nat) (f : SheafSt → SheafSt) (k : Nat) : (s.updSheaf n f).search k = s.search k := rfl
@[simp] theorem updSheaf_tmr (n : Nat) (f : SheafSt → SheafSt) (k : Nat) : (s.updSheaf n f).tmr k = s.tmr k := rfl

/-! ## `updSearch` -/

@[simp] theorem updSearch_pending (n : Nat) (f : SearchSt → SearchSt) : (s.updSearch n f).pending = s.pending := rfl
@[simp] theorem updSearch_regs (n : Nat) (f : SearchSt → SearchSt) : (s.updSearch n f).regs = s.regs := rfl
@[simp] theorem updSearch_latches (n : Nat) (f : SearchSt → SearchSt) : (s.updSearch n f).latches = s.latches := rfl
@[simp] theorem updSearch_staged (n : Nat) (f : SearchSt → SearchSt) : (s.updSearch n f).staged = s.staged := rfl
@[simp] theorem updSearch_mem (n : Nat) (f : SearchSt → SearchSt) : (s.updSearch n f).mem = s.mem := rfl
@[simp] theorem updSearch_tlm (n : Nat) (f : SearchSt → SearchSt) : (s.updSearch n f).tlm = s.tlm := rfl
@[simp] theorem updSearch_time (n : Nat) (f : SearchSt → SearchSt) : (s.updSearch n f).time = s.time := rfl
@[simp] theorem updSearch_power (n : Nat) (f : SearchSt → SearchSt) : (s.updSearch n f).power = s.power := rfl
@[simp] theorem updSearch_boot (n : Nat) (f : SearchSt → SearchSt) : (s.updSearch n f).boot = s.boot := rfl
@[simp] theorem updSearch_wdog (n : Nat) (f : SearchSt → SearchSt) : (s.updSearch n f).wdog = s.wdog := rfl
@[simp] theorem updSearch_trans (n : Nat) (f : SearchSt → SearchSt) : (s.updSearch n f).trans = s.trans := rfl
@[simp] theorem updSearch_ports (n : Nat) (f : SearchSt → SearchSt) : (s.updSearch n f).ports = s.ports := rfl
@[simp] theorem updSearch_sheaves (n : Nat) (f : SearchSt → SearchSt) : (s.updSearch n f).sheaves = s.sheaves := rfl
@[simp] theorem updSearch_groups (n : Nat) (f : SearchSt → SearchSt) : (s.updSearch n f).groups = s.groups := rfl
@[simp] theorem updSearch_samplePhase (n : Nat) (f : SearchSt → SearchSt) : (s.updSearch n f).samplePhase = s.samplePhase := rfl
@[simp] theorem updSearch_detq (n : Nat) (f : SearchSt → SearchSt) : (s.updSearch n f).detq = s.detq := rfl
@[simp] theorem updSearch_spks (n : Nat) (f : SearchSt → SearchSt) : (s.updSearch n f).spks = s.spks := rfl
@[simp] theorem updSearch_frames (n : Nat) (f : SearchSt → SearchSt) : (s.updSearch n f).frames = s.frames := rfl
@[simp] theorem updSearch_nextFrame (n : Nat) (f : SearchSt → SearchSt) : (s.updSearch n f).nextFrame = s.nextFrame := rfl
@[simp] theorem updSearch_holds (n : Nat) (f : SearchSt → SearchSt) : (s.updSearch n f).holds = s.holds := rfl
@[simp] theorem updSearch_win (n : Nat) (f : SearchSt → SearchSt) : (s.updSearch n f).win = s.win := rfl
@[simp] theorem updSearch_lnk (n : Nat) (f : SearchSt → SearchSt) : (s.updSearch n f).lnk = s.lnk := rfl
@[simp] theorem updSearch_fuses (n : Nat) (f : SearchSt → SearchSt) : (s.updSearch n f).fuses = s.fuses := rfl
@[simp] theorem updSearch_ses (n : Nat) (f : SearchSt → SearchSt) : (s.updSearch n f).ses = s.ses := rfl
@[simp] theorem updSearch_pairs (n : Nat) (f : SearchSt → SearchSt) : (s.updSearch n f).pairs = s.pairs := rfl
@[simp] theorem updSearch_key (n : Nat) (f : SearchSt → SearchSt) : (s.updSearch n f).key = s.key := rfl
@[simp] theorem updSearch_cores (n : Nat) (f : SearchSt → SearchSt) : (s.updSearch n f).cores = s.cores := rfl
@[simp] theorem updSearch_fence (n : Nat) (f : SearchSt → SearchSt) : (s.updSearch n f).fence = s.fence := rfl
@[simp] theorem updSearch_sage (n : Nat) (f : SearchSt → SearchSt) : (s.updSearch n f).sage = s.sage := rfl
@[simp] theorem updSearch_usl (n : Nat) (f : SearchSt → SearchSt) : (s.updSearch n f).usl = s.usl := rfl
@[simp] theorem updSearch_eth (n : Nat) (f : SearchSt → SearchSt) : (s.updSearch n f).eth = s.eth := rfl
@[simp] theorem updSearch_xsp (n : Nat) (f : SearchSt → SearchSt) : (s.updSearch n f).xsp = s.xsp := rfl
@[simp] theorem updSearch_flt (n : Nat) (f : SearchSt → SearchSt) : (s.updSearch n f).flt = s.flt := rfl
@[simp] theorem updSearch_tmrs (n : Nat) (f : SearchSt → SearchSt) : (s.updSearch n f).tmrs = s.tmrs := rfl
@[simp] theorem updSearch_rtc (n : Nat) (f : SearchSt → SearchSt) : (s.updSearch n f).rtc = s.rtc := rfl
@[simp] theorem updSearch_int (n : Nat) (f : SearchSt → SearchSt) : (s.updSearch n f).int = s.int := rfl
@[simp] theorem updSearch_stl (n : Nat) (f : SearchSt → SearchSt) : (s.updSearch n f).stl = s.stl := rfl
@[simp] theorem updSearch_tag (n : Nat) (f : SearchSt → SearchSt) : (s.updSearch n f).tag = s.tag := rfl
@[simp] theorem updSearch_reader (n : Nat) (f : SearchSt → SearchSt) : (s.updSearch n f).reader = s.reader := rfl
@[simp] theorem updSearch_upd (n : Nat) (f : SearchSt → SearchSt) : (s.updSearch n f).upd = s.upd := rfl
@[simp] theorem updSearch_free (n : Nat) (f : SearchSt → SearchSt) : (s.updSearch n f).free = s.free := rfl
@[simp] theorem updSearch_out (n : Nat) (f : SearchSt → SearchSt) : (s.updSearch n f).out = s.out := rfl
@[simp] theorem rget_updSearch (n : Nat) (f : SearchSt → SearchSt) (b : Nat) : rget (s.updSearch n f) b = rget s b := rfl
@[simp] theorem rbit_updSearch (n : Nat) (f : SearchSt → SearchSt) (b i : Nat) : rbit (s.updSearch n f) b i = rbit s b i := rfl
@[simp] theorem rfld_updSearch (n : Nat) (f : SearchSt → SearchSt) (b hi lo : Nat) : rfld (s.updSearch n f) b hi lo = rfld s b hi lo := rfl
@[simp] theorem updSearch_core (n : Nat) (f : SearchSt → SearchSt) (k : Nat) : (s.updSearch n f).core k = s.core k := rfl
@[simp] theorem updSearch_port (n : Nat) (f : SearchSt → SearchSt) (k : Nat) : (s.updSearch n f).port k = s.port k := rfl
@[simp] theorem updSearch_sheaf (n : Nat) (f : SearchSt → SearchSt) (k : Nat) : (s.updSearch n f).sheaf k = s.sheaf k := rfl
@[simp] theorem updSearch_tmr (n : Nat) (f : SearchSt → SearchSt) (k : Nat) : (s.updSearch n f).tmr k = s.tmr k := rfl

/-! ## `updCore` -/

@[simp] theorem updCore_pending (k : Nat) (f : CoreSt → CoreSt) : (s.updCore k f).pending = s.pending := rfl
@[simp] theorem updCore_regs (k : Nat) (f : CoreSt → CoreSt) : (s.updCore k f).regs = s.regs := rfl
@[simp] theorem updCore_latches (k : Nat) (f : CoreSt → CoreSt) : (s.updCore k f).latches = s.latches := rfl
@[simp] theorem updCore_staged (k : Nat) (f : CoreSt → CoreSt) : (s.updCore k f).staged = s.staged := rfl
@[simp] theorem updCore_mem (k : Nat) (f : CoreSt → CoreSt) : (s.updCore k f).mem = s.mem := rfl
@[simp] theorem updCore_tlm (k : Nat) (f : CoreSt → CoreSt) : (s.updCore k f).tlm = s.tlm := rfl
@[simp] theorem updCore_time (k : Nat) (f : CoreSt → CoreSt) : (s.updCore k f).time = s.time := rfl
@[simp] theorem updCore_power (k : Nat) (f : CoreSt → CoreSt) : (s.updCore k f).power = s.power := rfl
@[simp] theorem updCore_boot (k : Nat) (f : CoreSt → CoreSt) : (s.updCore k f).boot = s.boot := rfl
@[simp] theorem updCore_wdog (k : Nat) (f : CoreSt → CoreSt) : (s.updCore k f).wdog = s.wdog := rfl
@[simp] theorem updCore_trans (k : Nat) (f : CoreSt → CoreSt) : (s.updCore k f).trans = s.trans := rfl
@[simp] theorem updCore_ports (k : Nat) (f : CoreSt → CoreSt) : (s.updCore k f).ports = s.ports := rfl
@[simp] theorem updCore_sheaves (k : Nat) (f : CoreSt → CoreSt) : (s.updCore k f).sheaves = s.sheaves := rfl
@[simp] theorem updCore_searches (k : Nat) (f : CoreSt → CoreSt) : (s.updCore k f).searches = s.searches := rfl
@[simp] theorem updCore_groups (k : Nat) (f : CoreSt → CoreSt) : (s.updCore k f).groups = s.groups := rfl
@[simp] theorem updCore_samplePhase (k : Nat) (f : CoreSt → CoreSt) : (s.updCore k f).samplePhase = s.samplePhase := rfl
@[simp] theorem updCore_detq (k : Nat) (f : CoreSt → CoreSt) : (s.updCore k f).detq = s.detq := rfl
@[simp] theorem updCore_spks (k : Nat) (f : CoreSt → CoreSt) : (s.updCore k f).spks = s.spks := rfl
@[simp] theorem updCore_frames (k : Nat) (f : CoreSt → CoreSt) : (s.updCore k f).frames = s.frames := rfl
@[simp] theorem updCore_nextFrame (k : Nat) (f : CoreSt → CoreSt) : (s.updCore k f).nextFrame = s.nextFrame := rfl
@[simp] theorem updCore_holds (k : Nat) (f : CoreSt → CoreSt) : (s.updCore k f).holds = s.holds := rfl
@[simp] theorem updCore_win (k : Nat) (f : CoreSt → CoreSt) : (s.updCore k f).win = s.win := rfl
@[simp] theorem updCore_lnk (k : Nat) (f : CoreSt → CoreSt) : (s.updCore k f).lnk = s.lnk := rfl
@[simp] theorem updCore_fuses (k : Nat) (f : CoreSt → CoreSt) : (s.updCore k f).fuses = s.fuses := rfl
@[simp] theorem updCore_ses (k : Nat) (f : CoreSt → CoreSt) : (s.updCore k f).ses = s.ses := rfl
@[simp] theorem updCore_pairs (k : Nat) (f : CoreSt → CoreSt) : (s.updCore k f).pairs = s.pairs := rfl
@[simp] theorem updCore_key (k : Nat) (f : CoreSt → CoreSt) : (s.updCore k f).key = s.key := rfl
@[simp] theorem updCore_fence (k : Nat) (f : CoreSt → CoreSt) : (s.updCore k f).fence = s.fence := rfl
@[simp] theorem updCore_sage (k : Nat) (f : CoreSt → CoreSt) : (s.updCore k f).sage = s.sage := rfl
@[simp] theorem updCore_usl (k : Nat) (f : CoreSt → CoreSt) : (s.updCore k f).usl = s.usl := rfl
@[simp] theorem updCore_eth (k : Nat) (f : CoreSt → CoreSt) : (s.updCore k f).eth = s.eth := rfl
@[simp] theorem updCore_xsp (k : Nat) (f : CoreSt → CoreSt) : (s.updCore k f).xsp = s.xsp := rfl
@[simp] theorem updCore_flt (k : Nat) (f : CoreSt → CoreSt) : (s.updCore k f).flt = s.flt := rfl
@[simp] theorem updCore_tmrs (k : Nat) (f : CoreSt → CoreSt) : (s.updCore k f).tmrs = s.tmrs := rfl
@[simp] theorem updCore_rtc (k : Nat) (f : CoreSt → CoreSt) : (s.updCore k f).rtc = s.rtc := rfl
@[simp] theorem updCore_int (k : Nat) (f : CoreSt → CoreSt) : (s.updCore k f).int = s.int := rfl
@[simp] theorem updCore_stl (k : Nat) (f : CoreSt → CoreSt) : (s.updCore k f).stl = s.stl := rfl
@[simp] theorem updCore_tag (k : Nat) (f : CoreSt → CoreSt) : (s.updCore k f).tag = s.tag := rfl
@[simp] theorem updCore_reader (k : Nat) (f : CoreSt → CoreSt) : (s.updCore k f).reader = s.reader := rfl
@[simp] theorem updCore_upd (k : Nat) (f : CoreSt → CoreSt) : (s.updCore k f).upd = s.upd := rfl
@[simp] theorem updCore_free (k : Nat) (f : CoreSt → CoreSt) : (s.updCore k f).free = s.free := rfl
@[simp] theorem updCore_out (k : Nat) (f : CoreSt → CoreSt) : (s.updCore k f).out = s.out := rfl
@[simp] theorem rget_updCore (k : Nat) (f : CoreSt → CoreSt) (b : Nat) : rget (s.updCore k f) b = rget s b := rfl
@[simp] theorem rbit_updCore (k : Nat) (f : CoreSt → CoreSt) (b i : Nat) : rbit (s.updCore k f) b i = rbit s b i := rfl
@[simp] theorem rfld_updCore (k : Nat) (f : CoreSt → CoreSt) (b hi lo : Nat) : rfld (s.updCore k f) b hi lo = rfld s b hi lo := rfl
@[simp] theorem updCore_port (k : Nat) (f : CoreSt → CoreSt) (j : Nat) : (s.updCore k f).port j = s.port j := rfl
@[simp] theorem updCore_sheaf (k : Nat) (f : CoreSt → CoreSt) (j : Nat) : (s.updCore k f).sheaf j = s.sheaf j := rfl
@[simp] theorem updCore_search (k : Nat) (f : CoreSt → CoreSt) (j : Nat) : (s.updCore k f).search j = s.search j := rfl
@[simp] theorem updCore_tmr (k : Nat) (f : CoreSt → CoreSt) (j : Nat) : (s.updCore k f).tmr j = s.tmr j := rfl

/-! ## `updTmr` -/

@[simp] theorem updTmr_pending (n : Nat) (f : TmrSt → TmrSt) : (s.updTmr n f).pending = s.pending := rfl
@[simp] theorem updTmr_regs (n : Nat) (f : TmrSt → TmrSt) : (s.updTmr n f).regs = s.regs := rfl
@[simp] theorem updTmr_latches (n : Nat) (f : TmrSt → TmrSt) : (s.updTmr n f).latches = s.latches := rfl
@[simp] theorem updTmr_staged (n : Nat) (f : TmrSt → TmrSt) : (s.updTmr n f).staged = s.staged := rfl
@[simp] theorem updTmr_mem (n : Nat) (f : TmrSt → TmrSt) : (s.updTmr n f).mem = s.mem := rfl
@[simp] theorem updTmr_tlm (n : Nat) (f : TmrSt → TmrSt) : (s.updTmr n f).tlm = s.tlm := rfl
@[simp] theorem updTmr_time (n : Nat) (f : TmrSt → TmrSt) : (s.updTmr n f).time = s.time := rfl
@[simp] theorem updTmr_power (n : Nat) (f : TmrSt → TmrSt) : (s.updTmr n f).power = s.power := rfl
@[simp] theorem updTmr_boot (n : Nat) (f : TmrSt → TmrSt) : (s.updTmr n f).boot = s.boot := rfl
@[simp] theorem updTmr_wdog (n : Nat) (f : TmrSt → TmrSt) : (s.updTmr n f).wdog = s.wdog := rfl
@[simp] theorem updTmr_trans (n : Nat) (f : TmrSt → TmrSt) : (s.updTmr n f).trans = s.trans := rfl
@[simp] theorem updTmr_ports (n : Nat) (f : TmrSt → TmrSt) : (s.updTmr n f).ports = s.ports := rfl
@[simp] theorem updTmr_sheaves (n : Nat) (f : TmrSt → TmrSt) : (s.updTmr n f).sheaves = s.sheaves := rfl
@[simp] theorem updTmr_searches (n : Nat) (f : TmrSt → TmrSt) : (s.updTmr n f).searches = s.searches := rfl
@[simp] theorem updTmr_groups (n : Nat) (f : TmrSt → TmrSt) : (s.updTmr n f).groups = s.groups := rfl
@[simp] theorem updTmr_samplePhase (n : Nat) (f : TmrSt → TmrSt) : (s.updTmr n f).samplePhase = s.samplePhase := rfl
@[simp] theorem updTmr_detq (n : Nat) (f : TmrSt → TmrSt) : (s.updTmr n f).detq = s.detq := rfl
@[simp] theorem updTmr_spks (n : Nat) (f : TmrSt → TmrSt) : (s.updTmr n f).spks = s.spks := rfl
@[simp] theorem updTmr_frames (n : Nat) (f : TmrSt → TmrSt) : (s.updTmr n f).frames = s.frames := rfl
@[simp] theorem updTmr_nextFrame (n : Nat) (f : TmrSt → TmrSt) : (s.updTmr n f).nextFrame = s.nextFrame := rfl
@[simp] theorem updTmr_holds (n : Nat) (f : TmrSt → TmrSt) : (s.updTmr n f).holds = s.holds := rfl
@[simp] theorem updTmr_win (n : Nat) (f : TmrSt → TmrSt) : (s.updTmr n f).win = s.win := rfl
@[simp] theorem updTmr_lnk (n : Nat) (f : TmrSt → TmrSt) : (s.updTmr n f).lnk = s.lnk := rfl
@[simp] theorem updTmr_fuses (n : Nat) (f : TmrSt → TmrSt) : (s.updTmr n f).fuses = s.fuses := rfl
@[simp] theorem updTmr_ses (n : Nat) (f : TmrSt → TmrSt) : (s.updTmr n f).ses = s.ses := rfl
@[simp] theorem updTmr_pairs (n : Nat) (f : TmrSt → TmrSt) : (s.updTmr n f).pairs = s.pairs := rfl
@[simp] theorem updTmr_key (n : Nat) (f : TmrSt → TmrSt) : (s.updTmr n f).key = s.key := rfl
@[simp] theorem updTmr_cores (n : Nat) (f : TmrSt → TmrSt) : (s.updTmr n f).cores = s.cores := rfl
@[simp] theorem updTmr_fence (n : Nat) (f : TmrSt → TmrSt) : (s.updTmr n f).fence = s.fence := rfl
@[simp] theorem updTmr_sage (n : Nat) (f : TmrSt → TmrSt) : (s.updTmr n f).sage = s.sage := rfl
@[simp] theorem updTmr_usl (n : Nat) (f : TmrSt → TmrSt) : (s.updTmr n f).usl = s.usl := rfl
@[simp] theorem updTmr_eth (n : Nat) (f : TmrSt → TmrSt) : (s.updTmr n f).eth = s.eth := rfl
@[simp] theorem updTmr_xsp (n : Nat) (f : TmrSt → TmrSt) : (s.updTmr n f).xsp = s.xsp := rfl
@[simp] theorem updTmr_flt (n : Nat) (f : TmrSt → TmrSt) : (s.updTmr n f).flt = s.flt := rfl
@[simp] theorem updTmr_rtc (n : Nat) (f : TmrSt → TmrSt) : (s.updTmr n f).rtc = s.rtc := rfl
@[simp] theorem updTmr_int (n : Nat) (f : TmrSt → TmrSt) : (s.updTmr n f).int = s.int := rfl
@[simp] theorem updTmr_stl (n : Nat) (f : TmrSt → TmrSt) : (s.updTmr n f).stl = s.stl := rfl
@[simp] theorem updTmr_tag (n : Nat) (f : TmrSt → TmrSt) : (s.updTmr n f).tag = s.tag := rfl
@[simp] theorem updTmr_reader (n : Nat) (f : TmrSt → TmrSt) : (s.updTmr n f).reader = s.reader := rfl
@[simp] theorem updTmr_upd (n : Nat) (f : TmrSt → TmrSt) : (s.updTmr n f).upd = s.upd := rfl
@[simp] theorem updTmr_free (n : Nat) (f : TmrSt → TmrSt) : (s.updTmr n f).free = s.free := rfl
@[simp] theorem updTmr_out (n : Nat) (f : TmrSt → TmrSt) : (s.updTmr n f).out = s.out := rfl
@[simp] theorem rget_updTmr (n : Nat) (f : TmrSt → TmrSt) (b : Nat) : rget (s.updTmr n f) b = rget s b := rfl
@[simp] theorem rbit_updTmr (n : Nat) (f : TmrSt → TmrSt) (b i : Nat) : rbit (s.updTmr n f) b i = rbit s b i := rfl
@[simp] theorem rfld_updTmr (n : Nat) (f : TmrSt → TmrSt) (b hi lo : Nat) : rfld (s.updTmr n f) b hi lo = rfld s b hi lo := rfl
@[simp] theorem updTmr_core (n : Nat) (f : TmrSt → TmrSt) (k : Nat) : (s.updTmr n f).core k = s.core k := rfl
@[simp] theorem updTmr_port (n : Nat) (f : TmrSt → TmrSt) (k : Nat) : (s.updTmr n f).port k = s.port k := rfl
@[simp] theorem updTmr_sheaf (n : Nat) (f : TmrSt → TmrSt) (k : Nat) : (s.updTmr n f).sheaf k = s.sheaf k := rfl
@[simp] theorem updTmr_search (n : Nat) (f : TmrSt → TmrSt) (k : Nat) : (s.updTmr n f).search k = s.search k := rfl

/-! ## `updLnk` -/

@[simp] theorem updLnk_pending (f : LnkSt → LnkSt) : (updLnk s f).pending = s.pending := rfl
@[simp] theorem updLnk_regs (f : LnkSt → LnkSt) : (updLnk s f).regs = s.regs := rfl
@[simp] theorem updLnk_latches (f : LnkSt → LnkSt) : (updLnk s f).latches = s.latches := rfl
@[simp] theorem updLnk_staged (f : LnkSt → LnkSt) : (updLnk s f).staged = s.staged := rfl
@[simp] theorem updLnk_mem (f : LnkSt → LnkSt) : (updLnk s f).mem = s.mem := rfl
@[simp] theorem updLnk_tlm (f : LnkSt → LnkSt) : (updLnk s f).tlm = s.tlm := rfl
@[simp] theorem updLnk_time (f : LnkSt → LnkSt) : (updLnk s f).time = s.time := rfl
@[simp] theorem updLnk_power (f : LnkSt → LnkSt) : (updLnk s f).power = s.power := rfl
@[simp] theorem updLnk_boot (f : LnkSt → LnkSt) : (updLnk s f).boot = s.boot := rfl
@[simp] theorem updLnk_wdog (f : LnkSt → LnkSt) : (updLnk s f).wdog = s.wdog := rfl
@[simp] theorem updLnk_trans (f : LnkSt → LnkSt) : (updLnk s f).trans = s.trans := rfl
@[simp] theorem updLnk_ports (f : LnkSt → LnkSt) : (updLnk s f).ports = s.ports := rfl
@[simp] theorem updLnk_sheaves (f : LnkSt → LnkSt) : (updLnk s f).sheaves = s.sheaves := rfl
@[simp] theorem updLnk_searches (f : LnkSt → LnkSt) : (updLnk s f).searches = s.searches := rfl
@[simp] theorem updLnk_groups (f : LnkSt → LnkSt) : (updLnk s f).groups = s.groups := rfl
@[simp] theorem updLnk_samplePhase (f : LnkSt → LnkSt) : (updLnk s f).samplePhase = s.samplePhase := rfl
@[simp] theorem updLnk_detq (f : LnkSt → LnkSt) : (updLnk s f).detq = s.detq := rfl
@[simp] theorem updLnk_spks (f : LnkSt → LnkSt) : (updLnk s f).spks = s.spks := rfl
@[simp] theorem updLnk_frames (f : LnkSt → LnkSt) : (updLnk s f).frames = s.frames := rfl
@[simp] theorem updLnk_nextFrame (f : LnkSt → LnkSt) : (updLnk s f).nextFrame = s.nextFrame := rfl
@[simp] theorem updLnk_holds (f : LnkSt → LnkSt) : (updLnk s f).holds = s.holds := rfl
@[simp] theorem updLnk_win (f : LnkSt → LnkSt) : (updLnk s f).win = s.win := rfl
@[simp] theorem updLnk_fuses (f : LnkSt → LnkSt) : (updLnk s f).fuses = s.fuses := rfl
@[simp] theorem updLnk_ses (f : LnkSt → LnkSt) : (updLnk s f).ses = s.ses := rfl
@[simp] theorem updLnk_pairs (f : LnkSt → LnkSt) : (updLnk s f).pairs = s.pairs := rfl
@[simp] theorem updLnk_key (f : LnkSt → LnkSt) : (updLnk s f).key = s.key := rfl
@[simp] theorem updLnk_cores (f : LnkSt → LnkSt) : (updLnk s f).cores = s.cores := rfl
@[simp] theorem updLnk_fence (f : LnkSt → LnkSt) : (updLnk s f).fence = s.fence := rfl
@[simp] theorem updLnk_sage (f : LnkSt → LnkSt) : (updLnk s f).sage = s.sage := rfl
@[simp] theorem updLnk_usl (f : LnkSt → LnkSt) : (updLnk s f).usl = s.usl := rfl
@[simp] theorem updLnk_eth (f : LnkSt → LnkSt) : (updLnk s f).eth = s.eth := rfl
@[simp] theorem updLnk_xsp (f : LnkSt → LnkSt) : (updLnk s f).xsp = s.xsp := rfl
@[simp] theorem updLnk_flt (f : LnkSt → LnkSt) : (updLnk s f).flt = s.flt := rfl
@[simp] theorem updLnk_tmrs (f : LnkSt → LnkSt) : (updLnk s f).tmrs = s.tmrs := rfl
@[simp] theorem updLnk_rtc (f : LnkSt → LnkSt) : (updLnk s f).rtc = s.rtc := rfl
@[simp] theorem updLnk_int (f : LnkSt → LnkSt) : (updLnk s f).int = s.int := rfl
@[simp] theorem updLnk_stl (f : LnkSt → LnkSt) : (updLnk s f).stl = s.stl := rfl
@[simp] theorem updLnk_tag (f : LnkSt → LnkSt) : (updLnk s f).tag = s.tag := rfl
@[simp] theorem updLnk_reader (f : LnkSt → LnkSt) : (updLnk s f).reader = s.reader := rfl
@[simp] theorem updLnk_upd (f : LnkSt → LnkSt) : (updLnk s f).upd = s.upd := rfl
@[simp] theorem updLnk_free (f : LnkSt → LnkSt) : (updLnk s f).free = s.free := rfl
@[simp] theorem updLnk_out (f : LnkSt → LnkSt) : (updLnk s f).out = s.out := rfl
@[simp] theorem rget_updLnk (f : LnkSt → LnkSt) (b : Nat) : rget (updLnk s f) b = rget s b := rfl
@[simp] theorem rbit_updLnk (f : LnkSt → LnkSt) (b i : Nat) : rbit (updLnk s f) b i = rbit s b i := rfl
@[simp] theorem rfld_updLnk (f : LnkSt → LnkSt) (b hi lo : Nat) : rfld (updLnk s f) b hi lo = rfld s b hi lo := rfl
@[simp] theorem updLnk_core (f : LnkSt → LnkSt) (k : Nat) : (updLnk s f).core k = s.core k := rfl
@[simp] theorem updLnk_port (f : LnkSt → LnkSt) (k : Nat) : (updLnk s f).port k = s.port k := rfl
@[simp] theorem updLnk_sheaf (f : LnkSt → LnkSt) (k : Nat) : (updLnk s f).sheaf k = s.sheaf k := rfl
@[simp] theorem updLnk_search (f : LnkSt → LnkSt) (k : Nat) : (updLnk s f).search k = s.search k := rfl
@[simp] theorem updLnk_tmr (f : LnkSt → LnkSt) (k : Nat) : (updLnk s f).tmr k = s.tmr k := rfl

/-! ## `updEth` -/

@[simp] theorem updEth_pending (f : EthSt → EthSt) : (updEth s f).pending = s.pending := rfl
@[simp] theorem updEth_regs (f : EthSt → EthSt) : (updEth s f).regs = s.regs := rfl
@[simp] theorem updEth_latches (f : EthSt → EthSt) : (updEth s f).latches = s.latches := rfl
@[simp] theorem updEth_staged (f : EthSt → EthSt) : (updEth s f).staged = s.staged := rfl
@[simp] theorem updEth_mem (f : EthSt → EthSt) : (updEth s f).mem = s.mem := rfl
@[simp] theorem updEth_tlm (f : EthSt → EthSt) : (updEth s f).tlm = s.tlm := rfl
@[simp] theorem updEth_time (f : EthSt → EthSt) : (updEth s f).time = s.time := rfl
@[simp] theorem updEth_power (f : EthSt → EthSt) : (updEth s f).power = s.power := rfl
@[simp] theorem updEth_boot (f : EthSt → EthSt) : (updEth s f).boot = s.boot := rfl
@[simp] theorem updEth_wdog (f : EthSt → EthSt) : (updEth s f).wdog = s.wdog := rfl
@[simp] theorem updEth_trans (f : EthSt → EthSt) : (updEth s f).trans = s.trans := rfl
@[simp] theorem updEth_ports (f : EthSt → EthSt) : (updEth s f).ports = s.ports := rfl
@[simp] theorem updEth_sheaves (f : EthSt → EthSt) : (updEth s f).sheaves = s.sheaves := rfl
@[simp] theorem updEth_searches (f : EthSt → EthSt) : (updEth s f).searches = s.searches := rfl
@[simp] theorem updEth_groups (f : EthSt → EthSt) : (updEth s f).groups = s.groups := rfl
@[simp] theorem updEth_samplePhase (f : EthSt → EthSt) : (updEth s f).samplePhase = s.samplePhase := rfl
@[simp] theorem updEth_detq (f : EthSt → EthSt) : (updEth s f).detq = s.detq := rfl
@[simp] theorem updEth_spks (f : EthSt → EthSt) : (updEth s f).spks = s.spks := rfl
@[simp] theorem updEth_frames (f : EthSt → EthSt) : (updEth s f).frames = s.frames := rfl
@[simp] theorem updEth_nextFrame (f : EthSt → EthSt) : (updEth s f).nextFrame = s.nextFrame := rfl
@[simp] theorem updEth_holds (f : EthSt → EthSt) : (updEth s f).holds = s.holds := rfl
@[simp] theorem updEth_win (f : EthSt → EthSt) : (updEth s f).win = s.win := rfl
@[simp] theorem updEth_lnk (f : EthSt → EthSt) : (updEth s f).lnk = s.lnk := rfl
@[simp] theorem updEth_fuses (f : EthSt → EthSt) : (updEth s f).fuses = s.fuses := rfl
@[simp] theorem updEth_ses (f : EthSt → EthSt) : (updEth s f).ses = s.ses := rfl
@[simp] theorem updEth_pairs (f : EthSt → EthSt) : (updEth s f).pairs = s.pairs := rfl
@[simp] theorem updEth_key (f : EthSt → EthSt) : (updEth s f).key = s.key := rfl
@[simp] theorem updEth_cores (f : EthSt → EthSt) : (updEth s f).cores = s.cores := rfl
@[simp] theorem updEth_fence (f : EthSt → EthSt) : (updEth s f).fence = s.fence := rfl
@[simp] theorem updEth_sage (f : EthSt → EthSt) : (updEth s f).sage = s.sage := rfl
@[simp] theorem updEth_usl (f : EthSt → EthSt) : (updEth s f).usl = s.usl := rfl
@[simp] theorem updEth_xsp (f : EthSt → EthSt) : (updEth s f).xsp = s.xsp := rfl
@[simp] theorem updEth_flt (f : EthSt → EthSt) : (updEth s f).flt = s.flt := rfl
@[simp] theorem updEth_tmrs (f : EthSt → EthSt) : (updEth s f).tmrs = s.tmrs := rfl
@[simp] theorem updEth_rtc (f : EthSt → EthSt) : (updEth s f).rtc = s.rtc := rfl
@[simp] theorem updEth_int (f : EthSt → EthSt) : (updEth s f).int = s.int := rfl
@[simp] theorem updEth_stl (f : EthSt → EthSt) : (updEth s f).stl = s.stl := rfl
@[simp] theorem updEth_tag (f : EthSt → EthSt) : (updEth s f).tag = s.tag := rfl
@[simp] theorem updEth_reader (f : EthSt → EthSt) : (updEth s f).reader = s.reader := rfl
@[simp] theorem updEth_upd (f : EthSt → EthSt) : (updEth s f).upd = s.upd := rfl
@[simp] theorem updEth_free (f : EthSt → EthSt) : (updEth s f).free = s.free := rfl
@[simp] theorem updEth_out (f : EthSt → EthSt) : (updEth s f).out = s.out := rfl
@[simp] theorem rget_updEth (f : EthSt → EthSt) (b : Nat) : rget (updEth s f) b = rget s b := rfl
@[simp] theorem rbit_updEth (f : EthSt → EthSt) (b i : Nat) : rbit (updEth s f) b i = rbit s b i := rfl
@[simp] theorem rfld_updEth (f : EthSt → EthSt) (b hi lo : Nat) : rfld (updEth s f) b hi lo = rfld s b hi lo := rfl
@[simp] theorem updEth_core (f : EthSt → EthSt) (k : Nat) : (updEth s f).core k = s.core k := rfl
@[simp] theorem updEth_port (f : EthSt → EthSt) (k : Nat) : (updEth s f).port k = s.port k := rfl
@[simp] theorem updEth_sheaf (f : EthSt → EthSt) (k : Nat) : (updEth s f).sheaf k = s.sheaf k := rfl
@[simp] theorem updEth_search (f : EthSt → EthSt) (k : Nat) : (updEth s f).search k = s.search k := rfl
@[simp] theorem updEth_tmr (f : EthSt → EthSt) (k : Nat) : (updEth s f).tmr k = s.tmr k := rfl

/-! ## `updSage` -/

@[simp] theorem updSage_pending (f : SageSt → SageSt) : (updSage s f).pending = s.pending := rfl
@[simp] theorem updSage_regs (f : SageSt → SageSt) : (updSage s f).regs = s.regs := rfl
@[simp] theorem updSage_latches (f : SageSt → SageSt) : (updSage s f).latches = s.latches := rfl
@[simp] theorem updSage_staged (f : SageSt → SageSt) : (updSage s f).staged = s.staged := rfl
@[simp] theorem updSage_mem (f : SageSt → SageSt) : (updSage s f).mem = s.mem := rfl
@[simp] theorem updSage_tlm (f : SageSt → SageSt) : (updSage s f).tlm = s.tlm := rfl
@[simp] theorem updSage_time (f : SageSt → SageSt) : (updSage s f).time = s.time := rfl
@[simp] theorem updSage_power (f : SageSt → SageSt) : (updSage s f).power = s.power := rfl
@[simp] theorem updSage_boot (f : SageSt → SageSt) : (updSage s f).boot = s.boot := rfl
@[simp] theorem updSage_wdog (f : SageSt → SageSt) : (updSage s f).wdog = s.wdog := rfl
@[simp] theorem updSage_trans (f : SageSt → SageSt) : (updSage s f).trans = s.trans := rfl
@[simp] theorem updSage_ports (f : SageSt → SageSt) : (updSage s f).ports = s.ports := rfl
@[simp] theorem updSage_sheaves (f : SageSt → SageSt) : (updSage s f).sheaves = s.sheaves := rfl
@[simp] theorem updSage_searches (f : SageSt → SageSt) : (updSage s f).searches = s.searches := rfl
@[simp] theorem updSage_groups (f : SageSt → SageSt) : (updSage s f).groups = s.groups := rfl
@[simp] theorem updSage_samplePhase (f : SageSt → SageSt) : (updSage s f).samplePhase = s.samplePhase := rfl
@[simp] theorem updSage_detq (f : SageSt → SageSt) : (updSage s f).detq = s.detq := rfl
@[simp] theorem updSage_spks (f : SageSt → SageSt) : (updSage s f).spks = s.spks := rfl
@[simp] theorem updSage_frames (f : SageSt → SageSt) : (updSage s f).frames = s.frames := rfl
@[simp] theorem updSage_nextFrame (f : SageSt → SageSt) : (updSage s f).nextFrame = s.nextFrame := rfl
@[simp] theorem updSage_holds (f : SageSt → SageSt) : (updSage s f).holds = s.holds := rfl
@[simp] theorem updSage_win (f : SageSt → SageSt) : (updSage s f).win = s.win := rfl
@[simp] theorem updSage_lnk (f : SageSt → SageSt) : (updSage s f).lnk = s.lnk := rfl
@[simp] theorem updSage_fuses (f : SageSt → SageSt) : (updSage s f).fuses = s.fuses := rfl
@[simp] theorem updSage_ses (f : SageSt → SageSt) : (updSage s f).ses = s.ses := rfl
@[simp] theorem updSage_pairs (f : SageSt → SageSt) : (updSage s f).pairs = s.pairs := rfl
@[simp] theorem updSage_key (f : SageSt → SageSt) : (updSage s f).key = s.key := rfl
@[simp] theorem updSage_cores (f : SageSt → SageSt) : (updSage s f).cores = s.cores := rfl
@[simp] theorem updSage_fence (f : SageSt → SageSt) : (updSage s f).fence = s.fence := rfl
@[simp] theorem updSage_usl (f : SageSt → SageSt) : (updSage s f).usl = s.usl := rfl
@[simp] theorem updSage_eth (f : SageSt → SageSt) : (updSage s f).eth = s.eth := rfl
@[simp] theorem updSage_xsp (f : SageSt → SageSt) : (updSage s f).xsp = s.xsp := rfl
@[simp] theorem updSage_flt (f : SageSt → SageSt) : (updSage s f).flt = s.flt := rfl
@[simp] theorem updSage_tmrs (f : SageSt → SageSt) : (updSage s f).tmrs = s.tmrs := rfl
@[simp] theorem updSage_rtc (f : SageSt → SageSt) : (updSage s f).rtc = s.rtc := rfl
@[simp] theorem updSage_int (f : SageSt → SageSt) : (updSage s f).int = s.int := rfl
@[simp] theorem updSage_stl (f : SageSt → SageSt) : (updSage s f).stl = s.stl := rfl
@[simp] theorem updSage_tag (f : SageSt → SageSt) : (updSage s f).tag = s.tag := rfl
@[simp] theorem updSage_reader (f : SageSt → SageSt) : (updSage s f).reader = s.reader := rfl
@[simp] theorem updSage_upd (f : SageSt → SageSt) : (updSage s f).upd = s.upd := rfl
@[simp] theorem updSage_free (f : SageSt → SageSt) : (updSage s f).free = s.free := rfl
@[simp] theorem updSage_out (f : SageSt → SageSt) : (updSage s f).out = s.out := rfl
@[simp] theorem rget_updSage (f : SageSt → SageSt) (b : Nat) : rget (updSage s f) b = rget s b := rfl
@[simp] theorem rbit_updSage (f : SageSt → SageSt) (b i : Nat) : rbit (updSage s f) b i = rbit s b i := rfl
@[simp] theorem rfld_updSage (f : SageSt → SageSt) (b hi lo : Nat) : rfld (updSage s f) b hi lo = rfld s b hi lo := rfl
@[simp] theorem updSage_core (f : SageSt → SageSt) (k : Nat) : (updSage s f).core k = s.core k := rfl
@[simp] theorem updSage_port (f : SageSt → SageSt) (k : Nat) : (updSage s f).port k = s.port k := rfl
@[simp] theorem updSage_sheaf (f : SageSt → SageSt) (k : Nat) : (updSage s f).sheaf k = s.sheaf k := rfl
@[simp] theorem updSage_search (f : SageSt → SageSt) (k : Nat) : (updSage s f).search k = s.search k := rfl
@[simp] theorem updSage_tmr (f : SageSt → SageSt) (k : Nat) : (updSage s f).tmr k = s.tmr k := rfl

/-! ## `updTag` -/

@[simp] theorem updTag_pending (f : TagSt → TagSt) : (updTag s f).pending = s.pending := rfl
@[simp] theorem updTag_regs (f : TagSt → TagSt) : (updTag s f).regs = s.regs := rfl
@[simp] theorem updTag_latches (f : TagSt → TagSt) : (updTag s f).latches = s.latches := rfl
@[simp] theorem updTag_staged (f : TagSt → TagSt) : (updTag s f).staged = s.staged := rfl
@[simp] theorem updTag_mem (f : TagSt → TagSt) : (updTag s f).mem = s.mem := rfl
@[simp] theorem updTag_tlm (f : TagSt → TagSt) : (updTag s f).tlm = s.tlm := rfl
@[simp] theorem updTag_time (f : TagSt → TagSt) : (updTag s f).time = s.time := rfl
@[simp] theorem updTag_power (f : TagSt → TagSt) : (updTag s f).power = s.power := rfl
@[simp] theorem updTag_boot (f : TagSt → TagSt) : (updTag s f).boot = s.boot := rfl
@[simp] theorem updTag_wdog (f : TagSt → TagSt) : (updTag s f).wdog = s.wdog := rfl
@[simp] theorem updTag_trans (f : TagSt → TagSt) : (updTag s f).trans = s.trans := rfl
@[simp] theorem updTag_ports (f : TagSt → TagSt) : (updTag s f).ports = s.ports := rfl
@[simp] theorem updTag_sheaves (f : TagSt → TagSt) : (updTag s f).sheaves = s.sheaves := rfl
@[simp] theorem updTag_searches (f : TagSt → TagSt) : (updTag s f).searches = s.searches := rfl
@[simp] theorem updTag_groups (f : TagSt → TagSt) : (updTag s f).groups = s.groups := rfl
@[simp] theorem updTag_samplePhase (f : TagSt → TagSt) : (updTag s f).samplePhase = s.samplePhase := rfl
@[simp] theorem updTag_detq (f : TagSt → TagSt) : (updTag s f).detq = s.detq := rfl
@[simp] theorem updTag_spks (f : TagSt → TagSt) : (updTag s f).spks = s.spks := rfl
@[simp] theorem updTag_frames (f : TagSt → TagSt) : (updTag s f).frames = s.frames := rfl
@[simp] theorem updTag_nextFrame (f : TagSt → TagSt) : (updTag s f).nextFrame = s.nextFrame := rfl
@[simp] theorem updTag_holds (f : TagSt → TagSt) : (updTag s f).holds = s.holds := rfl
@[simp] theorem updTag_win (f : TagSt → TagSt) : (updTag s f).win = s.win := rfl
@[simp] theorem updTag_lnk (f : TagSt → TagSt) : (updTag s f).lnk = s.lnk := rfl
@[simp] theorem updTag_fuses (f : TagSt → TagSt) : (updTag s f).fuses = s.fuses := rfl
@[simp] theorem updTag_ses (f : TagSt → TagSt) : (updTag s f).ses = s.ses := rfl
@[simp] theorem updTag_pairs (f : TagSt → TagSt) : (updTag s f).pairs = s.pairs := rfl
@[simp] theorem updTag_key (f : TagSt → TagSt) : (updTag s f).key = s.key := rfl
@[simp] theorem updTag_cores (f : TagSt → TagSt) : (updTag s f).cores = s.cores := rfl
@[simp] theorem updTag_fence (f : TagSt → TagSt) : (updTag s f).fence = s.fence := rfl
@[simp] theorem updTag_sage (f : TagSt → TagSt) : (updTag s f).sage = s.sage := rfl
@[simp] theorem updTag_usl (f : TagSt → TagSt) : (updTag s f).usl = s.usl := rfl
@[simp] theorem updTag_eth (f : TagSt → TagSt) : (updTag s f).eth = s.eth := rfl
@[simp] theorem updTag_xsp (f : TagSt → TagSt) : (updTag s f).xsp = s.xsp := rfl
@[simp] theorem updTag_flt (f : TagSt → TagSt) : (updTag s f).flt = s.flt := rfl
@[simp] theorem updTag_tmrs (f : TagSt → TagSt) : (updTag s f).tmrs = s.tmrs := rfl
@[simp] theorem updTag_rtc (f : TagSt → TagSt) : (updTag s f).rtc = s.rtc := rfl
@[simp] theorem updTag_int (f : TagSt → TagSt) : (updTag s f).int = s.int := rfl
@[simp] theorem updTag_stl (f : TagSt → TagSt) : (updTag s f).stl = s.stl := rfl
@[simp] theorem updTag_reader (f : TagSt → TagSt) : (updTag s f).reader = s.reader := rfl
@[simp] theorem updTag_upd (f : TagSt → TagSt) : (updTag s f).upd = s.upd := rfl
@[simp] theorem updTag_free (f : TagSt → TagSt) : (updTag s f).free = s.free := rfl
@[simp] theorem updTag_out (f : TagSt → TagSt) : (updTag s f).out = s.out := rfl
@[simp] theorem rget_updTag (f : TagSt → TagSt) (b : Nat) : rget (updTag s f) b = rget s b := rfl
@[simp] theorem rbit_updTag (f : TagSt → TagSt) (b i : Nat) : rbit (updTag s f) b i = rbit s b i := rfl
@[simp] theorem rfld_updTag (f : TagSt → TagSt) (b hi lo : Nat) : rfld (updTag s f) b hi lo = rfld s b hi lo := rfl
@[simp] theorem updTag_core (f : TagSt → TagSt) (k : Nat) : (updTag s f).core k = s.core k := rfl
@[simp] theorem updTag_port (f : TagSt → TagSt) (k : Nat) : (updTag s f).port k = s.port k := rfl
@[simp] theorem updTag_sheaf (f : TagSt → TagSt) (k : Nat) : (updTag s f).sheaf k = s.sheaf k := rfl
@[simp] theorem updTag_search (f : TagSt → TagSt) (k : Nat) : (updTag s f).search k = s.search k := rfl
@[simp] theorem updTag_tmr (f : TagSt → TagSt) (k : Nat) : (updTag s f).tmr k = s.tmr k := rfl

/-! ## `updUsl` -/

@[simp] theorem updUsl_pending (f : UslSt → UslSt) : (updUsl s f).pending = s.pending := rfl
@[simp] theorem updUsl_regs (f : UslSt → UslSt) : (updUsl s f).regs = s.regs := rfl
@[simp] theorem updUsl_latches (f : UslSt → UslSt) : (updUsl s f).latches = s.latches := rfl
@[simp] theorem updUsl_staged (f : UslSt → UslSt) : (updUsl s f).staged = s.staged := rfl
@[simp] theorem updUsl_mem (f : UslSt → UslSt) : (updUsl s f).mem = s.mem := rfl
@[simp] theorem updUsl_tlm (f : UslSt → UslSt) : (updUsl s f).tlm = s.tlm := rfl
@[simp] theorem updUsl_time (f : UslSt → UslSt) : (updUsl s f).time = s.time := rfl
@[simp] theorem updUsl_power (f : UslSt → UslSt) : (updUsl s f).power = s.power := rfl
@[simp] theorem updUsl_boot (f : UslSt → UslSt) : (updUsl s f).boot = s.boot := rfl
@[simp] theorem updUsl_wdog (f : UslSt → UslSt) : (updUsl s f).wdog = s.wdog := rfl
@[simp] theorem updUsl_trans (f : UslSt → UslSt) : (updUsl s f).trans = s.trans := rfl
@[simp] theorem updUsl_ports (f : UslSt → UslSt) : (updUsl s f).ports = s.ports := rfl
@[simp] theorem updUsl_sheaves (f : UslSt → UslSt) : (updUsl s f).sheaves = s.sheaves := rfl
@[simp] theorem updUsl_searches (f : UslSt → UslSt) : (updUsl s f).searches = s.searches := rfl
@[simp] theorem updUsl_groups (f : UslSt → UslSt) : (updUsl s f).groups = s.groups := rfl
@[simp] theorem updUsl_samplePhase (f : UslSt → UslSt) : (updUsl s f).samplePhase = s.samplePhase := rfl
@[simp] theorem updUsl_detq (f : UslSt → UslSt) : (updUsl s f).detq = s.detq := rfl
@[simp] theorem updUsl_spks (f : UslSt → UslSt) : (updUsl s f).spks = s.spks := rfl
@[simp] theorem updUsl_frames (f : UslSt → UslSt) : (updUsl s f).frames = s.frames := rfl
@[simp] theorem updUsl_nextFrame (f : UslSt → UslSt) : (updUsl s f).nextFrame = s.nextFrame := rfl
@[simp] theorem updUsl_holds (f : UslSt → UslSt) : (updUsl s f).holds = s.holds := rfl
@[simp] theorem updUsl_win (f : UslSt → UslSt) : (updUsl s f).win = s.win := rfl
@[simp] theorem updUsl_lnk (f : UslSt → UslSt) : (updUsl s f).lnk = s.lnk := rfl
@[simp] theorem updUsl_fuses (f : UslSt → UslSt) : (updUsl s f).fuses = s.fuses := rfl
@[simp] theorem updUsl_ses (f : UslSt → UslSt) : (updUsl s f).ses = s.ses := rfl
@[simp] theorem updUsl_pairs (f : UslSt → UslSt) : (updUsl s f).pairs = s.pairs := rfl
@[simp] theorem updUsl_key (f : UslSt → UslSt) : (updUsl s f).key = s.key := rfl
@[simp] theorem updUsl_cores (f : UslSt → UslSt) : (updUsl s f).cores = s.cores := rfl
@[simp] theorem updUsl_fence (f : UslSt → UslSt) : (updUsl s f).fence = s.fence := rfl
@[simp] theorem updUsl_sage (f : UslSt → UslSt) : (updUsl s f).sage = s.sage := rfl
@[simp] theorem updUsl_eth (f : UslSt → UslSt) : (updUsl s f).eth = s.eth := rfl
@[simp] theorem updUsl_xsp (f : UslSt → UslSt) : (updUsl s f).xsp = s.xsp := rfl
@[simp] theorem updUsl_flt (f : UslSt → UslSt) : (updUsl s f).flt = s.flt := rfl
@[simp] theorem updUsl_tmrs (f : UslSt → UslSt) : (updUsl s f).tmrs = s.tmrs := rfl
@[simp] theorem updUsl_rtc (f : UslSt → UslSt) : (updUsl s f).rtc = s.rtc := rfl
@[simp] theorem updUsl_int (f : UslSt → UslSt) : (updUsl s f).int = s.int := rfl
@[simp] theorem updUsl_stl (f : UslSt → UslSt) : (updUsl s f).stl = s.stl := rfl
@[simp] theorem updUsl_tag (f : UslSt → UslSt) : (updUsl s f).tag = s.tag := rfl
@[simp] theorem updUsl_reader (f : UslSt → UslSt) : (updUsl s f).reader = s.reader := rfl
@[simp] theorem updUsl_upd (f : UslSt → UslSt) : (updUsl s f).upd = s.upd := rfl
@[simp] theorem updUsl_free (f : UslSt → UslSt) : (updUsl s f).free = s.free := rfl
@[simp] theorem updUsl_out (f : UslSt → UslSt) : (updUsl s f).out = s.out := rfl
@[simp] theorem rget_updUsl (f : UslSt → UslSt) (b : Nat) : rget (updUsl s f) b = rget s b := rfl
@[simp] theorem rbit_updUsl (f : UslSt → UslSt) (b i : Nat) : rbit (updUsl s f) b i = rbit s b i := rfl
@[simp] theorem rfld_updUsl (f : UslSt → UslSt) (b hi lo : Nat) : rfld (updUsl s f) b hi lo = rfld s b hi lo := rfl
@[simp] theorem updUsl_core (f : UslSt → UslSt) (k : Nat) : (updUsl s f).core k = s.core k := rfl
@[simp] theorem updUsl_port (f : UslSt → UslSt) (k : Nat) : (updUsl s f).port k = s.port k := rfl
@[simp] theorem updUsl_sheaf (f : UslSt → UslSt) (k : Nat) : (updUsl s f).sheaf k = s.sheaf k := rfl
@[simp] theorem updUsl_search (f : UslSt → UslSt) (k : Nat) : (updUsl s f).search k = s.search k := rfl
@[simp] theorem updUsl_tmr (f : UslSt → UslSt) (k : Nat) : (updUsl s f).tmr k = s.tmr k := rfl

/-! ## `updReader` -/

@[simp] theorem updReader_pending (f : ReaderSt → ReaderSt) : (updReader s f).pending = s.pending := rfl
@[simp] theorem updReader_regs (f : ReaderSt → ReaderSt) : (updReader s f).regs = s.regs := rfl
@[simp] theorem updReader_latches (f : ReaderSt → ReaderSt) : (updReader s f).latches = s.latches := rfl
@[simp] theorem updReader_staged (f : ReaderSt → ReaderSt) : (updReader s f).staged = s.staged := rfl
@[simp] theorem updReader_mem (f : ReaderSt → ReaderSt) : (updReader s f).mem = s.mem := rfl
@[simp] theorem updReader_tlm (f : ReaderSt → ReaderSt) : (updReader s f).tlm = s.tlm := rfl
@[simp] theorem updReader_time (f : ReaderSt → ReaderSt) : (updReader s f).time = s.time := rfl
@[simp] theorem updReader_power (f : ReaderSt → ReaderSt) : (updReader s f).power = s.power := rfl
@[simp] theorem updReader_boot (f : ReaderSt → ReaderSt) : (updReader s f).boot = s.boot := rfl
@[simp] theorem updReader_wdog (f : ReaderSt → ReaderSt) : (updReader s f).wdog = s.wdog := rfl
@[simp] theorem updReader_trans (f : ReaderSt → ReaderSt) : (updReader s f).trans = s.trans := rfl
@[simp] theorem updReader_ports (f : ReaderSt → ReaderSt) : (updReader s f).ports = s.ports := rfl
@[simp] theorem updReader_sheaves (f : ReaderSt → ReaderSt) : (updReader s f).sheaves = s.sheaves := rfl
@[simp] theorem updReader_searches (f : ReaderSt → ReaderSt) : (updReader s f).searches = s.searches := rfl
@[simp] theorem updReader_groups (f : ReaderSt → ReaderSt) : (updReader s f).groups = s.groups := rfl
@[simp] theorem updReader_samplePhase (f : ReaderSt → ReaderSt) : (updReader s f).samplePhase = s.samplePhase := rfl
@[simp] theorem updReader_detq (f : ReaderSt → ReaderSt) : (updReader s f).detq = s.detq := rfl
@[simp] theorem updReader_spks (f : ReaderSt → ReaderSt) : (updReader s f).spks = s.spks := rfl
@[simp] theorem updReader_frames (f : ReaderSt → ReaderSt) : (updReader s f).frames = s.frames := rfl
@[simp] theorem updReader_nextFrame (f : ReaderSt → ReaderSt) : (updReader s f).nextFrame = s.nextFrame := rfl
@[simp] theorem updReader_holds (f : ReaderSt → ReaderSt) : (updReader s f).holds = s.holds := rfl
@[simp] theorem updReader_win (f : ReaderSt → ReaderSt) : (updReader s f).win = s.win := rfl
@[simp] theorem updReader_lnk (f : ReaderSt → ReaderSt) : (updReader s f).lnk = s.lnk := rfl
@[simp] theorem updReader_fuses (f : ReaderSt → ReaderSt) : (updReader s f).fuses = s.fuses := rfl
@[simp] theorem updReader_ses (f : ReaderSt → ReaderSt) : (updReader s f).ses = s.ses := rfl
@[simp] theorem updReader_pairs (f : ReaderSt → ReaderSt) : (updReader s f).pairs = s.pairs := rfl
@[simp] theorem updReader_key (f : ReaderSt → ReaderSt) : (updReader s f).key = s.key := rfl
@[simp] theorem updReader_cores (f : ReaderSt → ReaderSt) : (updReader s f).cores = s.cores := rfl
@[simp] theorem updReader_fence (f : ReaderSt → ReaderSt) : (updReader s f).fence = s.fence := rfl
@[simp] theorem updReader_sage (f : ReaderSt → ReaderSt) : (updReader s f).sage = s.sage := rfl
@[simp] theorem updReader_usl (f : ReaderSt → ReaderSt) : (updReader s f).usl = s.usl := rfl
@[simp] theorem updReader_eth (f : ReaderSt → ReaderSt) : (updReader s f).eth = s.eth := rfl
@[simp] theorem updReader_xsp (f : ReaderSt → ReaderSt) : (updReader s f).xsp = s.xsp := rfl
@[simp] theorem updReader_flt (f : ReaderSt → ReaderSt) : (updReader s f).flt = s.flt := rfl
@[simp] theorem updReader_tmrs (f : ReaderSt → ReaderSt) : (updReader s f).tmrs = s.tmrs := rfl
@[simp] theorem updReader_rtc (f : ReaderSt → ReaderSt) : (updReader s f).rtc = s.rtc := rfl
@[simp] theorem updReader_int (f : ReaderSt → ReaderSt) : (updReader s f).int = s.int := rfl
@[simp] theorem updReader_stl (f : ReaderSt → ReaderSt) : (updReader s f).stl = s.stl := rfl
@[simp] theorem updReader_tag (f : ReaderSt → ReaderSt) : (updReader s f).tag = s.tag := rfl
@[simp] theorem updReader_upd (f : ReaderSt → ReaderSt) : (updReader s f).upd = s.upd := rfl
@[simp] theorem updReader_free (f : ReaderSt → ReaderSt) : (updReader s f).free = s.free := rfl
@[simp] theorem updReader_out (f : ReaderSt → ReaderSt) : (updReader s f).out = s.out := rfl
@[simp] theorem rget_updReader (f : ReaderSt → ReaderSt) (b : Nat) : rget (updReader s f) b = rget s b := rfl
@[simp] theorem rbit_updReader (f : ReaderSt → ReaderSt) (b i : Nat) : rbit (updReader s f) b i = rbit s b i := rfl
@[simp] theorem rfld_updReader (f : ReaderSt → ReaderSt) (b hi lo : Nat) : rfld (updReader s f) b hi lo = rfld s b hi lo := rfl
@[simp] theorem updReader_core (f : ReaderSt → ReaderSt) (k : Nat) : (updReader s f).core k = s.core k := rfl
@[simp] theorem updReader_port (f : ReaderSt → ReaderSt) (k : Nat) : (updReader s f).port k = s.port k := rfl
@[simp] theorem updReader_sheaf (f : ReaderSt → ReaderSt) (k : Nat) : (updReader s f).sheaf k = s.sheaf k := rfl
@[simp] theorem updReader_search (f : ReaderSt → ReaderSt) (k : Nat) : (updReader s f).search k = s.search k := rfl
@[simp] theorem updReader_tmr (f : ReaderSt → ReaderSt) (k : Nat) : (updReader s f).tmr k = s.tmr k := rfl

/-! ## Numbered parts under their own updates -/

variable {s}

@[simp] theorem updCore_core_self {k : Nat} (f : CoreSt → CoreSt) (h : k < 33) : (s.updCore k f).core k = f (s.core k) :=
  Bank.nth_upd_self s.cores f {} h
theorem updCore_core_ne {k j : Nat} (f : CoreSt → CoreSt) (h : k ≠ j) : (s.updCore k f).core j = s.core j := Bank.nth_upd_ne s.cores f {} h
@[simp] theorem updPort_port_self {k : Nat} (f : PortSt → PortSt) (h : k < 64) : (s.updPort k f).port k = f (s.port k) :=
  Bank.nth_upd_self s.ports f {} h
theorem updPort_port_ne {k j : Nat} (f : PortSt → PortSt) (h : k ≠ j) : (s.updPort k f).port j = s.port j := Bank.nth_upd_ne s.ports f {} h
@[simp] theorem updSheaf_sheaf_self {k : Nat} (f : SheafSt → SheafSt) (h : k < 8) : (s.updSheaf k f).sheaf k = f (s.sheaf k) :=
  Bank.nth_upd_self s.sheaves f {} h
theorem updSheaf_sheaf_ne {k j : Nat} (f : SheafSt → SheafSt) (h : k ≠ j) : (s.updSheaf k f).sheaf j = s.sheaf j := Bank.nth_upd_ne s.sheaves f {} h
@[simp] theorem updSearch_search_self {k : Nat} (f : SearchSt → SearchSt) (h : k < 8) : (s.updSearch k f).search k = f (s.search k) :=
  Bank.nth_upd_self s.searches f {} h
theorem updSearch_search_ne {k j : Nat} (f : SearchSt → SearchSt) (h : k ≠ j) : (s.updSearch k f).search j = s.search j := Bank.nth_upd_ne s.searches f {} h
@[simp] theorem updTmr_tmr_self {k : Nat} (f : TmrSt → TmrSt) (h : k < 32) : (s.updTmr k f).tmr k = f (s.tmr k) :=
  Bank.nth_upd_self s.tmrs f {} h
theorem updTmr_tmr_ne {k j : Nat} (f : TmrSt → TmrSt) (h : k ≠ j) : (s.updTmr k f).tmr j = s.tmr j := Bank.nth_upd_ne s.tmrs f {} h

@[simp] theorem reach_now (t : Nat) : (reach s t).time.now = max s.time.now t := rfl
@[simp] theorem updLnk_lnk (f : LnkSt → LnkSt) : (updLnk s f).lnk = f s.lnk := rfl
@[simp] theorem updEth_eth (f : EthSt → EthSt) : (updEth s f).eth = f s.eth := rfl
@[simp] theorem updSage_sage (f : SageSt → SageSt) : (updSage s f).sage = f s.sage := rfl
@[simp] theorem updTag_tag (f : TagSt → TagSt) : (updTag s f).tag = f s.tag := rfl
@[simp] theorem updUsl_usl (f : UslSt → UslSt) : (updUsl s f).usl = f s.usl := rfl
@[simp] theorem updReader_reader (f : ReaderSt → ReaderSt) : (updReader s f).reader = f s.reader := rfl

/-! ## Registers -/

/-- A register reads what was written to it. -/
@[simp] theorem rget_rset_self (a : Nat) (v : Word) : rget (rset s a v) a = v := SMap.get_set_self resetVal s.regs a v

/-- A write leaves every other register alone. -/
theorem rget_rset_ne {a b : Nat} (v : Word) (h : b ≠ a) : rget (rset s a v) b = rget s b := SMap.get_set_ne h

theorem rget_rset (a b : Nat) (v : Word) : rget (rset s a v) b = if b = a then v else rget s b := by
  split
  · rename_i h; rw [h, rget_rset_self]
  · exact rget_rset_ne v ‹_›

/-! ## Memories -/

/-- A word of memory reads what was written to it; boot ROM keeps its contents. -/
theorem mget_mset (a b : Nat) (v : Word) : mget (mset s a v) b = if b = a ∧ regionOf a ≠ .bootRom then v else mget s b := by
  unfold mset mget
  by_cases ha : regionOf a = .bootRom
  · simp [ha]
  · by_cases hb : regionOf b = .bootRom
    · have hne : b ≠ a := fun e => ha (e ▸ hb)
      simp [ha, hb, hne]
    · by_cases e : b = a
      · subst e; simp [ha, SMap.get_set_self]
      · simp [ha, hb, e, SMap.get_set_ne e]

/-- A word of a Tiller's local memory reads what was written to it. -/
theorem lget_lset (t a u b : Nat) (v : Word) :
    lget (lset s t a v) u b = if 65536 * u + b % 65536 = 65536 * t + a % 65536 then v else lget s u b := by
  unfold lset lget
  split
  · rename_i h; rw [h]; exact SMap.get_set_self ..
  · exact SMap.get_set_ne ‹_›

/-- Writing registers keeps their canonical form. -/
theorem rset_wf (a : Nat) (v : Word) (h : SMap.wf resetVal s.regs = true) : SMap.wf resetVal (rset s a v).regs = true :=
  SMap.wf_set a v h

/-- Writing memory keeps its canonical form. -/
theorem mset_wf (a : Nat) (v : Word) (h : SMap.wf memDefault s.mem = true) : SMap.wf memDefault (mset s a v).mem = true := by
  unfold mset
  split
  · exact h
  · exact SMap.wf_set a v h

/-- Writing local memory keeps its canonical form. -/
theorem lset_wf (t a : Nat) (v : Word) (h : SMap.wf memDefault s.tlm = true) : SMap.wf memDefault (lset s t a v).tlm = true :=
  SMap.wf_set _ v h

end Sys2Proof.Machine
end

