-- ==== Sys2Proof/Laws/Ops.lean ====
section
/-!
SUPPORT. What the shared operations can do, said once for each: bits and fields of words, Stolon edges and pulses, the
management EVENT, event bits and fault records.  A later proof cites these and unfolds none of them.
-/

namespace Sys2Proof.Machine

/-! ## Bits and fields -/

theorem getLsbD_w16 (n j : Nat) : (w16 n).getLsbD j = (decide (j < 16) && n.testBit j) := by
  simp [w16, BitVec.getLsbD_ofNat]

theorem testBit_field_value (v w lo j : Nat) :
    (BitVec.ofNat 16 ((v % 2 ^ w) * 2 ^ lo)).getLsbD j =
      (decide (j < 16) && decide (lo ≤ j) && decide (j < lo + w) && v.testBit (j - lo)) := by
  rw [BitVec.getLsbD_ofNat, Nat.testBit_mul_two_pow, Nat.testBit_mod_two_pow]
  by_cases h1 : j < 16 <;> by_cases h2 : lo ≤ j <;> by_cases h3 : j < lo + w <;> simp [h1, h2, h3] <;>
    first | omega | (intro h4; exact absurd h4 (by omega)) | skip

/-- The bits of a mask of a field. -/
theorem getLsbD_fieldMask (hi lo j : Nat) :
    (fieldMask hi lo).getLsbD j = (decide (j < 16) && decide (lo ≤ j) && decide (j < lo + (hi + 1 - lo))) := by
  rw [fieldMask, BitVec.getLsbD_ofNat, Nat.testBit_mul_two_pow, Nat.testBit_two_pow_sub_one]
  by_cases h1 : j < 16 <;> by_cases h2 : lo ≤ j <;> simp [h1, h2]
  omega

/-- A bit of a word with a field replaced. -/
theorem bit_setField (w : Word) (hi lo v j : Nat) (hhi : hi < 16) :
    bit (setField w hi lo v) j =
      if lo ≤ j ∧ j ≤ hi then v.testBit (j - lo) else bit w j := by
  unfold bit setField
  rw [BitVec.getLsbD_or, BitVec.getLsbD_and, BitVec.getLsbD_not, getLsbD_fieldMask, testBit_field_value]
  by_cases h1 : lo ≤ j <;> by_cases h2 : j ≤ hi <;> by_cases h3 : j < 16
  · have : j < lo + (hi + 1 - lo) := by omega
    simp [h1, h2, h3, this]
  · omega
  · have : ¬ j < lo + (hi + 1 - lo) := by omega
    simp [h1, h2, h3, this]
  · have : w.getLsbD j = false := BitVec.getLsbD_of_ge _ _ (by omega)
    simp [h2, h3, this]
  · simp [h1, h3]
  · have : w.getLsbD j = false := BitVec.getLsbD_of_ge _ _ (by omega)
    simp [h1, h3, this]
  · simp [h1, h3]
  · have : w.getLsbD j = false := BitVec.getLsbD_of_ge _ _ (by omega)
    simp [h1, h3, this]

/-- A field of a word with that field replaced. -/
theorem field_setField_self (w : Word) (hi lo v : Nat) (hhi : hi < 16) (hlo : lo ≤ hi) :
    field (setField w hi lo v) hi lo = v % 2 ^ (hi + 1 - lo) := by
  apply Nat.eq_of_testBit_eq
  intro j
  have h := bit_setField w hi lo v (j + lo) hhi
  simp only [field, Nat.testBit_mod_two_pow, Nat.testBit_div_two_pow]
  by_cases hj : j < hi + 1 - lo
  · have h2 : lo ≤ j + lo ∧ j + lo ≤ hi := by omega
    rw [if_pos h2] at h
    simp only [hj, decide_true, Bool.true_and]
    simp only [bit, Nat.add_sub_cancel] at h
    rw [← h]; rfl
  · simp [hj]

/-- A field of a word with a field apart from it replaced. -/
theorem field_setField_apart (w : Word) (hi lo v hi' lo' : Nat) (hhi : hi < 16) (h : hi' < lo ∨ hi < lo') :
    field (setField w hi lo v) hi' lo' = field w hi' lo' := by
  apply Nat.eq_of_testBit_eq
  intro j
  have hb := bit_setField w hi lo v (j + lo') hhi
  simp only [field, Nat.testBit_mod_two_pow, Nat.testBit_div_two_pow]
  by_cases hj : j < hi' + 1 - lo'
  · have h2 : ¬ (lo ≤ j + lo' ∧ j + lo' ≤ hi) := by omega
    rw [if_neg h2] at hb
    simp only [hj, decide_true, Bool.true_and]
    simpa [bit, BitVec.testBit_toNat] using hb
  · simp [hj]

/-- A bit of a word with one bit set. -/
theorem bit_setBit (w : Word) (i j : Nat) (b : Bool) (hi : i < 16) : bit (setBit w i b) j = if j = i then b else bit w j := by
  unfold setBit
  rw [bit_setField _ _ _ _ _ hi]
  by_cases h : j = i
  · subst h; cases b <;> simp
  · have : ¬ (i ≤ j ∧ j ≤ i) := by omega
    rw [if_neg this, if_neg h]

@[simp] theorem bit_setBit_self (w : Word) (i : Nat) (b : Bool) (hi : i < 16) : bit (setBit w i b) i = b := by
  rw [bit_setBit _ _ _ _ hi, if_pos rfl]

theorem bit_setBit_ne (w : Word) {i j : Nat} (b : Bool) (hi : i < 16) (h : j ≠ i) : bit (setBit w i b) j = bit w j := by
  rw [bit_setBit _ _ _ _ hi, if_neg h]

/-- A bit of a mask of one bit. -/
theorem bit_bitMask (i j : Nat) : bit (bitMask i) j = (decide (j < 16) && decide (i = j)) := by
  simp only [bit, bitMask, BitVec.getLsbD_ofNat, Nat.testBit_two_pow]

@[simp] theorem bit_or (a b : Word) (j : Nat) : bit (a ||| b) j = (bit a j || bit b j) := BitVec.getLsbD_or ..

/-- One bit of a register after a bit of it is written. -/
theorem rbit_rsetBit (s : State) (a b i j : Nat) (v : Bool) (hi : i < 16) :
    rbit (rsetBit s a i v) b j = if b = a ∧ j = i then v else rbit s b j := by
  unfold rbit rsetBit
  rw [rget_rset]
  by_cases h : b = a
  · subst h; simp [bit_setBit _ _ _ _ hi]
  · simp [h]

/-- A field of a register after a field of it is written. -/
theorem rfld_rsetFld_self (s : State) (a hi lo v : Nat) (hhi : hi < 16) (hlo : lo ≤ hi) :
    rfld (rsetFld s a hi lo v) a hi lo = v % 2 ^ (hi + 1 - lo) := by
  simp [rfld, rsetFld, field_setField_self _ _ _ _ hhi hlo]

/-! ## Memory -/

/-- Consecutive words are written where they say, and nothing else is. -/
theorem mget_msets_outside (s : State) (a b : Nat) (l : List Word) (h : b < a ∨ a + l.length ≤ b) : mget (msets s a l) b = mget s b := by
  induction l generalizing s a with
  | nil => rfl
  | cons v r ih =>
    simp only [List.length_cons] at h
    rw [msets, ih _ _ (by omega), mget_mset, if_neg (by omega)]

/-- Consecutive words keep the memory's canonical form. -/
theorem msets_wf (s : State) (a : Nat) (l : List Word) (h : SMap.wf memDefault s.mem = true) : SMap.wf memDefault (msets s a l).mem = true := by
  induction l generalizing s a with
  | nil => exact h
  | cons v r ih => exact ih _ _ (mset_wf (s := s) a v h)

/-- Writing consecutive words changes nothing but memory. -/
theorem msets_shape (s : State) (a : Nat) (l : List Word) : ∃ m, msets s a l = { s with mem := m } := by
  induction l generalizing s a with
  | nil => exact ⟨s.mem, rfl⟩
  | cons v r ih =>
    obtain ⟨m, hm⟩ := ih (mset s a v) (a + 1)
    refine ⟨m, hm.trans ?_⟩
    unfold mset; split <;> rfl

/-! ## Stolon (17 R436 to R442) -/

/-- An edge occurs: only the interrupt controller changes. -/
theorem edgeOccur_shape (s : State) (n : Nat) : ∃ i, edgeOccur s n = { s with int := i } := by
  unfold edgeOccur; split
  · exact ⟨s.int, rfl⟩
  · split <;> exact ⟨_, rfl⟩

/-- Edges of channels reach interrupt sources, counters and captures, and nothing else. -/
def OnlyStolon (s t : State) : Prop := ∃ i l, t = { s with int := i, stl := l }

theorem OnlyStolon.refl (s : State) : OnlyStolon s s := ⟨s.int, s.stl, rfl⟩

theorem OnlyStolon.trans {s t u : State} (h : OnlyStolon s t) (k : OnlyStolon t u) : OnlyStolon s u := by
  obtain ⟨i, l, rfl⟩ := h; obtain ⟨j, m, rfl⟩ := k; exact ⟨j, m, rfl⟩

theorem chEdge_shape (s : State) (c : Nat) : OnlyStolon s (chEdge s c) := by
  unfold chEdge
  dsimp only
  split
  · exact .refl s
  · split
    · obtain ⟨i, h⟩ := edgeOccur_shape s (128 + (chDst s c - 0x10)); exact ⟨i, s.stl, h⟩
    · split
      · split
        · exact ⟨s.int, _, rfl⟩
        · exact .refl s
      · split
        · split
          · exact ⟨s.int, _, rfl⟩
          · exact .refl s
        · exact .refl s

theorem chEdges_shape (l : List Nat) (s : State) : OnlyStolon s (l.foldl chEdge s) := by
  induction l generalizing s with
  | nil => exact .refl s
  | cons c r ih => exact (chEdge_shape s c).trans (ih _)

theorem chSettle_shape (s : State) : OnlyStolon s (chSettle s) := by
  have h : OnlyStolon s { s with stl := { s.stl with levels := (List.range 128).filter (chHigh s) } } := ⟨s.int, _, rfl⟩
  exact h.trans (chEdges_shape _ _)

theorem stlCycle_shape (s : State) : OnlyStolon s (stlCycle s) := by
  refine OnlyStolon.trans ?_ (chSettle_shape _)
  exact ⟨s.int, _, rfl⟩

/-- A pulse changes the interrupt controller and the router, and nothing else. -/
theorem chPulse_shape (s : State) (cs : List Nat) : OnlyStolon s (chPulse s cs) := by
  unfold chPulse
  split
  · exact .refl s
  · have h1 : OnlyStolon s (chSettle { s with stl := { s.stl with pulses := cs } }) :=
      OnlyStolon.trans ⟨s.int, _, rfl⟩ (chSettle_shape _)
    refine (h1.trans (stlCycle_shape _)).trans (OnlyStolon.trans ?_ (chSettle_shape _))
    exact ⟨_, _, rfl⟩

/-! ## The management EVENT and event bits (14 R366; 17 R424, R433, R436) -/

/-- What raising events can change: the registers of a list, the interrupt controller, the router, the management
engine and what it sends. -/
def OnlyEvents (l : List Nat) (s t : State) : Prop :=
  ∃ r i p n d o, t = { s with regs := r, int := i, stl := p, eth := { s.eth with evSeq := n, evDue := d },
                              out := { s.out with events := o } } ∧
    (∀ a, a ∉ l → rget t a = rget s a) ∧ (SMap.wf resetVal s.regs = true → SMap.wf resetVal r = true)

theorem OnlyEvents.refl (l : List Nat) (s : State) : OnlyEvents l s s := ⟨s.regs, s.int, s.stl, s.eth.evSeq, s.eth.evDue, s.out.events, rfl, fun _ _ => rfl, id⟩

theorem OnlyEvents.trans {l : List Nat} {s t u : State} (h : OnlyEvents l s t) (k : OnlyEvents l t u) : OnlyEvents l s u := by
  obtain ⟨r, i, p, n, d, o, rfl, h1, h2⟩ := h
  obtain ⟨r', i', p', n', d', o', rfl, k1, k2⟩ := k
  exact ⟨r', i', p', n', d', o', rfl, fun a ha => (k1 a ha).trans (h1 a ha), fun w => k2 (h2 w)⟩

theorem OnlyEvents.mono {l m : List Nat} {s t : State} (h : OnlyEvents l s t) (hm : ∀ a ∈ l, a ∈ m) : OnlyEvents m s t := by
  obtain ⟨r, i, p, n, d, o, h0, h1, h2⟩ := h
  exact ⟨r, i, p, n, d, o, h0, fun a ha => h1 a fun hl => ha (hm a hl), h2⟩

theorem OnlyEvents.rset (s : State) (a : Nat) (v : Word) : OnlyEvents [a] s (Sys2Proof.Machine.rset s a v) :=
  ⟨(Sys2Proof.Machine.rset s a v).regs, s.int, s.stl, s.eth.evSeq, s.eth.evDue, s.out.events, rfl, fun b hb => rget_rset_ne v (by simpa using hb), rset_wf a v⟩

theorem OnlyStolon.events {s t : State} (h : OnlyStolon s t) (l : List Nat) : OnlyEvents l s t := by
  obtain ⟨i, p, rfl⟩ := h; exact ⟨s.regs, i, p, s.eth.evSeq, s.eth.evDue, s.out.events, rfl, fun _ _ => rfl, id⟩

theorem mgmtEvent_shape (s : State) : OnlyEvents ntxRegs s (mgmtEvent s) := by
  unfold mgmtEvent
  split
  · split
    · exact ⟨s.regs, s.int, s.stl, _, _, s.out.events, rfl, fun _ _ => rfl, id⟩
    · split
      · exact .refl _ s
      · dsimp only
        split
        · exact ⟨s.regs, s.int, s.stl, s.eth.evSeq, true, s.out.events, rfl, fun _ _ => rfl, id⟩
        · split
          · unfold bump
            refine OnlyEvents.trans ?_ (OnlyEvents.mono (OnlyEvents.rset _ _ _) fun a ha => ?_)
            · exact ⟨s.regs, s.int, s.stl, _, _, _, rfl, fun _ _ => rfl, id⟩
            rw [List.mem_singleton] at ha
            subst ha
            split <;> simp [ntxRegs]
          · exact ⟨s.regs, s.int, s.stl, s.eth.evSeq, true, s.out.events, rfl, fun _ _ => rfl, id⟩
  · exact ⟨s.regs, s.int, s.stl, _, _, s.out.events, rfl, fun _ _ => rfl, id⟩

theorem eventSettle_shape (s : State) : OnlyEvents ntxRegs s (eventSettle s) := by
  unfold eventSettle
  split
  · exact ⟨s.regs, s.int, s.stl, s.eth.evSeq, false, s.out.events, rfl, fun _ _ => rfl, id⟩
  · exact .refl _ s

@[simp] theorem eventSettle_regs (s : State) : (eventSettle s).regs = s.regs := by
  unfold eventSettle; split <;> rfl

@[simp] theorem rget_eventSettle (s : State) (a : Nat) : rget (eventSettle s) a = rget s a := by
  unfold rget; rw [eventSettle_regs]

/-- A producer's pulse changes what edges and the management EVENT change. -/
theorem stolon_shape (s : State) (src : Nat) : OnlyEvents ntxRegs s (stolon s src) := by
  unfold stolon
  exact (eventSettle_shape s).trans (((chPulse_shape _ _).events _).trans (mgmtEvent_shape _))

/-- Raising event bits changes the event register, what pulses and interrupts it leads to, and nothing else. -/
theorem setEvt_shape (s : State) (a : Nat) (m : Word) : OnlyEvents (a :: ntxRegs) s (setEvt s a m) := by
  have hs : ∀ b ∈ ntxRegs, b ∈ a :: ntxRegs := fun b hb => List.mem_cons_of_mem _ hb
  have h : OnlyEvents (a :: ntxRegs) s (Sys2Proof.Machine.rset (eventSettle s) a (rget s a ||| m)) :=
    ((eventSettle_shape s).mono hs).trans (OnlyEvents.mono (OnlyEvents.rset (eventSettle s) a _) (by simp))
  unfold setEvt
  generalize Sys2Proof.Machine.rset (eventSettle s) a (rget s a ||| m) = u at h ⊢
  dsimp only
  split
  · exact h.trans (OnlyEvents.trans ((chPulse_shape _ _).events _) (OnlyEvents.mono (mgmtEvent_shape _) hs))
  · exact h

/-- The raised bits stand in the event register, beside those that stood there. -/
theorem rget_setEvt_self (s : State) (a : Nat) (m : Word) (h : a ∉ ntxRegs) : rget (setEvt s a m) a = rget s a ||| m := by
  have hr : rget (Sys2Proof.Machine.rset (eventSettle s) a (rget s a ||| m)) a = rget s a ||| m := rget_rset_self a _
  unfold setEvt
  generalize Sys2Proof.Machine.rset (eventSettle s) a (rget s a ||| m) = u at hr ⊢
  dsimp only
  split
  · obtain ⟨r, i, p, n, d, o, h0, h1, h2⟩ := ((chPulse_shape u _).events ntxRegs).trans (mgmtEvent_shape (chPulse u _))
    exact (h1 a h).trans hr
  · exact hr

/-- Every register but the event register and the counters of an EVENT message reads as before. -/
theorem rget_setEvt_ne (s : State) {a b : Nat} (m : Word) (h : b ≠ a) (hn : b ∉ ntxRegs) : rget (setEvt s a m) b = rget s b := by
  obtain ⟨r, i, p, n, d, o, h0, h1, h2⟩ := setEvt_shape s a m
  exact h1 b (by simp [h, hn])

theorem evt_shape (s : State) (a i : Nat) : OnlyEvents (a :: ntxRegs) s (evt s a i) := setEvt_shape ..

theorem rget_evt_self (s : State) (a i : Nat) (h : a ∉ ntxRegs) : rget (evt s a i) a = rget s a ||| bitMask i := rget_setEvt_self s a _ h

theorem rget_evt_ne (s : State) {a b : Nat} (i : Nat) (h : b ≠ a) (hn : b ∉ ntxRegs) : rget (evt s a i) b = rget s b :=
  rget_setEvt_ne s _ h hn

/-- The bit of the event stands. -/
theorem rbit_evt_self (s : State) (a i : Nat) (hi : i < 16) (h : a ∉ ntxRegs) : rbit (evt s a i) a i = true := by
  unfold rbit
  rw [rget_evt_self s a i h, bit_or, bit_bitMask]
  simp [hi]

/-! ## Fault records (15 R398, R399) -/

/-- A record changes what raising events changes, and the fault manager's queue, numbers and counts as `FltSt.put` says. -/
theorem fault_shape (s : State) (i : FaultInfo) :
    OnlyEvents fltRegs { s with flt := (s.flt.put (i.time.getD (shadow s)) i).1 } (fault s i) := by
  have hm : ∀ a ∈ Reg.fltEvt :: ntxRegs, a ∈ fltRegs := by
    intro a ha; rw [fltRegs]; rcases List.mem_cons.1 ha with h | h
    · exact h ▸ List.mem_cons_self
    · exact List.mem_cons_of_mem _ (List.mem_cons_of_mem _ h)
  unfold fault
  dsimp only
  refine OnlyEvents.trans ?_ (OnlyEvents.mono (setEvt_shape _ _ _) hm)
  split
  · refine OnlyEvents.trans (OnlyEvents.mono (OnlyEvents.rset _ _ _) ?_) (OnlyEvents.mono (evt_shape _ _ _) hm)
    intro a ha
    rw [List.mem_singleton.1 ha]
    exact List.mem_cons_of_mem _ List.mem_cons_self
  · exact .refl _ _

/-! ## The shadow and granules (01 R36; 07 R184) -/

/-- The FAB shadow never leads the timebase. -/
theorem shadow_le (s : State) : shadow s ≤ s.time.now := by unfold shadow; omega

/-- The FAB shadow is at most three ticks behind. -/
theorem shadow_ge (s : State) : s.time.now ≤ shadow s + 3 := by
  unfold shadow
  have := Bool.toNat_le (Config.shadowLag s.time.now)
  omega

/-- Up to tick 2 the shadow reads 0. -/
theorem shadow_early (s : State) (h : s.time.now ≤ 2) : shadow s = 0 := by unfold shadow; omega

/-- Granules are reserved where enough are free. -/
theorem reserve_some (s : State) (p nd owner : Nat) (hs : s.win.stopped = false) (hf : nd + 1 ≤ freeCount s p)
    (hg : freeGranules s p ≠ []) : ∃ t h, reserve s p nd owner = some (t, h) ∧ h.owner = owner ∧ h.part = p ∧ t.holds = h :: s.holds := by
  have hp : ∃ m d, pickGranules s.free (nd + 1) (freeGranules s p) = m :: d := by
    have hl : 0 < (freeGranules s p).length := List.length_pos_iff.2 hg
    have hk : Config.granulePick s.free (freeGranules s p).length % max 1 (freeGranules s p).length < (freeGranules s p).length := by
      have := Nat.mod_lt (Config.granulePick s.free (freeGranules s p).length) (show 0 < max 1 (freeGranules s p).length by omega)
      omega
    simp only [pickGranules, List.getElem?_eq_getElem hk]
    exact ⟨_, _, rfl⟩
  obtain ⟨m, d, hp⟩ := hp
  have hn : ¬ (s.win.stopped = true ∨ freeCount s p < nd + 1) := by rw [hs]; simp; omega
  refine ⟨_, _, by unfold reserve; rw [if_neg hn, hp], rfl, rfl, ?_⟩
  unfold noteMin
  split <;> simp [rset]

end Sys2Proof.Machine
end

