-- ==== Sys2Proof/Laws/Fence.lean ====
section
/-!
SUPPORT. The fence's staged set (11_tillers R288 to R290): a set put into the staged registers reads back, and what a commit
answers of it.
-/

namespace Sys2Proof.Machine

/-- The six writes of one descriptor. -/
def stageOne (s : State) (k : Nat) (d : FenceDesc) : State :=
  rset (rset (rsetGroup (rsetGroup s (Reg.fenBase k) 2 d.base) (Reg.fenLast k) 2 d.last) (Reg.fenPerm k) (w16 d.perm)) (Reg.fenAttr k) d.attr

/-- One descriptor's writes as four words at its base and two after them. -/
theorem rget_stageOne (s : State) (k : Nat) (d : FenceDesc) (a : Nat) : rget (stageOne s k d) a =
    if a = Reg.fenAttr k then d.attr else if a = Reg.fenPerm k then w16 d.perm
    else if a = Reg.fenLast k + 1 then wordOf d.last 1 else if a = Reg.fenLast k then wordOf d.last 0
    else if a = Reg.fenBase k + 1 then wordOf d.base 1 else if a = Reg.fenBase k then wordOf d.base 0 else rget s a := by
  simp only [stageOne, rsetGroup, List.range_succ, List.range_zero, List.nil_append, List.cons_append, List.foldl_cons, List.foldl_nil,
    rget_rset, Nat.add_zero]

/-- A descriptor's writes leave the words of every other descriptor. -/
theorem rget_stageOne_ne (s : State) {j k : Nat} (d : FenceDesc) (h : j ≠ k) (w : Nat) (hw : w < 8) :
    rget (stageOne s k d) (0x10010100 + 8 * j + w) = rget s (0x10010100 + 8 * j + w) := by
  rw [rget_stageOne]
  repeat' split
  all_goals first | rfl | (exfalso; simp only [Reg.fenAttr, Reg.fenPerm, Reg.fenLast, Reg.fenBase] at *; omega)

/-- The first `n` descriptors of a set are staged. -/
theorem rget_stage_range (s : State) (ds : List FenceDesc) (n j : Nat) (hj : j < n) (w : Nat) (hw : w < 8) :
    rget ((List.range n).foldl (fun s k => stageOne s k (ds.getD k zeroDesc)) s) (0x10010100 + 8 * j + w) =
      rget (stageOne s j (ds.getD j zeroDesc)) (0x10010100 + 8 * j + w) := by
  induction n with
  | zero => omega
  | succ n ih =>
    rw [List.range_succ, List.foldl_append]
    simp only [List.foldl_cons, List.foldl_nil]
    by_cases h : j = n
    · subst h
      rw [rget_stageOne, rget_stageOne]
      have hs : ∀ m, m ≤ j → rget ((List.range m).foldl (fun s k => stageOne s k (ds.getD k zeroDesc)) s) (0x10010100 + 8 * j + w) =
          rget s (0x10010100 + 8 * j + w) := by
        intro m
        induction m with
        | zero => intro _; rfl
        | succ m im =>
          intro hm
          rw [List.range_succ, List.foldl_append]
          simp only [List.foldl_cons, List.foldl_nil]
          rw [rget_stageOne_ne _ _ (by omega) w hw, im (by omega)]
      rw [hs j (Nat.le_refl j)]
    · rw [rget_stageOne_ne _ _ h w hw, ih (by omega)]

/-- A set put into the staged registers reads back. -/
theorem stagedDesc_fenceStage (s : State) (ds : List FenceDesc) (j : Nat) (hj : j < 64) (hb : (ds.getD j zeroDesc).base < 2 ^ 32)
    (hl : (ds.getD j zeroDesc).last < 2 ^ 32) (hp : (ds.getD j zeroDesc).perm < 2 ^ 16) :
    stagedDesc (fenceStage s ds) j = ds.getD j zeroDesc := by
  have e : fenceStage s ds = (List.range 64).foldl (fun s k => stageOne s k (ds.getD k zeroDesc)) s := rfl
  have r : ∀ w, w < 8 → rget (fenceStage s ds) (0x10010100 + 8 * j + w) = rget (stageOne s j (ds.getD j zeroDesc)) (0x10010100 + 8 * j + w) :=
    fun w hw => by rw [e]; exact rget_stage_range s ds 64 j hj w hw
  generalize hd : ds.getD j zeroDesc = d at r hb hl hp ⊢
  have q : ∀ w, w < 8 → rget (fenceStage s ds) (0x10010100 + 8 * j + w) = if w = 5 then d.attr else if w = 4 then w16 d.perm
      else if w = 3 then wordOf d.last 1 else if w = 2 then wordOf d.last 0 else if w = 1 then wordOf d.base 1
      else if w = 0 then wordOf d.base 0 else rget s (0x10010100 + 8 * j + w) := by
    intro w hw
    rw [r w hw, rget_stageOne]
    simp only [Reg.fenAttr, Reg.fenPerm, Reg.fenLast, Reg.fenBase]
    repeat' split
    all_goals first | rfl | omega
  have q0 := q 0 (by omega)
  have q1 := q 1 (by omega)
  have q2 := q 2 (by omega)
  have q3 := q 3 (by omega)
  have q4 := q 4 (by omega)
  have q5 := q 5 (by omega)
  simp only [Nat.reduceEqDiff, if_true, if_false, Nat.add_zero] at q0 q1 q2 q3 q4 q5
  have e0 : Reg.fenBase j = 0x10010100 + 8 * j := rfl
  have e1 : Reg.fenLast j = 0x10010100 + 8 * j + 2 := by simp only [Reg.fenLast]; omega
  have e2 : Reg.fenPerm j = 0x10010100 + 8 * j + 4 := by simp only [Reg.fenPerm]; omega
  have e3 : Reg.fenAttr j = 0x10010100 + 8 * j + 5 := by simp only [Reg.fenAttr]; omega
  unfold stagedDesc rgroup
  simp only [List.range_succ, List.range_zero, List.nil_append, List.cons_append, List.map_cons, List.map_nil, ofWords, Nat.add_zero,
    e0, e1, e2, e3, q0, q1, q2, q3, q4, q5, wordOf, w16, BitVec.toNat_ofNat]
  cases d
  simp only [FenceDesc.mk.injEq, and_true]
  simp only at hb hl hp
  refine ⟨?_, ?_, ?_⟩ <;> omega

/-- A commit of a set that meets R290 puts it in force: RESULT 1. -/
theorem fenceCommit_good (s : State) (h : firstBad (stagedSet s) = none) : rfld (fenceCommit s) Reg.fenStat 1 0 = 1 := by
  unfold fenceCommit
  simp only [h]
  unfold rfld
  rw [rget_evt_ne _ _ (by decide) (by decide)]
  unfold bump
  rw [rget_rset_ne _ (by decide)]
  unfold rsetBit
  rw [rget_rset_self, setBit, field_setField_apart _ _ _ _ _ _ (by decide) (by decide)]
  exact rfld_rsetFld_self _ _ _ _ _ (by decide) (by decide)

/-- A commit of a set that breaks R290 puts nothing in force: RESULT 2. -/
theorem fenceCommit_bad (s : State) (k : Nat) (h : firstBad (stagedSet s) = some k) : rfld (fenceCommit s) Reg.fenStat 1 0 = 2 := by
  unfold fenceCommit
  simp only [h]
  unfold rfld
  rw [rget_evt_ne _ _ (by decide) (by decide)]
  exact rfld_rsetFld_self _ _ _ _ _ (by decide) (by decide)

/-- An image's fence table comes into force just where its descriptors meet R290. -/
theorem commitImageFence_fst (s : State) (b : Nat) (h : ∀ d ∈ imgFence s b, d.base < 2 ^ 32 ∧ d.last < 2 ^ 32 ∧ d.perm < 2 ^ 16) :
    (commitImageFence s b).1 = (firstBad (imgFence s b)).isNone := by
  have hlen : (imgFence s b).length = 64 := by simp [imgFence]
  have hs : stagedSet (fenceStage s (imgFence s b)) = imgFence s b := by
    apply List.ext_getElem
    · simp [stagedSet, hlen]
    · intro j h1 h2
      have hm := h _ (List.getElem_mem h2)
      have hg : (imgFence s b).getD j zeroDesc = (imgFence s b)[j] := by simp [List.getD, List.getElem?_eq_getElem h2]
      simp only [stagedSet, List.getElem_map, List.getElem_range]
      rw [stagedDesc_fenceStage s _ j (by omega) (by rw [hg]; exact hm.1) (by rw [hg]; exact hm.2.1) (by rw [hg]; exact hm.2.2), hg]
  unfold commitImageFence
  dsimp only
  cases hf : firstBad (imgFence s b) with
  | none => rw [fenceCommit_good _ (by rw [hs, hf])]; rfl
  | some k => rw [fenceCommit_bad _ k (by rw [hs, hf])]; rfl

end Sys2Proof.Machine
end

