-- ==== Sys2Proof/Laws/Keep.lean ====
section
/-!
SUPPORT. What a predicate on states survives: `Keep.x P` says that `P` survives a change of the part `x` of the state.  A lemma
`f_keeps` names the parts that the operation `f` may change, so that it gives every frame of `f` and every invariant at once.
-/

namespace Sys2Proof.Machine
namespace Keep
/-- `P` survives a change of `pending`. -/
def pending (P : State → Prop) : Prop := ∀ s v, P s → P { s with pending := v }
/-- `P` survives a change of `regs`. -/
def regs (P : State → Prop) : Prop := ∀ s v, (SMap.wf resetVal s.regs = true → SMap.wf resetVal v = true) → P s → P { s with regs := v }
/-- `P` survives a change of `latches`. -/
def latches (P : State → Prop) : Prop := ∀ s v, P s → P { s with latches := v }
/-- `P` survives a change of `staged`. -/
def staged (P : State → Prop) : Prop := ∀ s v, P s → P { s with staged := v }
/-- `P` survives a change of `mem`. -/
def mem (P : State → Prop) : Prop := ∀ s v, (SMap.wf memDefault s.mem = true → SMap.wf memDefault v = true) → P s → P { s with mem := v }
/-- `P` survives a change of `tlm`. -/
def tlm (P : State → Prop) : Prop := ∀ s v, (SMap.wf memDefault s.tlm = true → SMap.wf memDefault v = true) → P s → P { s with tlm := v }
/-- `P` survives a change of `time`. -/
def time (P : State → Prop) : Prop := ∀ s v, P s → P { s with time := v }
/-- `P` survives a change of `power`. -/
def power (P : State → Prop) : Prop := ∀ s v, P s → P { s with power := v }
/-- `P` survives a change of `boot`. -/
def boot (P : State → Prop) : Prop := ∀ s v, P s → P { s with boot := v }
/-- `P` survives a change of `wdog`. -/
def wdog (P : State → Prop) : Prop := ∀ s v, P s → P { s with wdog := v }
/-- `P` survives a change of `trans`. -/
def trans (P : State → Prop) : Prop := ∀ s v, P s → P { s with trans := v }
/-- `P` survives a change of `ports`. -/
def ports (P : State → Prop) : Prop := ∀ s v, P s → P { s with ports := v }
/-- `P` survives a change of `sheaves`. -/
def sheaves (P : State → Prop) : Prop := ∀ s v, P s → P { s with sheaves := v }
/-- `P` survives a change of `searches`. -/
def searches (P : State → Prop) : Prop := ∀ s v, P s → P { s with searches := v }
/-- `P` survives a change of `groups`. -/
def groups (P : State → Prop) : Prop := ∀ s v, P s → P { s with groups := v }
/-- `P` survives a change of `samplePhase`. -/
def samplePhase (P : State → Prop) : Prop := ∀ s v, P s → P { s with samplePhase := v }
/-- `P` survives a change of `detq`. -/
def detq (P : State → Prop) : Prop := ∀ s v, P s → P { s with detq := v }
/-- `P` survives a change of `spks`. -/
def spks (P : State → Prop) : Prop := ∀ s v, P s → P { s with spks := v }
/-- `P` survives a change of `frames`. -/
def frames (P : State → Prop) : Prop := ∀ s v, P s → P { s with frames := v }
/-- `P` survives a change of `nextFrame`. -/
def nextFrame (P : State → Prop) : Prop := ∀ s v, P s → P { s with nextFrame := v }
/-- `P` survives a change of `holds`. -/
def holds (P : State → Prop) : Prop := ∀ s v, P s → P { s with holds := v }
/-- `P` survives a change of `win`. -/
def win (P : State → Prop) : Prop := ∀ s v, P s → P { s with win := v }
/-- `P` survives a change of `lnk`. -/
def lnk (P : State → Prop) : Prop := ∀ s v, P s → P { s with lnk := v }
/-- `P` survives a change of `fuses`. -/
def fuses (P : State → Prop) : Prop := ∀ s v, P s → P { s with fuses := v }
/-- `P` survives a change of `ses`. -/
def ses (P : State → Prop) : Prop := ∀ s v, P s → P { s with ses := v }
/-- `P` survives a change of `pairs`. -/
def pairs (P : State → Prop) : Prop := ∀ s v, P s → P { s with pairs := v }
/-- `P` survives a change of `key`. -/
def key (P : State → Prop) : Prop := ∀ s v, P s → P { s with key := v }
/-- `P` survives a change of `cores`. -/
def cores (P : State → Prop) : Prop := ∀ s v, P s → P { s with cores := v }
/-- `P` survives a change of `fence`. -/
def fence (P : State → Prop) : Prop := ∀ s v, P s → P { s with fence := v }
/-- `P` survives a change of `sage`. -/
def sage (P : State → Prop) : Prop := ∀ s v, P s → P { s with sage := v }
/-- `P` survives a change of `usl`. -/
def usl (P : State → Prop) : Prop := ∀ s v, P s → P { s with usl := v }
/-- `P` survives a change of `eth`. -/
def eth (P : State → Prop) : Prop := ∀ s v, P s → P { s with eth := v }
/-- `P` survives a change of `xsp`. -/
def xsp (P : State → Prop) : Prop := ∀ s v, v.flash = s.xsp.flash → P s → P { s with xsp := v }
/-- `P` survives a change of `flt`. -/
def flt (P : State → Prop) : Prop := ∀ s v, P s → P { s with flt := v }
/-- `P` survives a change of `tmrs`. -/
def tmrs (P : State → Prop) : Prop := ∀ s v, P s → P { s with tmrs := v }
/-- `P` survives a change of `rtc`. -/
def rtc (P : State → Prop) : Prop := ∀ s v, P s → P { s with rtc := v }
/-- `P` survives a change of `int`. -/
def int (P : State → Prop) : Prop := ∀ s v, P s → P { s with int := v }
/-- `P` survives a change of `stl`. -/
def stl (P : State → Prop) : Prop := ∀ s v, P s → P { s with stl := v }
/-- `P` survives a change of `tag`. -/
def tag (P : State → Prop) : Prop := ∀ s v, v.store = s.tag.store → P s → P { s with tag := v }
/-- `P` survives a change of `reader`. -/
def reader (P : State → Prop) : Prop := ∀ s v, P s → P { s with reader := v }
/-- `P` survives a change of `upd`. -/
def upd (P : State → Prop) : Prop := ∀ s v, P s → P { s with upd := v }
/-- `P` survives a change of `free`. -/
def free (P : State → Prop) : Prop := ∀ s v, P s → P { s with free := v }
/-- `P` survives a change of `out`. -/
def out (P : State → Prop) : Prop := ∀ s v, P s → P { s with out := v }
/-- `P` survives a change of the external flash. -/
def flash (P : State → Prop) : Prop := ∀ s v, (BMap.wf flashErased s.xsp.flash = true → BMap.wf flashErased v = true) → P s → P { s with xsp := { s.xsp with flash := v } }
/-- `P` survives a change of the tag store. -/
def store (P : State → Prop) : Prop := ∀ s v, (BMap.wf 0 s.tag.store = true → BMap.wf 0 v.store = true) → P s → P { s with tag := v }
variable {P : State → Prop}
theorem foldl {α : Type} {f : State → α → State} {l : List α} {s : State} (h : P s) (hf : ∀ s a, P s → P (f s a)) : P (l.foldl f s) := by
  induction l generalizing s with
  | nil => exact h
  | cons a r ih => exact ih (hf _ _ h)
theorem foldl1 {α β : Type} {f : State × β → α → State × β} {l : List α} {s : State × β} (h : P s.1) (hf : ∀ s a, P s.1 → P (f s a).1) :
    P (l.foldl f s).1 := by
  induction l generalizing s with
  | nil => exact h
  | cons a r ih => exact ih (hf _ _ h)
theorem foldl2 {α β : Type} {f : β × State → α → β × State} {l : List α} {s : β × State} (h : P s.2) (hf : ∀ s a, P s.2 → P (f s a).2) :
    P (l.foldl f s).2 := by
  induction l generalizing s with
  | nil => exact h
  | cons a r ih => exact ih (hf _ _ h)
/-- `P` holds of the state an optional result gives. -/
def Some (P : State → Prop) (r : Option State) : Prop := ∀ x, r = some x → P x
/-- `P` holds of the state that an optional pair gives first. -/
def Some1 {α : Type} (P : State → Prop) (r : Option (State × α)) : Prop := ∀ x, r = some x → P x.1
/-- `P` holds of the state that an optional pair gives second. -/
def Some2 {α : Type} (P : State → Prop) (r : Option (α × State)) : Prop := ∀ x, r = some x → P x.2
/-- `P` holds of the state that a left alternative gives second. -/
def Inl2 {α β : Type} (P : State → Prop) (r : (α × State) ⊕ β) : Prop := ∀ x, r = .inl x → P x.2
theorem none : Some P none := fun _ e => by cases e
theorem none1 {α : Type} : Some1 (α := α) P Option.none := fun _ e => by cases e
theorem none2 {α : Type} : Some2 (α := α) P Option.none := fun _ e => by cases e
theorem some {s : State} (h : P s) : Some P (Option.some s) := fun _ e => by cases e; exact h
theorem some1 {α : Type} {s : State} {a : α} (h : P s) : Some1 P (Option.some (s, a)) := fun _ e => by cases e; exact h
theorem some2 {α : Type} {s : State} {a : α} (h : P s) : Some2 P (Option.some (a, s)) := fun _ e => by cases e; exact h
theorem some2' {α : Type} {x : α × State} (h : P x.2) : Some2 P (Option.some x) := fun _ e => by cases e; exact h
theorem inl2 {α β : Type} {x : α × State} (h : P x.2) : Inl2 (β := β) P (.inl x) := fun _ e => by cases e; exact h
theorem inr2 {α β : Type} {x : β} : Inl2 P (Sum.inr x : (α × State) ⊕ β) := fun _ e => by cases e
theorem findSome {α γ : Type} {f : α → Option (γ × State)} {l : List α} {t : γ × State} (hf : ∀ a, Some2 P (f a)) (e : l.findSome? f = Option.some t) :
    P t.2 := by
  obtain ⟨a, -, ha⟩ := List.exists_of_findSome?_eq_some e
  exact hf a _ ha
theorem findSomeAll {α γ : Type} {f : α → Option (γ × State)} {l : List α} (hf : ∀ a, Some2 P (f a)) : Some2 P (firstTrap f l) := fun _ e => findSome hf e
theorem patSome {r : Option State} {t : State} (h : Some P r) (e : r = Option.some t) : P t := h _ e
theorem patSome1 {α : Type} {r : Option (State × α)} {x : α} {t : State} (h : Some1 P r) (e : r = Option.some (t, x)) : P t := h _ e
theorem patSome2 {α : Type} {r : Option (α × State)} {x : α} {t : State} (h : Some2 P r) (e : r = Option.some (x, t)) : P t := h _ e
theorem patInl2 {α β : Type} {r : (α × State) ⊕ β} {x : α} {t : State} (h : Inl2 P r) (e : r = .inl (x, t)) : P t := h _ e
theorem patSome' {α : Type} {r : Option (α × State)} {x : α × State} (h : Some2 P r) (e : r = Option.some x) : P x.2 := h _ e
theorem patSome1' {α : Type} {r : Option (State × α)} {x : State × α} (h : Some1 P r) (e : r = Option.some x) : P x.1 := h _ e
theorem getD {r : Option State} {d : State} (h : Some P r) (k : P d) : P (r.getD d) := by
  cases r with
  | none => exact k
  | some x => exact h _ rfl
theorem ite {c : Prop} [Decidable c] {s t : State} (h : P s) (k : P t) : P (if c then s else t) := by split <;> assumption
theorem pat2 {α : Type} {r : α × State} {x : α} {t : State} (h : P r.2) (e : r = (x, t)) : P t := by subst e; exact h
theorem pat1 {α : Type} {r : State × α} {x : α} {t : State} (h : P r.1) (e : r = (t, x)) : P t := by subst e; exact h
theorem pat22 {α β : Type} {r : α × β × State} {x : α} {y : β} {t : State} (h : P r.2.2) (e : r = (x, y, t)) : P t := by subst e; exact h
theorem pat21 {α β : Type} {r : α × State × β} {x : α} {y : β} {t : State} (h : P r.2.1) (e : r = (x, t, y)) : P t := by subst e; exact h
theorem pat222 {α β γ : Type} {r : α × β × γ × State} {x : α} {y : β} {z : γ} {t : State} (h : P r.2.2.2) (e : r = (x, y, z, t)) : P t := by subst e; exact h
/-- `P` survives a change of every part but the queue and the fuses. -/
theorem renew (hregs : Keep.regs P) (hlatches : Keep.latches P) (hstaged : Keep.staged P) (hmem : Keep.mem P) (htlm : Keep.tlm P) (htime : Keep.time P) (hpower : Keep.power P) (hboot : Keep.boot P) (hwdog : Keep.wdog P) (htrans : Keep.trans P) (hports : Keep.ports P) (hsheaves : Keep.sheaves P) (hsearches : Keep.searches P) (hgroups : Keep.groups P) (hsamplePhase : Keep.samplePhase P) (hdetq : Keep.detq P) (hspks : Keep.spks P) (hframes : Keep.frames P) (hnextFrame : Keep.nextFrame P) (hholds : Keep.holds P) (hwin : Keep.win P) (hlnk : Keep.lnk P) (hses : Keep.ses P) (hpairs : Keep.pairs P) (hkey : Keep.key P) (hcores : Keep.cores P) (hfence : Keep.fence P) (hsage : Keep.sage P) (husl : Keep.usl P) (heth : Keep.eth P) (hxsp : Keep.xsp P) (hflt : Keep.flt P) (htmrs : Keep.tmrs P) (hrtc : Keep.rtc P) (hint : Keep.int P) (hstl : Keep.stl P) (htag : Keep.tag P) (hreader : Keep.reader P) (hupd : Keep.upd P) (hfree : Keep.free P) (hout : Keep.out P) {s t : State} (h : P s)
    (hp : t.pending = s.pending) (hf : t.fuses = s.fuses) (wr : SMap.wf resetVal s.regs = true → SMap.wf resetVal t.regs = true)
    (wm : SMap.wf memDefault s.mem = true → SMap.wf memDefault t.mem = true) (wl : SMap.wf memDefault s.tlm = true → SMap.wf memDefault t.tlm = true)
    (wx : t.xsp.flash = s.xsp.flash) (wt : t.tag.store = s.tag.store) : P t := by
  have h := hregs _ t.regs (by exact wr) h
  have h := hlatches _ t.latches h
  have h := hstaged _ t.staged h
  have h := hmem _ t.mem (by exact wm) h
  have h := htlm _ t.tlm (by exact wl) h
  have h := htime _ t.time h
  have h := hpower _ t.power h
  have h := hboot _ t.boot h
  have h := hwdog _ t.wdog h
  have h := htrans _ t.trans h
  have h := hports _ t.ports h
  have h := hsheaves _ t.sheaves h
  have h := hsearches _ t.searches h
  have h := hgroups _ t.groups h
  have h := hsamplePhase _ t.samplePhase h
  have h := hdetq _ t.detq h
  have h := hspks _ t.spks h
  have h := hframes _ t.frames h
  have h := hnextFrame _ t.nextFrame h
  have h := hholds _ t.holds h
  have h := hwin _ t.win h
  have h := hlnk _ t.lnk h
  have h := hses _ t.ses h
  have h := hpairs _ t.pairs h
  have h := hkey _ t.key h
  have h := hcores _ t.cores h
  have h := hfence _ t.fence h
  have h := hsage _ t.sage h
  have h := husl _ t.usl h
  have h := heth _ t.eth h
  have h := hxsp _ t.xsp (by exact wx) h
  have h := hflt _ t.flt h
  have h := htmrs _ t.tmrs h
  have h := hrtc _ t.rtc h
  have h := hint _ t.int h
  have h := hstl _ t.stl h
  have h := htag _ t.tag (by exact wt) h
  have h := hreader _ t.reader h
  have h := hupd _ t.upd h
  have h := hfree _ t.free h
  have h := hout _ t.out h
  have e : t = { t with pending := s.pending, fuses := s.fuses } := by rw [← hp, ← hf]
  rw [e]
  exact h
end Keep
variable {P : State → Prop}
theorem Keep.set_boot (hboot : Keep.boot P) {s : State} {vboot} (h : P s) : P { s with boot := vboot } := (hboot s vboot h)
theorem Keep.set_boot_win (hboot : Keep.boot P) (hwin : Keep.win P) {s : State} {vboot} {vwin} (h : P s) : P { s with boot := vboot, win := vwin } := (hwin { s with boot := vboot } vwin (hboot s vboot h))
theorem Keep.set_cores (hcores : Keep.cores P) {s : State} {vcores} (h : P s) : P { s with cores := vcores } := (hcores s vcores h)
theorem Keep.set_detq (hdetq : Keep.detq P) {s : State} {vdetq} (h : P s) : P { s with detq := vdetq } := (hdetq s vdetq h)
theorem Keep.set_eth (heth : Keep.eth P) {s : State} {veth} (h : P s) : P { s with eth := veth } := (heth s veth h)
theorem Keep.set_eth_out (heth : Keep.eth P) (hout : Keep.out P) {s : State} {veth} {vout} (h : P s) : P { s with eth := veth, out := vout } := (hout { s with eth := veth } vout (heth s veth h))
theorem Keep.set_fence (hfence : Keep.fence P) {s : State} {vfence} (h : P s) : P { s with fence := vfence } := (hfence s vfence h)
theorem Keep.set_flt (hflt : Keep.flt P) {s : State} {vflt} (h : P s) : P { s with flt := vflt } := (hflt s vflt h)
theorem Keep.set_frames (hframes : Keep.frames P) {s : State} {vframes} (h : P s) : P { s with frames := vframes } := (hframes s vframes h)
theorem Keep.set_free (hfree : Keep.free P) {s : State} {vfree} (h : P s) : P { s with free := vfree } := (hfree s vfree h)
theorem Keep.set_fuses (hfuses : Keep.fuses P) {s : State} {vfuses} (h : P s) : P { s with fuses := vfuses } := (hfuses s vfuses h)
theorem Keep.set_groups (hgroups : Keep.groups P) {s : State} {vgroups} (h : P s) : P { s with groups := vgroups } := (hgroups s vgroups h)
theorem Keep.set_holds (hholds : Keep.holds P) {s : State} {vholds} (h : P s) : P { s with holds := vholds } := (hholds s vholds h)
theorem Keep.set_holds_free (hholds : Keep.holds P) (hfree : Keep.free P) {s : State} {vholds} {vfree} (h : P s) : P { s with holds := vholds, free := vfree } := (hfree { s with holds := vholds } vfree (hholds s vholds h))
theorem Keep.set_int (hint : Keep.int P) {s : State} {vint} (h : P s) : P { s with int := vint } := (hint s vint h)
theorem Keep.set_key (hkey : Keep.key P) {s : State} {vkey} (h : P s) : P { s with key := vkey } := (hkey s vkey h)
theorem Keep.set_latches (hlatches : Keep.latches P) {s : State} {vlatches} (h : P s) : P { s with latches := vlatches } := (hlatches s vlatches h)
theorem Keep.set_latches_staged (hlatches : Keep.latches P) (hstaged : Keep.staged P) {s : State} {vlatches} {vstaged} (h : P s) : P { s with latches := vlatches, staged := vstaged } := (hstaged { s with latches := vlatches } vstaged (hlatches s vlatches h))
theorem Keep.set_lnk (hlnk : Keep.lnk P) {s : State} {vlnk} (h : P s) : P { s with lnk := vlnk } := (hlnk s vlnk h)
theorem Keep.set_mem (hmem : Keep.mem P) {s : State} {vmem} (h : P s) (wmem : SMap.wf memDefault s.mem = true → SMap.wf memDefault vmem = true) : P { s with mem := vmem } := (hmem s vmem wmem h)
theorem Keep.set_mem_flt (hmem : Keep.mem P) (hflt : Keep.flt P) {s : State} {vmem} {vflt} (h : P s) (wmem : SMap.wf memDefault s.mem = true → SMap.wf memDefault vmem = true) : P { s with mem := vmem, flt := vflt } := (hflt { s with mem := vmem } vflt (hmem s vmem wmem h))
theorem Keep.set_mem_tlm_boot_flt (hmem : Keep.mem P) (htlm : Keep.tlm P) (hboot : Keep.boot P) (hflt : Keep.flt P) {s : State} {vmem} {vtlm} {vboot} {vflt} (h : P s) (wmem : SMap.wf memDefault s.mem = true → SMap.wf memDefault vmem = true) (wtlm : SMap.wf memDefault s.tlm = true → SMap.wf memDefault vtlm = true) : P { s with mem := vmem, tlm := vtlm, boot := vboot, flt := vflt } := (hflt { s with mem := vmem, tlm := vtlm, boot := vboot } vflt (hboot { s with mem := vmem, tlm := vtlm } vboot (htlm { s with mem := vmem } vtlm wtlm (hmem s vmem wmem h))))
theorem Keep.set_out (hout : Keep.out P) {s : State} {vout} (h : P s) : P { s with out := vout } := (hout s vout h)
theorem Keep.set_pairs (hpairs : Keep.pairs P) {s : State} {vpairs} (h : P s) : P { s with pairs := vpairs } := (hpairs s vpairs h)
theorem Keep.set_ports (hports : Keep.ports P) {s : State} {vports} (h : P s) : P { s with ports := vports } := (hports s vports h)
theorem Keep.set_power (hpower : Keep.power P) {s : State} {vpower} (h : P s) : P { s with power := vpower } := (hpower s vpower h)
theorem Keep.set_reader (hreader : Keep.reader P) {s : State} {vreader} (h : P s) : P { s with reader := vreader } := (hreader s vreader h)
theorem Keep.set_rtc (hrtc : Keep.rtc P) {s : State} {vrtc} (h : P s) : P { s with rtc := vrtc } := (hrtc s vrtc h)
theorem Keep.set_rtc_out (hrtc : Keep.rtc P) (hout : Keep.out P) {s : State} {vrtc} {vout} (h : P s) : P { s with rtc := vrtc, out := vout } := (hout { s with rtc := vrtc } vout (hrtc s vrtc h))
theorem Keep.set_rtc_stl (hrtc : Keep.rtc P) (hstl : Keep.stl P) {s : State} {vrtc} {vstl} (h : P s) : P { s with rtc := vrtc, stl := vstl } := (hstl { s with rtc := vrtc } vstl (hrtc s vrtc h))
theorem Keep.set_sage (hsage : Keep.sage P) {s : State} {vsage} (h : P s) : P { s with sage := vsage } := (hsage s vsage h)
theorem Keep.set_searches (hsearches : Keep.searches P) {s : State} {vsearches} (h : P s) : P { s with searches := vsearches } := (hsearches s vsearches h)
theorem Keep.set_ses (hses : Keep.ses P) {s : State} {vses} (h : P s) : P { s with ses := vses } := (hses s vses h)
theorem Keep.set_sheaves (hsheaves : Keep.sheaves P) {s : State} {vsheaves} (h : P s) : P { s with sheaves := vsheaves } := (hsheaves s vsheaves h)
theorem Keep.set_spks (hspks : Keep.spks P) {s : State} {vspks} (h : P s) : P { s with spks := vspks } := (hspks s vspks h)
theorem Keep.set_staged (hstaged : Keep.staged P) {s : State} {vstaged} (h : P s) : P { s with staged := vstaged } := (hstaged s vstaged h)
theorem Keep.set_stl (hstl : Keep.stl P) {s : State} {vstl} (h : P s) : P { s with stl := vstl } := (hstl s vstl h)
theorem Keep.set_time (htime : Keep.time P) {s : State} {vtime} (h : P s) : P { s with time := vtime } := (htime s vtime h)
theorem Keep.set_time_samplePhase_cores (htime : Keep.time P) (hsamplePhase : Keep.samplePhase P) (hcores : Keep.cores P) {s : State} {vtime} {vsamplePhase} {vcores} (h : P s) : P { s with time := vtime, samplePhase := vsamplePhase, cores := vcores } := (hcores { s with time := vtime, samplePhase := vsamplePhase } vcores (hsamplePhase { s with time := vtime } vsamplePhase (htime s vtime h)))
theorem Keep.set_tmrs (htmrs : Keep.tmrs P) {s : State} {vtmrs} (h : P s) : P { s with tmrs := vtmrs } := (htmrs s vtmrs h)
theorem Keep.set_trans (htrans : Keep.trans P) {s : State} {vtrans} (h : P s) : P { s with trans := vtrans } := (htrans s vtrans h)
theorem Keep.set_upd (hupd : Keep.upd P) {s : State} {vupd} (h : P s) : P { s with upd := vupd } := (hupd s vupd h)
theorem Keep.set_usl (husl : Keep.usl P) {s : State} {vusl} (h : P s) : P { s with usl := vusl } := (husl s vusl h)
theorem Keep.set_wdog (hwdog : Keep.wdog P) {s : State} {vwdog} (h : P s) : P { s with wdog := vwdog } := (hwdog s vwdog h)
theorem Keep.set_win (hwin : Keep.win P) {s : State} {vwin} (h : P s) : P { s with win := vwin } := (hwin s vwin h)
theorem Keep.set_win_sage (hwin : Keep.win P) (hsage : Keep.sage P) {s : State} {vwin} {vsage} (h : P s) : P { s with win := vwin, sage := vsage } := (hsage { s with win := vwin } vsage (hwin s vwin h))
theorem Keep.set_xsp (hxsp : Keep.xsp P) {s : State} {vxsp} (h : P s) (wxsp : vxsp.flash = s.xsp.flash) : P { s with xsp := vxsp } := (hxsp s vxsp wxsp h)
theorem Keep.set_regs (hregs : Keep.regs P) {s : State} {vregs} (h : P s) (wregs : SMap.wf resetVal s.regs = true → SMap.wf resetVal vregs = true) : P { s with regs := vregs } := (hregs s vregs wregs h)
theorem Keep.set_tlm (htlm : Keep.tlm P) {s : State} {vtlm} (h : P s) (wtlm : SMap.wf memDefault s.tlm = true → SMap.wf memDefault vtlm = true) : P { s with tlm := vtlm } := (htlm s vtlm wtlm h)
theorem Keep.set_usl_free_out (husl : Keep.usl P) (hfree : Keep.free P) (hout : Keep.out P) {s : State} {vusl} {vfree} {vout} (h : P s) : P { s with usl := vusl, free := vfree, out := vout } := (hout { s with usl := vusl, free := vfree } vout (hfree { s with usl := vusl } vfree (husl s vusl h)))
theorem Keep.set_frames_nextFrame_free (hframes : Keep.frames P) (hnextFrame : Keep.nextFrame P) (hfree : Keep.free P) {s : State} {vframes} {vnextFrame} {vfree} (h : P s) : P { s with frames := vframes, nextFrame := vnextFrame, free := vfree } := (hfree { s with frames := vframes, nextFrame := vnextFrame } vfree (hnextFrame { s with frames := vframes } vnextFrame (hframes s vframes h)))
theorem Keep.set_lnk_ses_key_cores_eth (hlnk : Keep.lnk P) (hses : Keep.ses P) (hkey : Keep.key P) (hcores : Keep.cores P) (heth : Keep.eth P) {s : State} {vlnk} {vses} {vkey} {vcores} {veth} (h : P s) : P { s with lnk := vlnk, ses := vses, key := vkey, cores := vcores, eth := veth } := (heth { s with lnk := vlnk, ses := vses, key := vkey, cores := vcores } veth (hcores { s with lnk := vlnk, ses := vses, key := vkey } vcores (hkey { s with lnk := vlnk, ses := vses } vkey (hses { s with lnk := vlnk } vses (hlnk s vlnk h)))))
theorem Keep.set_sheaves_flt (hsheaves : Keep.sheaves P) (hflt : Keep.flt P) {s : State} {vsheaves} {vflt} (h : P s) : P { s with sheaves := vsheaves, flt := vflt } := (hflt { s with sheaves := vsheaves } vflt (hsheaves s vsheaves h))
theorem Keep.set_win_ses (hwin : Keep.win P) (hses : Keep.ses P) {s : State} {vwin} {vses} (h : P s) : P { s with win := vwin, ses := vses } := (hses { s with win := vwin } vses (hwin s vwin h))
theorem Keep.set_pending (hpending : Keep.pending P) {s : State} {vpending} (h : P s) : P { s with pending := vpending } := (hpending s vpending h)

/-- A flipped marker bit leaves the tag's stored octets (18 R448). -/
@[simp] theorem markUpset_store (t : TagSt) (f : Nat) (bits : List Nat) : (markUpset t f bits).store = t.store := by
  unfold markUpset
  dsimp only
  split
  · rfl
  · split <;> rfl

end Sys2Proof.Machine
end

