-- ==== Sys2Proof/Laws/KeepOps.lean ====
section
/-!
SUPPORT. Which parts of the state the operations may change: shared operations, register groups, interrupts, timers, rows, Winnow, panels, the gate.
-/

namespace Sys2Proof.Machine

variable {P : State → Prop}

theorem State.updPort_keeps (hports : Keep.ports P) {s : State} {p} {f} (h : P s) : P (State.updPort s p f) := by
  unfold State.updPort
  refine Keep.set_ports hports ?_
  assumption

theorem State.updSheaf_keeps (hsheaves : Keep.sheaves P) {s : State} {n} {f} (h : P s) : P (State.updSheaf s n f) := by
  unfold State.updSheaf
  refine Keep.set_sheaves hsheaves ?_
  assumption

theorem State.updSearch_keeps (hsearches : Keep.searches P) {s : State} {n} {f} (h : P s) : P (State.updSearch s n f) := by
  unfold State.updSearch
  refine Keep.set_searches hsearches ?_
  assumption

theorem State.updCore_keeps (hcores : Keep.cores P) {s : State} {k} {f} (h : P s) : P (State.updCore s k f) := by
  unfold State.updCore
  refine Keep.set_cores hcores ?_
  assumption

theorem State.updTmr_keeps (htmrs : Keep.tmrs P) {s : State} {n} {f} (h : P s) : P (State.updTmr s n f) := by
  unfold State.updTmr
  refine Keep.set_tmrs htmrs ?_
  assumption

theorem rset_keeps (hregs : Keep.regs P) {s : State} {a} {v} (h : P s) : P (rset s a v) := by
  unfold rset
  refine Keep.set_regs hregs ?_ ?_
  · assumption
  · exact SMap.wf_set _ _

theorem rsetFld_keeps (hregs : Keep.regs P) {s : State} {a} {hi} {lo} {v} (h : P s) : P (rsetFld s a hi lo v) := by
  unfold rsetFld
  refine rset_keeps hregs ?_
  assumption

theorem rsetBit_keeps (hregs : Keep.regs P) {s : State} {a} {i} {b} (h : P s) : P (rsetBit s a i b) := by
  unfold rsetBit
  refine rset_keeps hregs ?_
  assumption

theorem rsetGroup_keeps (hregs : Keep.regs P) {s : State} {a} {n} {v} (h : P s) : P (rsetGroup s a n v) := by
  unfold rsetGroup
  refine Keep.foldl ?_ ?_
  · assumption
  · intro _ _ _
    refine rset_keeps hregs ?_
    assumption

theorem bump_keeps (hregs : Keep.regs P) {s : State} {a} {n} (h : P s) : P (bump s a n) := by
  unfold bump
  refine rset_keeps hregs ?_
  assumption

theorem bumpStop_keeps (hregs : Keep.regs P) {s : State} {a} {n} (h : P s) : P (bumpStop s a n) := by
  unfold bumpStop
  refine rset_keeps hregs ?_
  assumption

theorem rwrite_keeps (hregs : Keep.regs P) {s : State} {a} {v} (h : P s) : P (rwrite s a v) := by
  unfold rwrite
  split
  · refine rset_keeps hregs ?_
    assumption
  · assumption

theorem reach_keeps (htime : Keep.time P) {s : State} {t1} (h : P s) : P (reach s t1) := by
  unfold reach
  refine Keep.set_time htime ?_
  assumption

theorem noteDisc_keeps (hrtc : Keep.rtc P) {s : State} (h : P s) : P (noteDisc s) := by
  unfold noteDisc
  refine Keep.ite ?_ ?_
  · refine Keep.set_rtc hrtc ?_
    assumption
  · assumption

theorem edgeOccur_keeps (hint : Keep.int P) {s : State} {n} (h : P s) : P (edgeOccur s n) := by
  unfold edgeOccur
  refine Keep.ite ?_ ?_
  · assumption
  · refine Keep.ite ?_ ?_
    · refine Keep.set_int hint ?_
      assumption
    · refine Keep.set_int hint ?_
      assumption

theorem chEdge_keeps (hint : Keep.int P) (hstl : Keep.stl P) {s : State} {c} (h : P s) : P (chEdge s c) := by
  unfold chEdge
  extract_lets -underBinder -merge -useContext +onlyGivenNames x
  clear_value x
  refine Keep.ite ?_ ?_
  · assumption
  · refine Keep.ite ?_ ?_
    · refine edgeOccur_keeps hint ?_
      assumption
    · refine Keep.ite ?_ ?_
      · refine Keep.ite ?_ ?_
        · refine Keep.set_stl hstl ?_
          assumption
        · assumption
      · refine Keep.ite ?_ ?_
        · refine Keep.ite ?_ ?_
          · refine Keep.set_stl hstl ?_
            assumption
          · assumption
        · assumption

theorem chSettle_keeps (hint : Keep.int P) (hstl : Keep.stl P) {s : State} (h : P s) : P (chSettle s) := by
  unfold chSettle
  extract_lets -underBinder -merge -useContext +onlyGivenNames x
  clear_value x
  extract_lets -underBinder -merge -useContext +onlyGivenNames x
  clear_value x
  extract_lets -underBinder -merge -useContext +onlyGivenNames x
  clear_value x
  extract_lets -underBinder -merge -useContext +onlyGivenNames x
  have hx : P x := by
    subst x
    refine Keep.set_stl hstl ?_
    assumption
  clear_value x
  refine Keep.foldl ?_ ?_
  · assumption
  · intro _ _ _
    refine chEdge_keeps hint hstl ?_
    assumption

theorem stlCycle_keeps (hint : Keep.int P) (hstl : Keep.stl P) {s : State} (h : P s) : P (stlCycle s) := by
  unfold stlCycle
  extract_lets -underBinder -merge -useContext +onlyGivenNames x
  clear_value x
  refine chSettle_keeps hint hstl ?_
  refine Keep.set_stl hstl ?_
  assumption

theorem chPulse_keeps (hint : Keep.int P) (hstl : Keep.stl P) {s : State} {cs} (h : P s) : P (chPulse s cs) := by
  unfold chPulse
  refine Keep.ite ?_ ?_
  · assumption
  · extract_lets -underBinder -merge -useContext +onlyGivenNames x
    clear_value x
    extract_lets -underBinder -merge -useContext +onlyGivenNames x
    have hx : P x := by
      subst x
      refine chSettle_keeps hint hstl ?_
      refine Keep.set_stl hstl ?_
      assumption
    clear_value x
    extract_lets -underBinder -merge -useContext +onlyGivenNames x
    have hx : P x := by
      subst x
      refine stlCycle_keeps hint hstl ?_
      assumption
    clear_value x
    refine chSettle_keeps hint hstl ?_
    refine Keep.set_stl hstl ?_
    assumption

theorem mgmtEvent_keeps (hregs : Keep.regs P) (heth : Keep.eth P) (hout : Keep.out P) {s : State} (h : P s) : P (mgmtEvent s) := by
  unfold mgmtEvent
  split
  · refine Keep.ite ?_ ?_
    · refine Keep.set_eth heth ?_
      assumption
    · refine Keep.ite ?_ ?_
      · assumption
      · extract_lets -underBinder -merge -useContext +onlyGivenNames x
        clear_value x
        extract_lets -underBinder -merge -useContext +onlyGivenNames x
        have hx : P x := by
          subst x
          refine Keep.set_eth heth ?_
          assumption
        clear_value x
        refine Keep.ite ?_ ?_
        · assumption
        · split
          · extract_lets -underBinder -merge -useContext +onlyGivenNames x
            clear_value x
            refine bump_keeps hregs ?_
            refine Keep.set_eth_out heth hout ?_
            assumption
          · assumption
  · refine Keep.set_eth heth ?_
    assumption

theorem eventSettle_keeps (heth : Keep.eth P) {s : State} (h : P s) : P (eventSettle s) := by
  unfold eventSettle
  refine Keep.ite ?_ ?_
  · refine Keep.set_eth heth ?_
    assumption
  · assumption

theorem stolon_keeps (hregs : Keep.regs P) (heth : Keep.eth P) (hint : Keep.int P) (hstl : Keep.stl P) (hout : Keep.out P) {s : State} {src} (h : P s) : P (stolon s src) := by
  unfold stolon
  refine mgmtEvent_keeps hregs heth hout ?_
  refine chPulse_keeps hint hstl ?_
  refine eventSettle_keeps heth ?_
  assumption

theorem setEvt_keeps (hregs : Keep.regs P) (heth : Keep.eth P) (hint : Keep.int P) (hstl : Keep.stl P) (hout : Keep.out P) {s : State} {a} {mask} (h : P s) : P (setEvt s a mask) := by
  unfold setEvt
  extract_lets -underBinder -merge -useContext +onlyGivenNames x
  have hx : P x := by
    subst x
    refine rset_keeps hregs ?_
    refine eventSettle_keeps heth ?_
    assumption
  clear_value x
  split
  · refine mgmtEvent_keeps hregs heth hout ?_
    refine chPulse_keeps hint hstl ?_
    assumption
  · assumption

theorem evt_keeps (hregs : Keep.regs P) (heth : Keep.eth P) (hint : Keep.int P) (hstl : Keep.stl P) (hout : Keep.out P) {s : State} {a} {i} (h : P s) : P (evt s a i) := by
  unfold evt
  refine setEvt_keeps hregs heth hint hstl hout ?_
  assumption

theorem fault_keeps (hregs : Keep.regs P) (heth : Keep.eth P) (hflt : Keep.flt P) (hint : Keep.int P) (hstl : Keep.stl P) (hout : Keep.out P) {s : State} {i} (h : P s) : P (fault s i) := by
  unfold fault
  extract_lets -underBinder -merge -useContext +onlyGivenNames x
  clear_value x
  extract_lets -underBinder -merge -useContext +onlyGivenNames x
  have hx : P x := by
    subst x
    refine Keep.set_flt hflt ?_
    assumption
  clear_value x
  extract_lets -underBinder -merge -useContext +onlyGivenNames x
  have hx : P x := by
    subst x
    refine Keep.ite ?_ ?_
    · refine evt_keeps hregs heth hint hstl hout ?_
      refine bump_keeps hregs ?_
      assumption
    · assumption
  clear_value x
  refine setEvt_keeps hregs heth hint hstl hout ?_
  assumption

theorem setState_keeps (hregs : Keep.regs P) {s : State} {b} {v} (h : P s) : P (setState s b v) := by
  unfold setState
  refine rsetFld_keeps hregs ?_
  assumption

theorem setEn_keeps (hregs : Keep.regs P) {s : State} {b} {v} (h : P s) : P (setEn s b v) := by
  unfold setEn
  refine rsetBit_keeps hregs ?_
  assumption

theorem drainState_keeps (hregs : Keep.regs P) {s : State} {b} (h : P s) : P (drainState s b) := by
  unfold drainState
  extract_lets -underBinder -merge -useContext +onlyGivenNames x
  have hx : P x := by
    subst x
    refine setEn_keeps hregs ?_
    assumption
  clear_value x
  refine Keep.ite ?_ ?_
  · refine setState_keeps hregs ?_
    assumption
  · assumption

theorem mset_keeps (hmem : Keep.mem P) {s : State} {a} {v} (h : P s) : P (mset s a v) := by
  unfold mset
  refine Keep.ite ?_ ?_
  · assumption
  · refine Keep.set_mem hmem ?_ ?_
    · assumption
    · exact SMap.wf_set _ _

theorem msets_keeps (hmem : Keep.mem P) {s : State} {a} {x3} (h : P s) : P (msets s a x3) := by
  induction x3 generalizing s a with
  | nil =>
    unfold msets
    assumption
  | cons a r ih =>
    unfold msets
    refine ih ?_
    refine mset_keeps hmem ?_
    assumption

theorem lset_keeps (htlm : Keep.tlm P) {s : State} {t1} {a} {v} (h : P s) : P (lset s t1 a v) := by
  unfold lset
  refine Keep.set_tlm htlm ?_ ?_
  · assumption
  · exact SMap.wf_set _ _

theorem noteMin_keeps (hregs : Keep.regs P) {s : State} {p} (h : P s) : P (noteMin s p) := by
  unfold noteMin
  refine Keep.ite ?_ ?_
  · refine rset_keeps hregs ?_
    assumption
  · assumption

theorem reserve_keeps (hregs : Keep.regs P) (hholds : Keep.holds P) (hfree : Keep.free P) {s : State} {p} {nd} {owner} (h : P s) : Keep.Some1 P (reserve s p nd owner) := by
  unfold reserve
  split
  · exact Keep.none1
  · split
    · extract_lets -underBinder -merge -useContext +onlyGivenNames x
      clear_value x
      refine Keep.some1 ?_
      refine noteMin_keeps hregs ?_
      refine Keep.set_holds_free hholds hfree ?_
      assumption
    · exact Keep.none1

theorem release_keeps (hholds : Keep.holds P) {s : State} {h1} (h : P s) : P (release s h1) := by
  unfold release
  refine Keep.set_holds hholds ?_
  assumption

theorem passHold_keeps (hholds : Keep.holds P) {s : State} {g} {owner} (h : P s) : P (passHold s g owner) := by
  unfold passHold
  refine Keep.set_holds hholds ?_
  assumption

theorem bumpFree_keeps (hfree : Keep.free P) {s : State} {n} (h : P s) : P (bumpFree s n) := by
  unfold bumpFree
  refine Keep.set_free hfree ?_
  assumption

theorem latchWords_keeps (hlatches : Keep.latches P) {s : State} {i} {base} {ws} (h : P s) : P (latchWords s i base ws) := by
  unfold latchWords
  extract_lets -underBinder -merge -useContext +onlyGivenNames x
  clear_value x
  refine Keep.set_latches hlatches ?_
  assumption

theorem groupRead_keeps (hlatches : Keep.latches P) {s : State} {i} {base} {k} {ws} (h : P s) : P (groupRead s i base k ws).2 := by
  unfold groupRead
  split
  · dsimp -zeta only
    refine latchWords_keeps hlatches ?_
    assumption
  · dsimp -zeta only
    assumption

theorem stageWord_keeps (hstaged : Keep.staged P) {s : State} {i} {a} {v} (h : P s) : P (stageWord s i a v) := by
  unfold stageWord
  refine Keep.set_staged hstaged ?_
  assumption

theorem clearStaged_keeps (hstaged : Keep.staged P) {s : State} {i} {base} {len} (h : P s) : P (clearStaged s i base len) := by
  unfold clearStaged
  refine Keep.set_staged hstaged ?_
  assumption

theorem commitPlain_keeps (hregs : Keep.regs P) {s : State} {base} {ws} (h : P s) : P (commitPlain s base ws) := by
  unfold commitPlain
  refine Keep.foldl ?_ ?_
  · assumption
  · intro _ _ _
    refine rwrite_keeps hregs ?_
    assumption

theorem groupWrite_keeps (hregs : Keep.regs P) (hstaged : Keep.staged P) {s : State} {i} {a} {v} (h : P s) : P (groupWrite s i a v) := by
  unfold groupWrite
  extract_lets -underBinder -merge -useContext +onlyGivenNames x
  clear_value x
  refine Keep.ite ?_ ?_
  · refine commitPlain_keeps hregs ?_
    refine clearStaged_keeps hstaged ?_
    assumption
  · refine stageWord_keeps hstaged ?_
    assumption

theorem dropLatches_keeps (hlatches : Keep.latches P) (hstaged : Keep.staged P) {s : State} {i} (h : P s) : P (dropLatches s i) := by
  unfold dropLatches
  refine Keep.set_latches_staged hlatches hstaged ?_
  assumption

theorem activate_keeps (hregs : Keep.regs P) (heth : Keep.eth P) (hint : Keep.int P) (hout : Keep.out P) {s : State} {n} {t2} (h : P s) : P (activate s n t2) := by
  unfold activate
  refine mgmtEvent_keeps hregs heth hout ?_
  refine Keep.set_int hint ?_
  assumption

theorem intClaim_keeps (hregs : Keep.regs P) (heth : Keep.eth P) (hint : Keep.int P) (hout : Keep.out P) {s : State} {core} {fast} (h : P s) : P (intClaim s core fast).2 := by
  unfold intClaim
  split
  · dsimp -zeta only
    assumption
  · split
    · dsimp -zeta only
      refine activate_keeps hregs heth hint hout ?_
      assumption
    · dsimp -zeta only
      assumption

theorem endActive_keeps (hregs : Keep.regs P) (heth : Keep.eth P) (hint : Keep.int P) (hout : Keep.out P) {s : State} {n} (h : P s) : P (endActive s n) := by
  unfold endActive
  extract_lets -underBinder -merge -useContext +onlyGivenNames x
  clear_value x
  extract_lets -underBinder -merge -useContext +onlyGivenNames x
  have hx : P x := by
    subst x
    refine Keep.set_int hint ?_
    assumption
  clear_value x
  extract_lets -underBinder -merge -useContext +onlyGivenNames x
  clear_value x
  extract_lets -underBinder -merge -useContext +onlyGivenNames x
  have hx : P x := by
    subst x
    refine Keep.ite ?_ ?_
    · refine Keep.set_int hint ?_
      assumption
    · assumption
  clear_value x
  refine mgmtEvent_keeps hregs heth hout ?_
  assumption

theorem intComplete_keeps (hregs : Keep.regs P) (heth : Keep.eth P) (hint : Keep.int P) (hout : Keep.out P) {s : State} {core} {fast} {v} (h : P s) : P (intComplete s core fast v) := by
  unfold intComplete
  refine Keep.ite ?_ ?_
  · refine endActive_keeps hregs heth hint hout ?_
    assumption
  · refine rsetBit_keeps hregs ?_
    assumption

theorem extClaim_keeps (hregs : Keep.regs P) (heth : Keep.eth P) (hint : Keep.int P) (hout : Keep.out P) {s : State} {x1} (h : P s) : P (extClaim s x1).2 := by
  unfold extClaim
  split
  · dsimp -zeta only
    assumption
  · split
    · dsimp -zeta only
      refine activate_keeps hregs heth hint hout ?_
      assumption
    · dsimp -zeta only
      assumption

theorem extComplete_keeps (hregs : Keep.regs P) (heth : Keep.eth P) (hint : Keep.int P) (hout : Keep.out P) {s : State} {x1} {v} (h : P s) : P (extComplete s x1 v) := by
  unfold extComplete
  refine Keep.ite ?_ ?_
  · refine endActive_keeps hregs heth hint hout ?_
    assumption
  · refine rsetBit_keeps hregs ?_
    assumption

theorem intCfgWrite_keeps (hregs : Keep.regs P) (heth : Keep.eth P) (hint : Keep.int P) (hout : Keep.out P) {lvl} {n} {v} {s : State} (h : P s) : P (intCfgWrite lvl n v s) := by
  unfold intCfgWrite
  extract_lets -underBinder -merge -useContext +onlyGivenNames x
  have hx : P x := by
    subst x
    refine eventSettle_keeps heth ?_
    assumption
  clear_value x
  extract_lets -underBinder -merge -useContext +onlyGivenNames x
  clear_value x
  extract_lets -underBinder -merge -useContext +onlyGivenNames x
  clear_value x
  extract_lets -underBinder -merge -useContext +onlyGivenNames x
  clear_value x
  extract_lets -underBinder -merge -useContext +onlyGivenNames x
  clear_value x
  extract_lets -underBinder -merge -useContext +onlyGivenNames x
  clear_value x
  extract_lets -underBinder -merge -useContext +onlyGivenNames x
  clear_value x
  extract_lets -underBinder -merge -useContext +onlyGivenNames x
  have hx : P x := by
    subst x
    refine rset_keeps hregs ?_
    assumption
  clear_value x
  extract_lets -underBinder -merge -useContext +onlyGivenNames x
  have hx : P x := by
    subst x
    refine Keep.ite ?_ ?_
    · refine rsetBit_keeps hregs ?_
      refine rset_keeps hregs ?_
      assumption
    · refine Keep.ite ?_ ?_
      · refine rsetBit_keeps hregs ?_
        assumption
      · assumption
  clear_value x
  extract_lets -underBinder -merge -useContext +onlyGivenNames x
  clear_value x
  extract_lets -underBinder -merge -useContext +onlyGivenNames x
  have hx : P x := by
    subst x
    refine Keep.ite ?_ ?_
    · refine Keep.set_int hint ?_
      assumption
    · assumption
  clear_value x
  refine mgmtEvent_keeps hregs heth hout ?_
  assumption

theorem stlChWrite_keeps (hregs : Keep.regs P) (heth : Keep.eth P) (hint : Keep.int P) (hstl : Keep.stl P) (hout : Keep.out P) {c} {dst} {v} {s : State} (h : P s) : P (stlChWrite c dst v s) := by
  unfold stlChWrite
  extract_lets -underBinder -merge -useContext +onlyGivenNames x
  clear_value x
  extract_lets -underBinder -merge -useContext +onlyGivenNames x
  have hx : P x := by
    subst x
    refine rwrite_keeps hregs ?_
    refine eventSettle_keeps heth ?_
    assumption
  clear_value x
  refine mgmtEvent_keeps hregs heth hout ?_
  refine chSettle_keeps hint hstl ?_
  refine Keep.ite ?_ ?_
  · refine rsetBit_keeps hregs ?_
    assumption
  · assumption

theorem stlCellWrite_keeps (hregs : Keep.regs P) (hstl : Keep.stl P) {l} {k} {v} {s : State} (h : P s) : P (stlCellWrite l k v s) := by
  unfold stlCellWrite
  extract_lets -underBinder -merge -useContext +onlyGivenNames x
  have hx : P x := by
    subst x
    refine rwrite_keeps hregs ?_
    assumption
  clear_value x
  refine Keep.ite ?_ ?_
  · refine Keep.set_stl hstl ?_
    assumption
  · assumption

theorem stlFire_keeps (hregs : Keep.regs P) (heth : Keep.eth P) (hint : Keep.int P) (hstl : Keep.stl P) (hout : Keep.out P) {v} {s : State} (h : P s) : P (stlFire v s) := by
  unfold stlFire
  extract_lets -underBinder -merge -useContext +onlyGivenNames x
  clear_value x
  refine Keep.ite ?_ ?_
  · refine mgmtEvent_keeps hregs heth hout ?_
    refine chPulse_keeps hint hstl ?_
    refine eventSettle_keeps heth ?_
    assumption
  · assumption

theorem lfCells_keeps (hregs : Keep.regs P) (heth : Keep.eth P) (hrtc : Keep.rtc P) (hint : Keep.int P) (hstl : Keep.stl P) (hfree : Keep.free P) (hout : Keep.out P) {s : State} (h : P s) : P (lfCells s) := by
  unfold lfCells
  extract_lets -underBinder -merge -useContext +onlyGivenNames x
  clear_value x
  refine mgmtEvent_keeps hregs heth hout ?_
  refine chSettle_keeps hint hstl ?_
  refine bumpFree_keeps hfree ?_
  extract_lets -underBinder -merge -useContext +onlyGivenNames x
  have hx : P x := by
    subst x
    refine eventSettle_keeps heth ?_
    assumption
  clear_value x
  refine Keep.set_rtc_stl hrtc hstl ?_
  assumption

theorem stlWrite_keeps (hregs : Keep.regs P) (heth : Keep.eth P) (hint : Keep.int P) (hstl : Keep.stl P) (hout : Keep.out P) {a} {v} {s : State} (h : P s) : P (stlWrite a v s) := by
  unfold stlWrite
  extract_lets -underBinder -merge -useContext +onlyGivenNames x
  clear_value x
  refine Keep.ite ?_ ?_
  · refine stlFire_keeps hregs heth hint hstl hout ?_
    assumption
  · refine Keep.ite ?_ ?_
    · refine stlChWrite_keeps hregs heth hint hstl hout ?_
      assumption
    · refine Keep.ite ?_ ?_
      · refine Keep.ite ?_ ?_
        · assumption
        · refine stlCellWrite_keeps hregs hstl ?_
          assumption
      · refine rwrite_keeps hregs ?_
        assumption

theorem execExternalClaim_keeps (hregs : Keep.regs P) (heth : Keep.eth P) (hint : Keep.int P) (hout : Keep.out P) {x1} {x1'} {s : State} (h : P s) {t : State} (e : execExternalClaim x1 x1' s = .next t) : P t := by
  obtain rfl := Host.Outcome.next.inj e
  extract_lets -underBinder -merge -useContext +onlyGivenNames x
  have hx : P x := by
    subst x
    refine extClaim_keeps hregs heth hint hout ?_
    assumption
  clear_value x
  refine Keep.set_out hout ?_
  assumption

theorem execExternalComplete_keeps (hregs : Keep.regs P) (heth : Keep.eth P) (hint : Keep.int P) (hout : Keep.out P) {x1} {x1'} {v} {s : State} (h : P s) {t : State} (e : execExternalComplete x1 x1' v s = .next t) : P t := by
  obtain rfl := Host.Outcome.next.inj e
  refine extComplete_keeps hregs heth hint hout ?_
  assumption

theorem execStolonFire_keeps (hregs : Keep.regs P) (heth : Keep.eth P) (hint : Keep.int P) (hstl : Keep.stl P) (hout : Keep.out P) {x1} {v} {s : State} (h : P s) {t : State} (e : execStolonFire x1 v s = .next t) : P t := by
  obtain rfl := Host.Outcome.next.inj e
  refine stlFire_keeps hregs heth hint hstl hout ?_
  assumption

theorem lfLeave_keeps (htmrs : Keep.tmrs P) {s : State} (h : P s) : P (lfLeave s) := by
  unfold lfLeave
  refine Keep.ite ?_ ?_
  · assumption
  · refine Keep.set_tmrs htmrs ?_
    assumption

theorem tmrUpdate_keeps (hregs : Keep.regs P) (heth : Keep.eth P) (htmrs : Keep.tmrs P) (hint : Keep.int P) (hstl : Keep.stl P) (hout : Keep.out P) {s : State} {n} {k} {lf} (h : P s) : P (tmrUpdate s n k lf) := by
  unfold tmrUpdate
  extract_lets -underBinder -merge -useContext +onlyGivenNames x
  clear_value x
  extract_lets -underBinder -merge -useContext +onlyGivenNames x
  clear_value x
  extract_lets -underBinder -merge -useContext +onlyGivenNames x
  clear_value x
  extract_lets -underBinder -merge -useContext +onlyGivenNames x
  clear_value x
  extract_lets -underBinder -merge -useContext +onlyGivenNames x
  clear_value x
  extract_lets -underBinder -merge -useContext +onlyGivenNames x
  clear_value x
  extract_lets -underBinder -merge -useContext +onlyGivenNames x
  clear_value x
  extract_lets -underBinder -merge -useContext +onlyGivenNames x
  clear_value x
  extract_lets -underBinder -merge -useContext +onlyGivenNames x
  clear_value x
  extract_lets -underBinder -merge -useContext +onlyGivenNames x
  clear_value x
  extract_lets -underBinder -merge -useContext +onlyGivenNames x
  clear_value x
  extract_lets -underBinder -merge -useContext +onlyGivenNames x
  clear_value x
  extract_lets -underBinder -merge -useContext +onlyGivenNames x
  clear_value x
  extract_lets -underBinder -merge -useContext +onlyGivenNames x
  clear_value x
  extract_lets -underBinder -merge -useContext +onlyGivenNames x
  clear_value x
  extract_lets -underBinder -merge -useContext +onlyGivenNames x
  clear_value x
  extract_lets -underBinder -merge -useContext +onlyGivenNames x
  clear_value x
  extract_lets -underBinder -merge -useContext +onlyGivenNames x
  have hx : P x := by
    subst x
    refine rsetGroup_keeps hregs ?_
    assumption
  clear_value x
  extract_lets -underBinder -merge -useContext +onlyGivenNames x
  have hx : P x := by
    subst x
    refine State.updTmr_keeps htmrs ?_
    assumption
  clear_value x
  extract_lets -underBinder -merge -useContext +onlyGivenNames x
  have hx : P x := by
    subst x
    refine Keep.ite ?_ ?_
    · refine drainState_keeps hregs ?_
      assumption
    · assumption
  clear_value x
  extract_lets -underBinder -merge -useContext +onlyGivenNames x
  clear_value x
  refine Keep.ite ?_ ?_
  · assumption
  · refine setEvt_keeps hregs heth hint hstl hout ?_
    assumption

theorem tmrEvent_keeps (hregs : Keep.regs P) (heth : Keep.eth P) (htmrs : Keep.tmrs P) (hint : Keep.int P) (hstl : Keep.stl P) (hout : Keep.out P) {s : State} {n} (h : P s) : P (tmrEvent s n) := by
  unfold tmrEvent
  extract_lets -underBinder -merge -useContext +onlyGivenNames x
  clear_value x
  refine Keep.ite ?_ ?_
  · refine tmrUpdate_keeps hregs heth htmrs hint hstl hout ?_
    refine State.updTmr_keeps htmrs ?_
    assumption
  · refine State.updTmr_keeps htmrs ?_
    assumption

theorem tmrStart_keeps (hregs : Keep.regs P) (heth : Keep.eth P) (htmrs : Keep.tmrs P) (hint : Keep.int P) (hstl : Keep.stl P) (hout : Keep.out P) {s : State} {n} (h : P s) : P (tmrStart s n) := by
  unfold tmrStart
  extract_lets -underBinder -merge -useContext +onlyGivenNames x
  clear_value x
  refine Keep.ite ?_ ?_
  · refine evt_keeps hregs heth hint hstl hout ?_
    refine drainState_keeps hregs ?_
    assumption
  · extract_lets -underBinder -merge -useContext +onlyGivenNames x
    clear_value x
    extract_lets -underBinder -merge -useContext +onlyGivenNames x
    have hx : P x := by
      subst x
      refine Keep.foldl ?_ ?_
      · assumption
      · intro _ _ _
        refine State.updTmr_keeps htmrs ?_
        assumption
    clear_value x
    extract_lets -underBinder -merge -useContext +onlyGivenNames x
    have hx : P x := by
      subst x
      refine State.updTmr_keeps htmrs ?_
      assumption
    clear_value x
    refine Keep.ite ?_ ?_
    · extract_lets -underBinder -merge -useContext +onlyGivenNames x
      clear_value x
      refine Keep.ite ?_ ?_
      · refine evt_keeps hregs heth hint hstl hout ?_
        assumption
      · refine State.updTmr_keeps htmrs ?_
        assumption
    · assumption

theorem tmrOff_keeps (htmrs : Keep.tmrs P) {s : State} {n} (h : P s) : P (tmrOff s n) := by
  unfold tmrOff
  extract_lets -underBinder -merge -useContext +onlyGivenNames x
  clear_value x
  extract_lets -underBinder -merge -useContext +onlyGivenNames x
  have hx : P x := by
    subst x
    refine Keep.foldl ?_ ?_
    · assumption
    · intro _ _ _
      refine State.updTmr_keeps htmrs ?_
      assumption
  clear_value x
  refine State.updTmr_keeps htmrs ?_
  assumption

theorem tmrWrite_keeps (hregs : Keep.regs P) (hstaged : Keep.staged P) (htmrs : Keep.tmrs P) {i} {a} {v} {s : State} (h : P s) : P (tmrWrite i a v s) := by
  unfold tmrWrite
  split
  · refine Keep.ite ?_ ?_
    · assumption
    · extract_lets -underBinder -merge -useContext +onlyGivenNames x
      clear_value x
      extract_lets -underBinder -merge -useContext +onlyGivenNames x
      clear_value x
      extract_lets -underBinder -merge -useContext +onlyGivenNames x
      have hx : P x := by
        subst x
        refine groupWrite_keeps hregs hstaged ?_
        assumption
      clear_value x
      refine Keep.ite ?_ ?_
      · refine Keep.ite ?_ ?_
        · refine State.updTmr_keeps htmrs ?_
          assumption
        · refine Keep.ite ?_ ?_
          · refine State.updTmr_keeps htmrs ?_
            assumption
          · assumption
      · assumption
  · refine Keep.ite ?_ ?_
    · refine lfLeave_keeps htmrs ?_
      refine rwrite_keeps hregs ?_
      assumption
    · refine Keep.ite ?_ ?_
      · refine groupWrite_keeps hregs hstaged ?_
        assumption
      · refine rwrite_keeps hregs ?_
        assumption

theorem capRead_keeps (hlatches : Keep.latches P) (htmrs : Keep.tmrs P) {i} {n} {s : State} (h : P s) : P (capRead i n s).2 := by
  unfold capRead
  extract_lets -underBinder -merge -useContext +onlyGivenNames x
  clear_value x
  extract_lets -underBinder -merge -useContext +onlyGivenNames x
  clear_value x
  extract_lets -underBinder -merge -useContext +onlyGivenNames x
  clear_value x
  extract_lets -underBinder -merge -useContext +onlyGivenNames x
  clear_value x
  extract_lets -underBinder -merge -useContext +onlyGivenNames x
  have hx : P x.2 := by
    subst x
    refine groupRead_keeps hlatches ?_
    assumption
  clear_value x
  split
  · dsimp -zeta only
    refine State.updTmr_keeps htmrs ?_
    assumption
  · assumption

theorem tmrCapture_keeps (hregs : Keep.regs P) (heth : Keep.eth P) (htmrs : Keep.tmrs P) (hint : Keep.int P) (hstl : Keep.stl P) (hout : Keep.out P) {s : State} {n} (h : P s) : P (tmrCapture s n) := by
  unfold tmrCapture
  extract_lets -underBinder -merge -useContext +onlyGivenNames x
  clear_value x
  refine Keep.ite ?_ ?_
  · refine evt_keeps hregs heth hint hstl hout ?_
    assumption
  · refine evt_keeps hregs heth hint hstl hout ?_
    refine State.updTmr_keeps htmrs ?_
    assumption

theorem wdTick_keeps (hwdog : Keep.wdog P) {s : State} (h : P s) : P (wdTick s) := by
  unfold wdTick
  refine Keep.ite ?_ ?_
  · assumption
  · refine Keep.ite ?_ ?_
    · refine Keep.set_wdog hwdog ?_
      assumption
    · refine Keep.ite ?_ ?_
      · assumption
      · refine Keep.ite ?_ ?_
        · refine Keep.set_wdog hwdog ?_
          assumption
        · refine Keep.set_wdog hwdog ?_
          assumption

theorem tmrLf_keeps (hregs : Keep.regs P) (heth : Keep.eth P) (htmrs : Keep.tmrs P) (hint : Keep.int P) (hstl : Keep.stl P) (hout : Keep.out P) {s : State} {n} (h : P s) : P (tmrLf s n) := by
  unfold tmrLf
  extract_lets -underBinder -merge -useContext +onlyGivenNames x
  clear_value x
  refine Keep.ite ?_ ?_
  · assumption
  · refine Keep.ite ?_ ?_
    · refine Keep.set_stl hstl ?_
      assumption
    · refine Keep.ite ?_ ?_
      · extract_lets -underBinder -merge -useContext +onlyGivenNames x
        clear_value x
        extract_lets -underBinder -merge -useContext +onlyGivenNames x
        have hx : P x := by
          subst x
          refine State.updTmr_keeps htmrs ?_
          assumption
        clear_value x
        refine Keep.ite ?_ ?_
        · assumption
        · refine tmrUpdate_keeps hregs heth htmrs hint hstl hout ?_
          assumption
      · assumption

theorem execCounterUpdate_keeps (hregs : Keep.regs P) (heth : Keep.eth P) (htmrs : Keep.tmrs P) (hint : Keep.int P) (hstl : Keep.stl P) (hout : Keep.out P) {n} {s : State} (h : P s) {t : State} (e : execCounterUpdate n s = .next t) : P t := by
  obtain rfl := Host.Outcome.next.inj e
  extract_lets -underBinder -merge -useContext +onlyGivenNames x
  clear_value x
  refine Keep.ite ?_ ?_
  · assumption
  · refine Keep.ite ?_ ?_
    · refine Keep.ite ?_ ?_
      · assumption
      · refine tmrEvent_keeps hregs heth htmrs hint hstl hout ?_
        assumption
    · refine Keep.ite ?_ ?_
      · refine tmrEvent_keeps hregs heth htmrs hint hstl hout ?_
        refine Keep.set_stl hstl ?_
        assumption
      · assumption

theorem execCounterStartAt_keeps (hregs : Keep.regs P) (htime : Keep.time P) (heth : Keep.eth P) (htmrs : Keep.tmrs P) (hint : Keep.int P) (hstl : Keep.stl P) (hout : Keep.out P) {n} {s : State} (h : P s) {t : State} (e : execCounterStartAt n s = .next t) : P t := by
  obtain rfl := Host.Outcome.next.inj e
  split
  · refine Keep.ite ?_ ?_
    · extract_lets -underBinder -merge -useContext +onlyGivenNames x
      have hx : P x := by
        subst x
        refine reach_keeps htime ?_
        refine State.updTmr_keeps htmrs ?_
        assumption
      clear_value x
      refine Keep.ite ?_ ?_
      · assumption
      · refine tmrEvent_keeps hregs heth htmrs hint hstl hout ?_
        assumption
    · assumption
  · assumption

theorem execLfStep_keeps (hregs : Keep.regs P) (hwdog : Keep.wdog P) (heth : Keep.eth P) (htmrs : Keep.tmrs P) (hrtc : Keep.rtc P) (hint : Keep.int P) (hstl : Keep.stl P) (hfree : Keep.free P) (hout : Keep.out P) {s : State} (h : P s) {t : State} (e : execLfStep s = .next t) : P t := by
  obtain rfl := Host.Outcome.next.inj e
  extract_lets -underBinder -merge -useContext +onlyGivenNames x
  have hx : P x := by
    subst x
    refine Keep.foldl ?_ ?_
    · assumption
    · intro _ _ _
      refine tmrLf_keeps hregs heth htmrs hint hstl hout ?_
      assumption
  clear_value x
  extract_lets -underBinder -merge -useContext +onlyGivenNames x
  have hx : P x := by
    subst x
    refine wdTick_keeps hwdog ?_
    assumption
  clear_value x
  extract_lets -underBinder -merge -useContext +onlyGivenNames x
  have hx : P x := by
    subst x
    refine lfCells_keeps hregs heth hrtc hint hstl hfree hout ?_
    assumption
  clear_value x
  refine stolon_keeps hregs heth hint hstl hout ?_
  assumption

theorem execCapture_keeps (hregs : Keep.regs P) (heth : Keep.eth P) (htmrs : Keep.tmrs P) (hint : Keep.int P) (hstl : Keep.stl P) (hout : Keep.out P) {n} {s : State} (h : P s) {t : State} (e : execCapture n s = .next t) : P t := by
  obtain rfl := Host.Outcome.next.inj e
  extract_lets l s'
  have hs : P s' := hstl _ _ h
  refine Keep.ite ?_ h
  refine Keep.ite hs ?_
  refine tmrCapture_keeps hregs heth htmrs hint hstl hout ?_
  exact hs

theorem execCaptureRead_keeps (hlatches : Keep.latches P) (htmrs : Keep.tmrs P) (hout : Keep.out P) {i} {n} {s : State} (h : P s) {t : State} (e : execCaptureRead i n s = .next t) : P t := by
  obtain rfl := Host.Outcome.next.inj e
  extract_lets -underBinder -merge -useContext +onlyGivenNames x
  have hx : P x := by
    subst x
    refine capRead_keeps hlatches htmrs ?_
    assumption
  clear_value x
  refine Keep.set_out hout ?_
  assumption

theorem setBlank_keeps (hregs : Keep.regs P) {s : State} {n} {b} (h : P s) : P (setBlank s n b) := by
  unfold setBlank
  refine rsetBit_keeps hregs ?_
  assumption

theorem setGain_keeps (hregs : Keep.regs P) (hports : Keep.ports P) {s : State} {p} {g} (h : P s) : P (setGain s p g) := by
  unfold setGain
  refine State.updPort_keeps hports ?_
  refine rsetFld_keeps hregs ?_
  refine rsetFld_keeps hregs ?_
  assumption

theorem gainWrite_keeps (hregs : Keep.regs P) (hports : Keep.ports P) {p} {v} {s : State} (h : P s) : P (gainWrite p v s) := by
  unfold gainWrite
  extract_lets -underBinder -merge -useContext +onlyGivenNames x
  have hx : P x := by
    subst x
    refine rwrite_keeps hregs ?_
    assumption
  clear_value x
  extract_lets -underBinder -merge -useContext +onlyGivenNames x
  clear_value x
  refine Keep.ite ?_ ?_
  · refine setGain_keeps hregs hports ?_
    assumption
  · assumption

theorem adcSample_keeps (hregs : Keep.regs P) (hports : Keep.ports P) {s : State} {p} {t2} {l} (h : P s) : P (adcSample s p t2 l) := by
  unfold adcSample
  extract_lets -underBinder -merge -useContext +onlyGivenNames x
  have hx : P x := by
    subst x
    refine Keep.ite ?_ ?_
    · refine bumpStop_keeps hregs ?_
      assumption
    · assumption
  clear_value x
  extract_lets -underBinder -merge -useContext +onlyGivenNames x
  have hx : P x := by
    subst x
    refine Keep.ite ?_ ?_
    · assumption
    · refine State.updPort_keeps hports ?_
      assumption
  clear_value x
  refine Keep.ite ?_ ?_
  · extract_lets -underBinder -merge -useContext +onlyGivenNames x
    clear_value x
    refine Keep.ite ?_ ?_
    · refine State.updPort_keeps hports ?_
      refine setGain_keeps hregs hports ?_
      assumption
    · refine State.updPort_keeps hports ?_
      assumption
  · assumption

theorem dcStep_keeps (hregs : Keep.regs P) (hports : Keep.ports P) {s : State} {p} {t2} {i} {q} (h : P s) : P (dcStep s p t2 i q) := by
  unfold dcStep
  extract_lets -underBinder -merge -useContext +onlyGivenNames x
  have hx : P x := by
    subst x
    refine rset_keeps hregs ?_
    refine rset_keeps hregs ?_
    assumption
  clear_value x
  refine State.updPort_keeps hports ?_
  assumption

theorem holdPort_keeps (hregs : Keep.regs P) (hports : Keep.ports P) {s : State} {p} {b} (h : P s) : P (holdPort s p b) := by
  unfold holdPort
  extract_lets -underBinder -merge -useContext +onlyGivenNames x
  have hx : P x := by
    subst x
    refine rsetBit_keeps hregs ?_
    assumption
  clear_value x
  refine State.updPort_keeps hports ?_
  assumption

theorem releasePorts_keeps (hregs : Keep.regs P) (hports : Keep.ports P) {s : State} {n} {t2} (h : P s) : P (releasePorts s n t2) := by
  unfold releasePorts
  refine Keep.foldl ?_ ?_
  · assumption
  · intro _ _ _
    refine State.updPort_keeps hports ?_
    refine holdPort_keeps hregs hports ?_
    assumption

theorem tunePort_keeps (hports : Keep.ports P) {s : State} {p} (h : P s) : P (tunePort s p) := by
  unfold tunePort
  refine State.updPort_keeps hports ?_
  assumption

theorem tuneWrite_keeps (hregs : Keep.regs P) (hports : Keep.ports P) {p} {v} {s : State} (h : P s) : P (tuneWrite p v s) := by
  unfold tuneWrite
  extract_lets -underBinder -merge -useContext +onlyGivenNames x
  have hx : P x := by
    subst x
    refine rwrite_keeps hregs ?_
    assumption
  clear_value x
  refine Keep.ite ?_ ?_
  · refine tunePort_keeps hports ?_
    assumption
  · refine Keep.ite ?_ ?_
    · refine State.updPort_keeps hports ?_
      assumption
    · assumption

theorem tuneAtEnd_keeps (hports : Keep.ports P) {s : State} {n} (h : P s) : P (tuneAtEnd s n) := by
  unfold tuneAtEnd
  refine Keep.foldl ?_ ?_
  · assumption
  · intro _ _ _
    refine Keep.ite ?_ ?_
    · refine tunePort_keeps hports ?_
      assumption
    · assumption

theorem setNudge_keeps (hregs : Keep.regs P) (hsheaves : Keep.sheaves P) {s : State} {n} {df} {on} (h : P s) : P (setNudge s n df on) := by
  unfold setNudge
  extract_lets -underBinder -merge -useContext +onlyGivenNames x
  clear_value x
  extract_lets -underBinder -merge -useContext +onlyGivenNames x
  clear_value x
  extract_lets -underBinder -merge -useContext +onlyGivenNames x
  have hx : P x := by
    subst x
    refine State.updSheaf_keeps hsheaves ?_
    assumption
  clear_value x
  refine rsetBit_keeps hregs ?_
  refine rset_keeps hregs ?_
  assumption

theorem portOff_keeps (hregs : Keep.regs P) (hports : Keep.ports P) {s : State} {p} (h : P s) : P (portOff s p) := by
  unfold portOff
  extract_lets -underBinder -merge -useContext +onlyGivenNames x
  have hx : P x := by
    subst x
    refine setState_keeps hregs ?_
    assumption
  clear_value x
  refine State.updPort_keeps hports ?_
  assumption

theorem recipTurn_keeps (hregs : Keep.regs P) (hports : Keep.ports P) {s : State} {n} {t2} (h : P s) : P (recipTurn s n t2) := by
  unfold recipTurn
  split
  · refine Keep.ite ?_ ?_
    · extract_lets -underBinder -merge -useContext +onlyGivenNames x
      clear_value x
      extract_lets -underBinder -merge -useContext +onlyGivenNames x
      clear_value x
      refine Keep.foldl ?_ ?_
      · assumption
      · intro _ _ _
        refine Keep.ite ?_ ?_
        · refine Keep.ite ?_ ?_
          · assumption
          · refine holdPort_keeps hregs hports ?_
            assumption
        · refine Keep.ite ?_ ?_
          · refine State.updPort_keeps hports ?_
            refine holdPort_keeps hregs hports ?_
            assumption
          · assumption
    · assumption
  · assumption

theorem dcBegin_keeps (hregs : Keep.regs P) (hports : Keep.ports P) (hsheaves : Keep.sheaves P) {s : State} {n} (h : P s) : P (dcBegin s n) := by
  unfold dcBegin
  refine Keep.ite ?_ ?_
  · assumption
  · split
    · refine holdPort_keeps hregs hports ?_
      refine State.updSheaf_keeps hsheaves ?_
      assumption
    · assumption

theorem execGainStepUp_keeps (hregs : Keep.regs P) (htime : Keep.time P) (hports : Keep.ports P) {p} {s : State} (h : P s) {t : State} (e : execGainStepUp p s = .next t) : P t := by
  obtain rfl := Host.Outcome.next.inj e
  refine Keep.ite ?_ ?_
  · extract_lets -underBinder -merge -useContext +onlyGivenNames x
    clear_value x
    refine State.updPort_keeps hports ?_
    refine setGain_keeps hregs hports ?_
    refine reach_keeps htime ?_
    assumption
  · assumption

theorem execTuneWrite_keeps (hregs : Keep.regs P) (hports : Keep.ports P) {x1} {p} {v} {s : State} (h : P s) {t : State} (e : execTuneWrite x1 p v s = .next t) : P t := by
  obtain rfl := Host.Outcome.next.inj e
  refine tuneWrite_keeps hregs hports ?_
  assumption

theorem execPortDcMeasureDone_keeps (hregs : Keep.regs P) (hports : Keep.ports P) (hsheaves : Keep.sheaves P) {p} {dci} {dcq} {s : State} (h : P s) {t : State} (e : execPortDcMeasureDone p dci dcq s = .next t) : P t := by
  obtain rfl := Host.Outcome.next.inj e
  extract_lets -underBinder -merge -useContext +onlyGivenNames x
  clear_value x
  split
  · refine Keep.ite ?_ ?_
    · extract_lets -underBinder -merge -useContext +onlyGivenNames x
      have hx : P x := by
        subst x
        refine State.updSheaf_keeps hsheaves ?_
        assumption
      clear_value x
      extract_lets -underBinder -merge -useContext +onlyGivenNames x
      have hx : P x := by
        subst x
        refine holdPort_keeps hregs hports ?_
        assumption
      clear_value x
      extract_lets -underBinder -merge -useContext +onlyGivenNames x
      have hx : P x := by
        subst x
        refine rset_keeps hregs ?_
        refine rset_keeps hregs ?_
        assumption
      clear_value x
      extract_lets -underBinder -merge -useContext +onlyGivenNames x
      have hx : P x := by
        subst x
        refine State.updPort_keeps hports ?_
        assumption
      clear_value x
      refine dcBegin_keeps hregs hports hsheaves ?_
      refine Keep.ite ?_ ?_
      · refine setState_keeps hregs ?_
        assumption
      · refine portOff_keeps hregs hports ?_
        assumption
    · assumption
  · assumption

theorem updTag_keeps (htag : Keep.tag P) {s : State} {f} (h : P s) (w : (f s.tag).store = s.tag.store) : P (updTag s f) := htag _ _ w h

theorem beginCommit_keeps (htag : Keep.tag P) {s : State} (h : P s) : P (beginCommit s) := by
  unfold beginCommit
  split
  · split
    · refine updTag_keeps htag ?_ ?_
      · assumption
      · rfl
    · refine updTag_keeps htag ?_ ?_
      · assumption
      · rfl
    · assumption
  · assumption

theorem askCommit_keeps (htag : Keep.tag P) {s : State} {c} (h : P s) : P (askCommit s c) := by
  unfold askCommit
  refine beginCommit_keeps htag ?_
  refine updTag_keeps htag ?_ ?_
  · assumption
  · rfl

theorem finishCommit_keeps (hstore : Keep.store P) {s : State} {c} (h : P s) : P (finishCommit s c) := hstore _ _ (BMap.wf_setOctets _ _) h

theorem failCommit_keeps (htag : Keep.tag P) {s : State} {c} (h : P s) : P (failCommit s c) := by
  unfold failCommit
  refine updTag_keeps htag ?_ ?_
  · assumption
  · rfl

theorem answer_keeps (hout : Keep.out P) {s : State} {o} (h : P s) : P (answer s o) := by
  unfold answer
  refine Keep.set_out hout ?_
  assumption

theorem endSession_keeps (hregs : Keep.regs P) (hlatches : Keep.latches P) (hstaged : Keep.staged P) (heth : Keep.eth P) (hint : Keep.int P) (hstl : Keep.stl P) (htag : Keep.tag P) (hout : Keep.out P) {s : State} (h : P s) : P (endSession s) := by
  unfold endSession
  extract_lets -underBinder -merge -useContext +onlyGivenNames x
  have hx : P x := by
    subst x
    refine Keep.ite ?_ ?_
    · refine setEvt_keeps hregs heth hint hstl hout ?_
      assumption
    · assumption
  clear_value x
  refine dropLatches_keeps hlatches hstaged ?_
  refine updTag_keeps htag ?_ ?_
  · assumption
  · rfl

theorem tagSelectName_keeps (htag : Keep.tag P) (hout : Keep.out P) {s : State} (h : P s) : P (tagSelectName s) := by
  unfold tagSelectName
  refine answer_keeps hout ?_
  refine updTag_keeps htag ?_ ?_
  · assumption
  · rfl

theorem tagSelectFile_keeps (htag : Keep.tag P) (hout : Keep.out P) {id} {s : State} (h : P s) : P (tagSelectFile id s) := by
  unfold tagSelectFile
  extract_lets -underBinder -merge -useContext +onlyGivenNames x
  clear_value x
  refine Keep.ite ?_ ?_
  · refine answer_keeps hout ?_
    assumption
  · refine answer_keeps hout ?_
    refine updTag_keeps htag ?_ ?_
    · assumption
    · rfl

theorem tagRead_keeps (hregs : Keep.regs P) (heth : Keep.eth P) (hint : Keep.int P) (hstl : Keep.stl P) (hout : Keep.out P) {off} {len} {s : State} (h : P s) : P (tagRead off len s) := by
  unfold tagRead
  extract_lets -underBinder -merge -useContext +onlyGivenNames x
  clear_value x
  refine Keep.ite ?_ ?_
  · refine answer_keeps hout ?_
    assumption
  · refine Keep.ite ?_ ?_
    · refine answer_keeps hout ?_
      assumption
    · refine Keep.ite ?_ ?_
      · refine answer_keeps hout ?_
        assumption
      · refine Keep.ite ?_ ?_
        · refine answer_keeps hout ?_
          refine setEvt_keeps hregs heth hint hstl hout ?_
          assumption
        · refine answer_keeps hout ?_
          assumption

theorem tagUpdate_keeps (htag : Keep.tag P) (hout : Keep.out P) {off} {data} {s : State} (h : P s) : P (tagUpdate off data s) := by
  unfold tagUpdate
  extract_lets -underBinder -merge -useContext +onlyGivenNames x
  clear_value x
  refine Keep.ite ?_ ?_
  · refine answer_keeps hout ?_
    assumption
  · refine Keep.ite ?_ ?_
    · refine answer_keeps hout ?_
      assumption
    · refine Keep.ite ?_ ?_
      · refine answer_keeps hout ?_
        assumption
      · refine Keep.ite ?_ ?_
        · refine answer_keeps hout ?_
          assumption
        · refine Keep.ite ?_ ?_
          · refine answer_keeps hout ?_
            assumption
          · refine Keep.foldl ?_ ?_
            · refine updTag_keeps htag ?_ ?_
              · assumption
              · rfl
            · intro _ _ _
              refine askCommit_keeps htag ?_
              assumption

theorem tagServe_keeps (htag : Keep.tag P) {c} {f : Sys2Proof.Machine.State → Sys2Proof.Machine.State} {s : State} (hf : ∀ s, P s → P (f s)) (h2 : P s) : P (tagServe c f s) := by
  unfold tagServe
  refine Keep.ite ?_ ?_
  · assumption
  · refine Keep.ite ?_ ?_
    · refine updTag_keeps htag ?_ ?_
      · assumption
      · rfl
    · refine hf _ ?_
      refine updTag_keeps htag ?_ ?_
      · assumption
      · rfl

theorem windowWrite_keeps (hregs : Keep.regs P) (heth : Keep.eth P) (hint : Keep.int P) (hstl : Keep.stl P) (htag : Keep.tag P) (hout : Keep.out P) {v} {s : State} (h : P s) : P (windowWrite v s) := by
  unfold windowWrite
  extract_lets -underBinder -merge -useContext +onlyGivenNames x
  clear_value x
  extract_lets -underBinder -merge -useContext +onlyGivenNames x
  have hx : P x := by
    subst x
    refine rsetFld_keeps hregs ?_
    assumption
  clear_value x
  extract_lets -underBinder -merge -useContext +onlyGivenNames x
  clear_value x
  extract_lets -underBinder -merge -useContext +onlyGivenNames x
  clear_value x
  split
  · refine updTag_keeps htag ?_ ?_
    · assumption
    · rfl
  · refine Keep.ite ?_ ?_
    · refine updTag_keeps htag ?_ ?_
      · assumption
      · rfl
    · refine setEvt_keeps hregs heth hint hstl hout ?_
      assumption

theorem windowRead_keeps (hregs : Keep.regs P) (heth : Keep.eth P) (hint : Keep.int P) (hstl : Keep.stl P) (hout : Keep.out P) {s : State} (h : P s) : P (windowRead s).2.2 := by
  unfold windowRead
  extract_lets -underBinder -merge -useContext +onlyGivenNames x
  clear_value x
  extract_lets -underBinder -merge -useContext +onlyGivenNames x
  clear_value x
  extract_lets -underBinder -merge -useContext +onlyGivenNames x
  clear_value x
  extract_lets -underBinder -merge -useContext +onlyGivenNames x
  have hx : P x := by
    subst x
    refine rsetFld_keeps hregs ?_
    assumption
  clear_value x
  extract_lets -underBinder -merge -useContext +onlyGivenNames x
  clear_value x
  split
  · dsimp -zeta only
    refine setEvt_keeps hregs heth hint hstl hout ?_
    assumption
  · dsimp -zeta only
    assumption

theorem hostCommit_keeps (hregs : Keep.regs P) (htag : Keep.tag P) {v} {s : State} (h : P s) : P (hostCommit v s) := by
  unfold hostCommit
  refine Keep.ite ?_ ?_
  · assumption
  · split
    · refine rsetFld_keeps hregs ?_
      assumption
    · extract_lets -underBinder -merge -useContext +onlyGivenNames x
      clear_value x
      refine Keep.ite ?_ ?_
      · refine rsetFld_keeps hregs ?_
        assumption
      · refine askCommit_keeps htag ?_
        refine rsetFld_keeps hregs ?_
        refine updTag_keeps htag ?_ ?_
        · assumption
        · rfl

theorem nvcfgWrite_keeps (htag : Keep.tag P) {lvl} {v} {s : State} (h : P s) : P (nvcfgWrite lvl v s) := by
  unfold nvcfgWrite
  refine Keep.ite ?_ ?_
  · refine askCommit_keeps htag ?_
    assumption
  · assumption

theorem nftWrite_keeps (hregs : Keep.regs P) (heth : Keep.eth P) (hint : Keep.int P) (hstl : Keep.stl P) (htag : Keep.tag P) (hout : Keep.out P) {lvl} {a} {v} {s : State} (h : P s) : P (nftWrite lvl a v s) := by
  unfold nftWrite
  refine Keep.ite ?_ ?_
  · assumption
  · refine Keep.ite ?_ ?_
    · refine Keep.ite ?_ ?_
      · refine updTag_keeps htag ?_ ?_
        · assumption
        · rfl
      · assumption
    · refine Keep.ite ?_ ?_
      · refine windowWrite_keeps hregs heth hint hstl htag hout ?_
        assumption
      · refine Keep.ite ?_ ?_
        · refine hostCommit_keeps hregs htag ?_
          assumption
        · refine Keep.ite ?_ ?_
          · refine nvcfgWrite_keeps htag ?_
            assumption
          · refine rwrite_keeps hregs ?_
            assumption

theorem execFieldOn_keeps (hregs : Keep.regs P) (heth : Keep.eth P) (hint : Keep.int P) (hstl : Keep.stl P) (htag : Keep.tag P) (hfree : Keep.free P) (hout : Keep.out P) {s : State} (h : P s) {t : State} (e : execFieldOn s = .next t) : P t := by
  obtain rfl := Host.Outcome.next.inj e
  refine Keep.ite ?_ ?_
  · assumption
  · extract_lets -underBinder -merge -useContext +onlyGivenNames x
    clear_value x
    extract_lets -underBinder -merge -useContext +onlyGivenNames x
    clear_value x
    extract_lets -underBinder -merge -useContext +onlyGivenNames x
    clear_value x
    extract_lets -underBinder -merge -useContext +onlyGivenNames x
    have hx : P x := by
      subst x
      refine Keep.ite ?_ ?_
      · refine updTag_keeps htag ?_ ?_
        · assumption
        · rfl
      · assumption
    clear_value x
    refine mgmtEvent_keeps hregs heth hout ?_
    refine chSettle_keeps hint hstl ?_
    refine bumpFree_keeps hfree ?_
    refine updTag_keeps htag ?_ ?_
    · refine eventSettle_keeps heth ?_
      assumption
    · rfl

theorem execReqa_keeps (htag : Keep.tag P) (hout : Keep.out P) {s : State} (h : P s) {t : State} (e : execReqa s = .next t) : P t := by
  obtain rfl := Host.Outcome.next.inj e
  refine Keep.ite ?_ ?_
  · refine answer_keeps hout ?_
    refine updTag_keeps htag ?_ ?_
    · assumption
    · rfl
  · assumption

theorem execAnticollision_keeps (htag : Keep.tag P) (hout : Keep.out P) {s : State} (h : P s) {t : State} (e : execAnticollision s = .next t) : P t := by
  obtain rfl := Host.Outcome.next.inj e
  refine Keep.ite ?_ ?_
  · refine answer_keeps hout ?_
    refine updTag_keeps htag ?_ ?_
    · assumption
    · rfl
  · assumption

theorem execRats_keeps (htag : Keep.tag P) (hout : Keep.out P) {s : State} (h : P s) {t : State} (e : execRats s = .next t) : P t := by
  obtain rfl := Host.Outcome.next.inj e
  refine Keep.ite ?_ ?_
  · refine answer_keeps hout ?_
    refine updTag_keeps htag ?_ ?_
    · assumption
    · rfl
  · assumption

theorem execSelectByName_keeps (htag : Keep.tag P) (hout : Keep.out P) {s : State} (h : P s) {t : State} (e : execSelectByName s = .next t) : P t := by
  obtain rfl := Host.Outcome.next.inj e
  refine tagServe_keeps htag ?_ ?_
  · intro _ _
    refine tagSelectName_keeps htag hout ?_
    assumption
  · assumption

theorem execSelectByFileId_keeps (htag : Keep.tag P) (hout : Keep.out P) {id} {s : State} (h : P s) {t : State} (e : execSelectByFileId id s = .next t) : P t := by
  obtain rfl := Host.Outcome.next.inj e
  refine tagServe_keeps htag ?_ ?_
  · intro _ _
    refine tagSelectFile_keeps htag hout ?_
    assumption
  · assumption

theorem execReadBinary_keeps (hregs : Keep.regs P) (heth : Keep.eth P) (hint : Keep.int P) (hstl : Keep.stl P) (htag : Keep.tag P) (hout : Keep.out P) {off} {len} {s : State} (h : P s) {t : State} (e : execReadBinary off len s = .next t) : P t := by
  obtain rfl := Host.Outcome.next.inj e
  refine tagServe_keeps htag ?_ ?_
  · intro _ _
    refine tagRead_keeps hregs heth hint hstl hout ?_
    assumption
  · assumption

theorem execUpdateBinary_keeps (htag : Keep.tag P) (hout : Keep.out P) {off} {data} {s : State} (h : P s) {t : State} (e : execUpdateBinary off data s = .next t) : P t := by
  obtain rfl := Host.Outcome.next.inj e
  refine tagServe_keeps htag ?_ ?_
  · intro _ _
    refine tagUpdate_keeps htag hout ?_
    assumption
  · assumption

theorem execDeselect_keeps (hregs : Keep.regs P) (hlatches : Keep.latches P) (hstaged : Keep.staged P) (heth : Keep.eth P) (hint : Keep.int P) (hstl : Keep.stl P) (htag : Keep.tag P) (hout : Keep.out P) {s : State} (h : P s) {t : State} (e : execDeselect s = .next t) : P t := by
  obtain rfl := Host.Outcome.next.inj e
  refine Keep.ite ?_ ?_
  · refine answer_keeps hout ?_
    refine endSession_keeps hregs hlatches hstaged heth hint hstl htag hout ?_
    assumption
  · assumption

theorem execFieldLoss_keeps (hregs : Keep.regs P) (hlatches : Keep.latches P) (hstaged : Keep.staged P) (heth : Keep.eth P) (hint : Keep.int P) (hstl : Keep.stl P) (htag : Keep.tag P) (hout : Keep.out P) {s : State} (h : P s) {t : State} (e : execFieldLoss s = .next t) : P t := by
  obtain rfl := Host.Outcome.next.inj e
  refine Keep.ite ?_ ?_
  · assumption
  · extract_lets -underBinder -merge -useContext +onlyGivenNames x
    have hx : P x := by
      subst x
      refine endSession_keeps hregs hlatches hstaged heth hint hstl htag hout ?_
      assumption
    clear_value x
    extract_lets -underBinder -merge -useContext +onlyGivenNames x
    have hx : P x := by
      subst x
      refine updTag_keeps htag ?_ ?_
      · assumption
      · rfl
    clear_value x
    extract_lets -underBinder -merge -useContext +onlyGivenNames x
    have hx : P x := by
      subst x
      split
      · refine updTag_keeps htag ?_ ?_
        · assumption
        · rfl
      · assumption
    clear_value x
    refine mgmtEvent_keeps hregs heth hout ?_
    refine chSettle_keeps hint hstl ?_
    refine setEvt_keeps hregs heth hint hstl hout ?_
    refine updTag_keeps htag ?_ ?_
    · assumption
    · rfl

theorem execWaitingTimeExtension_keeps (htag : Keep.tag P) (hout : Keep.out P) {wtxm} {s : State} (h : P s) {t : State} (e : execWaitingTimeExtension wtxm s = .next t) : P t := by
  obtain rfl := Host.Outcome.next.inj e
  refine Keep.ite ?_ ?_
  · refine Keep.ite ?_ ?_
    · refine answer_keeps hout ?_
      refine updTag_keeps htag ?_ ?_
      · assumption
      · rfl
    · refine answer_keeps hout ?_
      refine updTag_keeps htag ?_ ?_
      · assumption
      · rfl
  · assumption

theorem commitDone_keeps (hregs : Keep.regs P) (heth : Keep.eth P) (hint : Keep.int P) (hstl : Keep.stl P) (htag : Keep.tag P) (hstore : Keep.store P) (hout : Keep.out P) {ok} {s : State} (h : P s) : P (commitDone ok s) := by
  unfold commitDone
  split
  · assumption
  · extract_lets -underBinder -merge -useContext +onlyGivenNames x
    have hx : P x := by
      subst x
      refine updTag_keeps htag ?_ ?_
      · assumption
      · rfl
    clear_value x
    extract_lets -underBinder -merge -useContext +onlyGivenNames x
    have hx : P x := by
      subst x
      refine Keep.ite ?_ ?_
      · refine finishCommit_keeps hstore ?_
        assumption
      · refine failCommit_keeps htag ?_
        assumption
    clear_value x
    extract_lets -underBinder -merge -useContext +onlyGivenNames x
    have hx : P x := by
      subst x
      refine Keep.ite ?_ ?_
      · refine updTag_keeps htag ?_ ?_
        · assumption
        · rfl
      · assumption
    clear_value x
    extract_lets -underBinder -merge -useContext +onlyGivenNames x
    have hx : P x := by
      subst x
      refine Keep.ite ?_ ?_
      · refine setEvt_keeps hregs heth hint hstl hout ?_
        refine rset_keeps hregs ?_
        assumption
      · refine updTag_keeps htag ?_ ?_
        · assumption
        · rfl
    clear_value x
    extract_lets -underBinder -merge -useContext +onlyGivenNames x
    have hx : P x := by
      subst x
      refine Keep.ite ?_ ?_
      · refine setEvt_keeps hregs heth hint hstl hout ?_
        refine rsetFld_keeps hregs ?_
        assumption
      · refine Keep.ite ?_ ?_
        · refine Keep.ite ?_ ?_
          · refine answer_keeps hout ?_
            refine updTag_keeps htag ?_ ?_
            · assumption
            · rfl
          · assumption
        · assumption
    clear_value x
    refine beginCommit_keeps htag ?_
    assumption

theorem serveWaiting_keeps (hregs : Keep.regs P) (heth : Keep.eth P) (hint : Keep.int P) (hstl : Keep.stl P) (htag : Keep.tag P) (hout : Keep.out P) {s : State} (h : P s) : P (serveWaiting s) := by
  unfold serveWaiting
  refine Keep.ite ?_ ?_
  · assumption
  · extract_lets -underBinder -merge -useContext +onlyGivenNames x
    have hx : P x := by
      subst x
      refine updTag_keeps htag ?_ ?_
      · assumption
      · rfl
    clear_value x
    split
    · refine tagSelectName_keeps htag hout ?_
      assumption
    · refine tagSelectFile_keeps htag hout ?_
      assumption
    · refine tagRead_keeps hregs heth hint hstl hout ?_
      assumption
    · refine tagUpdate_keeps htag hout ?_
      assumption
    · assumption

theorem execBackgroundErase_keeps (htag : Keep.tag P) {s : State} (h : P s) {t : State} (e : execBackgroundErase s = .next t) : P t := by
  obtain rfl := Host.Outcome.next.inj e
  split
  · refine Keep.ite ?_ ?_
    · refine updTag_keeps htag ?_ ?_
      · assumption
      · rfl
    · assumption
  · assumption

theorem execWindowWrite_keeps (hregs : Keep.regs P) (heth : Keep.eth P) (hint : Keep.int P) (hstl : Keep.stl P) (htag : Keep.tag P) (hout : Keep.out P) {i} {v} {s : State} (h : P s) {t : State} (e : execWindowWrite i v s = .next t) : P t := by
  obtain rfl := Host.Outcome.next.inj e
  refine nftWrite_keeps hregs heth hint hstl htag hout ?_
  assumption

theorem execHostPageCommit_keeps (hregs : Keep.regs P) (heth : Keep.eth P) (hint : Keep.int P) (hstl : Keep.stl P) (htag : Keep.tag P) (hout : Keep.out P) {i} {v} {s : State} (h : P s) {t : State} (e : execHostPageCommit i v s = .next t) : P t := by
  obtain rfl := Host.Outcome.next.inj e
  refine nftWrite_keeps hregs heth hint hstl htag hout ?_
  assumption

theorem execPageBufferDrop_keeps (hregs : Keep.regs P) (heth : Keep.eth P) (hint : Keep.int P) (hstl : Keep.stl P) (htag : Keep.tag P) (hout : Keep.out P) {i} {v} {s : State} (h : P s) {t : State} (e : execPageBufferDrop i v s = .next t) : P t := by
  obtain rfl := Host.Outcome.next.inj e
  refine nftWrite_keeps hregs heth hint hstl htag hout ?_
  assumption

theorem execHarvestOn_keeps (htag : Keep.tag P) {s : State} (h : P s) {t : State} (e : execHarvestOn s = .next t) : P t := by
  obtain rfl := Host.Outcome.next.inj e
  refine Keep.ite ?_ ?_
  · refine updTag_keeps htag ?_ ?_
    · assumption
    · rfl
  · assumption

theorem execTagUnlistedCommand_keeps (hout : Keep.out P) {cla} {ins} {s : State} (h : P s) {t : State} (e : execTagUnlistedCommand cla ins s = .next t) : P t := by
  obtain rfl := Host.Outcome.next.inj e
  refine Keep.ite ?_ ?_
  · assumption
  · refine Keep.ite ?_ ?_
    · refine answer_keeps hout ?_
      assumption
    · refine Keep.ite ?_ ?_
      · assumption
      · refine Keep.ite ?_ ?_
        · assumption
        · refine answer_keeps hout ?_
          assumption

theorem healRange_keeps (hflt : Keep.flt P) {s : State} {a} {n} (h : P s) : P (healRange s a n) := by
  unfold healRange
  refine Keep.set_flt hflt ?_
  assumption

theorem storeRows_keeps (hmem : Keep.mem P) (hflt : Keep.flt P) {s : State} {a} {ws} (h : P s) : P (storeRows s a ws) := by
  unfold storeRows
  refine healRange_keeps hflt ?_
  refine msets_keeps hmem ?_
  assumption

theorem writeMeta_keeps (hmem : Keep.mem P) (hflt : Keep.flt P) {s : State} {h1} {words} {gains} (h : P s) : P (writeMeta s h1 words gains) := by
  unfold writeMeta
  extract_lets -underBinder -merge -useContext +onlyGivenNames x
  clear_value x
  refine storeRows_keeps hmem hflt ?_
  assumption

theorem writeData_keeps (hmem : Keep.mem P) (hflt : Keep.flt P) {s : State} {h1} {octets} (h : P s) : P (writeData s h1 octets) := by
  unfold writeData
  refine Keep.foldl ?_ ?_
  · assumption
  · intro _ _ _
    refine storeRows_keeps hmem hflt ?_
    assumption

theorem poisonRange_keeps (hflt : Keep.flt P) {s : State} {a} {n} (h : P s) : P (poisonRange s a n) := by
  unfold poisonRange
  extract_lets -underBinder -merge -useContext +onlyGivenNames x
  clear_value x
  refine Keep.set_flt hflt ?_
  assumption

theorem flipBit_keeps (hmem : Keep.mem P) (htlm : Keep.tlm P) {s : State} {m} {r} {i} (h : P s) : P (flipBit s m r i) := by
  unfold flipBit
  refine Keep.ite ?_ ?_
  · assumption
  · refine Keep.ite ?_ ?_
    · refine lset_keeps htlm ?_
      assumption
    · refine Keep.ite ?_ ?_
      · refine mset_keeps hmem ?_
        assumption
      · assumption

theorem takeSpare_keeps (hregs : Keep.regs P) (heth : Keep.eth P) (hint : Keep.int P) (hstl : Keep.stl P) (hout : Keep.out P) {s : State} {m} (h : P s) : P (takeSpare s m) := by
  unfold takeSpare
  extract_lets -underBinder -merge -useContext +onlyGivenNames x
  clear_value x
  extract_lets -underBinder -merge -useContext +onlyGivenNames x
  have hx : P x := by
    subst x
    refine rset_keeps hregs ?_
    assumption
  clear_value x
  refine Keep.ite ?_ ?_
  · refine evt_keeps hregs heth hint hstl hout ?_
    assumption
  · assumption

theorem rowRecord_keeps (hregs : Keep.regs P) (heth : Keep.eth P) (hflt : Keep.flt P) (hint : Keep.int P) (hstl : Keep.stl P) (hout : Keep.out P) {s : State} {t1} {lasting} {action} (h : P s) : P (rowRecord s t1 lasting action) := by
  unfold rowRecord
  refine fault_keeps hregs heth hflt hint hstl hout ?_
  assumption

theorem countCorrected_keeps (hregs : Keep.regs P) (heth : Keep.eth P) (hflt : Keep.flt P) (hint : Keep.int P) (hstl : Keep.stl P) (hout : Keep.out P) {s : State} (h : P s) : P (countCorrected s) := by
  unfold countCorrected
  extract_lets -underBinder -merge -useContext +onlyGivenNames x
  clear_value x
  extract_lets -underBinder -merge -useContext +onlyGivenNames x
  clear_value x
  extract_lets -underBinder -merge -useContext +onlyGivenNames x
  clear_value x
  extract_lets -underBinder -merge -useContext +onlyGivenNames x
  have hx : P x := by
    subst x
    refine bump_keeps hregs ?_
    refine Keep.set_flt hflt ?_
    assumption
  clear_value x
  refine Keep.ite ?_ ?_
  · refine evt_keeps hregs heth hint hstl hout ?_
    assumption
  · assumption

theorem moveRow_keeps (hregs : Keep.regs P) (heth : Keep.eth P) (hflt : Keep.flt P) (hint : Keep.int P) (hstl : Keep.stl P) (hout : Keep.out P) {s : State} {t1} {corrected} (h : P s) : P (moveRow s t1 corrected) := by
  unfold moveRow
  refine Keep.ite ?_ ?_
  · assumption
  · refine Keep.ite ?_ ?_
    · refine rowRecord_keeps hregs heth hflt hint hstl hout ?_
      assumption
    · refine Keep.ite ?_ ?_
      · refine bump_keeps hregs ?_
        refine rowRecord_keeps hregs heth hflt hint hstl hout ?_
        refine takeSpare_keeps hregs heth hint hstl hout ?_
        assumption
      · extract_lets -underBinder -merge -useContext +onlyGivenNames x
        have hx : P x := by
          subst x
          refine takeSpare_keeps hregs heth hint hstl hout ?_
          assumption
        clear_value x
        refine Keep.set_flt hflt ?_
        assumption

theorem rowError_keeps (hregs : Keep.regs P) (hmem : Keep.mem P) (htlm : Keep.tlm P) (heth : Keep.eth P) (hflt : Keep.flt P) (hint : Keep.int P) (hstl : Keep.stl P) (htag : Keep.tag P) (hout : Keep.out P) {s : State} {u} {init} {scrub} (h : P s) : P (rowError s u init scrub) := by
  unfold rowError
  refine Keep.ite ?_ ?_
  · refine Keep.ite ?_ ?_
    · refine updTag_keeps htag ?_ ?_
      · assumption
      · with_reducible exact markUpset_store _ _ _
    · assumption
  · refine Keep.ite ?_ ?_
    · assumption
    · extract_lets -underBinder -merge -useContext +onlyGivenNames x
      clear_value x
      extract_lets -underBinder -merge -useContext +onlyGivenNames x
      clear_value x
      extract_lets -underBinder -merge -useContext +onlyGivenNames x
      clear_value x
      extract_lets -underBinder -merge -useContext +onlyGivenNames x
      clear_value x
      refine Keep.ite ?_ ?_
      · refine Keep.foldl ?_ ?_
        · assumption
        · intro _ _ _
          refine flipBit_keeps hmem htlm ?_
          assumption
      · split
        · extract_lets -underBinder -merge -useContext +onlyGivenNames x
          have hx : P x := by
            subst x
            refine countCorrected_keeps hregs heth hflt hint hstl hout ?_
            refine Keep.foldl ?_ ?_
            · assumption
            · intro _ _ _
              refine flipBit_keeps hmem htlm ?_
              assumption
          clear_value x
          extract_lets -underBinder -merge -useContext +onlyGivenNames x
          clear_value x
          extract_lets -underBinder -merge -useContext +onlyGivenNames x
          have hx : P x := by
            subst x
            refine Keep.set_flt hflt ?_
            assumption
          clear_value x
          refine Keep.ite ?_ ?_
          · refine moveRow_keeps hregs heth hflt hint hstl hout ?_
            assumption
          · refine rowRecord_keeps hregs heth hflt hint hstl hout ?_
            assumption
        · extract_lets -underBinder -merge -useContext +onlyGivenNames x
          clear_value x
          extract_lets -underBinder -merge -useContext +onlyGivenNames x
          clear_value x
          extract_lets -underBinder -merge -useContext +onlyGivenNames x
          have hx : P x := by
            subst x
            refine evt_keeps hregs heth hint hstl hout ?_
            refine bump_keeps hregs ?_
            refine Keep.set_flt hflt ?_
            assumption
          clear_value x
          refine Keep.ite ?_ ?_
          · refine moveRow_keeps hregs heth hflt hint hstl hout ?_
            assumption
          · refine rowRecord_keeps hregs heth hflt hint hstl hout ?_
            assumption

theorem marchEnd_keeps (hregs : Keep.regs P) (heth : Keep.eth P) (hflt : Keep.flt P) (hint : Keep.int P) (hstl : Keep.stl P) (hout : Keep.out P) {s : State} {m} {pass} (h : P s) : P (marchEnd s m pass) := by
  unfold marchEnd
  split
  · assumption
  · extract_lets -underBinder -merge -useContext +onlyGivenNames x
    clear_value x
    extract_lets -underBinder -merge -useContext +onlyGivenNames x
    clear_value x
    extract_lets -underBinder -merge -useContext +onlyGivenNames x
    clear_value x
    extract_lets -underBinder -merge -useContext +onlyGivenNames x
    clear_value x
    extract_lets -underBinder -merge -useContext +onlyGivenNames x
    have hx : P x := by
      subst x
      refine Keep.set_flt hflt ?_
      assumption
    clear_value x
    extract_lets -underBinder -merge -useContext +onlyGivenNames x
    have hx : P x := by
      subst x
      refine rowRecord_keeps hregs heth hflt hint hstl hout ?_
      assumption
    clear_value x
    refine Keep.ite ?_ ?_
    · extract_lets -underBinder -merge -useContext +onlyGivenNames x
      clear_value x
      extract_lets -underBinder -merge -useContext +onlyGivenNames x
      have hx : P x := by
        subst x
        refine Keep.set_flt hflt ?_
        assumption
      clear_value x
      refine bump_keeps hregs ?_
      refine rset_keeps hregs ?_
      assumption
    · refine bump_keeps hregs ?_
      refine Keep.set_flt hflt ?_
      assumption

theorem poisonMet_keeps (hregs : Keep.regs P) (heth : Keep.eth P) (hflt : Keep.flt P) (hint : Keep.int P) (hstl : Keep.stl P) (hout : Keep.out P) {s : State} {consumer} {a} (h : P s) : P (poisonMet s consumer a).2 := by
  unfold poisonMet
  extract_lets -underBinder -merge -useContext +onlyGivenNames x
  clear_value x
  dsimp -zeta only
  refine evt_keeps hregs heth hint hstl hout ?_
  refine fault_keeps hregs heth hflt hint hstl hout ?_
  assumption

theorem emit_keeps (hwin : Keep.win P) {s : State} {r} (h : P s) : P (emit s r) := by
  unfold emit
  refine Keep.set_win hwin ?_
  assumption

theorem verdict_keeps (hwin : Keep.win P) {s : State} {h1} {kind} {code} {detail} {len} {session} (h : P s) : P (verdict s h1 kind code detail len session) := by
  unfold verdict
  refine emit_keeps hwin ?_
  assumption

theorem winStart_keeps (hregs : Keep.regs P) (hwin : Keep.win P) (heth : Keep.eth P) (hint : Keep.int P) (hstl : Keep.stl P) (hout : Keep.out P) {s : State} (h : P s) : P (winStart s) := by
  unfold winStart
  extract_lets -underBinder -merge -useContext +onlyGivenNames x
  clear_value x
  extract_lets -underBinder -merge -useContext +onlyGivenNames x
  clear_value x
  extract_lets -underBinder -merge -useContext +onlyGivenNames x
  have hx : P x := by
    subst x
    refine rset_keeps hregs ?_
    refine rsetFld_keeps hregs ?_
    assumption
  clear_value x
  extract_lets -underBinder -merge -useContext +onlyGivenNames x
  clear_value x
  extract_lets -underBinder -merge -useContext +onlyGivenNames x
  have hx : P x := by
    subst x
    refine Keep.set_win hwin ?_
    assumption
  clear_value x
  extract_lets -underBinder -merge -useContext +onlyGivenNames x
  have hx : P x := by
    subst x
    refine Keep.foldl ?_ ?_
    · assumption
    · intro _ _ _
      refine rset_keeps hregs ?_
      assumption
  clear_value x
  refine Keep.ite ?_ ?_
  · assumption
  · refine evt_keeps hregs heth hint hstl hout ?_
    assumption

theorem winStop_keeps (hregs : Keep.regs P) (hwin : Keep.win P) {s : State} (h : P s) : P (winStop s) := by
  unfold winStop
  refine Keep.ite ?_ ?_
  · assumption
  · extract_lets -underBinder -merge -useContext +onlyGivenNames x
    have hx : P x := by
      subst x
      refine rsetFld_keeps hregs ?_
      assumption
    clear_value x
    refine Keep.set_win hwin ?_
    assumption

theorem winDrain_keeps (hregs : Keep.regs P) {s : State} (h : P s) : P (winDrain s) := by
  unfold winDrain
  refine Keep.ite ?_ ?_
  · refine rsetFld_keeps hregs ?_
    assumption
  · assumption

theorem suppress_keeps (hregs : Keep.regs P) (hwin : Keep.win P) (heth : Keep.eth P) (hint : Keep.int P) (hstl : Keep.stl P) (hout : Keep.out P) {s : State} (h : P s) : P (suppress s) := by
  unfold suppress
  refine evt_keeps hregs heth hint hstl hout ?_
  refine bump_keeps hregs ?_
  refine Keep.set_win hwin ?_
  assumption

theorem storeVerdict_keeps (hregs : Keep.regs P) (hholds : Keep.holds P) (hwin : Keep.win P) (hfree : Keep.free P) {s : State} {r} (h : P s) : Keep.Some2 P (storeVerdict s r) := by
  unfold storeVerdict
  split
  · exact Keep.none2
  · split
    · extract_lets -underBinder -merge -useContext +onlyGivenNames x
      clear_value x
      extract_lets -underBinder -merge -useContext +onlyGivenNames x
      have hx : P x := by
        subst x
        refine noteMin_keeps hregs ?_
        refine Keep.set_holds_free hholds hfree ?_
        assumption
      clear_value x
      refine Keep.some2 ?_
      refine Keep.set_win hwin ?_
      assumption
    · exact Keep.none2

theorem relCount_keeps (hregs : Keep.regs P) (heth : Keep.eth P) (hint : Keep.int P) (hstl : Keep.stl P) (hout : Keep.out P) {s : State} {kind} (h : P s) : P (relCount s kind) := by
  unfold relCount
  extract_lets -underBinder -merge -useContext +onlyGivenNames x
  have hx : P x := by
    subst x
    refine bump_keeps hregs ?_
    assumption
  clear_value x
  split
  · refine evt_keeps hregs heth hint hstl hout ?_
    refine bump_keeps hregs ?_
    assumption
  · refine evt_keeps hregs heth hint hstl hout ?_
    refine bump_keeps hregs ?_
    assumption
  · refine evt_keeps hregs heth hint hstl hout ?_
    refine bump_keeps hregs ?_
    assumption
  · assumption

theorem releaseRec_keeps (hregs : Keep.regs P) (hmem : Keep.mem P) (hboot : Keep.boot P) (hwin : Keep.win P) (heth : Keep.eth P) (hflt : Keep.flt P) (hint : Keep.int P) (hstl : Keep.stl P) (hout : Keep.out P) {s : State} {r} {ooo} (h : P s) : P (releaseRec s r ooo) := by
  unfold releaseRec
  extract_lets -underBinder -merge -useContext +onlyGivenNames x
  clear_value x
  extract_lets -underBinder -merge -useContext +onlyGivenNames x
  clear_value x
  extract_lets -underBinder -merge -useContext +onlyGivenNames x
  have hx : P x := by
    subst x
    split
    · refine Keep.ite ?_ ?_
      · refine writeMeta_keeps hmem hflt ?_
        assumption
      · refine storeRows_keeps hmem hflt ?_
        assumption
    · assumption
  clear_value x
  extract_lets -underBinder -merge -useContext +onlyGivenNames x
  clear_value x
  extract_lets -underBinder -merge -useContext +onlyGivenNames x
  clear_value x
  extract_lets -underBinder -merge -useContext +onlyGivenNames x
  have hx : P x := by
    subst x
    refine Keep.set_boot_win hboot hwin ?_
    assumption
  clear_value x
  extract_lets -underBinder -merge -useContext +onlyGivenNames x
  have hx : P x := by
    subst x
    refine rset_keeps hregs ?_
    assumption
  clear_value x
  refine stolon_keeps hregs heth hint hstl hout ?_
  refine relCount_keeps hregs heth hint hstl hout ?_
  assumption

theorem reachRp_keeps (hwin : Keep.win P) {s : State} {p} (h : P s) : P (reachRp s p) := by
  unfold reachRp
  refine Keep.set_win hwin ?_
  assumption

theorem releaseDue_keeps (hregs : Keep.regs P) (hmem : Keep.mem P) (hboot : Keep.boot P) (hwin : Keep.win P) (heth : Keep.eth P) (hflt : Keep.flt P) (hint : Keep.int P) (hstl : Keep.stl P) (hout : Keep.out P) {s : State} (h : P s) : P (releaseDue s) := by
  unfold releaseDue
  extract_lets -underBinder -merge -useContext +onlyGivenNames x
  clear_value x
  extract_lets -underBinder -merge -useContext +onlyGivenNames x
  clear_value x
  extract_lets -underBinder -merge -useContext +onlyGivenNames x
  clear_value x
  extract_lets -underBinder -merge -useContext +onlyGivenNames x
  have hx : P x := by
    subst x
    refine Keep.set_win hwin ?_
    assumption
  clear_value x
  refine winDrain_keeps hregs ?_
  refine Keep.foldl ?_ ?_
  · assumption
  · intro _ _ _
    refine releaseRec_keeps hregs hmem hboot hwin heth hflt hint hstl hout ?_
    assumption

theorem releaseLate_keeps (hregs : Keep.regs P) (hmem : Keep.mem P) (hboot : Keep.boot P) (hholds : Keep.holds P) (hwin : Keep.win P) (heth : Keep.eth P) (hflt : Keep.flt P) (hint : Keep.int P) (hstl : Keep.stl P) (hfree : Keep.free P) (hout : Keep.out P) {s : State} {r} (h : P s) : P (releaseLate s r) := by
  unfold releaseLate
  extract_lets -underBinder -merge -useContext +onlyGivenNames x
  clear_value x
  extract_lets -underBinder -merge -useContext +onlyGivenNames x
  have hx : P x := by
    subst x
    refine evt_keeps hregs heth hint hstl hout ?_
    refine bump_keeps hregs ?_
    refine releaseRec_keeps hregs hmem hboot hwin heth hflt hint hstl hout ?_
    assumption
  clear_value x
  refine Keep.ite ?_ ?_
  · extract_lets -underBinder -merge -useContext +onlyGivenNames x
    clear_value x
    extract_lets -underBinder -merge -useContext +onlyGivenNames x
    clear_value x
    split
    · refine releaseRec_keeps hregs hmem hboot hwin heth hflt hint hstl hout ?_
      refine Keep.patSome2 ?_ (by assumption)
      refine storeVerdict_keeps hregs hholds hwin hfree ?_
      assumption
    · refine suppress_keeps hregs hwin heth hint hstl hout ?_
      assumption
  · assumption

theorem acceptRec_keeps (hregs : Keep.regs P) (hmem : Keep.mem P) (hboot : Keep.boot P) (hholds : Keep.holds P) (hwin : Keep.win P) (heth : Keep.eth P) (hflt : Keep.flt P) (hint : Keep.int P) (hstl : Keep.stl P) (hfree : Keep.free P) (hout : Keep.out P) {s : State} {r} (h : P s) : P (acceptRec s r) := by
  unfold acceptRec
  extract_lets -underBinder -merge -useContext +onlyGivenNames x
  subst x
  refine Keep.ite ?_ ?_
  · refine suppress_keeps hregs hwin heth hint hstl hout ?_
    split
    · refine release_keeps hholds ?_
      assumption
    · assumption
  · split
    · refine suppress_keeps hregs hwin heth hint hstl hout ?_
      assumption
    · extract_lets -underBinder -merge -useContext +onlyGivenNames x
      clear_value x
      extract_lets -underBinder -merge -useContext +onlyGivenNames x
      clear_value x
      extract_lets -underBinder -merge -useContext +onlyGivenNames x
      have hx : P x := by
        subst x
        refine Keep.set_win hwin ?_
        · refine Keep.patSome2 ?_ (by assumption)
          split
          · refine Keep.some2 ?_
            assumption
          · refine storeVerdict_keeps hregs hholds hwin hfree ?_
            assumption
      clear_value x
      extract_lets -underBinder -merge -useContext +onlyGivenNames x
      clear_value x
      refine Keep.ite ?_ ?_
      · refine releaseLate_keeps hregs hmem hboot hholds hwin heth hflt hint hstl hfree hout ?_
        assumption
      · refine Keep.set_win hwin ?_
        · assumption

theorem winHorWrite_keeps (hregs : Keep.regs P) (hmem : Keep.mem P) (hboot : Keep.boot P) (hwin : Keep.win P) (heth : Keep.eth P) (hflt : Keep.flt P) (hint : Keep.int P) (hstl : Keep.stl P) (hout : Keep.out P) {v} {s : State} (h : P s) : P (winHorWrite v s) := by
  unfold winHorWrite
  extract_lets -underBinder -merge -useContext +onlyGivenNames x
  clear_value x
  extract_lets -underBinder -merge -useContext +onlyGivenNames x
  have hx : P x := by
    subst x
    refine rsetFld_keeps hregs ?_
    assumption
  clear_value x
  extract_lets -underBinder -merge -useContext +onlyGivenNames x
  clear_value x
  refine Keep.ite ?_ ?_
  · extract_lets -underBinder -merge -useContext +onlyGivenNames x
    have hx : P x := by
      subst x
      refine releaseDue_keeps hregs hmem hboot hwin heth hflt hint hstl hout ?_
      assumption
    clear_value x
    extract_lets -underBinder -merge -useContext +onlyGivenNames x
    have hx : P x := by
      subst x
      refine rsetFld_keeps hregs ?_
      refine rsetBit_keeps hregs ?_
      assumption
    clear_value x
    refine evt_keeps hregs heth hint hstl hout ?_
    refine releaseDue_keeps hregs hmem hboot hwin heth hflt hint hstl hout ?_
    refine Keep.set_win hwin ?_
    assumption
  · extract_lets -underBinder -merge -useContext +onlyGivenNames x
    have hx : P x := by
      subst x
      refine rsetBit_keeps hregs ?_
      assumption
    clear_value x
    refine Keep.set_win hwin ?_
    assumption

theorem winCtlWrite_keeps (hregs : Keep.regs P) {v} {s : State} (h : P s) : P (winCtlWrite v s) := by
  unfold winCtlWrite
  extract_lets -underBinder -merge -useContext +onlyGivenNames x
  have hx : P x := by
    subst x
    refine Keep.ite ?_ ?_
    · refine Keep.foldl ?_ ?_
      · assumption
      · intro _ _ _
        refine rset_keeps hregs ?_
        assumption
    · assumption
  clear_value x
  refine Keep.ite ?_ ?_
  · refine Keep.foldl ?_ ?_
    · assumption
    · intro _ _ _
      refine rset_keeps hregs ?_
      assumption
  · assumption

theorem uslSend_keeps (husl : Keep.usl P) (hfree : Keep.free P) (hout : Keep.out P) {s : State} {typ} {vc} {mask} {arg0} {arg1} {pay} (h : P s) : P (uslSend s typ vc mask arg0 arg1 pay) := by
  unfold uslSend
  refine Keep.ite ?_ ?_
  · assumption
  · refine Keep.set_usl_free_out husl hfree hout ?_
    assumption

theorem sendSoft_keeps (husl : Keep.usl P) (hfree : Keep.free P) (hout : Keep.out P) {s : State} {fseq} {lam} (h : P s) : P (sendSoft s fseq lam) := by
  unfold sendSoft
  extract_lets -underBinder -merge -useContext +onlyGivenNames x
  clear_value x
  refine Keep.foldl ?_ ?_
  · assumption
  · intro _ _ _
    refine uslSend_keeps husl hfree hout ?_
    assumption

theorem dirApply_keeps (hregs : Keep.regs P) (hsage : Keep.sage P) (heth : Keep.eth P) (hint : Keep.int P) (hstl : Keep.stl P) (hout : Keep.out P) {s : State} {k} {owner} (h : P s) : P (dirApply s k owner) := by
  unfold dirApply
  extract_lets -underBinder -merge -useContext +onlyGivenNames x
  clear_value x
  split
  · refine Keep.set_sage hsage ?_
    assumption
  · refine Keep.ite ?_ ?_
    · refine evt_keeps hregs heth hint hstl hout ?_
      assumption
    · refine Keep.set_sage hsage ?_
      assumption

theorem dirUpTo_keeps (hregs : Keep.regs P) (hsage : Keep.sage P) (heth : Keep.eth P) (hint : Keep.int P) (hstl : Keep.stl P) (hout : Keep.out P) {t0} {s : State} (h : P s) : P (dirUpTo t0 s) := by
  unfold dirUpTo
  extract_lets -underBinder -merge -useContext +onlyGivenNames x
  clear_value x
  extract_lets -underBinder -merge -useContext +onlyGivenNames x
  clear_value x
  extract_lets -underBinder -merge -useContext +onlyGivenNames x
  have hx : P x := by
    subst x
    refine Keep.set_sage hsage ?_
    assumption
  clear_value x
  refine Keep.foldl ?_ ?_
  · assumption
  · intro _ _ _
    refine dirApply_keeps hregs hsage heth hint hstl hout ?_
    assumption

theorem dirSend_keeps (husl : Keep.usl P) (hfree : Keep.free P) (hout : Keep.out P) {s : State} {k} {owner} {remove} {at_} (h : P s) : P (dirSend s k owner remove at_) := by
  unfold dirSend
  refine uslSend_keeps husl hfree hout ?_
  assumption

theorem updReader_keeps (hreader : Keep.reader P) {s : State} {f} (h : P s) : P (updReader s f) := by
  unfold updReader
  refine Keep.set_reader hreader ?_
  assumption

theorem panelWithdraw_keeps (hregs : Keep.regs P) (heth : Keep.eth P) (hint : Keep.int P) (hstl : Keep.stl P) (hreader : Keep.reader P) (hout : Keep.out P) {s : State} (h : P s) : P (panelWithdraw s) := by
  unfold panelWithdraw
  refine Keep.ite ?_ ?_
  · assumption
  · extract_lets -underBinder -merge -useContext +onlyGivenNames x
    have hx : P x := by
      subst x
      refine updReader_keeps hreader ?_
      assumption
    clear_value x
    refine setEvt_keeps hregs heth hint hstl hout ?_
    refine rsetGroup_keeps hregs ?_
    assumption

theorem panelAccept_keeps (hregs : Keep.regs P) (heth : Keep.eth P) (hint : Keep.int P) (hstl : Keep.stl P) (hreader : Keep.reader P) (hout : Keep.out P) {s : State} {d} (h : P s) : P (panelAccept s d) := by
  unfold panelAccept
  extract_lets -underBinder -merge -useContext +onlyGivenNames x
  have hx : P x := by
    subst x
    refine updReader_keeps hreader ?_
    assumption
  clear_value x
  refine Keep.ite ?_ ?_
  · assumption
  · extract_lets -underBinder -merge -useContext +onlyGivenNames x
    have hx : P x := by
      subst x
      refine updReader_keeps hreader ?_
      assumption
    clear_value x
    refine setEvt_keeps hregs heth hint hstl hout ?_
    refine rsetGroup_keeps hregs ?_
    assumption

theorem panelFail_keeps (hregs : Keep.regs P) (heth : Keep.eth P) (hint : Keep.int P) (hstl : Keep.stl P) (hreader : Keep.reader P) (hout : Keep.out P) {s : State} {res} (h : P s) : P (panelFail s res) := by
  unfold panelFail
  extract_lets -underBinder -merge -useContext +onlyGivenNames x
  have hx : P x := by
    subst x
    refine setEvt_keeps hregs heth hint hstl hout ?_
    assumption
  clear_value x
  extract_lets -underBinder -merge -useContext +onlyGivenNames x
  have hx : P x := by
    subst x
    refine updReader_keeps hreader ?_
    assumption
  clear_value x
  refine Keep.ite ?_ ?_
  · refine panelWithdraw_keeps hregs heth hint hstl hreader hout ?_
    assumption
  · assumption

theorem readerOff_keeps (hregs : Keep.regs P) (heth : Keep.eth P) (hint : Keep.int P) (hstl : Keep.stl P) (hreader : Keep.reader P) (hout : Keep.out P) {s : State} (h : P s) : P (readerOff s) := by
  unfold readerOff
  refine panelWithdraw_keeps hregs heth hint hstl hreader hout ?_
  refine updReader_keeps hreader ?_
  assumption

theorem readerReread_keeps (hreader : Keep.reader P) {s : State} (h : P s) : P (readerReread s) := by
  unfold readerReread
  refine Keep.ite ?_ ?_
  · refine updReader_keeps hreader ?_
    assumption
  · assumption

theorem execDetuningPing_keeps (hregs : Keep.regs P) (htime : Keep.time P) (heth : Keep.eth P) (hint : Keep.int P) (hstl : Keep.stl P) (hreader : Keep.reader P) (hout : Keep.out P) {d} {s : State} (h : P s) {t : State} (e : execDetuningPing d s = .next t) : P t := by
  obtain rfl := Host.Outcome.next.inj e
  refine Keep.ite ?_ ?_
  · assumption
  · extract_lets -underBinder -merge -useContext +onlyGivenNames x
    have hx : P x := by
      subst x
      refine reach_keeps htime ?_
      assumption
    clear_value x
    extract_lets -underBinder -merge -useContext +onlyGivenNames x
    have hx : P x := by
      subst x
      refine rset_keeps hregs ?_
      refine updReader_keeps hreader ?_
      assumption
    clear_value x
    extract_lets -underBinder -merge -useContext +onlyGivenNames x
    clear_value x
    refine Keep.ite ?_ ?_
    · refine setEvt_keeps hregs heth hint hstl hout ?_
      refine updReader_keeps hreader ?_
      assumption
    · assumption

theorem execPanelFullRead_keeps (htime : Keep.time P) (hreader : Keep.reader P) {s : State} (h : P s) {t : State} (e : execPanelFullRead s = .next t) : P t := by
  obtain rfl := Host.Outcome.next.inj e
  refine Keep.ite ?_ ?_
  · extract_lets -underBinder -merge -useContext +onlyGivenNames x
    have hx : P x := by
      subst x
      refine Keep.ite ?_ ?_
      · assumption
      · refine reach_keeps htime ?_
        assumption
    clear_value x
    refine updReader_keeps hreader ?_
    assumption
  · assumption

theorem execPanelReadComplete_keeps (hregs : Keep.regs P) (heth : Keep.eth P) (hint : Keep.int P) (hstl : Keep.stl P) (hreader : Keep.reader P) (hout : Keep.out P) {o} {s : State} (h : P s) {t : State} (e : execPanelReadComplete o s = .next t) : P t := by
  obtain rfl := Host.Outcome.next.inj e
  refine Keep.ite ?_ ?_
  · assumption
  · extract_lets -underBinder -merge -useContext +onlyGivenNames x
    have hx : P x := by
      subst x
      refine updReader_keeps hreader ?_
      assumption
    clear_value x
    extract_lets -underBinder -merge -useContext +onlyGivenNames x
    clear_value x
    extract_lets -underBinder -merge -useContext +onlyGivenNames x
    have hx : P x := by
      subst x
      refine rsetFld_keeps hregs ?_
      assumption
    clear_value x
    split
    · refine panelAccept_keeps hregs heth hint hstl hreader hout ?_
      assumption
    · refine panelFail_keeps hregs heth hint hstl hreader hout ?_
      assumption

theorem gainRefresh_keeps (hregs : Keep.regs P) {s : State} {n} (h : P s) : P (gainRefresh s n) := by
  unfold gainRefresh
  refine Keep.foldl ?_ ?_
  · assumption
  · intro _ _ _
    refine rset_keeps hregs ?_
    assumption

theorem airForget_keeps (hlnk : Keep.lnk P) {s : State} {b} {k} (h : P s) : P (airForget s b k) := by
  unfold airForget
  refine Keep.set_lnk hlnk ?_
  assumption

theorem airCharge_keeps (hlnk : Keep.lnk P) {s : State} {b} {k} {us} (h : P s) : P (airCharge s b k us) := by
  unfold airCharge
  refine Keep.set_lnk hlnk ?_
  assumption

theorem gateRefuse_keeps (hregs : Keep.regs P) (heth : Keep.eth P) (hint : Keep.int P) (hstl : Keep.stl P) (hout : Keep.out P) {s : State} {b} {band} (h : P s) : P (gateRefuse s b band).2 := by
  unfold gateRefuse
  dsimp -zeta only
  refine evt_keeps hregs heth hint hstl hout ?_
  refine bump_keeps hregs ?_
  assumption

theorem gateLevels_keeps (hregs : Keep.regs P) (hlnk : Keep.lnk P) (heth : Keep.eth P) (hint : Keep.int P) (hstl : Keep.stl P) (hout : Keep.out P) {s : State} {a} {b} {ports} (h : P s) : P (gateLevels s a b ports).2 := by
  unfold gateLevels
  extract_lets -underBinder -merge -useContext +onlyGivenNames x
  clear_value x
  extract_lets -underBinder -merge -useContext +onlyGivenNames x
  clear_value x
  extract_lets -underBinder -merge -useContext +onlyGivenNames x
  clear_value x
  extract_lets -underBinder -merge -useContext +onlyGivenNames x
  clear_value x
  extract_lets -underBinder -merge -useContext +onlyGivenNames x
  clear_value x
  extract_lets -underBinder -merge -useContext +onlyGivenNames x
  clear_value x
  extract_lets -underBinder -merge -useContext +onlyGivenNames x
  clear_value x
  split
  · refine gateRefuse_keeps hregs heth hint hstl hout ?_
    assumption
  · extract_lets -underBinder -merge -useContext +onlyGivenNames x
    clear_value x
    extract_lets -underBinder -merge -useContext +onlyGivenNames x
    have hx : P x := by
      subst x
      refine airForget_keeps hlnk ?_
      assumption
    clear_value x
    split
    · refine gateRefuse_keeps hregs heth hint hstl hout ?_
      refine bump_keeps hregs ?_
      assumption
    · extract_lets -underBinder -merge -useContext +onlyGivenNames x
      have hx : P x := by
        subst x
        refine airCharge_keeps hlnk ?_
        assumption
      clear_value x
      split
      · dsimp -zeta only
        refine setEvt_keeps hregs heth hint hstl hout ?_
        refine bump_keeps hregs ?_
        assumption
      · dsimp -zeta only
        assumption

theorem gateJudge_keeps (hregs : Keep.regs P) (hlnk : Keep.lnk P) (heth : Keep.eth P) (hint : Keep.int P) (hstl : Keep.stl P) (hout : Keep.out P) {s : State} {a} (h : P s) : P (gateJudge s a).2 := by
  unfold gateJudge
  extract_lets -underBinder -merge -useContext +onlyGivenNames x
  clear_value x
  split
  · refine gateRefuse_keeps hregs heth hint hstl hout ?_
    assumption
  · extract_lets -underBinder -merge -useContext +onlyGivenNames x
    clear_value x
    split
    · refine gateRefuse_keeps hregs heth hint hstl hout ?_
      assumption
    · extract_lets -underBinder -merge -useContext +onlyGivenNames x
      clear_value x
      split
      · split
        · refine gateRefuse_keeps hregs heth hint hstl hout ?_
          assumption
        · split
          · refine gateRefuse_keeps hregs heth hint hstl hout ?_
            assumption
          · refine gateLevels_keeps hregs hlnk heth hint hstl hout ?_
            assumption
      · refine gateRefuse_keeps hregs heth hint hstl hout ?_
        assumption

theorem gateLoop_keeps (hregs : Keep.regs P) (hlnk : Keep.lnk P) (heth : Keep.eth P) (hint : Keep.int P) (hstl : Keep.stl P) (hout : Keep.out P) {s : State} {p} {us} (h : P s) : P (gateLoop s p us).2 := by
  unfold gateLoop
  extract_lets -underBinder -merge -useContext +onlyGivenNames x
  have hx : P x.2 := by
    subst x
    refine gateJudge_keeps hregs hlnk heth hint hstl hout ?_
    assumption
  clear_value x
  dsimp -zeta only
  assumption

theorem gateVerdict_keeps (hwin : Keep.win P) {s : State} {a} {o} {session} (h : P s) : P (gateVerdict s a o session) := by
  unfold gateVerdict
  extract_lets -underBinder -merge -useContext +onlyGivenNames x
  clear_value x
  refine verdict_keeps hwin ?_
  assumption

theorem execGateRequest_keeps (hregs : Keep.regs P) (hsheaves : Keep.sheaves P) (hwin : Keep.win P) (hlnk : Keep.lnk P) (heth : Keep.eth P) (hint : Keep.int P) (hstl : Keep.stl P) (hout : Keep.out P) {r} {s : State} (h : P s) {t : State} (e : execGateRequest r s = .next t) : P t := by
  unfold execGateRequest at e
  split at e
  · cases e
  · obtain rfl := Host.Outcome.next.inj e
    extract_lets -underBinder -merge -useContext +onlyGivenNames x
    clear_value x
    extract_lets -underBinder -merge -useContext +onlyGivenNames x
    clear_value x
    dsimp -zeta only
    split
    · refine Keep.ite ?_ ?_
      · refine gateJudge_keeps hregs hlnk heth hint hstl hout ?_
        assumption
      · refine gateVerdict_keeps hwin ?_
        refine gateJudge_keeps hregs hlnk heth hint hstl hout ?_
        assumption
    · refine Keep.ite ?_ ?_
      · refine gateJudge_keeps hregs hlnk heth hint hstl hout ?_
        assumption
      · refine State.updSheaf_keeps hsheaves ?_
        refine gateJudge_keeps hregs hlnk heth hint hstl hout ?_
        assumption

theorem execPanelGainApply_keeps (hregs : Keep.regs P) (htime : Keep.time P) (hreader : Keep.reader P) {s : State} (h : P s) {t : State} (e : execPanelGainApply s = .next t) : P t := by
  obtain rfl := Host.Outcome.next.inj e
  split
  · extract_lets -underBinder -merge -useContext +onlyGivenNames x
    clear_value x
    extract_lets -underBinder -merge -useContext +onlyGivenNames x
    have hx : P x := by
      subst x
      refine updReader_keeps hreader ?_
      refine reach_keeps htime ?_
      assumption
    clear_value x
    extract_lets -underBinder -merge -useContext +onlyGivenNames x
    have hx : P x := by
      subst x
      refine rsetBit_keeps hregs ?_
      refine rsetBit_keeps hregs ?_
      assumption
    clear_value x
    refine Keep.foldl ?_ ?_
    · assumption
    · intro _ _ _
      refine gainRefresh_keeps hregs ?_
      assumption
  · assumption

end Sys2Proof.Machine
end

