-- ==== Sys2Proof/Laws/KeepSearch.lean ====
section
/-!
SUPPORT. Which parts of the state the operations may change: search, demodulation, Rosemary, fence, flash, keys and queues.
-/

namespace Sys2Proof.Machine

variable {P : State → Prop}

theorem searchCopy_keeps (hregs : Keep.regs P) (hsearches : Keep.searches P) (heth : Keep.eth P) (hint : Keep.int P) (hstl : Keep.stl P) (hout : Keep.out P) {s : State} {n} (h : P s) : P (searchCopy s n) := by
  unfold searchCopy
  extract_lets -underBinder -merge -useContext +onlyGivenNames x
  clear_value x
  extract_lets -underBinder -merge -useContext +onlyGivenNames x
  clear_value x
  extract_lets -underBinder -merge -useContext +onlyGivenNames x
  have hx : P x := by
    subst x
    refine Keep.foldl ?_ ?_
    · assumption
    · intro _ _ _
      refine rsetBit_keeps hregs ?_
      assumption
  clear_value x
  extract_lets -underBinder -merge -useContext +onlyGivenNames x
  clear_value x
  extract_lets -underBinder -merge -useContext +onlyGivenNames x
  have hx : P x := by
    subst x
    refine rsetFld_keeps hregs ?_
    assumption
  clear_value x
  extract_lets -underBinder -merge -useContext +onlyGivenNames x
  clear_value x
  extract_lets -underBinder -merge -useContext +onlyGivenNames x
  clear_value x
  extract_lets -underBinder -merge -useContext +onlyGivenNames x
  have hx : P x := by
    subst x
    refine State.updSearch_keeps hsearches ?_
    assumption
  clear_value x
  refine Keep.ite ?_ ?_
  · refine setEvt_keeps hregs heth hint hstl hout ?_
    assumption
  · assumption

theorem searchBegin_keeps (hregs : Keep.regs P) (hsearches : Keep.searches P) (heth : Keep.eth P) (hint : Keep.int P) (hstl : Keep.stl P) (hout : Keep.out P) {s : State} {n} {ats} (h : P s) : P (searchBegin s n ats) := by
  unfold searchBegin
  extract_lets -underBinder -merge -useContext +onlyGivenNames x
  have hx : P x := by
    subst x
    refine setState_keeps hregs ?_
    refine searchCopy_keeps hregs hsearches heth hint hstl hout ?_
    assumption
  clear_value x
  extract_lets -underBinder -merge -useContext +onlyGivenNames x
  clear_value x
  extract_lets -underBinder -merge -useContext +onlyGivenNames x
  clear_value x
  extract_lets -underBinder -merge -useContext +onlyGivenNames x
  have hx : P x := by
    subst x
    refine State.updSearch_keeps hsearches ?_
    assumption
  clear_value x
  refine Keep.ite ?_ ?_
  · refine evt_keeps hregs heth hint hstl hout ?_
    assumption
  · assumption

theorem searchStopAt_keeps (hregs : Keep.regs P) (hsearches : Keep.searches P) {s : State} {n} {S} (h : P s) : P (searchStopAt s n S) := by
  unfold searchStopAt
  extract_lets -underBinder -merge -useContext +onlyGivenNames x
  have hx : P x := by
    subst x
    refine drainState_keeps hregs ?_
    assumption
  clear_value x
  refine State.updSearch_keeps hsearches ?_
  refine rsetBit_keeps hregs ?_
  assumption

theorem searchDisable_keeps (hregs : Keep.regs P) (hsearches : Keep.searches P) (heth : Keep.eth P) (hint : Keep.int P) (hstl : Keep.stl P) (hout : Keep.out P) {s : State} {n} {ats} (h : P s) : P (searchDisable s n ats) := by
  unfold searchDisable
  extract_lets -underBinder -merge -useContext +onlyGivenNames x
  clear_value x
  refine Keep.ite ?_ ?_
  · refine State.updSearch_keeps hsearches ?_
    refine rsetBit_keeps hregs ?_
    assumption
  · extract_lets -underBinder -merge -useContext +onlyGivenNames x
    have hx : P x := by
      subst x
      refine searchStopAt_keeps hregs hsearches ?_
      assumption
    clear_value x
    refine Keep.ite ?_ ?_
    · refine evt_keeps hregs heth hint hstl hout ?_
      assumption
    · assumption

theorem awnCtlWrite_keeps (hregs : Keep.regs P) (hsearches : Keep.searches P) (heth : Keep.eth P) (hint : Keep.int P) (hstl : Keep.stl P) (hout : Keep.out P) {n} {v} {s : State} (h : P s) : P (awnCtlWrite n v s) := by
  unfold awnCtlWrite
  extract_lets -underBinder -merge -useContext +onlyGivenNames x
  clear_value x
  extract_lets -underBinder -merge -useContext +onlyGivenNames x
  clear_value x
  extract_lets -underBinder -merge -useContext +onlyGivenNames x
  have hx : P x := by
    subst x
    refine rsetFld_keeps hregs ?_
    assumption
  clear_value x
  extract_lets -underBinder -merge -useContext +onlyGivenNames x
  have hx : P x := by
    subst x
    refine Keep.ite ?_ ?_
    · refine rset_keeps hregs ?_
      refine rset_keeps hregs ?_
      refine rset_keeps hregs ?_
      assumption
    · assumption
  clear_value x
  extract_lets -underBinder -merge -useContext +onlyGivenNames x
  clear_value x
  refine Keep.ite ?_ ?_
  · refine Keep.ite ?_ ?_
    · refine State.updSearch_keeps hsearches ?_
      refine rsetBit_keeps hregs ?_
      assumption
    · refine Keep.ite ?_ ?_
      · assumption
      · refine Keep.ite ?_ ?_
        · refine searchBegin_keeps hregs hsearches heth hint hstl hout ?_
          refine setEn_keeps hregs ?_
          assumption
        · refine setEn_keeps hregs ?_
          assumption
  · refine Keep.ite ?_ ?_
    · assumption
    · refine Keep.ite ?_ ?_
      · refine setEn_keeps hregs ?_
        assumption
      · refine searchDisable_keeps hregs hsearches heth hint hstl hout ?_
        assumption

theorem joinGroups_keeps (hgroups : Keep.groups P) {s : State} {n} {e2} {p} {c} (h : P s) : P (joinGroups s n e2 p c) := by
  unfold joinGroups
  extract_lets -underBinder -merge -useContext +onlyGivenNames x
  clear_value x
  extract_lets -underBinder -merge -useContext +onlyGivenNames x
  clear_value x
  extract_lets -underBinder -merge -useContext +onlyGivenNames x
  clear_value x
  extract_lets -underBinder -merge -useContext +onlyGivenNames x
  clear_value x
  extract_lets -underBinder -merge -useContext +onlyGivenNames x
  clear_value x
  extract_lets -underBinder -merge -useContext +onlyGivenNames x
  clear_value x
  refine Keep.set_groups hgroups ?_
  assumption

theorem offerCandidate_keeps (hgroups : Keep.groups P) {n} {t1} {s : State} {c} (h : P s) : P (offerCandidate n t1 s c) := by
  unfold offerCandidate
  split
  · refine joinGroups_keeps hgroups ?_
    assumption
  · assumption

theorem countFaint_keeps (hports : Keep.ports P) {s : State} {d} (h : P s) : P (countFaint s d) := by
  unfold countFaint
  refine Keep.foldl ?_ ?_
  · assumption
  · intro _ _ _
    refine State.updPort_keeps hports ?_
    assumption

theorem closeGroup_keeps (hregs : Keep.regs P) (hports : Keep.ports P) (hsearches : Keep.searches P) (hgroups : Keep.groups P) (hdetq : Keep.detq P) (heth : Keep.eth P) (hint : Keep.int P) (hstl : Keep.stl P) (hout : Keep.out P) {s : State} {g} (h : P s) : P (closeGroup s g) := by
  unfold closeGroup
  extract_lets -underBinder -merge -useContext +onlyGivenNames x
  have hx : P x := by
    subst x
    refine Keep.set_groups hgroups ?_
    assumption
  clear_value x
  split
  · assumption
  · extract_lets -underBinder -merge -useContext +onlyGivenNames x
    have hx : P x := by
      subst x
      refine Keep.foldl ?_ ?_
      · assumption
      · intro _ _ _
        refine bump_keeps hregs ?_
        assumption
    clear_value x
    extract_lets -underBinder -merge -useContext +onlyGivenNames x
    clear_value x
    extract_lets -underBinder -merge -useContext +onlyGivenNames x
    have hx : P x := by
      subst x
      refine countFaint_keeps hports ?_
      refine Keep.set_detq hdetq ?_
      assumption
    clear_value x
    extract_lets -underBinder -merge -useContext +onlyGivenNames x
    have hx : P x := by
      subst x
      refine State.updSearch_keeps hsearches ?_
      assumption
    clear_value x
    refine evt_keeps hregs heth hint hstl hout ?_
    refine bump_keeps hregs ?_
    refine bump_keeps hregs ?_
    assumption

theorem searchSheafOff_keeps (hregs : Keep.regs P) (hsearches : Keep.searches P) (hgroups : Keep.groups P) (heth : Keep.eth P) (hint : Keep.int P) (hstl : Keep.stl P) (hout : Keep.out P) {s : State} {n} (h : P s) : P (searchSheafOff s n) := by
  unfold searchSheafOff
  extract_lets -underBinder -merge -useContext +onlyGivenNames x
  clear_value x
  refine Keep.ite ?_ ?_
  · assumption
  · extract_lets -underBinder -merge -useContext +onlyGivenNames x
    clear_value x
    extract_lets -underBinder -merge -useContext +onlyGivenNames x
    clear_value x
    extract_lets -underBinder -merge -useContext +onlyGivenNames x
    have hx : P x := by
      subst x
      refine Keep.set_groups hgroups ?_
      assumption
    clear_value x
    extract_lets -underBinder -merge -useContext +onlyGivenNames x
    have hx : P x := by
      subst x
      refine Keep.ite ?_ ?_
      · assumption
      · refine evt_keeps hregs heth hint hstl hout ?_
        refine bump_keeps hregs ?_
        assumption
    clear_value x
    extract_lets -underBinder -merge -useContext +onlyGivenNames x
    have hx : P x := by
      subst x
      refine setEn_keeps hregs ?_
      refine drainState_keeps hregs ?_
      assumption
    clear_value x
    refine State.updSearch_keeps hsearches ?_
    refine rsetBit_keeps hregs ?_
    assumption

theorem execSearchStart_keeps (hregs : Keep.regs P) (htime : Keep.time P) (hsearches : Keep.searches P) {n} {s : State} (h : P s) {t : State} (e : execSearchStart n s = .next t) : P t := by
  obtain rfl := Host.Outcome.next.inj e
  split
  · refine Keep.ite ?_ ?_
    · extract_lets -underBinder -merge -useContext +onlyGivenNames x
      clear_value x
      refine State.updSearch_keeps hsearches ?_
      refine setState_keeps hregs ?_
      refine reach_keeps htime ?_
      assumption
    · assumption
  · assumption

theorem execSearchStop_keeps (hregs : Keep.regs P) (htime : Keep.time P) (hsearches : Keep.searches P) {n} {s : State} (h : P s) {t : State} (e : execSearchStop n s = .next t) : P t := by
  obtain rfl := Host.Outcome.next.inj e
  split
  · refine searchStopAt_keeps hregs hsearches ?_
    refine reach_keeps htime ?_
    assumption
  · assumption

theorem execGroupClose_keeps (hregs : Keep.regs P) (htime : Keep.time P) (hports : Keep.ports P) (hsearches : Keep.searches P) (hgroups : Keep.groups P) (hdetq : Keep.detq P) (heth : Keep.eth P) (hint : Keep.int P) (hstl : Keep.stl P) (hout : Keep.out P) {s : State} (h : P s) {t : State} (e : execGroupClose s = .next t) : P t := by
  obtain rfl := Host.Outcome.next.inj e
  split
  · assumption
  · extract_lets -underBinder -merge -useContext +onlyGivenNames x
    clear_value x
    refine closeGroup_keeps hregs hports hsearches hgroups hdetq heth hint hstl hout ?_
    refine reach_keeps htime ?_
    assumption

theorem updSpike_keeps (hspks : Keep.spks P) {s : State} {k} {f} (h : P s) : P (updSpike s k f) := by
  unfold updSpike
  refine Keep.set_spks hspks ?_
  assumption

theorem takeDecoder_keeps (hspks : Keep.spks P) (hfree : Keep.free P) {s : State} {k} (h : P s) : P (takeDecoder s k) := by
  unfold takeDecoder
  extract_lets -underBinder -merge -useContext +onlyGivenNames x
  clear_value x
  extract_lets -underBinder -merge -useContext +onlyGivenNames x
  clear_value x
  refine bumpFree_keeps hfree ?_
  refine updSpike_keeps hspks ?_
  assumption

theorem serveJobs_keeps (hspks : Keep.spks P) (hfree : Keep.free P) {s : State} (h : P s) : P (serveJobs s) := by
  unfold serveJobs
  extract_lets -underBinder -merge -useContext +onlyGivenNames x
  clear_value x
  extract_lets -underBinder -merge -useContext +onlyGivenNames x
  have hx : P x := by
    subst x
    refine Keep.set_spks hspks ?_
    assumption
  clear_value x
  refine Keep.foldl ?_ ?_
  · assumption
  · intro _ _ _
    refine takeDecoder_keeps hspks hfree ?_
    assumption

theorem freeSpikelet_keeps (hspks : Keep.spks P) (hholds : Keep.holds P) (hfree : Keep.free P) {s : State} {k} {keep} (h : P s) : P (freeSpikelet s k keep) := by
  unfold freeSpikelet
  extract_lets -underBinder -merge -useContext +onlyGivenNames x
  have hx : P x := by
    subst x
    split
    · split
      · refine Keep.ite ?_ ?_
        · assumption
        · refine release_keeps hholds ?_
          assumption
      · assumption
    · assumption
  clear_value x
  refine serveJobs_keeps hspks hfree ?_
  refine Keep.set_spks hspks ?_
  assumption

theorem takeSpike_keeps (hregs : Keep.regs P) (hspks : Keep.spks P) (hfree : Keep.free P) {s : State} {x1} (h : P s) : P (takeSpike s x1) := by
  unfold takeSpike
  extract_lets -underBinder -merge -useContext +onlyGivenNames x
  have hx : P x := by
    subst x
    refine Keep.set_spks hspks ?_
    assumption
  clear_value x
  extract_lets -underBinder -merge -useContext +onlyGivenNames x
  have hx : P x := by
    subst x
    refine bump_keeps hregs ?_
    assumption
  clear_value x
  refine serveJobs_keeps hspks hfree ?_
  refine Keep.ite ?_ ?_
  · refine rset_keeps hregs ?_
    assumption
  · assumption

theorem poolVerdict_keeps (hregs : Keep.regs P) (hwin : Keep.win P) (heth : Keep.eth P) (hint : Keep.int P) (hstl : Keep.stl P) (hout : Keep.out P) {s : State} {d} {origin} (h : P s) : P (poolVerdict s d origin) := by
  unfold poolVerdict
  extract_lets -underBinder -merge -useContext +onlyGivenNames x
  have hx : P x := by
    subst x
    refine evt_keeps hregs heth hint hstl hout ?_
    refine bump_keeps hregs ?_
    assumption
  clear_value x
  refine verdict_keeps hwin ?_
  assumption

theorem spkResWrite_keeps (hregs : Keep.regs P) (heth : Keep.eth P) (hint : Keep.int P) (hstl : Keep.stl P) (hout : Keep.out P) {n} {v} {s : State} (h : P s) : P (spkResWrite n v s) := by
  unfold spkResWrite
  extract_lets -underBinder -merge -useContext +onlyGivenNames x
  clear_value x
  refine Keep.ite ?_ ?_
  · refine evt_keeps hregs heth hint hstl hout ?_
    assumption
  · refine rwrite_keeps hregs ?_
    assumption

theorem spkCtlWrite_keeps (hregs : Keep.regs P) {v} {s : State} (h : P s) : P (spkCtlWrite v s) := by
  unfold spkCtlWrite
  extract_lets -underBinder -merge -useContext +onlyGivenNames x
  have hx : P x := by
    subst x
    refine rwrite_keeps hregs ?_
    assumption
  clear_value x
  extract_lets -underBinder -merge -useContext +onlyGivenNames x
  have hx : P x := by
    subst x
    refine Keep.ite ?_ ?_
    · refine Keep.foldl ?_ ?_
      · assumption
      · intro _ _ _
        refine rset_keeps hregs ?_
        assumption
    · assumption
  clear_value x
  refine Keep.ite ?_ ?_
  · refine rset_keeps hregs ?_
    assumption
  · assumption

theorem lateVerdict_keeps (hwin : Keep.win P) {s : State} {x1} (h : P s) : P (lateVerdict s x1) := by
  unfold lateVerdict
  refine Keep.ite ?_ ?_
  · refine verdict_keeps hwin ?_
    assumption
  · assumption

theorem endHeader_keeps (hregs : Keep.regs P) (hspks : Keep.spks P) (hholds : Keep.holds P) (hwin : Keep.win P) (heth : Keep.eth P) (hint : Keep.int P) (hstl : Keep.stl P) (hfree : Keep.free P) (hout : Keep.out P) {s : State} {x1} (h : P s) : P (endHeader s x1) := by
  unfold endHeader
  refine freeSpikelet_keeps hspks hholds hfree ?_
  refine evt_keeps hregs heth hint hstl hout ?_
  refine bump_keeps hregs ?_
  refine lateVerdict_keeps hwin ?_
  assumption

theorem endBlanked_keeps (hregs : Keep.regs P) (hspks : Keep.spks P) (hholds : Keep.holds P) (heth : Keep.eth P) (hint : Keep.int P) (hstl : Keep.stl P) (hfree : Keep.free P) (hout : Keep.out P) {s : State} {x1} (h : P s) : P (endBlanked s x1) := by
  unfold endBlanked
  refine freeSpikelet_keeps hspks hholds hfree ?_
  refine evt_keeps hregs heth hint hstl hout ?_
  refine bump_keeps hregs ?_
  assumption

theorem spikeBlank_keeps (hregs : Keep.regs P) (hsheaves : Keep.sheaves P) (hspks : Keep.spks P) (hholds : Keep.holds P) (heth : Keep.eth P) (hint : Keep.int P) (hstl : Keep.stl P) (hfree : Keep.free P) (hout : Keep.out P) {s : State} {n} {b5} (h : P s) : P (spikeBlank s n b5) := by
  unfold spikeBlank
  extract_lets -underBinder -merge -useContext +onlyGivenNames x
  have hx : P x := by
    subst x
    refine State.updSheaf_keeps hsheaves ?_
    assumption
  clear_value x
  refine Keep.foldl ?_ ?_
  · assumption
  · intro _ _ _
    refine endBlanked_keeps hregs hspks hholds heth hint hstl hfree hout ?_
    assumption

theorem endInteg_keeps (hregs : Keep.regs P) (hspks : Keep.spks P) (hholds : Keep.holds P) (hwin : Keep.win P) (heth : Keep.eth P) (hint : Keep.int P) (hstl : Keep.stl P) (hfree : Keep.free P) (hout : Keep.out P) {s : State} {x1} {cause} {detail} (h : P s) : P (endInteg s x1 cause detail) := by
  unfold endInteg
  extract_lets -underBinder -merge -useContext +onlyGivenNames x
  have hx : P x := by
    subst x
    refine evt_keeps hregs heth hint hstl hout ?_
    refine bump_keeps hregs ?_
    assumption
  clear_value x
  extract_lets -underBinder -merge -useContext +onlyGivenNames x
  clear_value x
  extract_lets -underBinder -merge -useContext +onlyGivenNames x
  clear_value x
  refine freeSpikelet_keeps hspks hholds hfree ?_
  refine verdict_keeps hwin ?_
  assumption

theorem endRing_keeps (hregs : Keep.regs P) (hspks : Keep.spks P) (hholds : Keep.holds P) (hwin : Keep.win P) (heth : Keep.eth P) (hflt : Keep.flt P) (hint : Keep.int P) (hstl : Keep.stl P) (hfree : Keep.free P) (hout : Keep.out P) {s : State} {x1} (h : P s) : P (endRing s x1) := by
  unfold endRing
  extract_lets -underBinder -merge -useContext +onlyGivenNames x
  clear_value x
  extract_lets -underBinder -merge -useContext +onlyGivenNames x
  have hx : P x := by
    subst x
    refine fault_keeps hregs heth hflt hint hstl hout ?_
    assumption
  clear_value x
  refine endInteg_keeps hregs hspks hholds hwin heth hint hstl hfree hout ?_
  refine bumpFree_keeps hfree ?_
  assumption

theorem endPoison_keeps (hregs : Keep.regs P) (hspks : Keep.spks P) (hholds : Keep.holds P) (hwin : Keep.win P) (heth : Keep.eth P) (hflt : Keep.flt P) (hint : Keep.int P) (hstl : Keep.stl P) (hfree : Keep.free P) (hout : Keep.out P) {s : State} {x1} {row} (h : P s) : P (endPoison s x1 row) := by
  unfold endPoison
  extract_lets -underBinder -merge -useContext +onlyGivenNames x
  clear_value x
  extract_lets -underBinder -merge -useContext +onlyGivenNames x
  clear_value x
  extract_lets -underBinder -merge -useContext +onlyGivenNames x
  have hx : P x := by
    subst x
    refine evt_keeps hregs heth hint hstl hout ?_
    refine fault_keeps hregs heth hflt hint hstl hout ?_
    assumption
  clear_value x
  refine endInteg_keeps hregs hspks hholds hwin heth hint hstl hfree hout ?_
  assumption

theorem ringErrors_keeps (hregs : Keep.regs P) (hmem : Keep.mem P) (htlm : Keep.tlm P) (heth : Keep.eth P) (hflt : Keep.flt P) (hint : Keep.int P) (hstl : Keep.stl P) (htag : Keep.tag P) (hout : Keep.out P) {s : State} {n} {upsets} (h : P s) : P (ringErrors s n upsets) := by
  unfold ringErrors
  refine Keep.foldl ?_ ?_
  · assumption
  · intro _ _ _
    refine rowError_keeps hregs hmem htlm heth hflt hint hstl htag hout ?_
    assumption

theorem loseSample_keeps (hregs : Keep.regs P) (hsheaves : Keep.sheaves P) (hspks : Keep.spks P) (hholds : Keep.holds P) (hwin : Keep.win P) (heth : Keep.eth P) (hflt : Keep.flt P) (hint : Keep.int P) (hstl : Keep.stl P) (hfree : Keep.free P) (hout : Keep.out P) {s : State} {n} {t2} (h : P s) : P (loseSample s n t2) := by
  unfold loseSample
  extract_lets -underBinder -merge -useContext +onlyGivenNames x
  clear_value x
  extract_lets -underBinder -merge -useContext +onlyGivenNames x
  have hx : P x := by
    subst x
    split
    · refine Keep.ite ?_ ?_
      · refine State.updSheaf_keeps hsheaves ?_
        assumption
      · refine fault_keeps hregs heth hflt hint hstl hout ?_
        refine State.updSheaf_keeps hsheaves ?_
        assumption
    · refine fault_keeps hregs heth hflt hint hstl hout ?_
      refine State.updSheaf_keeps hsheaves ?_
      assumption
  clear_value x
  refine Keep.foldl ?_ ?_
  · assumption
  · intro _ _ _
    split
    · refine endInteg_keeps hregs hspks hholds hwin heth hint hstl hfree hout ?_
      assumption
    · assumption

theorem storeSample_keeps (hregs : Keep.regs P) (hmem : Keep.mem P) (htlm : Keep.tlm P) (hsheaves : Keep.sheaves P) (hspks : Keep.spks P) (hholds : Keep.holds P) (hwin : Keep.win P) (heth : Keep.eth P) (hflt : Keep.flt P) (hint : Keep.int P) (hstl : Keep.stl P) (htag : Keep.tag P) (hfree : Keep.free P) (hout : Keep.out P) {s : State} {n} {row} {upsets} (h : P s) : P (storeSample s n row upsets) := by
  unfold storeSample
  extract_lets -underBinder -merge -useContext +onlyGivenNames x
  clear_value x
  extract_lets -underBinder -merge -useContext +onlyGivenNames x
  clear_value x
  extract_lets -underBinder -merge -useContext +onlyGivenNames x
  have hx : P x := by
    subst x
    refine Keep.set_flt hflt ?_
    assumption
  clear_value x
  extract_lets -underBinder -merge -useContext +onlyGivenNames x
  have hx : P x := by
    subst x
    refine State.updSheaf_keeps hsheaves ?_
    assumption
  clear_value x
  extract_lets -underBinder -merge -useContext +onlyGivenNames x
  have hx : P x := by
    subst x
    refine ringErrors_keeps hregs hmem htlm heth hflt hint hstl htag hout ?_
    assumption
  clear_value x
  extract_lets -underBinder -merge -useContext +onlyGivenNames x
  have hx : P x := by
    subst x
    refine Keep.set_spks hspks ?_
    assumption
  clear_value x
  split
  · refine Keep.foldl ?_ ?_
    · assumption
    · intro _ _ _
      refine endPoison_keeps hregs hspks hholds hwin heth hflt hint hstl hfree hout ?_
      assumption
  · assumption

theorem contribSpike_keeps (hregs : Keep.regs P) (hspks : Keep.spks P) (hwin : Keep.win P) (heth : Keep.eth P) (hint : Keep.int P) (hstl : Keep.stl P) (hfree : Keep.free P) (hout : Keep.out P) {s : State} {f} (h : P s) : P (contribSpike s f) := by
  unfold contribSpike
  extract_lets -underBinder -merge -useContext +onlyGivenNames x
  clear_value x
  extract_lets -underBinder -merge -useContext +onlyGivenNames x
  clear_value x
  extract_lets -underBinder -merge -useContext +onlyGivenNames x
  clear_value x
  refine Keep.ite ?_ ?_
  · refine takeSpike_keeps hregs hspks hfree ?_
    assumption
  · refine poolVerdict_keeps hregs hwin heth hint hstl hout ?_
    assumption

theorem meetSummary_keeps (hregs : Keep.regs P) (hspks : Keep.spks P) (hwin : Keep.win P) (husl : Keep.usl P) (heth : Keep.eth P) (hint : Keep.int P) (hstl : Keep.stl P) (hfree : Keep.free P) (hout : Keep.out P) {s : State} {f} {late} (h : P s) : P (meetSummary s f late) := by
  unfold meetSummary
  split
  · refine updSpike_keeps hspks ?_
    assumption
  · refine Keep.ite ?_ ?_
    · refine Keep.set_usl husl ?_
      assumption
    · refine Keep.ite ?_ ?_
      · refine verdict_keeps hwin ?_
        assumption
      · refine Keep.ite ?_ ?_
        · assumption
        · refine contribSpike_keeps hregs hspks hwin heth hint hstl hfree hout ?_
          assumption

theorem meetSoft_keeps (hspks : Keep.spks P) (husl : Keep.usl P) {s : State} {f} (h : P s) : P (meetSoft s f) := by
  unfold meetSoft
  split
  · refine updSpike_keeps hspks ?_
    assumption
  · refine Keep.ite ?_ ?_
    · refine Keep.set_usl husl ?_
      assumption
    · assumption

theorem retrySums_keeps (hregs : Keep.regs P) (hspks : Keep.spks P) (hwin : Keep.win P) (husl : Keep.usl P) (heth : Keep.eth P) (hint : Keep.int P) (hstl : Keep.stl P) (hfree : Keep.free P) (hout : Keep.out P) {s : State} (h : P s) : P (retrySums s) := by
  unfold retrySums
  extract_lets -underBinder -merge -useContext +onlyGivenNames x
  clear_value x
  extract_lets -underBinder -merge -useContext +onlyGivenNames x
  clear_value x
  extract_lets -underBinder -merge -useContext +onlyGivenNames x
  clear_value x
  extract_lets -underBinder -merge -useContext +onlyGivenNames x
  have hx : P x := by
    subst x
    refine Keep.foldl ?_ ?_
    · refine Keep.set_usl husl ?_
      assumption
    · intro _ _ _
      refine meetSummary_keeps hregs hspks hwin husl heth hint hstl hfree hout ?_
      assumption
  clear_value x
  refine Keep.foldl ?_ ?_
  · assumption
  · intro _ _ _
    refine meetSoft_keeps hspks husl ?_
    assumption

theorem sendSummary_keeps (hregs : Keep.regs P) (hspks : Keep.spks P) (husl : Keep.usl P) (heth : Keep.eth P) (hint : Keep.int P) (hstl : Keep.stl P) (hfree : Keep.free P) (hout : Keep.out P) {s : State} {x1} (h : P s) : P (sendSummary s x1) := by
  unfold sendSummary
  refine Keep.ite ?_ ?_
  · assumption
  · extract_lets -underBinder -merge -useContext +onlyGivenNames x
    clear_value x
    extract_lets -underBinder -merge -useContext +onlyGivenNames x
    clear_value x
    extract_lets -underBinder -merge -useContext +onlyGivenNames x
    have hx : P x := by
      subst x
      refine Keep.ite ?_ ?_
      · assumption
      · refine evt_keeps hregs heth hint hstl hout ?_
        refine bump_keeps hregs ?_
        assumption
    clear_value x
    extract_lets -underBinder -merge -useContext +onlyGivenNames x
    clear_value x
    extract_lets -underBinder -merge -useContext +onlyGivenNames x
    clear_value x
    refine updSpike_keeps hspks ?_
    refine uslSend_keeps husl hfree hout ?_
    assumption

theorem execSpikeletAllocation_keeps (hregs : Keep.regs P) (hdetq : Keep.detq P) (hspks : Keep.spks P) (hholds : Keep.holds P) (hwin : Keep.win P) (heth : Keep.eth P) (hint : Keep.int P) (hstl : Keep.stl P) (hfree : Keep.free P) (hout : Keep.out P) {s : State} (h : P s) {t : State} (e : execSpikeletAllocation s = .next t) : P t := by
  obtain rfl := Host.Outcome.next.inj e
  split
  · extract_lets -underBinder -merge -useContext +onlyGivenNames x
    have hx : P x := by
      subst x
      refine Keep.set_detq hdetq ?_
      assumption
    clear_value x
    refine Keep.ite ?_ ?_
    · extract_lets -underBinder -merge -useContext +onlyGivenNames x
      clear_value x
      extract_lets -underBinder -merge -useContext +onlyGivenNames x
      clear_value x
      extract_lets -underBinder -merge -useContext +onlyGivenNames x
      clear_value x
      extract_lets -underBinder -merge -useContext +onlyGivenNames x
      have hx : P x := by
        subst x
        refine takeSpike_keeps hregs hspks hfree ?_
        assumption
      clear_value x
      refine Keep.ite ?_ ?_
      · split
        · refine endBlanked_keeps hregs hspks hholds heth hint hstl hfree hout ?_
          assumption
        · assumption
      · assumption
    · refine poolVerdict_keeps hregs hwin heth hint hstl hout ?_
      assumption
  · assumption

theorem execChannelEstimate_keeps (hregs : Keep.regs P) (hspks : Keep.spks P) (hholds : Keep.holds P) (hwin : Keep.win P) (heth : Keep.eth P) (hflt : Keep.flt P) (hint : Keep.int P) (hstl : Keep.stl P) (hfree : Keep.free P) (hout : Keep.out P) {k} {s : State} (h : P s) {t : State} (e : execChannelEstimate k s = .next t) : P t := by
  obtain rfl := Host.Outcome.next.inj e
  split
  · assumption
  · refine Keep.ite ?_ ?_
    · assumption
    · refine Keep.ite ?_ ?_
      · refine endRing_keeps hregs hspks hholds hwin heth hflt hint hstl hfree hout ?_
        assumption
      · split
        · refine endInteg_keeps hregs hspks hholds hwin heth hint hstl hfree hout ?_
          assumption
        · extract_lets -underBinder -merge -useContext +onlyGivenNames x
          clear_value x
          split
          · refine endPoison_keeps hregs hspks hholds hwin heth hflt hint hstl hfree hout ?_
            assumption
          · extract_lets -underBinder -merge -useContext +onlyGivenNames x
            clear_value x
            refine serveJobs_keeps hspks hfree ?_
            refine updSpike_keeps hspks ?_
            assumption

theorem execHeaderDecision_keeps (hregs : Keep.regs P) (htime : Keep.time P) (hspks : Keep.spks P) (hholds : Keep.holds P) (hwin : Keep.win P) (husl : Keep.usl P) (heth : Keep.eth P) (hint : Keep.int P) (hstl : Keep.stl P) (hfree : Keep.free P) (hout : Keep.out P) {k} {t1} {s : State} (h : P s) {t : State} (e : execHeaderDecision k t1 s = .next t) : P t := by
  obtain rfl := Host.Outcome.next.inj e
  split
  · assumption
  · refine Keep.ite ?_ ?_
    · assumption
    · extract_lets -underBinder -merge -useContext +onlyGivenNames x
      have hx : P x := by
        subst x
        refine reach_keeps htime ?_
        assumption
      clear_value x
      split
      · refine retrySums_keeps hregs hspks hwin husl heth hint hstl hfree hout ?_
        refine endHeader_keeps hregs hspks hholds hwin heth hint hstl hfree hout ?_
        assumption
      · extract_lets -underBinder -merge -useContext +onlyGivenNames x
        clear_value x
        extract_lets -underBinder -merge -useContext +onlyGivenNames x
        clear_value x
        extract_lets -underBinder -merge -useContext +onlyGivenNames x
        clear_value x
        refine Keep.ite ?_ ?_
        · refine serveJobs_keeps hspks hfree ?_
          refine sendSummary_keeps hregs hspks husl heth hint hstl hfree hout ?_
          refine updSpike_keeps hspks ?_
          assumption
        · extract_lets -underBinder -merge -useContext +onlyGivenNames x
          clear_value x
          extract_lets -underBinder -merge -useContext +onlyGivenNames x
          clear_value x
          split
          · extract_lets -underBinder -merge -useContext +onlyGivenNames x
            have hx : P x := by
              subst x
              refine evt_keeps hregs heth hint hstl hout ?_
              refine bump_keeps hregs ?_
              assumption
            clear_value x
            refine retrySums_keeps hregs hspks hwin husl heth hint hstl hfree hout ?_
            refine freeSpikelet_keeps hspks hholds hfree ?_
            refine verdict_keeps hwin ?_
            assumption
          · refine serveJobs_keeps hspks hfree ?_
            refine retrySums_keeps hregs hspks hwin husl heth hint hstl hfree hout ?_
            refine sendSummary_keeps hregs hspks husl heth hint hstl hfree hout ?_
            refine updSpike_keeps hspks ?_
            refine Keep.patSome1 ?_ (by assumption)
            refine reserve_keeps hregs hholds hfree ?_
            assumption

theorem missDeadline_keeps (hregs : Keep.regs P) (htime : Keep.time P) (hspks : Keep.spks P) (hwin : Keep.win P) (heth : Keep.eth P) (hint : Keep.int P) (hstl : Keep.stl P) (hout : Keep.out P) {s : State} {x1} (h : P s) : P (missDeadline s x1) := by
  unfold missDeadline
  extract_lets -underBinder -merge -useContext +onlyGivenNames x
  have hx : P x := by
    subst x
    refine reach_keeps htime ?_
    assumption
  clear_value x
  extract_lets -underBinder -merge -useContext +onlyGivenNames x
  have hx : P x := by
    subst x
    refine updSpike_keeps hspks ?_
    refine evt_keeps hregs heth hint hstl hout ?_
    refine bump_keeps hregs ?_
    assumption
  clear_value x
  refine Keep.ite ?_ ?_
  · assumption
  · refine verdict_keeps hwin ?_
    assumption

theorem handFrame_keeps (hmem : Keep.mem P) (hspks : Keep.spks P) (hframes : Keep.frames P) (hnextFrame : Keep.nextFrame P) (hholds : Keep.holds P) (hflt : Keep.flt P) (hfree : Keep.free P) {s : State} {x1} {h2} {psdu} {good} {fm} (h : P s) : P (handFrame s x1 h2 psdu good fm) := by
  unfold handFrame
  extract_lets -underBinder -merge -useContext +onlyGivenNames x
  have hx : P x := by
    subst x
    refine writeData_keeps hmem hflt ?_
    assumption
  clear_value x
  extract_lets -underBinder -merge -useContext +onlyGivenNames x
  clear_value x
  extract_lets -underBinder -merge -useContext +onlyGivenNames x
  have hx : P x := by
    subst x
    refine passHold_keeps hholds ?_
    assumption
  clear_value x
  refine freeSpikelet_keeps hspks hholds hfree ?_
  refine Keep.set_frames_nextFrame_free hframes hnextFrame hfree ?_
  assumption

theorem checkFrame_keeps (hregs : Keep.regs P) (hmem : Keep.mem P) (hspks : Keep.spks P) (hframes : Keep.frames P) (hnextFrame : Keep.nextFrame P) (hholds : Keep.holds P) (hwin : Keep.win P) (husl : Keep.usl P) (heth : Keep.eth P) (hflt : Keep.flt P) (hint : Keep.int P) (hstl : Keep.stl P) (hfree : Keep.free P) (hout : Keep.out P) {s : State} {x1} {merge} (h : P s) : P (checkFrame s x1 merge) := by
  unfold checkFrame
  extract_lets -underBinder -merge -useContext +onlyGivenNames x
  clear_value x
  extract_lets -underBinder -merge -useContext +onlyGivenNames x
  clear_value x
  extract_lets -underBinder -merge -useContext +onlyGivenNames x
  have hx : P x := by
    subst x
    refine Keep.ite ?_ ?_
    · refine sendSoft_keeps husl hfree hout ?_
      assumption
    · assumption
  clear_value x
  refine Keep.ite ?_ ?_
  · refine freeSpikelet_keeps hspks hholds hfree ?_
    assumption
  · extract_lets -underBinder -merge -useContext +onlyGivenNames x
    clear_value x
    refine Keep.ite ?_ ?_
    · refine endHeader_keeps hregs hspks hholds hwin heth hint hstl hfree hout ?_
      assumption
    · extract_lets -underBinder -merge -useContext +onlyGivenNames x
      clear_value x
      extract_lets -underBinder -merge -useContext +onlyGivenNames x
      clear_value x
      extract_lets -underBinder -merge -useContext +onlyGivenNames x
      have hx : P x := by
        subst x
        refine Keep.ite ?_ ?_
        · assumption
        · refine evt_keeps hregs heth hint hstl hout ?_
          refine bump_keeps hregs ?_
          assumption
      clear_value x
      split
      · refine freeSpikelet_keeps hspks hholds hfree ?_
        assumption
      · refine Keep.ite ?_ ?_
        · refine freeSpikelet_keeps hspks hholds hfree ?_
          refine lateVerdict_keeps hwin ?_
          assumption
        · refine handFrame_keeps hmem hspks hframes hnextFrame hholds hflt hfree ?_
          assumption

theorem execFrameCheck_keeps (hregs : Keep.regs P) (hmem : Keep.mem P) (htlm : Keep.tlm P) (htime : Keep.time P) (hspks : Keep.spks P) (hframes : Keep.frames P) (hnextFrame : Keep.nextFrame P) (hholds : Keep.holds P) (hwin : Keep.win P) (husl : Keep.usl P) (heth : Keep.eth P) (hflt : Keep.flt P) (hint : Keep.int P) (hstl : Keep.stl P) (htag : Keep.tag P) (hfree : Keep.free P) (hout : Keep.out P) {k} {t1} {dec} {merge} {upsets} {s : State} (h : P s) {t : State} (e : execFrameCheck k t1 dec merge upsets s = .next t) : P t := by
  unfold execFrameCheck at e
  split at e
  · cases e
  · obtain rfl := Host.Outcome.next.inj e
    split
    · assumption
    · refine Keep.ite ?_ ?_
      · assumption
      · extract_lets -underBinder -merge -useContext +onlyGivenNames x
        have hx : P x := by
          subst x
          refine ringErrors_keeps hregs hmem htlm heth hflt hint hstl htag hout ?_
          assumption
        clear_value x
        split
        · refine endPoison_keeps hregs hspks hholds hwin heth hflt hint hstl hfree hout ?_
          assumption
        · extract_lets -underBinder -merge -useContext +onlyGivenNames x
          have hx : P x := by
            subst x
            refine Keep.ite ?_ ?_
            · refine missDeadline_keeps hregs htime hspks hwin heth hint hstl hout ?_
              assumption
            · assumption
          clear_value x
          extract_lets -underBinder -merge -useContext +onlyGivenNames x
          have hx : P x := by
            subst x
            refine reach_keeps htime ?_
            assumption
          clear_value x
          extract_lets -underBinder -merge -useContext +onlyGivenNames x
          have hx : P x := by
            subst x
            refine Keep.ite ?_ ?_
            · refine updSpike_keeps hspks ?_
              assumption
            · assumption
          clear_value x
          split
          · refine checkFrame_keeps hregs hmem hspks hframes hnextFrame hholds hwin husl heth hflt hint hstl hfree hout ?_
            assumption
          · assumption

theorem execDecoderDeadlineMiss_keeps (hregs : Keep.regs P) (htime : Keep.time P) (hspks : Keep.spks P) (hwin : Keep.win P) (heth : Keep.eth P) (hint : Keep.int P) (hstl : Keep.stl P) (hout : Keep.out P) {k} {s : State} (h : P s) {t : State} (e : execDecoderDeadlineMiss k s = .next t) : P t := by
  obtain rfl := Host.Outcome.next.inj e
  split
  · refine Keep.ite ?_ ?_
    · refine missDeadline_keeps hregs htime hspks hwin heth hint hstl hout ?_
      assumption
    · assumption
  · assumption

theorem execRingOverrun_keeps (hregs : Keep.regs P) (hspks : Keep.spks P) (hholds : Keep.holds P) (hwin : Keep.win P) (heth : Keep.eth P) (hflt : Keep.flt P) (hint : Keep.int P) (hstl : Keep.stl P) (hfree : Keep.free P) (hout : Keep.out P) {k} {s : State} (h : P s) {t : State} (e : execRingOverrun k s = .next t) : P t := by
  obtain rfl := Host.Outcome.next.inj e
  split
  · refine Keep.ite ?_ ?_
    · refine endRing_keeps hregs hspks hholds hwin heth hflt hint hstl hfree hout ?_
      assumption
    · assumption
  · assumption

theorem execReservationWrite_keeps (hregs : Keep.regs P) (heth : Keep.eth P) (hint : Keep.int P) (hstl : Keep.stl P) (hout : Keep.out P) {x1} {n} {v} {s : State} (h : P s) {t : State} (e : execReservationWrite x1 n v s = .next t) : P t := by
  obtain rfl := Host.Outcome.next.inj e
  refine spkResWrite_keeps hregs heth hint hstl hout ?_
  assumption

theorem execSummaryReceive_keeps (hregs : Keep.regs P) (htime : Keep.time P) (hspks : Keep.spks P) (hwin : Keep.win P) (husl : Keep.usl P) (heth : Keep.eth P) (hint : Keep.int P) (hstl : Keep.stl P) (hfree : Keep.free P) (hout : Keep.out P) {f} {s : State} (h : P s) {t : State} (e : execSummaryReceive f s = .next t) : P t := by
  obtain rfl := Host.Outcome.next.inj e
  refine Keep.ite ?_ ?_
  · assumption
  · extract_lets -underBinder -merge -useContext +onlyGivenNames x
    have hx : P x := by
      subst x
      refine reach_keeps htime ?_
      assumption
    clear_value x
    extract_lets -underBinder -merge -useContext +onlyGivenNames x
    clear_value x
    extract_lets -underBinder -merge -useContext +onlyGivenNames x
    have hx : P x := by
      subst x
      refine Keep.ite ?_ ?_
      · refine evt_keeps hregs heth hint hstl hout ?_
        refine bump_keeps hregs ?_
        assumption
      · assumption
    clear_value x
    refine meetSummary_keeps hregs hspks hwin husl heth hint hstl hfree hout ?_
    assumption

theorem execSoftReceive_keeps (hspks : Keep.spks P) (husl : Keep.usl P) {f} {s : State} (h : P s) {t : State} (e : execSoftReceive f s = .next t) : P t := by
  obtain rfl := Host.Outcome.next.inj e
  refine meetSoft_keeps hspks husl ?_
  assumption

theorem execMergeBound_keeps (hregs : Keep.regs P) (htime : Keep.time P) (hspks : Keep.spks P) (heth : Keep.eth P) (hint : Keep.int P) (hstl : Keep.stl P) (hout : Keep.out P) {k} {s : State} (h : P s) {t : State} (e : execMergeBound k s = .next t) : P t := by
  obtain rfl := Host.Outcome.next.inj e
  split
  · refine Keep.ite ?_ ?_
    · extract_lets -underBinder -merge -useContext +onlyGivenNames x
      have hx : P x := by
        subst x
        refine updSpike_keeps hspks ?_
        refine reach_keeps htime ?_
        assumption
      clear_value x
      refine Keep.ite ?_ ?_
      · assumption
      · refine evt_keeps hregs heth hint hstl hout ?_
        refine bump_keeps hregs ?_
        assumption
    · assumption
  · assumption

theorem portSample_keeps (hregs : Keep.regs P) (hports : Keep.ports P) {n} {t1} {s : State} {e3} (h : P s) : P (portSample n t1 s e3) := by
  unfold portSample
  extract_lets -underBinder -merge -useContext +onlyGivenNames x
  clear_value x
  refine Keep.ite ?_ ?_
  · extract_lets -underBinder -merge -useContext +onlyGivenNames x
    have hx : P x := by
      subst x
      refine adcSample_keeps hregs hports ?_
      assumption
    clear_value x
    refine Keep.ite ?_ ?_
    · assumption
    · refine dcStep_keeps hregs hports ?_
      assumption
  · assumption

theorem execSampleCapture_keeps (hregs : Keep.regs P) (hmem : Keep.mem P) (htlm : Keep.tlm P) (htime : Keep.time P) (hports : Keep.ports P) (hsheaves : Keep.sheaves P) (hgroups : Keep.groups P) (hspks : Keep.spks P) (hholds : Keep.holds P) (hwin : Keep.win P) (heth : Keep.eth P) (hflt : Keep.flt P) (hint : Keep.int P) (hstl : Keep.stl P) (htag : Keep.tag P) (hfree : Keep.free P) (hout : Keep.out P) {n} {samples} {cands} {s : State} (h : P s) {t : State} (e : execSampleCapture n samples cands s = .next t) : P t := by
  unfold execSampleCapture at e
  split at e
  · cases e
  · obtain rfl := Host.Outcome.next.inj e
    refine Keep.ite ?_ ?_
    · assumption
    · extract_lets -underBinder -merge -useContext +onlyGivenNames x
      clear_value x
      refine Keep.ite ?_ ?_
      · assumption
      · extract_lets -underBinder -merge -useContext +onlyGivenNames x
        have hx : P x := by
          subst x
          refine recipTurn_keeps hregs hports ?_
          refine reach_keeps htime ?_
          assumption
        clear_value x
        extract_lets -underBinder -merge -useContext +onlyGivenNames x
        have hx : P x := by
          subst x
          refine Keep.foldl ?_ ?_
          · assumption
          · intro _ _ _
            refine portSample_keeps hregs hports ?_
            assumption
        clear_value x
        extract_lets -underBinder -merge -useContext +onlyGivenNames x
        clear_value x
        extract_lets -underBinder -merge -useContext +onlyGivenNames x
        clear_value x
        extract_lets -underBinder -merge -useContext +onlyGivenNames x
        have hx : P x := by
          subst x
          refine State.updSheaf_keeps hsheaves ?_
          assumption
        clear_value x
        extract_lets -underBinder -merge -useContext +onlyGivenNames x
        have hx : P x := by
          subst x
          refine Keep.ite ?_ ?_
          · refine storeSample_keeps hregs hmem htlm hsheaves hspks hholds hwin heth hflt hint hstl htag hfree hout ?_
            assumption
          · refine loseSample_keeps hregs hsheaves hspks hholds hwin heth hflt hint hstl hfree hout ?_
            assumption
        clear_value x
        refine Keep.ite ?_ ?_
        · refine Keep.foldl ?_ ?_
          · assumption
          · intro _ _ _
            refine offerCandidate_keeps hgroups ?_
            assumption
        · assumption

theorem rtcLock_keeps (hregs : Keep.regs P) (heth : Keep.eth P) (hrtc : Keep.rtc P) (hint : Keep.int P) (hstl : Keep.stl P) (hout : Keep.out P) {s : State} (h : P s) : P (rtcLock s) := by
  unfold rtcLock
  extract_lets -underBinder -merge -useContext +onlyGivenNames x
  have hx : P x := by
    subst x
    refine rsetBit_keeps hregs ?_
    assumption
  clear_value x
  refine Keep.ite ?_ ?_
  · extract_lets -underBinder -merge -useContext +onlyGivenNames x
    clear_value x
    extract_lets -underBinder -merge -useContext +onlyGivenNames x
    have hx : P x := by
      subst x
      refine Keep.set_rtc hrtc ?_
      assumption
    clear_value x
    refine evt_keeps hregs heth hint hstl hout ?_
    refine rsetFld_keeps hregs ?_
    assumption
  · assumption

theorem rtcToVbak_keeps (hregs : Keep.regs P) (hrtc : Keep.rtc P) {s : State} (h : P s) : P (rtcToVbak s) := by
  unfold rtcToVbak
  refine Keep.ite ?_ ?_
  · assumption
  · extract_lets -underBinder -merge -useContext +onlyGivenNames x
    clear_value x
    extract_lets -underBinder -merge -useContext +onlyGivenNames x
    have hx : P x := by
      subst x
      refine Keep.set_rtc hrtc ?_
      assumption
    clear_value x
    refine rsetGroup_keeps hregs ?_
    assumption

theorem rtcToMain_keeps (hrtc : Keep.rtc P) {s : State} (h : P s) : P (rtcToMain s) := by
  unfold rtcToMain
  refine Keep.set_rtc hrtc ?_
  assumption

theorem tampSet_keeps (hregs : Keep.regs P) (heth : Keep.eth P) (hint : Keep.int P) (hstl : Keep.stl P) (hout : Keep.out P) {s : State} {b} (h : P s) : P (tampSet s b) := by
  unfold tampSet
  extract_lets -underBinder -merge -useContext +onlyGivenNames x
  have hx : P x := by
    subst x
    refine rsetBit_keeps hregs ?_
    assumption
  clear_value x
  extract_lets -underBinder -merge -useContext +onlyGivenNames x
  have hx : P x := by
    subst x
    refine Keep.foldl ?_ ?_
    · assumption
    · intro _ _ _
      refine rset_keeps hregs ?_
      assumption
  clear_value x
  refine evt_keeps hregs heth hint hstl hout ?_
  assumption

theorem calPut_keeps (hregs : Keep.regs P) {s : State} {c} (h : P s) : P (calPut s c) := by
  unfold calPut
  refine Keep.foldl ?_ ?_
  · assumption
  · intro _ _ _
    refine rset_keeps hregs ?_
    assumption

theorem dropRosemary_keeps (hlatches : Keep.latches P) (hstaged : Keep.staged P) {s : State} (h : P s) : P (dropRosemary s) := by
  unfold dropRosemary
  refine Keep.set_latches_staged hlatches hstaged ?_
  assumption

theorem brownOut_keeps (hregs : Keep.regs P) (hlatches : Keep.latches P) (hstaged : Keep.staged P) (heth : Keep.eth P) (hrtc : Keep.rtc P) (hint : Keep.int P) (hstl : Keep.stl P) (hout : Keep.out P) {s : State} (h : P s) : P (brownOut s) := by
  unfold brownOut
  extract_lets -underBinder -merge -useContext +onlyGivenNames x
  have hx : P x := by
    subst x
    refine calPut_keeps hregs ?_
    refine dropRosemary_keeps hlatches hstaged ?_
    assumption
  clear_value x
  extract_lets -underBinder -merge -useContext +onlyGivenNames x
  have hx : P x := by
    subst x
    refine rsetBit_keeps hregs ?_
    assumption
  clear_value x
  extract_lets -underBinder -merge -useContext +onlyGivenNames x
  have hx : P x := by
    subst x
    refine rset_keeps hregs ?_
    assumption
  clear_value x
  extract_lets -underBinder -merge -useContext +onlyGivenNames x
  have hx : P x := by
    subst x
    refine rsetGroup_keeps hregs ?_
    refine rset_keeps hregs ?_
    assumption
  clear_value x
  extract_lets -underBinder -merge -useContext +onlyGivenNames x
  have hx : P x := by
    subst x
    refine rsetGroup_keeps hregs ?_
    assumption
  clear_value x
  extract_lets -underBinder -merge -useContext +onlyGivenNames x
  clear_value x
  extract_lets -underBinder -merge -useContext +onlyGivenNames x
  have hx : P x := by
    subst x
    refine Keep.set_rtc hrtc ?_
    assumption
  clear_value x
  refine tampSet_keeps hregs heth hint hstl hout ?_
  refine rtcLock_keeps hregs heth hrtc hint hstl hout ?_
  assumption

theorem subAdvance_keeps (hregs : Keep.regs P) (heth : Keep.eth P) (hrtc : Keep.rtc P) (hint : Keep.int P) (hstl : Keep.stl P) (hfree : Keep.free P) (hout : Keep.out P) {s : State} (h : P s) : P (subAdvance s) := by
  unfold subAdvance
  refine Keep.ite ?_ ?_
  · assumption
  · extract_lets -underBinder -merge -useContext +onlyGivenNames x
    clear_value x
    extract_lets -underBinder -merge -useContext +onlyGivenNames x
    clear_value x
    extract_lets -underBinder -merge -useContext +onlyGivenNames x
    clear_value x
    extract_lets -underBinder -merge -useContext +onlyGivenNames x
    have hx : P x := by
      subst x
      refine Keep.set_rtc hrtc ?_
      assumption
    clear_value x
    extract_lets -underBinder -merge -useContext +onlyGivenNames x
    clear_value x
    refine Keep.ite ?_ ?_
    · refine calPut_keeps hregs ?_
      assumption
    · extract_lets -underBinder -merge -useContext +onlyGivenNames x
      clear_value x
      extract_lets -underBinder -merge -useContext +onlyGivenNames x
      have hx : P x := by
        subst x
        refine calPut_keeps hregs ?_
        assumption
      clear_value x
      extract_lets -underBinder -merge -useContext +onlyGivenNames x
      have hx : P x := by
        subst x
        refine Keep.ite ?_ ?_
        · refine rsetBit_keeps hregs ?_
          assumption
        · assumption
      clear_value x
      extract_lets -underBinder -merge -useContext +onlyGivenNames x
      have hx : P x := by
        subst x
        refine Keep.ite ?_ ?_
        · refine bumpFree_keeps hfree ?_
          refine rset_keeps hregs ?_
          assumption
        · assumption
      clear_value x
      refine evt_keeps hregs heth hint hstl hout ?_
      refine Keep.set_rtc hrtc ?_
      assumption

theorem calCommit_keeps (hregs : Keep.regs P) (hrtc : Keep.rtc P) {s : State} {ws} (h : P s) : P (calCommit s ws) := by
  unfold calCommit
  extract_lets -underBinder -merge -useContext +onlyGivenNames x
  clear_value x
  refine Keep.ite ?_ ?_
  · extract_lets -underBinder -merge -useContext +onlyGivenNames x
    have hx : P x := by
      subst x
      refine calPut_keeps hregs ?_
      assumption
    clear_value x
    refine rsetBit_keeps hregs ?_
    refine Keep.set_rtc hrtc ?_
    assumption
  · refine rsetBit_keeps hregs ?_
    assumption

theorem rtcWrite_keeps (hregs : Keep.regs P) (hstaged : Keep.staged P) (hrtc : Keep.rtc P) {i} {lvl} {a} {v} {s : State} (h : P s) : P (rtcWrite i lvl a v s) := by
  unfold rtcWrite
  refine Keep.ite ?_ ?_
  · refine Keep.ite ?_ ?_
    · refine rsetBit_keeps hregs ?_
      assumption
    · assumption
  · refine Keep.ite ?_ ?_
    · assumption
    · refine Keep.ite ?_ ?_
      · refine Keep.ite ?_ ?_
        · refine rwrite_keeps hregs ?_
          assumption
        · assumption
      · refine Keep.ite ?_ ?_
        · refine calCommit_keeps hregs hrtc ?_
          refine clearStaged_keeps hstaged ?_
          assumption
        · refine Keep.ite ?_ ?_
          · extract_lets -underBinder -merge -useContext +onlyGivenNames x
            have hx : P x := by
              subst x
              refine groupWrite_keeps hregs hstaged ?_
              assumption
            clear_value x
            refine Keep.set_rtc hrtc ?_
            assumption
          · refine Keep.ite ?_ ?_
            · extract_lets -underBinder -merge -useContext +onlyGivenNames x
              have hx : P x := by
                subst x
                refine rwrite_keeps hregs ?_
                assumption
              clear_value x
              refine Keep.ite ?_ ?_
              · refine rsetFld_keeps hregs ?_
                refine Keep.set_rtc hrtc ?_
                assumption
              · assumption
            · refine Keep.ite ?_ ?_
              · refine groupWrite_keeps hregs hstaged ?_
                assumption
              · refine rwrite_keeps hregs ?_
                assumption

theorem execMainSupplyReturn_keeps (hrtc : Keep.rtc P) {s : State} (h : P s) {t : State} (e : execMainSupplyReturn s = .next t) : P t := by
  obtain rfl := Host.Outcome.next.inj e
  refine rtcToMain_keeps hrtc ?_
  assumption

theorem execRtcUnlock_keeps (hregs : Keep.regs P) (hstaged : Keep.staged P) (hrtc : Keep.rtc P) {i} {v} {s : State} (h : P s) {t : State} (e : execRtcUnlock i v s = .next t) : P t := by
  obtain rfl := Host.Outcome.next.inj e
  refine rtcWrite_keeps hregs hstaged hrtc ?_
  assumption

theorem execBrownOut_keeps (hregs : Keep.regs P) (hlatches : Keep.latches P) (hstaged : Keep.staged P) (heth : Keep.eth P) (hrtc : Keep.rtc P) (hint : Keep.int P) (hstl : Keep.stl P) (hout : Keep.out P) {s : State} (h : P s) {t : State} (e : execBrownOut s = .next t) : P t := by
  obtain rfl := Host.Outcome.next.inj e
  refine Keep.ite ?_ ?_
  · refine brownOut_keeps hregs hlatches hstaged heth hrtc hint hstl hout ?_
    assumption
  · assumption

theorem execVbakLowOnMain_keeps (hregs : Keep.regs P) {s : State} (h : P s) {t : State} (e : execVbakLowOnMain s = .next t) : P t := by
  obtain rfl := Host.Outcome.next.inj e
  refine Keep.ite ?_ ?_
  · assumption
  · refine rsetBit_keeps hregs ?_
    assumption

theorem execSubAdvance_keeps (hregs : Keep.regs P) (heth : Keep.eth P) (hrtc : Keep.rtc P) (hint : Keep.int P) (hstl : Keep.stl P) (hfree : Keep.free P) (hout : Keep.out P) {s : State} (h : P s) {t : State} (e : execSubAdvance s = .next t) : P t := by
  obtain rfl := Host.Outcome.next.inj e
  refine subAdvance_keeps hregs heth hrtc hint hstl hfree hout ?_
  assumption

theorem execCalendarCommit_keeps (hregs : Keep.regs P) (hstaged : Keep.staged P) (hrtc : Keep.rtc P) {i} {v} {s : State} (h : P s) {t : State} (e : execCalendarCommit i v s = .next t) : P t := by
  obtain rfl := Host.Outcome.next.inj e
  refine rtcWrite_keeps hregs hstaged hrtc ?_
  assumption

theorem execWeekdayWrite_keeps (hregs : Keep.regs P) (hstaged : Keep.staged P) (hrtc : Keep.rtc P) {i} {v} {s : State} (h : P s) {t : State} (e : execWeekdayWrite i v s = .next t) : P t := by
  obtain rfl := Host.Outcome.next.inj e
  refine rtcWrite_keeps hregs hstaged hrtc ?_
  assumption

theorem execPeriodicWake_keeps (hregs : Keep.regs P) (heth : Keep.eth P) (hrtc : Keep.rtc P) (hint : Keep.int P) (hstl : Keep.stl P) (hout : Keep.out P) {s : State} (h : P s) {t : State} (e : execPeriodicWake s = .next t) : P t := by
  obtain rfl := Host.Outcome.next.inj e
  extract_lets -underBinder -merge -useContext +onlyGivenNames x
  clear_value x
  refine Keep.ite ?_ ?_
  · assumption
  · extract_lets -underBinder -merge -useContext +onlyGivenNames x
    clear_value x
    extract_lets -underBinder -merge -useContext +onlyGivenNames x
    clear_value x
    extract_lets -underBinder -merge -useContext +onlyGivenNames x
    have hx : P x := by
      subst x
      refine Keep.set_rtc_out hrtc hout ?_
      assumption
    clear_value x
    refine evt_keeps hregs heth hint hstl hout ?_
    assumption

theorem execTrimMeasureStart_keeps (hregs : Keep.regs P) (hstaged : Keep.staged P) (hrtc : Keep.rtc P) {i} {v} {s : State} (h : P s) {t : State} (e : execTrimMeasureStart i v s = .next t) : P t := by
  obtain rfl := Host.Outcome.next.inj e
  refine rtcWrite_keeps hregs hstaged hrtc ?_
  assumption

theorem execTrimMeasureEnd_keeps (hregs : Keep.regs P) (heth : Keep.eth P) (hrtc : Keep.rtc P) (hint : Keep.int P) (hstl : Keep.stl P) (hout : Keep.out P) {raw} {s : State} (h : P s) {t : State} (e : execTrimMeasureEnd raw s = .next t) : P t := by
  obtain rfl := Host.Outcome.next.inj e
  refine Keep.ite ?_ ?_
  · assumption
  · extract_lets -underBinder -merge -useContext +onlyGivenNames x
    clear_value x
    extract_lets -underBinder -merge -useContext +onlyGivenNames x
    have hx : P x := by
      subst x
      refine Keep.set_rtc hrtc ?_
      assumption
    clear_value x
    split
    · refine Keep.ite ?_ ?_
      · refine evt_keeps hregs heth hint hstl hout ?_
        refine rsetFld_keeps hregs ?_
        assumption
      · extract_lets -underBinder -merge -useContext +onlyGivenNames x
        clear_value x
        extract_lets -underBinder -merge -useContext +onlyGivenNames x
        have hx : P x := by
          subst x
          refine rset_keeps hregs ?_
          refine rsetFld_keeps hregs ?_
          assumption
        clear_value x
        refine evt_keeps hregs heth hint hstl hout ?_
        refine Keep.ite ?_ ?_
        · refine rset_keeps hregs ?_
          assumption
        · assumption
    · refine evt_keeps hregs heth hint hstl hout ?_
      refine rsetFld_keeps hregs ?_
      assumption

theorem execTamper_keeps (hregs : Keep.regs P) (heth : Keep.eth P) (hint : Keep.int P) (hstl : Keep.stl P) (hout : Keep.out P) {b} {s : State} (h : P s) {t : State} (e : execTamper b s = .next t) : P t := by
  obtain rfl := Host.Outcome.next.inj e
  refine tampSet_keeps hregs heth hint hstl hout ?_
  assumption

theorem fenceRefuse_keeps (hregs : Keep.regs P) (heth : Keep.eth P) (hint : Keep.int P) (hstl : Keep.stl P) (hout : Keep.out P) {s : State} {init} {lvl} {kind} {a} {reason} (h : P s) : P (fenceRefuse s init lvl kind a reason) := by
  unfold fenceRefuse
  extract_lets -underBinder -merge -useContext +onlyGivenNames x
  have hx : P x := by
    subst x
    refine bump_keeps hregs ?_
    assumption
  clear_value x
  extract_lets -underBinder -merge -useContext +onlyGivenNames x
  have hx : P x := by
    subst x
    refine Keep.ite ?_ ?_
    · assumption
    · refine rset_keeps hregs ?_
      refine rsetGroup_keeps hregs ?_
      assumption
  clear_value x
  refine evt_keeps hregs heth hint hstl hout ?_
  assumption

theorem fenceCheck_keeps (hregs : Keep.regs P) (heth : Keep.eth P) (hint : Keep.int P) (hstl : Keep.stl P) (hout : Keep.out P) {s : State} {core} {init} {lvl} {kind} {a} (h : P s) : P (fenceCheck s core init lvl kind a).2 := by
  unfold fenceCheck
  split
  · dsimp -zeta only
    assumption
  · dsimp -zeta only
    refine fenceRefuse_keeps hregs heth hint hstl hout ?_
    assumption

theorem fenceCommit_keeps (hregs : Keep.regs P) (hfence : Keep.fence P) (heth : Keep.eth P) (hint : Keep.int P) (hstl : Keep.stl P) (hout : Keep.out P) {s : State} (h : P s) : P (fenceCommit s) := by
  unfold fenceCommit
  extract_lets -underBinder -merge -useContext +onlyGivenNames x
  clear_value x
  split
  · refine evt_keeps hregs heth hint hstl hout ?_
    refine rsetFld_keeps hregs ?_
    refine rsetFld_keeps hregs ?_
    assumption
  · extract_lets -underBinder -merge -useContext +onlyGivenNames x
    clear_value x
    extract_lets -underBinder -merge -useContext +onlyGivenNames x
    have hx : P x := by
      subst x
      refine Keep.set_fence hfence ?_
      assumption
    clear_value x
    refine evt_keeps hregs heth hint hstl hout ?_
    refine bump_keeps hregs ?_
    refine rsetBit_keeps hregs ?_
    refine rsetFld_keeps hregs ?_
    assumption

theorem fenCommitWrite_keeps (hregs : Keep.regs P) (hfence : Keep.fence P) (heth : Keep.eth P) (hint : Keep.int P) (hstl : Keep.stl P) (hout : Keep.out P) {v} {s : State} (h : P s) : P (fenCommitWrite v s) := by
  unfold fenCommitWrite
  refine Keep.ite ?_ ?_
  · refine fenceCommit_keeps hregs hfence heth hint hstl hout ?_
    assumption
  · assumption

theorem fenceStage_keeps (hregs : Keep.regs P) {s : State} {ds} (h : P s) : P (fenceStage s ds) := by
  unfold fenceStage
  refine Keep.foldl ?_ ?_
  · assumption
  · intro _ _ _
    extract_lets -underBinder -merge -useContext +onlyGivenNames x
    clear_value x
    refine rset_keeps hregs ?_
    refine rset_keeps hregs ?_
    refine rsetGroup_keeps hregs ?_
    refine rsetGroup_keeps hregs ?_
    assumption

theorem execFenceCommit_keeps (hregs : Keep.regs P) (hfence : Keep.fence P) (heth : Keep.eth P) (hint : Keep.int P) (hstl : Keep.stl P) (hout : Keep.out P) {i} {v} {s : State} (h : P s) {t : State} (e : execFenceCommit i v s = .next t) : P t := by
  obtain rfl := Host.Outcome.next.inj e
  refine Keep.ite ?_ ?_
  · refine fenCommitWrite_keeps hregs hfence heth hint hstl hout ?_
    assumption
  · refine fenceRefuse_keeps hregs heth hint hstl hout ?_
    assumption

theorem flashPut_keeps (hflash : Keep.flash P) {s : State} {a} {o} (h : P s) : P (flashPut s a o) := hflash _ _ (BMap.wf_setOctets o a) h

theorem flashProgram_keeps (hflash : Keep.flash P) {s : State} {a} {o} (h : P s) : P (flashProgram s a o) := by
  unfold flashProgram
  refine flashPut_keeps hflash ?_
  assumption

theorem flashErase_keeps (hflash : Keep.flash P) {s : State} {a} {n} (h : P s) : P (flashErase s a n) := hflash _ _ (BMap.wf_filter _) h

theorem setMark_keeps (hflash : Keep.flash P) {s : State} {b} {k} (h : P s) : P (setMark s b k) := by
  unfold setMark
  refine flashProgram_keeps hflash ?_
  assumption

theorem xspEnd_keeps (hregs : Keep.regs P) (heth : Keep.eth P) (hxsp : Keep.xsp P) (hint : Keep.int P) (hstl : Keep.stl P) (hout : Keep.out P) {s : State} {res} (h : P s) : P (xspEnd s res) := by
  unfold xspEnd
  extract_lets -underBinder -merge -useContext +onlyGivenNames x
  subst x
  extract_lets -underBinder -merge -useContext +onlyGivenNames x
  have hx : P x := by
    subst x
    refine Keep.set_xsp hxsp ?_ ?_
    · assumption
    · first | rfl | exact fun w => w | exact SMap.wf_filter _ | exact fun _ => rfl | rfl
  clear_value x
  refine setEvt_keeps hregs heth hint hstl hout ?_
  refine rsetFld_keeps hregs ?_
  refine rsetBit_keeps hregs ?_
  assumption

theorem xspGo_keeps (hregs : Keep.regs P) (heth : Keep.eth P) (hxsp : Keep.xsp P) (hint : Keep.int P) (hstl : Keep.stl P) (hout : Keep.out P) {i} {lvl} {v} {s : State} (h : P s) : P (xspGo i lvl v s) := by
  unfold xspGo
  refine Keep.ite ?_ ?_
  · assumption
  · extract_lets -underBinder -merge -useContext +onlyGivenNames x
    clear_value x
    extract_lets -underBinder -merge -useContext +onlyGivenNames x
    clear_value x
    extract_lets -underBinder -merge -useContext +onlyGivenNames x
    clear_value x
    split
    · refine xspEnd_keeps hregs heth hxsp hint hstl hout ?_
      assumption
    · refine rsetBit_keeps hregs ?_
      refine Keep.set_xsp hxsp ?_ ?_
      · assumption
      · rfl

theorem breakRange_keeps (hflash : Keep.flash P) (hfree : Keep.free P) {s : State} {a} {new} (h : P s) : P (breakRange s a new) := by
  unfold breakRange
  extract_lets -underBinder -merge -useContext +onlyGivenNames x
  clear_value x
  refine bumpFree_keeps hfree ?_
  refine flashPut_keeps hflash ?_
  assumption

theorem xspInterrupt_keeps (hxsp : Keep.xsp P) (hflash : Keep.flash P) (hfree : Keep.free P) {s : State} (h : P s) : P (xspInterrupt s) := by
  unfold xspInterrupt
  split
  · assumption
  · extract_lets -underBinder -merge -useContext +onlyGivenNames x
    subst x
    extract_lets -underBinder -merge -useContext +onlyGivenNames x
    have hx : P x := by
      subst x
      refine Keep.set_xsp hxsp ?_ ?_
      · assumption
      · first | rfl | exact fun w => w | exact SMap.wf_filter _ | exact fun _ => rfl | rfl
    clear_value x
    refine Keep.ite ?_ ?_
    · assumption
    · refine Keep.ite ?_ ?_
      · refine breakRange_keeps hflash hfree ?_
        assumption
      · refine breakRange_keeps hflash hfree ?_
        assumption

theorem breakTarget_keeps (hflash : Keep.flash P) (hfree : Keep.free P) {s : State} (h : P s) : P (breakTarget s) := by
  unfold breakTarget
  split
  · extract_lets -underBinder -merge -useContext +onlyGivenNames x
    clear_value x
    refine bumpFree_keeps hfree ?_
    refine flashPut_keeps hflash ?_
    assumption
  · assumption

theorem execFlashRead_keeps (hregs : Keep.regs P) (heth : Keep.eth P) (hxsp : Keep.xsp P) (hint : Keep.int P) (hstl : Keep.stl P) (hout : Keep.out P) {i} {s : State} (h : P s) {t : State} (e : execFlashRead i s = .next t) : P t := by
  obtain rfl := Host.Outcome.next.inj e
  refine xspGo_keeps hregs heth hxsp hint hstl hout ?_
  assumption

theorem execProgram_keeps (hregs : Keep.regs P) (heth : Keep.eth P) (hxsp : Keep.xsp P) (hint : Keep.int P) (hstl : Keep.stl P) (hout : Keep.out P) {i} {s : State} (h : P s) {t : State} (e : execProgram i s = .next t) : P t := by
  obtain rfl := Host.Outcome.next.inj e
  refine xspGo_keeps hregs heth hxsp hint hstl hout ?_
  assumption

theorem execErase4k_keeps (hregs : Keep.regs P) (heth : Keep.eth P) (hxsp : Keep.xsp P) (hint : Keep.int P) (hstl : Keep.stl P) (hout : Keep.out P) {i} {s : State} (h : P s) {t : State} (e : execErase4k i s = .next t) : P t := by
  obtain rfl := Host.Outcome.next.inj e
  refine xspGo_keeps hregs heth hxsp hint hstl hout ?_
  assumption

theorem execErase64k_keeps (hregs : Keep.regs P) (heth : Keep.eth P) (hxsp : Keep.xsp P) (hint : Keep.int P) (hstl : Keep.stl P) (hout : Keep.out P) {i} {s : State} (h : P s) {t : State} (e : execErase64k i s = .next t) : P t := by
  obtain rfl := Host.Outcome.next.inj e
  refine xspGo_keeps hregs heth hxsp hint hstl hout ?_
  assumption

theorem fillSlot_keeps (hregs : Keep.regs P) (hkey : Keep.key P) {s : State} {k} {key} {inst3} {depth} {use} (h : P s) : P (fillSlot s k key inst3 depth use) := by
  unfold fillSlot
  extract_lets -underBinder -merge -useContext +onlyGivenNames x
  clear_value x
  extract_lets -underBinder -merge -useContext +onlyGivenNames x
  clear_value x
  extract_lets -underBinder -merge -useContext +onlyGivenNames x
  have hx : P x := by
    subst x
    refine Keep.foldl ?_ ?_
    · assumption
    · intro _ _ _
      refine Keep.ite ?_ ?_
      · refine rsetBit_keeps hregs ?_
        assumption
      · assumption
  clear_value x
  extract_lets -underBinder -merge -useContext +onlyGivenNames x
  have hx : P x := by
    subst x
    refine rset_keeps hregs ?_
    assumption
  clear_value x
  extract_lets -underBinder -merge -useContext +onlyGivenNames x
  have hx : P x := by
    subst x
    refine rset_keeps hregs ?_
    assumption
  clear_value x
  refine Keep.set_key hkey ?_
  assumption

theorem derivationEnd_keeps (hregs : Keep.regs P) (heth : Keep.eth P) (hint : Keep.int P) (hstl : Keep.stl P) (hout : Keep.out P) {s : State} {st} (h : P s) : P (derivationEnd s st) := by
  unfold derivationEnd
  refine evt_keeps hregs heth hint hstl hout ?_
  refine rset_keeps hregs ?_
  assumption

theorem derive_keeps (hregs : Keep.regs P) (hkey : Keep.key P) (heth : Keep.eth P) (hint : Keep.int P) (hstl : Keep.stl P) (hout : Keep.out P) {s : State} (h : P s) : P (derive s) := by
  unfold derive
  extract_lets -underBinder -merge -useContext +onlyGivenNames x
  clear_value x
  extract_lets -underBinder -merge -useContext +onlyGivenNames x
  clear_value x
  split
  · refine derivationEnd_keeps hregs heth hint hstl hout ?_
    assumption
  · extract_lets -underBinder -merge -useContext +onlyGivenNames x
    clear_value x
    extract_lets -underBinder -merge -useContext +onlyGivenNames x
    clear_value x
    refine Keep.ite ?_ ?_
    · refine derivationEnd_keeps hregs heth hint hstl hout ?_
      assumption
    · refine Keep.ite ?_ ?_
      · refine derivationEnd_keeps hregs heth hint hstl hout ?_
        assumption
      · refine Keep.ite ?_ ?_
        · refine derivationEnd_keeps hregs heth hint hstl hout ?_
          assumption
        · split
          · refine derivationEnd_keeps hregs heth hint hstl hout ?_
            assumption
          · refine derivationEnd_keeps hregs heth hint hstl hout ?_
            refine fillSlot_keeps hregs hkey ?_
            assumption

theorem freeHandle_keeps (hregs : Keep.regs P) (hkey : Keep.key P) {v} {s : State} (h : P s) : P (freeHandle v s) := by
  unfold freeHandle
  split
  · assumption
  · extract_lets -underBinder -merge -useContext +onlyGivenNames x
    have hx : P x := by
      subst x
      refine rset_keeps hregs ?_
      assumption
    clear_value x
    refine Keep.set_key hkey ?_
    assumption
  · assumption

theorem messageEnd_keeps (hregs : Keep.regs P) (heth : Keep.eth P) (hint : Keep.int P) (hstl : Keep.stl P) (hout : Keep.out P) {s : State} {st} {typ} {h3} (h : P s) : P (messageEnd s st typ h3) := by
  unfold messageEnd
  extract_lets -underBinder -merge -useContext +onlyGivenNames x
  have hx : P x := by
    subst x
    refine rset_keeps hregs ?_
    assumption
  clear_value x
  refine setEvt_keeps hregs heth hint hstl hout ?_
  refine rset_keeps hregs ?_
  assumption

theorem msgGo_keeps (hregs : Keep.regs P) (hkey : Keep.key P) (heth : Keep.eth P) (hint : Keep.int P) (hstl : Keep.stl P) (hout : Keep.out P) {i} {lvl} {v} {s : State} (h : P s) : P (msgGo i lvl v s) := by
  unfold msgGo
  refine Keep.ite ?_ ?_
  · assumption
  · refine Keep.ite ?_ ?_
    · refine setEvt_keeps hregs heth hint hstl hout ?_
      refine rsetFld_keeps hregs ?_
      assumption
    · refine Keep.ite ?_ ?_
      · assumption
      · extract_lets -underBinder -merge -useContext +onlyGivenNames x
        clear_value x
        refine Keep.set_key hkey ?_
        assumption

theorem attEnd_keeps (hregs : Keep.regs P) (heth : Keep.eth P) (hint : Keep.int P) (hstl : Keep.stl P) (hout : Keep.out P) {s : State} {st} (h : P s) : P (attEnd s st) := by
  unfold attEnd
  refine evt_keeps hregs heth hint hstl hout ?_
  refine rset_keeps hregs ?_
  assumption

theorem attGo_keeps (hregs : Keep.regs P) (hkey : Keep.key P) (heth : Keep.eth P) (hint : Keep.int P) (hstl : Keep.stl P) (hout : Keep.out P) {i} {lvl} {v} {s : State} (h : P s) : P (attGo i lvl v s) := by
  unfold attGo
  refine Keep.ite ?_ ?_
  · assumption
  · refine Keep.ite ?_ ?_
    · assumption
    · refine Keep.ite ?_ ?_
      · refine attEnd_keeps hregs heth hint hstl hout ?_
        assumption
      · refine Keep.ite ?_ ?_
        · refine attEnd_keeps hregs heth hint hstl hout ?_
          assumption
        · refine Keep.set_key hkey ?_
          assumption

theorem keyWrite_keeps (hregs : Keep.regs P) (hstaged : Keep.staged P) (hkey : Keep.key P) (heth : Keep.eth P) (hint : Keep.int P) (hstl : Keep.stl P) (hout : Keep.out P) {i} {lvl} {a} {v} {s : State} (h : P s) : P (keyWrite i lvl a v s) := by
  unfold keyWrite
  refine Keep.ite ?_ ?_
  · refine Keep.ite ?_ ?_
    · refine derive_keeps hregs hkey heth hint hstl hout ?_
      assumption
    · assumption
  · refine Keep.ite ?_ ?_
    · refine Keep.ite ?_ ?_
      · refine freeHandle_keeps hregs hkey ?_
        assumption
      · assumption
    · refine Keep.ite ?_ ?_
      · refine Keep.ite ?_ ?_
        · refine rwrite_keeps hregs ?_
          assumption
        · assumption
      · refine Keep.ite ?_ ?_
        · refine msgGo_keeps hregs hkey heth hint hstl hout ?_
          assumption
        · refine Keep.ite ?_ ?_
          · refine attGo_keeps hregs hkey heth hint hstl hout ?_
            assumption
          · refine Keep.ite ?_ ?_
            · refine groupWrite_keeps hregs hstaged ?_
              assumption
            · refine rwrite_keeps hregs ?_
              assumption

theorem execDerivation_keeps (hregs : Keep.regs P) (hstaged : Keep.staged P) (hkey : Keep.key P) (heth : Keep.eth P) (hint : Keep.int P) (hstl : Keep.stl P) (hout : Keep.out P) {i} {v} {s : State} (h : P s) {t : State} (e : execDerivation i v s = .next t) : P t := by
  obtain rfl := Host.Outcome.next.inj e
  refine keyWrite_keeps hregs hstaged hkey heth hint hstl hout ?_
  assumption

theorem execHandleFree_keeps (hregs : Keep.regs P) (hstaged : Keep.staged P) (hkey : Keep.key P) (heth : Keep.eth P) (hint : Keep.int P) (hstl : Keep.stl P) (hout : Keep.out P) {i} {v} {s : State} (h : P s) {t : State} (e : execHandleFree i v s = .next t) : P t := by
  obtain rfl := Host.Outcome.next.inj e
  refine keyWrite_keeps hregs hstaged hkey heth hint hstl hout ?_
  assumption

theorem execAttestationRequest_keeps (hregs : Keep.regs P) (hstaged : Keep.staged P) (hkey : Keep.key P) (heth : Keep.eth P) (hint : Keep.int P) (hstl : Keep.stl P) (hout : Keep.out P) {i} {v} {s : State} (h : P s) {t : State} (e : execAttestationRequest i v s = .next t) : P t := by
  obtain rfl := Host.Outcome.next.inj e
  refine keyWrite_keeps hregs hstaged hkey heth hint hstl hout ?_
  assumption

theorem entryLost_keeps (hregs : Keep.regs P) {s : State} {k} (h : P s) : P (entryLost s k) := by
  unfold entryLost
  refine Keep.ite ?_ ?_
  · refine bump_keeps hregs ?_
    assumption
  · assumption

theorem arrive_keeps (hcores : Keep.cores P) {s : State} {k} {q} {ws} {poison} {side} (h : P s) : P (arrive s k q ws poison side) := by
  unfold arrive
  refine State.updCore_keeps hcores ?_
  assumption

theorem disown_keeps (hlnk : Keep.lnk P) (hses : Keep.ses P) (hkey : Keep.key P) (hcores : Keep.cores P) (heth : Keep.eth P) {s : State} {k} (h : P s) : P (disown s k) := by
  unfold disown
  refine Keep.set_lnk_ses_key_cores_eth hlnk hses hkey hcores heth ?_
  assumption

theorem completion_keeps (hregs : Keep.regs P) (hcores : Keep.cores P) {s : State} {k} {q} {ws} {poison} {side} (h : P s) : P (completion s k q ws poison side) := by
  unfold completion
  refine Keep.ite ?_ ?_
  · refine entryLost_keeps hregs ?_
    assumption
  · refine Keep.ite ?_ ?_
    · refine arrive_keeps hcores ?_
      refine State.updCore_keeps hcores ?_
      assumption
    · refine entryLost_keeps hregs ?_
      assumption

theorem takeOut_keeps (hcores : Keep.cores P) {s : State} {k} {q} (h : P s) : P (takeOut s k q) := by
  unfold takeOut
  refine State.updCore_keeps hcores ?_
  assumption

theorem deliverMessage_keeps (hregs : Keep.regs P) (hcores : Keep.cores P) {s : State} {k} (h : P s) : P (deliverMessage s k) := by
  unfold deliverMessage
  split
  · assumption
  · extract_lets -underBinder -merge -useContext +onlyGivenNames x
    clear_value x
    extract_lets -underBinder -merge -useContext +onlyGivenNames x
    clear_value x
    refine Keep.ite ?_ ?_
    · refine Keep.ite ?_ ?_
      · refine entryLost_keeps hregs ?_
        refine takeOut_keeps hcores ?_
        assumption
      · refine takeOut_keeps hcores ?_
        assumption
    · refine Keep.ite ?_ ?_
      · assumption
      · refine arrive_keeps hcores ?_
        refine takeOut_keeps hcores ?_
        assumption

theorem deliverRound_keeps (hregs : Keep.regs P) (hcores : Keep.cores P) (hfree : Keep.free P) {s : State} (h : P s) : P (deliverRound s) := by
  unfold deliverRound
  extract_lets -underBinder -merge -useContext +onlyGivenNames x
  clear_value x
  refine Keep.ite ?_ ?_
  · refine Keep.foldl ?_ ?_
    · assumption
    · intro _ _ _
      refine deliverMessage_keeps hregs hcores ?_
      assumption
  · extract_lets -underBinder -merge -useContext +onlyGivenNames x
    clear_value x
    refine Keep.foldl ?_ ?_
    · refine bumpFree_keeps hfree ?_
      assumption
    · intro _ _ _
      refine deliverMessage_keeps hregs hcores ?_
      assumption

theorem deliverAll_keeps (hregs : Keep.regs P) (hcores : Keep.cores P) (hfree : Keep.free P) {s : State} (h : P s) : P (deliverAll s) := by
  unfold deliverAll
  refine deliverRound_keeps hregs hcores hfree ?_
  refine deliverRound_keeps hregs hcores hfree ?_
  refine deliverRound_keeps hregs hcores hfree ?_
  refine deliverRound_keeps hregs hcores hfree ?_
  assumption

end Sys2Proof.Machine
end

