-- ==== Sys2Proof/Laws/KeepLink.lean ====
section
/-!
SUPPORT. Which parts of the state the operations may change: sessions, link timing, calibration, claims and heads.
-/

namespace Sys2Proof.Machine

variable {P : State → Prop}

theorem sesPut_keeps (hmem : Keep.mem P) {s : State} {n} {w} {ws} (h : P s) : P (sesPut s n w ws) := by
  unfold sesPut
  refine msets_keeps hmem ?_
  assumption

theorem sesSetFresh_keeps (hmem : Keep.mem P) {s : State} {n} {v} {valid} (h : P s) : P (sesSetFresh s n v valid) := by
  unfold sesSetFresh
  extract_lets -underBinder -merge -useContext +onlyGivenNames x
  clear_value x
  refine sesPut_keeps hmem ?_
  refine sesPut_keeps hmem ?_
  assumption

theorem slotPut_keeps (hmem : Keep.mem P) {s : State} {b} {g} {j} {e4} (h : P s) : P (slotPut s b g j e4) := by
  unfold slotPut
  split
  · refine msets_keeps hmem ?_
    assumption
  · refine msets_keeps hmem ?_
    assumption

theorem displace_keeps (hmem : Keep.mem P) (hfree : Keep.free P) {g} {x2} {x3 : State} {x4} {x5} (h : P x3) : P (displace g x2 x3 x4 x5).1 := by
  induction x2 generalizing g x3 x4 x5 with
  | zero =>
    unfold displace
    dsimp -zeta only
    assumption
  | succ n ih =>
    unfold displace
    extract_lets -underBinder -merge -useContext +onlyGivenNames x
    clear_value x
    split
    · dsimp -zeta only
      refine slotPut_keeps hmem ?_
      assumption
    · extract_lets -underBinder -merge -useContext +onlyGivenNames x
      have hx : P x := by
        subst x
        refine bumpFree_keeps hfree ?_
        refine slotPut_keeps hmem ?_
        assumption
      clear_value x
      extract_lets -underBinder -merge -useContext +onlyGivenNames x
      clear_value x
      extract_lets -underBinder -merge -useContext +onlyGivenNames x
      clear_value x
      split
      · dsimp -zeta only
        refine slotPut_keeps hmem ?_
        assumption
      · refine ih ?_
        assumption

theorem place_keeps (hmem : Keep.mem P) (hfree : Keep.free P) {s : State} {k} {n} {g} {seed} {stash} (h : P s) : P (place s k n g seed stash).1 := by
  unfold place
  dsimp -zeta only
  split
  · dsimp -zeta only
    assumption
  · split
    · dsimp -zeta only
      refine slotPut_keeps hmem ?_
      assumption
    · dsimp -zeta only
      refine slotPut_keeps hmem ?_
      assumption
    · split
      · dsimp -zeta only
        refine displace_keeps hmem hfree ?_
        assumption
      · dsimp -zeta only
        refine displace_keeps hmem hfree ?_
        assumption

theorem unplaceGen_keeps (hmem : Keep.mem P) {s : State} {k} {n} {g} {seed} (h : P s) : P (unplaceGen s k n g seed) := by
  unfold unplaceGen
  dsimp -zeta only
  refine Keep.foldl ?_ ?_
  · assumption
  · intro _ _ _
    split
    · refine Keep.ite ?_ ?_
      · refine slotPut_keeps hmem ?_
        assumption
      · assumption
    · assumption

theorem unplace_keeps (hmem : Keep.mem P) (hses : Keep.ses P) {s : State} {k} {n} (h : P s) : P (unplace s k n) := by
  unfold unplace
  extract_lets -underBinder -merge -useContext +onlyGivenNames x
  have hx : P x := by
    subst x
    refine unplaceGen_keeps hmem ?_
    refine unplaceGen_keeps hmem ?_
    assumption
  clear_value x
  refine Keep.set_ses hses ?_
  assumption

theorem sesShow_keeps (hregs : Keep.regs P) {s : State} (h : P s) : P (sesShow s) := by
  unfold sesShow
  extract_lets -underBinder -merge -useContext +onlyGivenNames x
  clear_value x
  extract_lets -underBinder -merge -useContext +onlyGivenNames x
  clear_value x
  refine rset_keeps hregs ?_
  refine rset_keeps hregs ?_
  assumption

theorem clearGen_keeps (hmem : Keep.mem P) {s : State} {g} (h : P s) : P (clearGen s g) := by
  unfold clearGen
  refine Keep.set_mem hmem ?_ ?_
  · assumption
  · exact SMap.wf_filter _

theorem buildGen_keeps (hmem : Keep.mem P) (hfree : Keep.free P) {s : State} {g} {seed} (h : P s) : P (buildGen s g seed).1 := by
  unfold buildGen
  refine Keep.foldl1 ?_ ?_
  · dsimp -zeta only
    refine clearGen_keeps hmem ?_
    assumption
  · intro _ _ _
    refine place_keeps hmem hfree ?_
    assumption

theorem tryBuilds_keeps (hmem : Keep.mem P) (hses : Keep.ses P) (hfree : Keep.free P) {g} {x2} {x3 : State} (h : P x3) : P (tryBuilds g x2 x3) := by
  induction x2 generalizing g x3 with
  | zero =>
    unfold tryBuilds
    refine clearGen_keeps hmem ?_
    assumption
  | succ n ih =>
    unfold tryBuilds
    extract_lets -underBinder -merge -useContext +onlyGivenNames x
    clear_value x
    extract_lets -underBinder -merge -useContext +onlyGivenNames x
    clear_value x
    extract_lets -underBinder -merge -useContext +onlyGivenNames x
    have hx : P x := by
      subst x
      refine Keep.set_ses hses ?_
      assumption
    clear_value x
    dsimp -zeta only
    refine Keep.ite ?_ ?_
    · refine Keep.set_ses hses ?_
      refine buildGen_keeps hmem hfree ?_
      assumption
    · refine ih ?_
      assumption

theorem rehashBegin_keeps (hmem : Keep.mem P) (hses : Keep.ses P) (hfree : Keep.free P) {s : State} (h : P s) : P (rehashBegin s) := by
  unfold rehashBegin
  refine Keep.ite ?_ ?_
  · assumption
  · refine tryBuilds_keeps hmem hses hfree ?_
    refine Keep.set_ses hses ?_
    assumption

theorem rehashEnd_keeps (hregs : Keep.regs P) (hses : Keep.ses P) (heth : Keep.eth P) (hint : Keep.int P) (hstl : Keep.stl P) (hout : Keep.out P) {s : State} (h : P s) : P (rehashEnd s) := by
  unfold rehashEnd
  refine Keep.ite ?_ ?_
  · assumption
  · split
    · extract_lets -underBinder -merge -useContext +onlyGivenNames x
      clear_value x
      extract_lets -underBinder -merge -useContext +onlyGivenNames x
      have hx : P x := by
        subst x
        refine sesShow_keeps hregs ?_
        refine Keep.set_ses hses ?_
        assumption
      clear_value x
      refine evt_keeps hregs heth hint hstl hout ?_
      refine bump_keeps hregs ?_
      assumption
    · refine evt_keeps hregs heth hint hstl hout ?_
      refine sesShow_keeps hregs ?_
      refine Keep.set_ses hses ?_
      assumption

theorem setKey_keeps (hmem : Keep.mem P) {s : State} {n} {key} (h : P s) : P (setKey s n key) := by
  unfold setKey
  extract_lets -underBinder -merge -useContext +onlyGivenNames x
  have hx : P x := by
    subst x
    refine sesPut_keeps hmem ?_
    assumption
  clear_value x
  refine sesPut_keeps hmem ?_
  assumption

theorem admitRecord_keeps (hmem : Keep.mem P) {s : State} {c} (h : P s) : P (admitRecord s c) := by
  unfold admitRecord
  extract_lets -underBinder -merge -useContext +onlyGivenNames x
  clear_value x
  extract_lets -underBinder -merge -useContext +onlyGivenNames x
  have hx : P x := by
    subst x
    refine sesPut_keeps hmem ?_
    assumption
  clear_value x
  refine sesSetFresh_keeps hmem ?_
  refine sesPut_keeps hmem ?_
  assumption

theorem doAdmit_keeps (hregs : Keep.regs P) (hmem : Keep.mem P) (hses : Keep.ses P) (heth : Keep.eth P) (hint : Keep.int P) (hstl : Keep.stl P) (hfree : Keep.free P) (hout : Keep.out P) {s : State} {c} (h : P s) : P (doAdmit s c) := by
  unfold doAdmit
  extract_lets -underBinder -merge -useContext +onlyGivenNames x
  have hx : P x := by
    subst x
    refine admitRecord_keeps hmem ?_
    assumption
  clear_value x
  dsimp -zeta only
  extract_lets -underBinder -merge -useContext +onlyGivenNames x
  clear_value x
  extract_lets -underBinder -merge -useContext +onlyGivenNames x
  have hx : P x := by
    subst x
    refine Keep.set_ses hses ?_
    refine place_keeps hmem hfree ?_
    assumption
  clear_value x
  refine Keep.ite ?_ ?_
  · refine rehashBegin_keeps hmem hses hfree ?_
    refine evt_keeps hregs heth hint hstl hout ?_
    assumption
  · assumption

theorem doRemove_keeps (hmem : Keep.mem P) (hses : Keep.ses P) {s : State} {n} (h : P s) : P (doRemove s n) := by
  unfold doRemove
  extract_lets -underBinder -merge -useContext +onlyGivenNames x
  have hx : P x := by
    subst x
    refine unplace_keeps hmem hses ?_
    assumption
  clear_value x
  refine sesPut_keeps hmem ?_
  refine sesPut_keeps hmem ?_
  assumption

theorem doSetpol_keeps (hmem : Keep.mem P) {s : State} {c} (h : P s) : P (doSetpol s c) := by
  unfold doSetpol
  extract_lets -underBinder -merge -useContext +onlyGivenNames x
  clear_value x
  refine sesPut_keeps hmem ?_
  refine sesPut_keeps hmem ?_
  assumption

theorem doSetfresh_keeps (hmem : Keep.mem P) {s : State} {c} (h : P s) : P (doSetfresh s c) := by
  unfold doSetfresh
  extract_lets -underBinder -merge -useContext +onlyGivenNames x
  clear_value x
  extract_lets -underBinder -merge -useContext +onlyGivenNames x
  have hx : P x := by
    subst x
    refine sesSetFresh_keeps hmem ?_
    assumption
  clear_value x
  refine Keep.ite ?_ ?_
  · refine sesPut_keeps hmem ?_
    refine sesPut_keeps hmem ?_
    assumption
  · assumption

theorem advanceOut_keeps (hmem : Keep.mem P) {s : State} {n} {k} (h : P s) : P (advanceOut s n k) := by
  unfold advanceOut
  extract_lets -underBinder -merge -useContext +onlyGivenNames x
  clear_value x
  extract_lets -underBinder -merge -useContext +onlyGivenNames x
  have hx : P x := by
    subst x
    refine sesPut_keeps hmem ?_
    assumption
  clear_value x
  refine Keep.ite ?_ ?_
  · refine sesPut_keeps hmem ?_
    assumption
  · assumption

theorem sesApply_keeps (hregs : Keep.regs P) (hmem : Keep.mem P) (hses : Keep.ses P) (heth : Keep.eth P) (hint : Keep.int P) (hstl : Keep.stl P) (hfree : Keep.free P) (hout : Keep.out P) {s : State} {c} (h : P s) : P (sesApply s c).2.1 := by
  unfold sesApply
  extract_lets -underBinder -merge -useContext +onlyGivenNames x
  clear_value x
  split
  · dsimp -zeta only
    refine doAdmit_keeps hregs hmem hses heth hint hstl hfree hout ?_
    assumption
  · dsimp -zeta only
    refine doRemove_keeps hmem hses ?_
    assumption
  · dsimp -zeta only
    refine doSetpol_keeps hmem ?_
    assumption
  · dsimp -zeta only
    refine doSetfresh_keeps hmem ?_
    assumption
  · extract_lets -underBinder -merge -useContext +onlyGivenNames x
    clear_value x
    extract_lets -underBinder -merge -useContext +onlyGivenNames x
    clear_value x
    split
    · dsimp -zeta only
      assumption
    · dsimp -zeta only
      refine advanceOut_keeps hmem ?_
      assumption
  · split
    · dsimp -zeta only
      refine setKey_keeps hmem ?_
      assumption
    · dsimp -zeta only
      assumption
  · split
    · dsimp -zeta only
      refine setKey_keeps hmem ?_
      assumption
    · dsimp -zeta only
      assumption
  · dsimp -zeta only
    refine setKey_keeps hmem ?_
    assumption
  · dsimp -zeta only
    refine sesPut_keeps hmem ?_
    assumption
  · dsimp -zeta only
    assumption

theorem sesReply_keeps (hregs : Keep.regs P) (hcores : Keep.cores P) {s : State} {c} {ws} (h : P s) : P (sesReply s c ws) := by
  unfold sesReply
  refine Keep.ite ?_ ?_
  · refine completion_keeps hregs hcores ?_
    assumption
  · extract_lets -underBinder -merge -useContext +onlyGivenNames x
    have hx : P x := by
      subst x
      refine Keep.foldl ?_ ?_
      · assumption
      · intro _ _ _
        refine rset_keeps hregs ?_
        assumption
    clear_value x
    refine rset_keeps hregs ?_
    assumption

theorem ownDirectory_keeps (hregs : Keep.regs P) (hsage : Keep.sage P) (heth : Keep.eth P) (hint : Keep.int P) (hstl : Keep.stl P) (hout : Keep.out P) {s : State} {c} {gone} (h : P s) : P (ownDirectory s c gone) := by
  unfold ownDirectory
  refine Keep.ite ?_ ?_
  · assumption
  · refine Keep.ite ?_ ?_
    · refine dirApply_keeps hregs hsage heth hint hstl hout ?_
      assumption
    · refine Keep.ite ?_ ?_
      · refine dirApply_keeps hregs hsage heth hint hstl hout ?_
        assumption
      · assumption

theorem announce_keeps (husl : Keep.usl P) (hfree : Keep.free P) (hout : Keep.out P) {s : State} {c} (h : P s) : P (announce s c) := by
  unfold announce
  refine Keep.ite ?_ ?_
  · assumption
  · split
    · refine dirSend_keeps husl hfree hout ?_
      assumption
    · assumption

theorem sesExec_keeps (hregs : Keep.regs P) (hmem : Keep.mem P) (hses : Keep.ses P) (hcores : Keep.cores P) (hsage : Keep.sage P) (heth : Keep.eth P) (hint : Keep.int P) (hstl : Keep.stl P) (hfree : Keep.free P) (hout : Keep.out P) {s : State} {c} {late} (h : P s) : P (sesExec s c late) := by
  unfold sesExec
  extract_lets -underBinder -merge -useContext +onlyGivenNames x
  clear_value x
  extract_lets -underBinder -merge -useContext +onlyGivenNames x
  clear_value x
  dsimp -zeta only
  extract_lets -underBinder -merge -useContext +onlyGivenNames x
  have hx : P x := by
    subst x
    refine Keep.ite ?_ ?_
    · refine ownDirectory_keeps hregs hsage heth hint hstl hout ?_
      split
      · dsimp -zeta only
        assumption
      · refine sesApply_keeps hregs hmem hses heth hint hstl hfree hout ?_
        assumption
    · split
      · dsimp -zeta only
        assumption
      · refine sesApply_keeps hregs hmem hses heth hint hstl hfree hout ?_
        assumption
  clear_value x
  extract_lets -underBinder -merge -useContext +onlyGivenNames x
  have hx : P x := by
    subst x
    refine Keep.ite ?_ ?_
    · refine evt_keeps hregs heth hint hstl hout ?_
      assumption
    · assumption
  clear_value x
  extract_lets -underBinder -merge -useContext +onlyGivenNames x
  have hx : P x := by
    subst x
    refine sesShow_keeps hregs ?_
    assumption
  clear_value x
  extract_lets -underBinder -merge -useContext +onlyGivenNames x
  clear_value x
  refine sesReply_keeps hregs hcores ?_
  assumption

theorem sesAccept_keeps (hregs : Keep.regs P) (hmem : Keep.mem P) (hses : Keep.ses P) (hcores : Keep.cores P) (hsage : Keep.sage P) (husl : Keep.usl P) (heth : Keep.eth P) (hint : Keep.int P) (hstl : Keep.stl P) (hfree : Keep.free P) (hout : Keep.out P) {s : State} {c} (h : P s) : P (sesAccept s c) := by
  unfold sesAccept
  extract_lets -underBinder -merge -useContext +onlyGivenNames x
  clear_value x
  extract_lets -underBinder -merge -useContext +onlyGivenNames x
  have hx : P x := by
    subst x
    refine announce_keeps husl hfree hout ?_
    assumption
  clear_value x
  refine Keep.ite ?_ ?_
  · refine sesExec_keeps hregs hmem hses hcores hsage heth hint hstl hfree hout ?_
    assumption
  · refine Keep.set_ses hses ?_
    assumption

theorem sesTake_keeps (hregs : Keep.regs P) (hmem : Keep.mem P) (hses : Keep.ses P) (hcores : Keep.cores P) (hsage : Keep.sage P) (husl : Keep.usl P) (heth : Keep.eth P) (hint : Keep.int P) (hstl : Keep.stl P) (hfree : Keep.free P) (hout : Keep.out P) {k} {x2} {x3 : State} (h : P x3) : P (sesTake k x2 x3) := by
  induction x2 generalizing k x3 with
  | zero =>
    unfold sesTake
    assumption
  | succ n ih =>
    unfold sesTake
    split
    · refine Keep.ite ?_ ?_
      · refine ih ?_
        refine sesAccept_keeps hregs hmem hses hcores hsage husl heth hint hstl hfree hout ?_
        refine takeOut_keeps hcores ?_
        assumption
      · assumption
    · assumption

theorem mailTake_keeps (hregs : Keep.regs P) (hmem : Keep.mem P) (hses : Keep.ses P) (hcores : Keep.cores P) (hsage : Keep.sage P) (husl : Keep.usl P) (heth : Keep.eth P) (hint : Keep.int P) (hstl : Keep.stl P) (hfree : Keep.free P) (hout : Keep.out P) {s : State} (h : P s) : P (mailTake s) := by
  unfold mailTake
  split
  · refine Keep.ite ?_ ?_
    · refine sesAccept_keeps hregs hmem hses hcores hsage husl heth hint hstl hfree hout ?_
      refine Keep.set_ses hses ?_
      assumption
    · assumption
  · assumption

theorem sesPull_keeps (hregs : Keep.regs P) (hmem : Keep.mem P) (hses : Keep.ses P) (hcores : Keep.cores P) (hsage : Keep.sage P) (husl : Keep.usl P) (heth : Keep.eth P) (hint : Keep.int P) (hstl : Keep.stl P) (hfree : Keep.free P) (hout : Keep.out P) {s : State} (h : P s) : P (sesPull s) := by
  unfold sesPull
  refine mailTake_keeps hregs hmem hses hcores hsage husl heth hint hstl hfree hout ?_
  refine Keep.foldl ?_ ?_
  · assumption
  · intro _ _ _
    refine sesTake_keeps hregs hmem hses hcores hsage husl heth hint hstl hfree hout ?_
    assumption

theorem sesHead_keeps (hregs : Keep.regs P) (hmem : Keep.mem P) (htime : Keep.time P) (hses : Keep.ses P) (hcores : Keep.cores P) (hsage : Keep.sage P) (husl : Keep.usl P) (heth : Keep.eth P) (hint : Keep.int P) (hstl : Keep.stl P) (hfree : Keep.free P) (hout : Keep.out P) {s : State} (h : P s) : P (sesHead s) := by
  unfold sesHead
  split
  · refine sesPull_keeps hregs hmem hses hcores hsage husl heth hint hstl hfree hout ?_
    refine sesExec_keeps hregs hmem hses hcores hsage heth hint hstl hfree hout ?_
    extract_lets -underBinder -merge -useContext +onlyGivenNames x
    have hx : P x := by
      subst x
      refine reach_keeps htime ?_
      assumption
    clear_value x
    refine Keep.set_ses hses ?_
    assumption
  · assumption

theorem mailboxGo_keeps (hregs : Keep.regs P) (hmem : Keep.mem P) (hses : Keep.ses P) (hcores : Keep.cores P) (hsage : Keep.sage P) (husl : Keep.usl P) (heth : Keep.eth P) (hint : Keep.int P) (hstl : Keep.stl P) (hfree : Keep.free P) (hout : Keep.out P) {lvl} {v} {s : State} (h : P s) : P (mailboxGo lvl v s) := by
  unfold mailboxGo
  refine Keep.ite ?_ ?_
  · assumption
  · extract_lets -underBinder -merge -useContext +onlyGivenNames x
    clear_value x
    extract_lets -underBinder -merge -useContext +onlyGivenNames x
    have hx : P x := by
      subst x
      refine rset_keeps hregs ?_
      assumption
    clear_value x
    refine mailTake_keeps hregs hmem hses hcores hsage husl heth hint hstl hfree hout ?_
    refine Keep.set_ses hses ?_
    assumption

theorem sesRegWrite_keeps (hregs : Keep.regs P) (hmem : Keep.mem P) (hses : Keep.ses P) (hcores : Keep.cores P) (hsage : Keep.sage P) (husl : Keep.usl P) (heth : Keep.eth P) (hint : Keep.int P) (hstl : Keep.stl P) (hfree : Keep.free P) (hout : Keep.out P) {lvl} {a} {v} {s : State} (h : P s) : P (sesRegWrite lvl a v s) := by
  unfold sesRegWrite
  refine Keep.ite ?_ ?_
  · refine mailboxGo_keeps hregs hmem hses hcores hsage husl heth hint hstl hfree hout ?_
    assumption
  · refine Keep.ite ?_ ?_
    · extract_lets -underBinder -merge -useContext +onlyGivenNames x
      have hx : P x := by
        subst x
        refine rwrite_keeps hregs ?_
        assumption
      clear_value x
      refine Keep.ite ?_ ?_
      · refine Keep.foldl ?_ ?_
        · assumption
        · intro _ _ _
          refine rset_keeps hregs ?_
          assumption
      · assumption
    · refine rwrite_keeps hregs ?_
      assumption

theorem execRehashComplete_keeps (hregs : Keep.regs P) (hses : Keep.ses P) (heth : Keep.eth P) (hint : Keep.int P) (hstl : Keep.stl P) (hout : Keep.out P) {s : State} (h : P s) {t : State} (e : execRehashComplete s = .next t) : P t := by
  obtain rfl := Host.Outcome.next.inj e
  refine rehashEnd_keeps hregs hses heth hint hstl hout ?_
  assumption

theorem updLnk_keeps (hlnk : Keep.lnk P) {s : State} {f} (h : P s) : P (updLnk s f) := by
  unfold updLnk
  refine Keep.set_lnk hlnk ?_
  assumption

theorem reqEnd_keeps (hregs : Keep.regs P) (hholds : Keep.holds P) (hlnk : Keep.lnk P) (hcores : Keep.cores P) {s : State} {r} {status} (h : P s) : P (reqEnd s r status) := by
  unfold reqEnd
  extract_lets -underBinder -merge -useContext +onlyGivenNames x
  have hx : P x := by
    subst x
    refine updLnk_keeps hlnk ?_
    assumption
  clear_value x
  extract_lets -underBinder -merge -useContext +onlyGivenNames x
  have hx : P x := by
    subst x
    split
    · refine release_keeps hholds ?_
      assumption
    · assumption
  clear_value x
  refine completion_keeps hregs hcores ?_
  assumption

theorem updReq_keeps (hlnk : Keep.lnk P) {s : State} {id} {f} (h : P s) : P (updReq s id f) := by
  unfold updReq
  refine updLnk_keeps hlnk ?_
  assumption

theorem lnkShow_keeps (hregs : Keep.regs P) {s : State} (h : P s) : P (lnkShow s) := by
  unfold lnkShow
  extract_lets -underBinder -merge -useContext +onlyGivenNames x
  clear_value x
  refine rset_keeps hregs ?_
  assumption

theorem reanchorAt_keeps (hregs : Keep.regs P) (hlnk : Keep.lnk P) {s : State} {t1} {a} (h : P s) : P (reanchorAt s t1 a) := by
  unfold reanchorAt
  refine lnkShow_keeps hregs ?_
  refine updLnk_keeps hlnk ?_
  assumption

theorem asn0Commit_keeps (hregs : Keep.regs P) (hlnk : Keep.lnk P) (heth : Keep.eth P) (hint : Keep.int P) (hstl : Keep.stl P) (hout : Keep.out P) {s : State} (h : P s) : P (asn0Commit s) := by
  unfold asn0Commit
  refine Keep.ite ?_ ?_
  · assumption
  · extract_lets -underBinder -merge -useContext +onlyGivenNames x
    clear_value x
    extract_lets -underBinder -merge -useContext +onlyGivenNames x
    clear_value x
    refine Keep.ite ?_ ?_
    · refine evt_keeps hregs heth hint hstl hout ?_
      refine reanchorAt_keeps hregs hlnk ?_
      assumption
    · refine lnkShow_keeps hregs ?_
      refine updLnk_keeps hlnk ?_
      assumption

theorem armSwitch_keeps (hregs : Keep.regs P) (hlnk : Keep.lnk P) (heth : Keep.eth P) (hint : Keep.int P) (hstl : Keep.stl P) (hout : Keep.out P) {s : State} (h : P s) : P (armSwitch s) := by
  unfold armSwitch
  refine Keep.ite ?_ ?_
  · assumption
  · extract_lets -underBinder -merge -useContext +onlyGivenNames x
    clear_value x
    extract_lets -underBinder -merge -useContext +onlyGivenNames x
    have hx : P x := by
      subst x
      refine lnkShow_keeps hregs ?_
      refine updLnk_keeps hlnk ?_
      assumption
    clear_value x
    refine Keep.ite ?_ ?_
    · refine evt_keeps hregs heth hint hstl hout ?_
      assumption
    · assumption

theorem swctlWrite_keeps (hregs : Keep.regs P) (hlnk : Keep.lnk P) (heth : Keep.eth P) (hint : Keep.int P) (hstl : Keep.stl P) (hout : Keep.out P) {v} {s : State} (h : P s) : P (swctlWrite v s) := by
  unfold swctlWrite
  extract_lets -underBinder -merge -useContext +onlyGivenNames x
  clear_value x
  extract_lets -underBinder -merge -useContext +onlyGivenNames x
  have hx : P x := by
    subst x
    refine rwrite_keeps hregs ?_
    assumption
  clear_value x
  refine Keep.ite ?_ ?_
  · refine armSwitch_keeps hregs hlnk heth hint hstl hout ?_
    assumption
  · assumption

theorem bankSwitch_keeps (hregs : Keep.regs P) (htime : Keep.time P) (hlnk : Keep.lnk P) (heth : Keep.eth P) (hint : Keep.int P) (hstl : Keep.stl P) (hout : Keep.out P) {s : State} (h : P s) : P (bankSwitch s) := by
  unfold bankSwitch
  split
  · assumption
  · refine Keep.ite ?_ ?_
    · assumption
    · extract_lets -underBinder -merge -useContext +onlyGivenNames x
      have hx : P x := by
        subst x
        refine reach_keeps htime ?_
        assumption
      clear_value x
      extract_lets -underBinder -merge -useContext +onlyGivenNames x
      clear_value x
      extract_lets -underBinder -merge -useContext +onlyGivenNames x
      have hx : P x := by
        subst x
        refine rsetBit_keeps hregs ?_
        refine updLnk_keeps hlnk ?_
        assumption
      clear_value x
      refine Keep.ite ?_ ?_
      · refine evt_keeps hregs heth hint hstl hout ?_
        refine lnkShow_keeps hregs ?_
        refine updLnk_keeps hlnk ?_
        assumption
      · refine evt_keeps hregs heth hint hstl hout ?_
        refine lnkShow_keeps hregs ?_
        assumption

theorem lnkBegin_keeps (hregs : Keep.regs P) (hlnk : Keep.lnk P) (heth : Keep.eth P) (hint : Keep.int P) (hstl : Keep.stl P) (hout : Keep.out P) {s : State} (h : P s) : P (lnkBegin s) := by
  unfold lnkBegin
  extract_lets -underBinder -merge -useContext +onlyGivenNames x
  clear_value x
  extract_lets -underBinder -merge -useContext +onlyGivenNames x
  clear_value x
  extract_lets -underBinder -merge -useContext +onlyGivenNames x
  clear_value x
  extract_lets -underBinder -merge -useContext +onlyGivenNames x
  have hx : P x := by
    subst x
    refine updLnk_keeps hlnk ?_
    assumption
  clear_value x
  extract_lets -underBinder -merge -useContext +onlyGivenNames x
  have hx : P x := by
    subst x
    refine setState_keeps hregs ?_
    assumption
  clear_value x
  extract_lets -underBinder -merge -useContext +onlyGivenNames x
  clear_value x
  refine Keep.ite ?_ ?_
  · refine evt_keeps hregs heth hint hstl hout ?_
    refine drainState_keeps hregs ?_
    assumption
  · refine Keep.ite ?_ ?_
    · refine evt_keeps hregs heth hint hstl hout ?_
      refine drainState_keeps hregs ?_
      assumption
    · extract_lets -underBinder -merge -useContext +onlyGivenNames x
      have hx : P x := by
        subst x
        refine lnkShow_keeps hregs ?_
        refine updLnk_keeps hlnk ?_
        assumption
      clear_value x
      refine Keep.ite ?_ ?_
      · refine evt_keeps hregs heth hint hstl hout ?_
        assumption
      · assumption

theorem lnkEnter_keeps (hregs : Keep.regs P) (htime : Keep.time P) (hlnk : Keep.lnk P) (heth : Keep.eth P) (hint : Keep.int P) (hstl : Keep.stl P) (hfree : Keep.free P) (hout : Keep.out P) {s : State} (h : P s) : P (lnkEnter s) := by
  unfold lnkEnter
  refine Keep.ite ?_ ?_
  · assumption
  · extract_lets -underBinder -merge -useContext +onlyGivenNames x
    clear_value x
    extract_lets -underBinder -merge -useContext +onlyGivenNames x
    have hx : P x := by
      subst x
      refine bumpFree_keeps hfree ?_
      refine reach_keeps htime ?_
      assumption
    clear_value x
    extract_lets -underBinder -merge -useContext +onlyGivenNames x
    clear_value x
    extract_lets -underBinder -merge -useContext +onlyGivenNames x
    have hx : P x := by
      subst x
      refine updLnk_keeps hlnk ?_
      refine setState_keeps hregs ?_
      assumption
    clear_value x
    extract_lets -underBinder -merge -useContext +onlyGivenNames x
    have hx : P x := by
      subst x
      refine lnkShow_keeps hregs ?_
      assumption
    clear_value x
    refine Keep.ite ?_ ?_
    · refine armSwitch_keeps hregs hlnk heth hint hstl hout ?_
      assumption
    · assumption

theorem lnkWrite_keeps (hregs : Keep.regs P) (hstaged : Keep.staged P) (hlnk : Keep.lnk P) (heth : Keep.eth P) (hint : Keep.int P) (hstl : Keep.stl P) (hout : Keep.out P) {i} {a} {v} {s : State} (h : P s) : P (lnkWrite i a v s) := by
  unfold lnkWrite
  refine Keep.ite ?_ ?_
  · refine swctlWrite_keeps hregs hlnk heth hint hstl hout ?_
    assumption
  · refine Keep.ite ?_ ?_
    · extract_lets -underBinder -merge -useContext +onlyGivenNames x
      have hx : P x := by
        subst x
        refine groupWrite_keeps hregs hstaged ?_
        assumption
      clear_value x
      refine Keep.ite ?_ ?_
      · refine asn0Commit_keeps hregs hlnk heth hint hstl hout ?_
        assumption
      · assumption
    · refine rwrite_keeps hregs ?_
      assumption

theorem execSlotBoundary_keeps (hregs : Keep.regs P) (htime : Keep.time P) (heth : Keep.eth P) (hint : Keep.int P) (hstl : Keep.stl P) (hout : Keep.out P) {s : State} (h : P s) {t : State} (e : execSlotBoundary s = .next t) : P t := by
  obtain rfl := Host.Outcome.next.inj e
  refine Keep.ite ?_ ?_
  · refine stolon_keeps hregs heth hint hstl hout ?_
    refine reach_keeps htime ?_
    assumption
  · assumption

theorem execReanchorArm_keeps (hregs : Keep.regs P) (hstaged : Keep.staged P) (hlnk : Keep.lnk P) (heth : Keep.eth P) (hint : Keep.int P) (hstl : Keep.stl P) (hout : Keep.out P) {i} {v} {s : State} (h : P s) {t : State} (e : execReanchorArm i v s = .next t) : P t := by
  obtain rfl := Host.Outcome.next.inj e
  refine lnkWrite_keeps hregs hstaged hlnk heth hint hstl hout ?_
  assumption

theorem execReanchorApply_keeps (hregs : Keep.regs P) (htime : Keep.time P) (hlnk : Keep.lnk P) {s : State} (h : P s) {t : State} (e : execReanchorApply s = .next t) : P t := by
  obtain rfl := Host.Outcome.next.inj e
  split
  · refine Keep.ite ?_ ?_
    · refine reanchorAt_keeps hregs hlnk ?_
      refine reach_keeps htime ?_
      assumption
    · assumption
  · assumption

theorem execBankSwitchArm_keeps (hregs : Keep.regs P) (hlnk : Keep.lnk P) (heth : Keep.eth P) (hint : Keep.int P) (hstl : Keep.stl P) (hout : Keep.out P) {x1} {v} {s : State} (h : P s) {t : State} (e : execBankSwitchArm x1 v s = .next t) : P t := by
  obtain rfl := Host.Outcome.next.inj e
  refine swctlWrite_keeps hregs hlnk heth hint hstl hout ?_
  assumption

theorem execBankSwitch_keeps (hregs : Keep.regs P) (htime : Keep.time P) (hlnk : Keep.lnk P) (heth : Keep.eth P) (hint : Keep.int P) (hstl : Keep.stl P) (hout : Keep.out P) {s : State} (h : P s) {t : State} (e : execBankSwitch s = .next t) : P t := by
  obtain rfl := Host.Outcome.next.inj e
  refine bankSwitch_keeps hregs htime hlnk heth hint hstl hout ?_
  assumption

theorem execLinkStart_keeps (hregs : Keep.regs P) (htime : Keep.time P) (hlnk : Keep.lnk P) (heth : Keep.eth P) (hint : Keep.int P) (hstl : Keep.stl P) (hfree : Keep.free P) (hout : Keep.out P) {s : State} (h : P s) {t : State} (e : execLinkStart s = .next t) : P t := by
  obtain rfl := Host.Outcome.next.inj e
  refine lnkEnter_keeps hregs htime hlnk heth hint hstl hfree hout ?_
  assumption

theorem calResult_keeps (hregs : Keep.regs P) {s : State} {n} {r} (h : P s) : P (calResult s n r) := by
  unfold calResult
  refine rsetFld_keeps hregs ?_
  assumption

theorem calEnd_keeps (hregs : Keep.regs P) (hsheaves : Keep.sheaves P) (heth : Keep.eth P) (hint : Keep.int P) (hstl : Keep.stl P) (hout : Keep.out P) {s : State} {n} {r} (h : P s) : P (calEnd s n r) := by
  unfold calEnd
  extract_lets -underBinder -merge -useContext +onlyGivenNames x
  have hx : P x := by
    subst x
    refine State.updSheaf_keeps hsheaves ?_
    assumption
  clear_value x
  refine evt_keeps hregs heth hint hstl hout ?_
  refine rsetBit_keeps hregs ?_
  refine calResult_keeps hregs ?_
  assumption

theorem calRefuse_keeps (hregs : Keep.regs P) (heth : Keep.eth P) (hint : Keep.int P) (hstl : Keep.stl P) (hout : Keep.out P) {s : State} {n} {r} (h : P s) : P (calRefuse s n r) := by
  unfold calRefuse
  refine evt_keeps hregs heth hint hstl hout ?_
  refine calResult_keeps hregs ?_
  assumption

theorem refoscRequest_keeps (hregs : Keep.regs P) (htime : Keep.time P) (heth : Keep.eth P) (hint : Keep.int P) (hstl : Keep.stl P) (hout : Keep.out P) {s : State} {at_} (h : P s) : P (refoscRequest s at_) := by
  unfold refoscRequest
  refine Keep.ite ?_ ?_
  · assumption
  · refine Keep.ite ?_ ?_
    · extract_lets -underBinder -merge -useContext +onlyGivenNames x
      clear_value x
      extract_lets -underBinder -merge -useContext +onlyGivenNames x
      have hx : P x := by
        subst x
        refine rset_keeps hregs ?_
        assumption
      clear_value x
      refine Keep.set_time htime ?_
      assumption
    · refine evt_keeps hregs heth hint hstl hout ?_
      refine rsetBit_keeps hregs ?_
      assumption

theorem calAccept_keeps (hregs : Keep.regs P) (hsheaves : Keep.sheaves P) {s : State} {n} {kind} {port} {at_} (h : P s) : P (calAccept s n kind port at_) := by
  unfold calAccept
  extract_lets -underBinder -merge -useContext +onlyGivenNames x
  clear_value x
  extract_lets -underBinder -merge -useContext +onlyGivenNames x
  clear_value x
  extract_lets -underBinder -merge -useContext +onlyGivenNames x
  clear_value x
  extract_lets -underBinder -merge -useContext +onlyGivenNames x
  clear_value x
  extract_lets -underBinder -merge -useContext +onlyGivenNames x
  clear_value x
  refine State.updSheaf_keeps hsheaves ?_
  refine rset_keeps hregs ?_
  assumption

theorem calRequest_keeps (hregs : Keep.regs P) (htime : Keep.time P) (hsheaves : Keep.sheaves P) (heth : Keep.eth P) (hint : Keep.int P) (hstl : Keep.stl P) (hout : Keep.out P) {kind} {unit} {at_} {s : State} (h : P s) : P (calRequest kind unit at_ s) := by
  unfold calRequest
  refine Keep.ite ?_ ?_
  · refine refoscRequest_keeps hregs htime heth hint hstl hout ?_
    assumption
  · refine Keep.ite ?_ ?_
    · extract_lets -underBinder -merge -useContext +onlyGivenNames x
      clear_value x
      refine Keep.ite ?_ ?_
      · refine calRefuse_keeps hregs heth hint hstl hout ?_
        assumption
      · refine Keep.ite ?_ ?_
        · refine calRefuse_keeps hregs heth hint hstl hout ?_
          assumption
        · refine calAccept_keeps hregs hsheaves ?_
          assumption
    · extract_lets -underBinder -merge -useContext +onlyGivenNames x
      clear_value x
      refine Keep.ite ?_ ?_
      · refine calRefuse_keeps hregs heth hint hstl hout ?_
        assumption
      · refine Keep.ite ?_ ?_
        · refine calRefuse_keeps hregs heth hint hstl hout ?_
          assumption
        · refine Keep.ite ?_ ?_
          · refine calRefuse_keeps hregs heth hint hstl hout ?_
            assumption
          · refine calAccept_keeps hregs hsheaves ?_
            assumption

theorem calReqWrite_keeps (hregs : Keep.regs P) (htime : Keep.time P) (hsheaves : Keep.sheaves P) (heth : Keep.eth P) (hint : Keep.int P) (hstl : Keep.stl P) (hout : Keep.out P) {v} {s : State} (h : P s) : P (calReqWrite v s) := by
  unfold calReqWrite
  refine calRequest_keeps hregs htime hsheaves heth hint hstl hout ?_
  assumption

theorem loopEnd_keeps (hregs : Keep.regs P) (hports : Keep.ports P) (heth : Keep.eth P) (hflt : Keep.flt P) (hint : Keep.int P) (hstl : Keep.stl P) (hout : Keep.out P) {s : State} {p} {action} {cond} (h : P s) : P (loopEnd s p action cond) := by
  unfold loopEnd
  extract_lets -underBinder -merge -useContext +onlyGivenNames x
  clear_value x
  extract_lets -underBinder -merge -useContext +onlyGivenNames x
  clear_value x
  extract_lets -underBinder -merge -useContext +onlyGivenNames x
  have hx : P x := by
    subst x
    refine Keep.set_flt hflt ?_
    assumption
  clear_value x
  extract_lets -underBinder -merge -useContext +onlyGivenNames x
  clear_value x
  extract_lets -underBinder -merge -useContext +onlyGivenNames x
  have hx : P x := by
    subst x
    refine Keep.ite ?_ ?_
    · refine State.updPort_keeps hports ?_
      refine holdPort_keeps hregs hports ?_
      assumption
    · assumption
  clear_value x
  extract_lets -underBinder -merge -useContext +onlyGivenNames x
  have hx : P x := by
    subst x
    refine Keep.ite ?_ ?_
    · refine evt_keeps hregs heth hint hstl hout ?_
      refine rsetBit_keeps hregs ?_
      assumption
    · assumption
  clear_value x
  extract_lets -underBinder -merge -useContext +onlyGivenNames x
  have hx : P x := by
    subst x
    refine Keep.ite ?_ ?_
    · assumption
    · refine bump_keeps hregs ?_
      assumption
  clear_value x
  refine fault_keeps hregs heth hflt hint hstl hout ?_
  assumption

theorem loopBegin_keeps (hregs : Keep.regs P) (hports : Keep.ports P) (hlnk : Keep.lnk P) (heth : Keep.eth P) (hflt : Keep.flt P) (hint : Keep.int P) (hstl : Keep.stl P) (hout : Keep.out P) {s : State} {n} (h : P s) : P (loopBegin s n) := by
  unfold loopBegin
  extract_lets -underBinder -merge -useContext +onlyGivenNames x
  clear_value x
  refine Keep.ite ?_ ?_
  · assumption
  · split
    · extract_lets -underBinder -merge -useContext +onlyGivenNames x
      clear_value x
      extract_lets -underBinder -merge -useContext +onlyGivenNames x
      have hx : P x := by
        subst x
        refine Keep.set_flt hflt ?_
        assumption
      clear_value x
      split
      · refine Keep.pat2 ?_ (by assumption)
        refine gateLoop_keeps hregs hlnk heth hint hstl hout ?_
        refine holdPort_keeps hregs hports ?_
        assumption
      · refine loopEnd_keeps hregs hports heth hflt hint hstl hout ?_
        refine Keep.pat2 ?_ (by assumption)
        refine gateLoop_keeps hregs hlnk heth hint hstl hout ?_
        refine holdPort_keeps hregs hports ?_
        assumption
    · assumption

theorem calStart_keeps (hregs : Keep.regs P) (htime : Keep.time P) (hports : Keep.ports P) (hsheaves : Keep.sheaves P) (hspks : Keep.spks P) (hholds : Keep.holds P) (hlnk : Keep.lnk P) (heth : Keep.eth P) (hflt : Keep.flt P) (hint : Keep.int P) (hstl : Keep.stl P) (hfree : Keep.free P) (hout : Keep.out P) {s : State} {n} {b} {j} (h : P s) : P (calStart s n b j) := by
  unfold calStart
  extract_lets -underBinder -merge -useContext +onlyGivenNames x
  have hx : P x := by
    subst x
    refine reach_keeps htime ?_
    assumption
  clear_value x
  extract_lets -underBinder -merge -useContext +onlyGivenNames x
  have hx : P x := by
    subst x
    refine State.updSheaf_keeps hsheaves ?_
    assumption
  clear_value x
  extract_lets -underBinder -merge -useContext +onlyGivenNames x
  have hx : P x := by
    subst x
    refine rsetFld_keeps hregs ?_
    assumption
  clear_value x
  refine Keep.ite ?_ ?_
  · extract_lets -underBinder -merge -useContext +onlyGivenNames x
    have hx : P x := by
      subst x
      refine spikeBlank_keeps hregs hsheaves hspks hholds heth hint hstl hfree hout ?_
      assumption
    clear_value x
    refine setBlank_keeps hregs ?_
    refine rsetBit_keeps hregs ?_
    refine State.updSheaf_keeps hsheaves ?_
    assumption
  · extract_lets -underBinder -merge -useContext +onlyGivenNames x
    clear_value x
    extract_lets -underBinder -merge -useContext +onlyGivenNames x
    have hx : P x := by
      subst x
      refine recipTurn_keeps hregs hports ?_
      refine holdPort_keeps hregs hports ?_
      assumption
    clear_value x
    split
    · split
      · refine Keep.pat2 ?_ (by assumption)
        refine gateLoop_keeps hregs hlnk heth hint hstl hout ?_
        assumption
      · refine loopBegin_keeps hregs hports hlnk heth hflt hint hstl hout ?_
        refine dcBegin_keeps hregs hports hsheaves ?_
        refine calEnd_keeps hregs hsheaves heth hint hstl hout ?_
        refine releasePorts_keeps hregs hports ?_
        refine Keep.pat2 ?_ (by assumption)
        refine gateLoop_keeps hregs hlnk heth hint hstl hout ?_
        assumption
    · assumption

theorem loopAbandon_keeps (hregs : Keep.regs P) (hports : Keep.ports P) (heth : Keep.eth P) (hflt : Keep.flt P) (hint : Keep.int P) (hstl : Keep.stl P) (hout : Keep.out P) {s : State} {n} (h : P s) : P (loopAbandon s n) := by
  unfold loopAbandon
  split
  · refine Keep.ite ?_ ?_
    · refine loopEnd_keeps hregs hports heth hflt hint hstl hout ?_
      assumption
    · extract_lets -underBinder -merge -useContext +onlyGivenNames x
      have hx : P x := by
        subst x
        refine holdPort_keeps hregs hports ?_
        assumption
      clear_value x
      refine Keep.set_flt hflt ?_
      assumption
  · assumption

theorem loopWant_keeps (hflt : Keep.flt P) {s : State} {p} (h : P s) : P (loopWant s p) := by
  unfold loopWant
  refine Keep.ite ?_ ?_
  · assumption
  · refine Keep.set_flt hflt ?_
    assumption

theorem calAbandon_keeps (hregs : Keep.regs P) (hports : Keep.ports P) (hsheaves : Keep.sheaves P) (heth : Keep.eth P) (hint : Keep.int P) (hstl : Keep.stl P) (hout : Keep.out P) {s : State} {n} (h : P s) : P (calAbandon s n) := by
  unfold calAbandon
  split
  · refine Keep.ite ?_ ?_
    · assumption
    · extract_lets -underBinder -merge -useContext +onlyGivenNames x
      have hx : P x := by
        subst x
        refine releasePorts_keeps hregs hports ?_
        assumption
      clear_value x
      refine Keep.ite ?_ ?_
      · refine State.updSheaf_keeps hsheaves ?_
        assumption
      · refine Keep.ite ?_ ?_
        · refine calEnd_keeps hregs hsheaves heth hint hstl hout ?_
          assumption
        · refine State.updSheaf_keeps hsheaves ?_
          assumption
  · assumption

theorem calStop_keeps (hregs : Keep.regs P) (hports : Keep.ports P) (hsheaves : Keep.sheaves P) (heth : Keep.eth P) (hint : Keep.int P) (hstl : Keep.stl P) (hout : Keep.out P) {s : State} {n} (h : P s) : P (calStop s n) := by
  unfold calStop
  split
  · extract_lets -underBinder -merge -useContext +onlyGivenNames x
    have hx : P x := by
      subst x
      refine releasePorts_keeps hregs hports ?_
      assumption
    clear_value x
    refine Keep.ite ?_ ?_
    · refine State.updSheaf_keeps hsheaves ?_
      assumption
    · refine calEnd_keeps hregs hsheaves heth hint hstl hout ?_
      assumption
  · assumption

theorem applyCal_keeps (hports : Keep.ports P) {s : State} {p} {k} {v} (h : P s) : P (applyCal s p k v) := by
  unfold applyCal
  refine State.updPort_keeps hports ?_
  assumption

theorem calKeep_keeps (hregs : Keep.regs P) (hports : Keep.ports P) {s : State} {p} {k} {v} (h : P s) : P (calKeep s p k v) := by
  unfold calKeep
  extract_lets -underBinder -merge -useContext +onlyGivenNames x
  clear_value x
  extract_lets -underBinder -merge -useContext +onlyGivenNames x
  have hx : P x := by
    subst x
    refine rwrite_keeps hregs ?_
    assumption
  clear_value x
  refine applyCal_keeps hports ?_
  assumption

theorem calPortResult_keeps (hregs : Keep.regs P) (hports : Keep.ports P) {s : State} {p} {kind} {vals} (h : P s) : P (calPortResult s p kind vals) := by
  unfold calPortResult
  extract_lets -underBinder -merge -useContext +onlyGivenNames x
  clear_value x
  split
  · refine rsetBit_keeps hregs ?_
    refine calKeep_keeps hregs hports ?_
    refine calKeep_keeps hregs hports ?_
    assumption
  · refine rsetBit_keeps hregs ?_
    refine calKeep_keeps hregs hports ?_
    assumption
  · refine rset_keeps hregs ?_
    refine rset_keeps hregs ?_
    assumption
  · refine rsetBit_keeps hregs ?_
    refine calKeep_keeps hregs hports ?_
    refine calKeep_keeps hregs hports ?_
    assumption
  · assumption

theorem calRecipResult_keeps (hregs : Keep.regs P) (hports : Keep.ports P) {s : State} {n} {vals} (h : P s) : P (calRecipResult s n vals) := by
  unfold calRecipResult
  refine Keep.foldl ?_ ?_
  · assumption
  · intro _ _ _
    refine rsetBit_keeps hregs ?_
    refine calKeep_keeps hregs hports ?_
    assumption

theorem calApply_keeps (hports : Keep.ports P) {s : State} {n} (h : P s) : P (calApply s n) := by
  unfold calApply
  refine Keep.foldl ?_ ?_
  · assumption
  · intro _ _ _
    refine State.updPort_keeps hports ?_
    assumption

theorem calKeepWrite_keeps (hregs : Keep.regs P) {lvl} {a} {v} {s : State} (h : P s) : P (calKeepWrite lvl a v s) := by
  unfold calKeepWrite
  refine Keep.ite ?_ ?_
  · refine rwrite_keeps hregs ?_
    assumption
  · assumption

theorem startupKind_keeps (hregs : Keep.regs P) (hports : Keep.ports P) (hlnk : Keep.lnk P) (heth : Keep.eth P) (hint : Keep.int P) (hstl : Keep.stl P) (hout : Keep.out P) {n} {p} {kind} {vals} {s : State} (h : P s) : P (startupKind n p kind vals s) := by
  unfold startupKind
  split
  · split
    · refine calResult_keeps hregs ?_
      refine calPortResult_keeps hregs hports ?_
      refine Keep.pat2 ?_ (by assumption)
      refine gateLoop_keeps hregs hlnk heth hint hstl hout ?_
      assumption
    · refine calResult_keeps hregs ?_
      refine Keep.pat2 ?_ (by assumption)
      refine gateLoop_keeps hregs hlnk heth hint hstl hout ?_
      assumption
  · refine calResult_keeps hregs ?_
    refine calPortResult_keeps hregs hports ?_
    assumption

theorem startupPort_keeps (hregs : Keep.regs P) (hports : Keep.ports P) (hlnk : Keep.lnk P) (heth : Keep.eth P) (hint : Keep.int P) (hstl : Keep.stl P) (hout : Keep.out P) {n} {st} {p} (h : P st.1) : P (startupPort n st p).1 := by
  unfold startupPort
  extract_lets -underBinder -merge -useContext +onlyGivenNames x
  clear_value x
  dsimp -zeta only
  refine startupKind_keeps hregs hports hlnk heth hint hstl hout ?_
  refine startupKind_keeps hregs hports hlnk heth hint hstl hout ?_
  refine startupKind_keeps hregs hports hlnk heth hint hstl hout ?_
  refine startupKind_keeps hregs hports hlnk heth hint hstl hout ?_
  assumption

theorem startupSheaf_keeps (hregs : Keep.regs P) (hports : Keep.ports P) (hlnk : Keep.lnk P) (heth : Keep.eth P) (hint : Keep.int P) (hstl : Keep.stl P) (hout : Keep.out P) {st} {n} (h : P st.1) : P (startupSheaf st n).1 := by
  unfold startupSheaf
  extract_lets -underBinder -merge -useContext +onlyGivenNames x
  clear_value x
  extract_lets -underBinder -merge -useContext +onlyGivenNames x
  have hx : P x := by
    subst x
    refine calResult_keeps hregs ?_
    refine rsetFld_keeps hregs ?_
    assumption
  clear_value x
  extract_lets -underBinder -merge -useContext +onlyGivenNames x
  have hx : P x.1 := by
    subst x
    refine Keep.foldl1 ?_ ?_
    · dsimp -zeta only
      assumption
    · intro _ _ _
      refine startupPort_keeps hregs hports hlnk heth hint hstl hout ?_
      assumption
  clear_value x
  split
  · split
    · dsimp -zeta only
      refine calResult_keeps hregs ?_
      refine calRecipResult_keeps hregs hports ?_
      refine Keep.pat2 ?_ (by assumption)
      refine gateLoop_keeps hregs hlnk heth hint hstl hout ?_
      assumption
    · dsimp -zeta only
      refine calResult_keeps hregs ?_
      refine Keep.pat2 ?_ (by assumption)
      refine gateLoop_keeps hregs hlnk heth hint hstl hout ?_
      assumption
  · assumption

theorem vcobResume_keeps (hregs : Keep.regs P) (hsheaves : Keep.sheaves P) {s : State} {n} (h : P s) : P (vcobResume s n) := by
  unfold vcobResume
  extract_lets -underBinder -merge -useContext +onlyGivenNames x
  clear_value x
  refine Keep.ite ?_ ?_
  · refine setBlank_keeps hregs ?_
    refine State.updSheaf_keeps hsheaves ?_
    assumption
  · assumption

theorem execIq_keeps (hregs : Keep.regs P) (htime : Keep.time P) (hsheaves : Keep.sheaves P) (heth : Keep.eth P) (hint : Keep.int P) (hstl : Keep.stl P) (hout : Keep.out P) {x1} {p} {at_} {s : State} (h : P s) {t : State} (e : execIq x1 p at_ s = .next t) : P t := by
  obtain rfl := Host.Outcome.next.inj e
  refine calRequest_keeps hregs htime hsheaves heth hint hstl hout ?_
  assumption

theorem execFbw_keeps (hregs : Keep.regs P) (htime : Keep.time P) (hsheaves : Keep.sheaves P) (heth : Keep.eth P) (hint : Keep.int P) (hstl : Keep.stl P) (hout : Keep.out P) {x1} {p} {at_} {s : State} (h : P s) {t : State} (e : execFbw x1 p at_ s = .next t) : P t := by
  obtain rfl := Host.Outcome.next.inj e
  refine calRequest_keeps hregs htime hsheaves heth hint hstl hout ?_
  assumption

theorem execDcstat_keeps (hregs : Keep.regs P) (htime : Keep.time P) (hsheaves : Keep.sheaves P) (heth : Keep.eth P) (hint : Keep.int P) (hstl : Keep.stl P) (hout : Keep.out P) {x1} {p} {at_} {s : State} (h : P s) {t : State} (e : execDcstat x1 p at_ s = .next t) : P t := by
  obtain rfl := Host.Outcome.next.inj e
  refine calRequest_keeps hregs htime hsheaves heth hint hstl hout ?_
  assumption

theorem execLoleak_keeps (hregs : Keep.regs P) (htime : Keep.time P) (hsheaves : Keep.sheaves P) (heth : Keep.eth P) (hint : Keep.int P) (hstl : Keep.stl P) (hout : Keep.out P) {x1} {p} {at_} {s : State} (h : P s) {t : State} (e : execLoleak x1 p at_ s = .next t) : P t := by
  obtain rfl := Host.Outcome.next.inj e
  refine calRequest_keeps hregs htime hsheaves heth hint hstl hout ?_
  assumption

theorem execRecip_keeps (hregs : Keep.regs P) (htime : Keep.time P) (hsheaves : Keep.sheaves P) (heth : Keep.eth P) (hint : Keep.int P) (hstl : Keep.stl P) (hout : Keep.out P) {x1} {n} {at_} {s : State} (h : P s) {t : State} (e : execRecip x1 n at_ s = .next t) : P t := by
  obtain rfl := Host.Outcome.next.inj e
  refine calRequest_keeps hregs htime hsheaves heth hint hstl hout ?_
  assumption

theorem execVcob_keeps (hregs : Keep.regs P) (htime : Keep.time P) (hsheaves : Keep.sheaves P) (heth : Keep.eth P) (hint : Keep.int P) (hstl : Keep.stl P) (hout : Keep.out P) {x1} {n} {at_} {s : State} (h : P s) {t : State} (e : execVcob x1 n at_ s = .next t) : P t := by
  obtain rfl := Host.Outcome.next.inj e
  refine calRequest_keeps hregs htime hsheaves heth hint hstl hout ?_
  assumption

theorem execRefosc_keeps (hregs : Keep.regs P) (htime : Keep.time P) (heth : Keep.eth P) (hint : Keep.int P) (hstl : Keep.stl P) (hout : Keep.out P) {x1} {s : State} (h : P s) {t : State} (e : execRefosc x1 s = .next t) : P t := by
  obtain rfl := Host.Outcome.next.inj e
  refine refoscRequest_keeps hregs htime heth hint hstl hout ?_
  assumption

theorem execCalibrationBegin_keeps (hregs : Keep.regs P) (htime : Keep.time P) (hports : Keep.ports P) (hsheaves : Keep.sheaves P) (hspks : Keep.spks P) (hholds : Keep.holds P) (hlnk : Keep.lnk P) (heth : Keep.eth P) (hflt : Keep.flt P) (hint : Keep.int P) (hstl : Keep.stl P) (hfree : Keep.free P) (hout : Keep.out P) {n} {s : State} (h : P s) {t : State} (e : execCalibrationBegin n s = .next t) : P t := by
  obtain rfl := Host.Outcome.next.inj e
  split
  · refine Keep.ite ?_ ?_
    · assumption
    · extract_lets -underBinder -merge -useContext +onlyGivenNames x
      clear_value x
      extract_lets -underBinder -merge -useContext +onlyGivenNames x
      clear_value x
      refine Keep.ite ?_ ?_
      · extract_lets -underBinder -merge -useContext +onlyGivenNames x
        clear_value x
        refine State.updSheaf_keeps hsheaves ?_
        assumption
      · refine calStart_keeps hregs htime hports hsheaves hspks hholds hlnk heth hflt hint hstl hfree hout ?_
        assumption
  · assumption

theorem execCalibrationComplete_keeps (hregs : Keep.regs P) (hports : Keep.ports P) (hsheaves : Keep.sheaves P) (hlnk : Keep.lnk P) (heth : Keep.eth P) (hflt : Keep.flt P) (hint : Keep.int P) (hstl : Keep.stl P) (hout : Keep.out P) {n} {vals} {s : State} (h : P s) {t : State} (e : execCalibrationComplete n vals s = .next t) : P t := by
  obtain rfl := Host.Outcome.next.inj e
  split
  · refine Keep.ite ?_ ?_
    · assumption
    · extract_lets -underBinder -merge -useContext +onlyGivenNames x
      have hx : P x := by
        subst x
        refine rsetFld_keeps hregs ?_
        assumption
      clear_value x
      extract_lets -underBinder -merge -useContext +onlyGivenNames x
      have hx : P x := by
        subst x
        refine Keep.ite ?_ ?_
        · refine vcobResume_keeps hregs hsheaves ?_
          refine rsetBit_keeps hregs ?_
          assumption
        · refine Keep.ite ?_ ?_
          · refine calRecipResult_keeps hregs hports ?_
            assumption
          · refine calPortResult_keeps hregs hports ?_
            assumption
      clear_value x
      refine loopBegin_keeps hregs hports hlnk heth hflt hint hstl hout ?_
      refine dcBegin_keeps hregs hports hsheaves ?_
      refine calEnd_keeps hregs hsheaves heth hint hstl hout ?_
      refine releasePorts_keeps hregs hports ?_
      assumption
  · assumption

theorem execRefoscComplete_keeps (hregs : Keep.regs P) (htime : Keep.time P) (heth : Keep.eth P) (hint : Keep.int P) (hstl : Keep.stl P) (hout : Keep.out P) {err} {s : State} (h : P s) {t : State} (e : execRefoscComplete err s = .next t) : P t := by
  obtain rfl := Host.Outcome.next.inj e
  refine Keep.ite ?_ ?_
  · extract_lets -underBinder -merge -useContext +onlyGivenNames x
    have hx : P x := by
      subst x
      refine reach_keeps htime ?_
      assumption
    clear_value x
    refine evt_keeps hregs heth hint hstl hout ?_
    refine rset_keeps hregs ?_
    refine rset_keeps hregs ?_
    assumption
  · assumption

theorem execCalResultWrite_keeps (hregs : Keep.regs P) {i} {p} {k} {v} {s : State} (h : P s) {t : State} (e : execCalResultWrite i p k v s = .next t) : P t := by
  obtain rfl := Host.Outcome.next.inj e
  refine calKeepWrite_keeps hregs ?_
  assumption

theorem txRequest_keeps (hregs : Keep.regs P) (hholds : Keep.holds P) (hlnk : Keep.lnk P) (hcores : Keep.cores P) (heth : Keep.eth P) (hint : Keep.int P) (hstl : Keep.stl P) (hout : Keep.out P) {k} {s : State} (h : P s) : P (txRequest k s) := by
  unfold txRequest
  split
  · assumption
  · refine Keep.ite ?_ ?_
    · assumption
    · dsimp -zeta only
      extract_lets -underBinder -merge -useContext +onlyGivenNames x
      have hx : P x := by
        subst x
        refine takeOut_keeps hcores ?_
        assumption
      clear_value x
      extract_lets -underBinder -merge -useContext +onlyGivenNames x
      have hx : P x := by
        subst x
        refine Keep.ite ?_ ?_
        · refine passHold_keeps hholds ?_
          assumption
        · assumption
      clear_value x
      extract_lets -underBinder -merge -useContext +onlyGivenNames x
      have hx : P x := by
        subst x
        refine updLnk_keeps hlnk ?_
        assumption
      clear_value x
      split
      · extract_lets -underBinder -merge -useContext +onlyGivenNames x
        have hx : P x := by
          subst x
          refine Keep.ite ?_ ?_
          · refine evt_keeps hregs heth hint hstl hout ?_
            refine bump_keeps hregs ?_
            assumption
          · assumption
        clear_value x
        refine reqEnd_keeps hregs hholds hlnk hcores ?_
        assumption
      · refine updLnk_keeps hlnk ?_
        assumption

theorem prunePlan_keeps (hlnk : Keep.lnk P) {s : State} {d} (h : P s) : P (prunePlan s d) := by
  unfold prunePlan
  refine updLnk_keeps hlnk ?_
  assumption

theorem grantTx_keeps (hsheaves : Keep.sheaves P) (hlnk : Keep.lnk P) {s : State} {n} {c} (h : P s) : P (grantTx s n c) := by
  unfold grantTx
  extract_lets -underBinder -merge -useContext +onlyGivenNames x
  have hx : P x := by
    subst x
    refine updLnk_keeps hlnk ?_
    assumption
  clear_value x
  refine State.updSheaf_keeps hsheaves ?_
  assumption

theorem gateRequest_keeps (hregs : Keep.regs P) (hsheaves : Keep.sheaves P) (hholds : Keep.holds P) (hwin : Keep.win P) (hlnk : Keep.lnk P) (hcores : Keep.cores P) (heth : Keep.eth P) (hint : Keep.int P) (hstl : Keep.stl P) (hout : Keep.out P) {s : State} {r} {n} {t5} {power} {h5} {centre} {df} {follow} {cell} (h : P s) : P (gateRequest s r n t5 power h5 centre df follow cell) := by
  unfold gateRequest
  extract_lets -underBinder -merge -useContext +onlyGivenNames x
  clear_value x
  extract_lets -underBinder -merge -useContext +onlyGivenNames x
  clear_value x
  extract_lets -underBinder -merge -useContext +onlyGivenNames x
  clear_value x
  extract_lets -underBinder -merge -useContext +onlyGivenNames x
  clear_value x
  extract_lets -underBinder -merge -useContext +onlyGivenNames x
  have hx : P x := by
    subst x
    refine updReq_keeps hlnk ?_
    assumption
  clear_value x
  extract_lets -underBinder -merge -useContext +onlyGivenNames x
  clear_value x
  dsimp -zeta only
  split
  · refine reqEnd_keeps hregs hholds hlnk hcores ?_
    refine gateVerdict_keeps hwin ?_
    refine gateJudge_keeps hregs hlnk heth hint hstl hout ?_
    assumption
  · extract_lets -underBinder -merge -useContext +onlyGivenNames x
    have hx : P x := by
      subst x
      refine updReq_keeps hlnk ?_
      refine gateJudge_keeps hregs hlnk heth hint hstl hout ?_
      assumption
    clear_value x
    refine grantTx_keeps hsheaves hlnk ?_
    assumption

theorem decideRequest_keeps (hregs : Keep.regs P) (hsheaves : Keep.sheaves P) (hholds : Keep.holds P) (hwin : Keep.win P) (hlnk : Keep.lnk P) (hcores : Keep.cores P) (heth : Keep.eth P) (hint : Keep.int P) (hstl : Keep.stl P) (hout : Keep.out P) {s : State} {c} {r} (h : P s) : P (decideRequest s c r) := by
  unfold decideRequest
  dsimp -zeta only
  extract_lets -underBinder -merge -useContext +onlyGivenNames x
  clear_value x
  split
  · refine reqEnd_keeps hregs hholds hlnk hcores ?_
    assumption
  · refine updReq_keeps hlnk ?_
    assumption
  · extract_lets -underBinder -merge -useContext +onlyGivenNames x
    clear_value x
    extract_lets -underBinder -merge -useContext +onlyGivenNames x
    clear_value x
    refine gateRequest_keeps hregs hsheaves hholds hwin hlnk hcores heth hint hstl hout ?_
    assumption

theorem decideFollow_keeps (hregs : Keep.regs P) (hsheaves : Keep.sheaves P) (hholds : Keep.holds P) (hwin : Keep.win P) (hlnk : Keep.lnk P) (hcores : Keep.cores P) (heth : Keep.eth P) (hint : Keep.int P) (hstl : Keep.stl P) (hout : Keep.out P) {s : State} {r} {w} (h : P s) : P (decideFollow s r w) := by
  unfold decideFollow
  extract_lets -underBinder -merge -useContext +onlyGivenNames x
  clear_value x
  split
  · refine updReq_keeps hlnk ?_
    assumption
  · refine gateRequest_keeps hregs hsheaves hholds hwin hlnk hcores heth hint hstl hout ?_
    assumption

theorem txRefused_keeps (hregs : Keep.regs P) (hholds : Keep.holds P) (hlnk : Keep.lnk P) (hcores : Keep.cores P) {s : State} {f} (h : P s) : P (txRefused s f) := by
  unfold txRefused
  split
  · split
    · refine reqEnd_keeps hregs hholds hlnk hcores ?_
      assumption
    · assumption
  · assumption

theorem txEnded_keeps (hregs : Keep.regs P) (hholds : Keep.holds P) (hlnk : Keep.lnk P) (hcores : Keep.cores P) {s : State} {f} {t5} (h : P s) : P (txEnded s f t5) := by
  unfold txEnded
  split
  · split
    · refine Keep.ite ?_ ?_
      · extract_lets -underBinder -merge -useContext +onlyGivenNames x
        clear_value x
        refine updLnk_keeps hlnk ?_
        assumption
      · refine reqEnd_keeps hregs hholds hlnk hcores ?_
        assumption
    · assumption
  · assumption

theorem reqAcked_keeps (hregs : Keep.regs P) (hholds : Keep.holds P) (hlnk : Keep.lnk P) (hcores : Keep.cores P) {s : State} {id} (h : P s) : P (reqAcked s id) := by
  unfold reqAcked
  split
  · refine reqEnd_keeps hregs hholds hlnk hcores ?_
    assumption
  · assumption

theorem ackMissed_keeps (hregs : Keep.regs P) (htime : Keep.time P) (hholds : Keep.holds P) (hlnk : Keep.lnk P) (hcores : Keep.cores P) (heth : Keep.eth P) (hint : Keep.int P) (hstl : Keep.stl P) (hout : Keep.out P) {s : State} {x1} (h : P s) : P (ackMissed s x1) := by
  unfold ackMissed
  extract_lets -underBinder -merge -useContext +onlyGivenNames x
  have hx : P x := by
    subst x
    refine reach_keeps htime ?_
    assumption
  clear_value x
  extract_lets -underBinder -merge -useContext +onlyGivenNames x
  have hx : P x := by
    subst x
    refine evt_keeps hregs heth hint hstl hout ?_
    refine bump_keeps hregs ?_
    refine updLnk_keeps hlnk ?_
    assumption
  clear_value x
  split
  · refine Keep.ite ?_ ?_
    · refine reqEnd_keeps hregs hholds hlnk hcores ?_
      assumption
    · refine Keep.ite ?_ ?_
      · refine reqEnd_keeps hregs hholds hlnk hcores ?_
        assumption
      · refine updReq_keeps hlnk ?_
        assumption
  · assumption

theorem execTxRequest_keeps (hregs : Keep.regs P) (hholds : Keep.holds P) (hlnk : Keep.lnk P) (hcores : Keep.cores P) (heth : Keep.eth P) (hint : Keep.int P) (hstl : Keep.stl P) (hout : Keep.out P) {core} {s : State} (h : P s) {t : State} (e : execTxRequest core s = .next t) : P t := by
  obtain rfl := Host.Outcome.next.inj e
  refine txRequest_keeps hregs hholds hlnk hcores heth hint hstl hout ?_
  assumption

theorem execExpectedAckTimeout_keeps (hregs : Keep.regs P) (htime : Keep.time P) (hholds : Keep.holds P) (hlnk : Keep.lnk P) (hcores : Keep.cores P) (heth : Keep.eth P) (hint : Keep.int P) (hstl : Keep.stl P) (hout : Keep.out P) {s : State} (h : P s) {t : State} (e : execExpectedAckTimeout s = .next t) : P t := by
  obtain rfl := Host.Outcome.next.inj e
  split
  · refine ackMissed_keeps hregs htime hholds hlnk hcores heth hint hstl hout ?_
    assumption
  · assumption

theorem fltRefresh_keeps (hregs : Keep.regs P) {s : State} {n} (h : P s) : P (fltRefresh s n) := by
  unfold fltRefresh
  refine Keep.foldl ?_ ?_
  · assumption
  · intro _ _ _
    refine rsetBit_keeps hregs ?_
    assumption

theorem afltEvent_keeps (hregs : Keep.regs P) (heth : Keep.eth P) (hint : Keep.int P) (hstl : Keep.stl P) (hout : Keep.out P) {s : State} {p} (h : P s) : P (afltEvent s p) := by
  unfold afltEvent
  extract_lets -underBinder -merge -useContext +onlyGivenNames x
  clear_value x
  extract_lets -underBinder -merge -useContext +onlyGivenNames x
  have hx : P x := by
    subst x
    refine edgeOccur_keeps hint ?_
    refine eventSettle_keeps heth ?_
    assumption
  clear_value x
  refine mgmtEvent_keeps hregs heth hout ?_
  refine chPulse_keeps hint hstl ?_
  assumption

theorem setAflt_keeps (hregs : Keep.regs P) (hports : Keep.ports P) (heth : Keep.eth P) (hint : Keep.int P) (hstl : Keep.stl P) (hout : Keep.out P) {s : State} {p} {st} {cause} {from5} (h : P s) : P (setAflt s p st cause from5) := by
  unfold setAflt
  extract_lets -underBinder -merge -useContext +onlyGivenNames x
  clear_value x
  extract_lets -underBinder -merge -useContext +onlyGivenNames x
  have hx : P x := by
    subst x
    refine rset_keeps hregs ?_
    assumption
  clear_value x
  extract_lets -underBinder -merge -useContext +onlyGivenNames x
  clear_value x
  extract_lets -underBinder -merge -useContext +onlyGivenNames x
  have hx : P x := by
    subst x
    refine State.updPort_keeps hports ?_
    assumption
  clear_value x
  extract_lets -underBinder -merge -useContext +onlyGivenNames x
  have hx : P x := by
    subst x
    refine fltRefresh_keeps hregs ?_
    assumption
  clear_value x
  refine Keep.ite ?_ ?_
  · refine afltEvent_keeps hregs heth hint hstl hout ?_
    assumption
  · assumption

theorem aerialMeasure_keeps (hregs : Keep.regs P) (hports : Keep.ports P) (heth : Keep.eth P) (hint : Keep.int P) (hstl : Keep.stl P) (hout : Keep.out P) {s : State} {p} {rl} {positive} {e5} (h : P s) : P (aerialMeasure s p rl positive e5) := by
  unfold aerialMeasure
  extract_lets -underBinder -merge -useContext +onlyGivenNames x
  clear_value x
  extract_lets -underBinder -merge -useContext +onlyGivenNames x
  clear_value x
  extract_lets -underBinder -merge -useContext +onlyGivenNames x
  clear_value x
  extract_lets -underBinder -merge -useContext +onlyGivenNames x
  clear_value x
  refine Keep.ite ?_ ?_
  · refine Keep.ite ?_ ?_
    · refine setAflt_keeps hregs hports heth hint hstl hout ?_
      assumption
    · refine Keep.ite ?_ ?_
      · refine setAflt_keeps hregs hports heth hint hstl hout ?_
        assumption
      · refine setAflt_keeps hregs hports heth hint hstl hout ?_
        assumption
  · refine Keep.ite ?_ ?_
    · assumption
    · refine Keep.ite ?_ ?_
      · refine setAflt_keeps hregs hports heth hint hstl hout ?_
        assumption
      · refine Keep.ite ?_ ?_
        · refine Keep.ite ?_ ?_
          · refine State.updPort_keeps hports ?_
            refine setAflt_keeps hregs hports heth hint hstl hout ?_
            assumption
          · assumption
        · extract_lets -underBinder -merge -useContext +onlyGivenNames x
          clear_value x
          refine Keep.ite ?_ ?_
          · refine setAflt_keeps hregs hports heth hint hstl hout ?_
            assumption
          · refine State.updPort_keeps hports ?_
            assumption

theorem ballFault_keeps (hregs : Keep.regs P) (hports : Keep.ports P) (heth : Keep.eth P) (hint : Keep.int P) (hstl : Keep.stl P) (hout : Keep.out P) {s : State} {p} {v} (h : P s) : P (ballFault s p v) := by
  unfold ballFault
  extract_lets -underBinder -merge -useContext +onlyGivenNames x
  have hx : P x := by
    subst x
    refine rset_keeps hregs ?_
    assumption
  clear_value x
  refine Keep.ite ?_ ?_
  · refine setAflt_keeps hregs hports heth hint hstl hout ?_
    assumption
  · assumption

theorem ballClear_keeps (hregs : Keep.regs P) (hports : Keep.ports P) (heth : Keep.eth P) (hint : Keep.int P) (hstl : Keep.stl P) (hout : Keep.out P) {s : State} {p} {v} (h : P s) : P (ballClear s p v) := by
  unfold ballClear
  extract_lets -underBinder -merge -useContext +onlyGivenNames x
  have hx : P x := by
    subst x
    refine rset_keeps hregs ?_
    assumption
  clear_value x
  refine Keep.ite ?_ ?_
  · refine setAflt_keeps hregs hports heth hint hstl hout ?_
    assumption
  · assumption

theorem afclrWrite_keeps (hregs : Keep.regs P) (hports : Keep.ports P) (heth : Keep.eth P) (hint : Keep.int P) (hstl : Keep.stl P) (hout : Keep.out P) {p} {v} {s : State} (h : P s) : P (afclrWrite p v s) := by
  unfold afclrWrite
  extract_lets -underBinder -merge -useContext +onlyGivenNames x
  clear_value x
  refine Keep.ite ?_ ?_
  · refine setAflt_keeps hregs hports heth hint hstl hout ?_
    assumption
  · assumption

theorem hedStop_keeps (hregs : Keep.regs P) {s : State} {n} (h : P s) : P (hedStop s n) := by
  unfold hedStop
  refine drainState_keeps hregs ?_
  assumption

theorem hedFail_keeps (hregs : Keep.regs P) (heth : Keep.eth P) (hint : Keep.int P) (hstl : Keep.stl P) (hout : Keep.out P) {s : State} {n} {b} (h : P s) : P (hedFail s n b) := by
  unfold hedFail
  refine fltRefresh_keeps hregs ?_
  refine hedStop_keeps hregs ?_
  refine evt_keeps hregs heth hint hstl hout ?_
  assumption

theorem vheadMeasure_keeps (hregs : Keep.regs P) (hfree : Keep.free P) {s : State} (h : P s) : P (vheadMeasure s) := by
  unfold vheadMeasure
  extract_lets -underBinder -merge -useContext +onlyGivenNames x
  clear_value x
  extract_lets -underBinder -merge -useContext +onlyGivenNames x
  have hx : P x := by
    subst x
    refine bumpFree_keeps hfree ?_
    refine rset_keeps hregs ?_
    assumption
  clear_value x
  refine rsetBit_keeps hregs ?_
  assumption

theorem hedStartCheck_keeps (hregs : Keep.regs P) (heth : Keep.eth P) (hint : Keep.int P) (hstl : Keep.stl P) (hfree : Keep.free P) (hout : Keep.out P) {s : State} {n} (h : P s) : P (hedStartCheck s n) := by
  unfold hedStartCheck
  extract_lets -underBinder -merge -useContext +onlyGivenNames x
  have hx : P x := by
    subst x
    refine Keep.ite ?_ ?_
    · assumption
    · refine vheadMeasure_keeps hregs hfree ?_
      assumption
  clear_value x
  refine Keep.ite ?_ ?_
  · refine hedStop_keeps hregs ?_
    refine evt_keeps hregs heth hint hstl hout ?_
    assumption
  · assumption

theorem hedWrite_keeps (hregs : Keep.regs P) {a} {n} {v} {s : State} (h : P s) : P (hedWrite a n v s) := by
  unfold hedWrite
  refine fltRefresh_keeps hregs ?_
  refine rwrite_keeps hregs ?_
  assumption

theorem execBallDcFault_keeps (hregs : Keep.regs P) (hports : Keep.ports P) (heth : Keep.eth P) (hint : Keep.int P) (hstl : Keep.stl P) (hout : Keep.out P) {p} {v} {s : State} (h : P s) {t : State} (e : execBallDcFault p v s = .next t) : P t := by
  obtain rfl := Host.Outcome.next.inj e
  refine ballFault_keeps hregs hports heth hint hstl hout ?_
  assumption

theorem execBallDcClear_keeps (hregs : Keep.regs P) (hports : Keep.ports P) (heth : Keep.eth P) (hint : Keep.int P) (hstl : Keep.stl P) (hout : Keep.out P) {p} {v} {s : State} (h : P s) {t : State} (e : execBallDcClear p v s = .next t) : P t := by
  obtain rfl := Host.Outcome.next.inj e
  refine ballClear_keeps hregs hports heth hint hstl hout ?_
  assumption

theorem execAfclr_keeps (hregs : Keep.regs P) (hports : Keep.ports P) (heth : Keep.eth P) (hint : Keep.int P) (hstl : Keep.stl P) (hout : Keep.out P) {x1} {p} {v} {s : State} (h : P s) {t : State} (e : execAfclr x1 p v s = .next t) : P t := by
  obtain rfl := Host.Outcome.next.inj e
  refine afclrWrite_keeps hregs hports heth hint hstl hout ?_
  assumption

theorem execHeadCurrentLimit_keeps (hregs : Keep.regs P) {n} {s : State} (h : P s) {t : State} (e : execHeadCurrentLimit n s = .next t) : P t := by
  obtain rfl := Host.Outcome.next.inj e
  refine Keep.ite ?_ ?_
  · refine rsetBit_keeps hregs ?_
    assumption
  · assumption

theorem execHeadLimitRelease_keeps (hregs : Keep.regs P) {n} {s : State} (h : P s) {t : State} (e : execHeadLimitRelease n s = .next t) : P t := by
  obtain rfl := Host.Outcome.next.inj e
  refine rsetBit_keeps hregs ?_
  assumption

theorem execHeadShort_keeps (hregs : Keep.regs P) (heth : Keep.eth P) (hint : Keep.int P) (hstl : Keep.stl P) (hout : Keep.out P) {n} {s : State} (h : P s) {t : State} (e : execHeadShort n s = .next t) : P t := by
  obtain rfl := Host.Outcome.next.inj e
  refine Keep.ite ?_ ?_
  · refine hedFail_keeps hregs heth hint hstl hout ?_
    assumption
  · assumption

theorem execHeadOverload_keeps (hregs : Keep.regs P) (heth : Keep.eth P) (hint : Keep.int P) (hstl : Keep.stl P) (hout : Keep.out P) {n} {s : State} (h : P s) {t : State} (e : execHeadOverload n s = .next t) : P t := by
  obtain rfl := Host.Outcome.next.inj e
  refine Keep.ite ?_ ?_
  · refine hedFail_keeps hregs heth hint hstl hout ?_
    assumption
  · assumption

theorem execHeadOpen_keeps (hregs : Keep.regs P) (heth : Keep.eth P) (hint : Keep.int P) (hstl : Keep.stl P) (hout : Keep.out P) {n} {s : State} (h : P s) {t : State} (e : execHeadOpen n s = .next t) : P t := by
  obtain rfl := Host.Outcome.next.inj e
  refine Keep.ite ?_ ?_
  · refine fltRefresh_keeps hregs ?_
    refine rsetBit_keeps hregs ?_
    refine evt_keeps hregs heth hint hstl hout ?_
    assumption
  · assumption

theorem execHeadOpenClear_keeps (hregs : Keep.regs P) {n} {s : State} (h : P s) {t : State} (e : execHeadOpenClear n s = .next t) : P t := by
  obtain rfl := Host.Outcome.next.inj e
  refine fltRefresh_keeps hregs ?_
  refine rsetBit_keeps hregs ?_
  assumption

theorem execHeadBackdrive_keeps (hregs : Keep.regs P) (heth : Keep.eth P) (hint : Keep.int P) (hstl : Keep.stl P) (hout : Keep.out P) {n} {s : State} (h : P s) {t : State} (e : execHeadBackdrive n s = .next t) : P t := by
  obtain rfl := Host.Outcome.next.inj e
  refine Keep.ite ?_ ?_
  · assumption
  · refine hedFail_keeps hregs heth hint hstl hout ?_
    assumption

theorem execVheadReversed_keeps (hregs : Keep.regs P) {v} {s : State} (h : P s) {t : State} (e : execVheadReversed v s = .next t) : P t := by
  obtain rfl := Host.Outcome.next.inj e
  refine Keep.ite ?_ ?_
  · extract_lets -underBinder -merge -useContext +onlyGivenNames x
    have hx : P x := by
      subst x
      refine rset_keeps hregs ?_
      assumption
    clear_value x
    extract_lets -underBinder -merge -useContext +onlyGivenNames x
    have hx : P x := by
      subst x
      refine rsetFld_keeps hregs ?_
      assumption
    clear_value x
    refine Keep.foldl ?_ ?_
    · assumption
    · intro _ _ _
      refine Keep.ite ?_ ?_
      · refine hedStop_keeps hregs ?_
        assumption
      · assumption
  · assumption

theorem execVheadReversalEnd_keeps (hregs : Keep.regs P) (hfree : Keep.free P) {s : State} (h : P s) {t : State} (e : execVheadReversalEnd s = .next t) : P t := by
  obtain rfl := Host.Outcome.next.inj e
  refine Keep.ite ?_ ?_
  · refine vheadMeasure_keeps hregs hfree ?_
    refine rsetBit_keeps hregs ?_
    assumption
  · assumption

end Sys2Proof.Machine
end

