-- ==== Sys2Proof/Laws/KeepTx.lean ====
section
/-!
SUPPORT. Which parts of the state the operations may change: the fault manager, transmission and judgement.
-/

namespace Sys2Proof.Machine

variable {P : State → Prop}

theorem pairShow_keeps (hregs : Keep.regs P) {s : State} (h : P s) : P (pairShow s) := by
  unfold pairShow
  extract_lets -underBinder -merge -useContext +onlyGivenNames x
  have hx : P x := by
    subst x
    refine Keep.foldl ?_ ?_
    · assumption
    · intro _ _ _
      refine rset_keeps hregs ?_
      assumption
  clear_value x
  extract_lets -underBinder -merge -useContext +onlyGivenNames x
  clear_value x
  extract_lets -underBinder -merge -useContext +onlyGivenNames x
  clear_value x
  refine rsetBit_keeps hregs ?_
  refine rsetBit_keeps hregs ?_
  refine rsetBit_keeps hregs ?_
  assumption

theorem loadKey_keeps (hpairs : Keep.pairs P) {s : State} {k} {key} (h : P s) : P (loadKey s k key) := by
  unfold loadKey
  refine Keep.set_pairs hpairs ?_
  assumption

theorem pairService_keeps (hregs : Keep.regs P) (hpairs : Keep.pairs P) {s : State} {k} {svc} (h : P s) : P (pairService s k svc) := by
  unfold pairService
  extract_lets -underBinder -merge -useContext +onlyGivenNames x
  have hx : P x := by
    subst x
    refine Keep.set_pairs hpairs ?_
    assumption
  clear_value x
  extract_lets -underBinder -merge -useContext +onlyGivenNames x
  clear_value x
  refine pairShow_keeps hregs ?_
  refine Keep.set_pairs hpairs ?_
  assumption

theorem pairMismatch_keeps (hregs : Keep.regs P) (hpairs : Keep.pairs P) (heth : Keep.eth P) (hint : Keep.int P) (hstl : Keep.stl P) (hout : Keep.out P) {s : State} {k} (h : P s) : P (pairMismatch s k) := by
  unfold pairMismatch
  refine Keep.ite ?_ ?_
  · assumption
  · extract_lets -underBinder -merge -useContext +onlyGivenNames x
    have hx : P x := by
      subst x
      refine evt_keeps hregs heth hint hstl hout ?_
      refine bump_keeps hregs ?_
      assumption
    clear_value x
    refine pairService_keeps hregs hpairs ?_
    refine Keep.set_pairs hpairs ?_
    assumption

theorem katEnd_keeps (hregs : Keep.regs P) (hpairs : Keep.pairs P) (heth : Keep.eth P) (hflt : Keep.flt P) (hint : Keep.int P) (hstl : Keep.stl P) (hout : Keep.out P) {s : State} {k} {pass} (h : P s) : P (katEnd s k pass) := by
  unfold katEnd
  refine Keep.ite ?_ ?_
  · assumption
  · extract_lets -underBinder -merge -useContext +onlyGivenNames x
    clear_value x
    extract_lets -underBinder -merge -useContext +onlyGivenNames x
    have hx : P x := by
      subst x
      refine pairService_keeps hregs hpairs ?_
      refine bump_keeps hregs ?_
      assumption
    clear_value x
    extract_lets -underBinder -merge -useContext +onlyGivenNames x
    have hx : P x := by
      subst x
      refine Keep.ite ?_ ?_
      · assumption
      · refine evt_keeps hregs heth hint hstl hout ?_
        assumption
    clear_value x
    refine fault_keeps hregs heth hflt hint hstl hout ?_
    assumption

theorem faultPop_keeps (hflt : Keep.flt P) {v} {s : State} (h : P s) : P (faultPop v s) := by
  unfold faultPop
  refine Keep.ite ?_ ?_
  · refine Keep.set_flt hflt ?_
    assumption
  · assumption

theorem ftGo_keeps (hregs : Keep.regs P) (hflt : Keep.flt P) {v} {s : State} (h : P s) : P (ftGo v s) := by
  unfold ftGo
  refine Keep.ite ?_ ?_
  · assumption
  · refine Keep.ite ?_ ?_
    · refine rset_keeps hregs ?_
      assumption
    · refine Keep.set_flt hflt ?_
      assumption

theorem zeroRegion_keeps (hmem : Keep.mem P) (hflt : Keep.flt P) {s : State} {r} {lo} {hi} (h : P s) : P (zeroRegion s r lo hi) := by
  unfold zeroRegion
  refine Keep.set_mem_flt hmem hflt ?_ ?_
  · assumption
  · exact SMap.wf_filter _

theorem zeroRings_keeps (hsheaves : Keep.sheaves P) (hflt : Keep.flt P) {s : State} (h : P s) : P (zeroRings s) := by
  unfold zeroRings
  refine Keep.set_sheaves_flt hsheaves hflt ?_
  assumption

theorem ftRow_keeps (hregs : Keep.regs P) (heth : Keep.eth P) (hflt : Keep.flt P) (hint : Keep.int P) (hstl : Keep.stl P) (hout : Keep.out P) {s : State} {e1} (h : P s) : P (ftRow s e1) := by
  unfold ftRow
  extract_lets -underBinder -merge -useContext +onlyGivenNames x
  clear_value x
  refine bump_keeps hregs ?_
  refine rowRecord_keeps hregs heth hflt hint hstl hout ?_
  extract_lets -underBinder -merge -useContext +onlyGivenNames x
  have hx : P x := by
    subst x
    refine takeSpare_keeps hregs heth hint hstl hout ?_
    assumption
  clear_value x
  refine Keep.set_flt hflt ?_
  assumption

theorem ftEnd_keeps (hregs : Keep.regs P) (hmem : Keep.mem P) (hsheaves : Keep.sheaves P) (hses : Keep.ses P) (hpairs : Keep.pairs P) (heth : Keep.eth P) (hflt : Keep.flt P) (hint : Keep.int P) (hstl : Keep.stl P) (hout : Keep.out P) {s : State} {found} (h : P s) : P (ftEnd s found) := by
  unfold ftEnd
  split
  · assumption
  · extract_lets -underBinder -merge -useContext +onlyGivenNames x
    clear_value x
    extract_lets -underBinder -merge -useContext +onlyGivenNames x
    have hx : P x := by
      subst x
      refine Keep.set_flt hflt ?_
      assumption
    clear_value x
    extract_lets -underBinder -merge -useContext +onlyGivenNames x
    clear_value x
    extract_lets -underBinder -merge -useContext +onlyGivenNames x
    clear_value x
    extract_lets -underBinder -merge -useContext +onlyGivenNames x
    clear_value x
    extract_lets -underBinder -merge -useContext +onlyGivenNames x
    clear_value x
    extract_lets -underBinder -merge -useContext +onlyGivenNames x
    have hx : P x := by
      subst x
      refine Keep.ite ?_ ?_
      · refine zeroRegion_keeps hmem hflt ?_
        assumption
      · assumption
    clear_value x
    extract_lets -underBinder -merge -useContext +onlyGivenNames x
    have hx : P x := by
      subst x
      refine zeroRegion_keeps hmem hflt ?_
      assumption
    clear_value x
    extract_lets -underBinder -merge -useContext +onlyGivenNames x
    clear_value x
    extract_lets -underBinder -merge -useContext +onlyGivenNames x
    have hx : P x := by
      subst x
      refine Keep.ite ?_ ?_
      · refine Keep.set_ses hses ?_
        assumption
      · assumption
    clear_value x
    extract_lets -underBinder -merge -useContext +onlyGivenNames x
    have hx : P x := by
      subst x
      refine Keep.ite ?_ ?_
      · refine rset_keeps hregs ?_
        refine rsetFld_keeps hregs ?_
        assumption
      · assumption
    clear_value x
    extract_lets -underBinder -merge -useContext +onlyGivenNames x
    have hx : P x := by
      subst x
      refine Keep.ite ?_ ?_
      · refine zeroRings_keeps hsheaves hflt ?_
        assumption
      · assumption
    clear_value x
    extract_lets -underBinder -merge -useContext +onlyGivenNames x
    have hx : P x := by
      subst x
      refine Keep.foldl ?_ ?_
      · assumption
      · intro _ _ _
        refine ftRow_keeps hregs heth hflt hint hstl hout ?_
        assumption
    clear_value x
    extract_lets -underBinder -merge -useContext +onlyGivenNames x
    have hx : P x := by
      subst x
      refine Keep.ite ?_ ?_
      · refine bump_keeps hregs ?_
        assumption
      · assumption
    clear_value x
    extract_lets -underBinder -merge -useContext +onlyGivenNames x
    have hx : P x := by
      subst x
      refine Keep.foldl ?_ ?_
      · assumption
      · intro _ _ _
        refine fault_keeps hregs heth hflt hint hstl hout ?_
        refine pairService_keeps hregs hpairs ?_
        assumption
    clear_value x
    extract_lets -underBinder -merge -useContext +onlyGivenNames x
    have hx : P x := by
      subst x
      refine Keep.ite ?_ ?_
      · refine bump_keeps hregs ?_
        assumption
      · assumption
    clear_value x
    extract_lets -underBinder -merge -useContext +onlyGivenNames x
    have hx : P x := by
      subst x
      refine Keep.foldl ?_ ?_
      · assumption
      · intro _ _ _
        refine fault_keeps hregs heth hflt hint hstl hout ?_
        refine evt_keeps hregs heth hint hstl hout ?_
        refine rsetBit_keeps hregs ?_
        assumption
    clear_value x
    refine evt_keeps hregs heth hint hstl hout ?_
    refine rset_keeps hregs ?_
    assumption

theorem pbadWrite_keeps (hregs : Keep.regs P) (hports : Keep.ports P) (hlnk : Keep.lnk P) (heth : Keep.eth P) (hflt : Keep.flt P) (hint : Keep.int P) (hstl : Keep.stl P) (hout : Keep.out P) {n} {v} {s : State} (h : P s) : P (pbadWrite n v s) := by
  unfold pbadWrite
  extract_lets -underBinder -merge -useContext +onlyGivenNames x
  clear_value x
  extract_lets -underBinder -merge -useContext +onlyGivenNames x
  have hx : P x := by
    subst x
    refine rwrite_keeps hregs ?_
    assumption
  clear_value x
  refine Keep.foldl ?_ ?_
  · assumption
  · intro _ _ _
    extract_lets -underBinder -merge -useContext +onlyGivenNames x
    clear_value x
    extract_lets -underBinder -merge -useContext +onlyGivenNames x
    have hx : P x := by
      subst x
      refine Keep.ite ?_ ?_
      · refine State.updPort_keeps hports ?_
        assumption
      · assumption
    clear_value x
    refine loopBegin_keeps hregs hports hlnk heth hflt hint hstl hout ?_
    refine loopWant_keeps hflt ?_
    assumption

theorem fltWrite_keeps (hregs : Keep.regs P) (hports : Keep.ports P) (hlnk : Keep.lnk P) (heth : Keep.eth P) (hflt : Keep.flt P) (hint : Keep.int P) (hstl : Keep.stl P) (hout : Keep.out P) {a} {v} {s : State} (h : P s) : P (fltWrite a v s) := by
  unfold fltWrite
  refine Keep.ite ?_ ?_
  · refine faultPop_keeps hflt ?_
    assumption
  · refine Keep.ite ?_ ?_
    · refine ftGo_keeps hregs hflt ?_
      assumption
    · refine Keep.ite ?_ ?_
      · extract_lets -underBinder -merge -useContext +onlyGivenNames x
        have hx : P x := by
          subst x
          refine rwrite_keeps hregs ?_
          assumption
        clear_value x
        refine Keep.ite ?_ ?_
        · refine Keep.foldl ?_ ?_
          · assumption
          · intro _ _ _
            refine rset_keeps hregs ?_
            assumption
        · assumption
      · refine Keep.ite ?_ ?_
        · refine pbadWrite_keeps hregs hports hlnk heth hflt hint hstl hout ?_
          assumption
        · refine rwrite_keeps hregs ?_
          assumption

theorem execPatrolScrub_keeps (hregs : Keep.regs P) (hmem : Keep.mem P) (htlm : Keep.tlm P) (heth : Keep.eth P) (hflt : Keep.flt P) (hint : Keep.int P) (hstl : Keep.stl P) (htag : Keep.tag P) (hout : Keep.out P) {found} {s : State} (h : P s) {t : State} (e : execPatrolScrub found s = .next t) : P t := by
  unfold execPatrolScrub at e
  split at e
  · cases e
  · obtain rfl := Host.Outcome.next.inj e
    refine Keep.ite ?_ ?_
    · refine Keep.foldl ?_ ?_
      · assumption
      · intro _ _ _
        refine rowError_keeps hregs hmem htlm heth hflt hint hstl htag hout ?_
        assumption
    · assumption

theorem execMarchTestComplete_keeps (hregs : Keep.regs P) (heth : Keep.eth P) (hflt : Keep.flt P) (hint : Keep.int P) (hstl : Keep.stl P) (hout : Keep.out P) {m} {pass} {s : State} (h : P s) {t : State} (e : execMarchTestComplete m pass s = .next t) : P t := by
  obtain rfl := Host.Outcome.next.inj e
  refine marchEnd_keeps hregs heth hflt hint hstl hout ?_
  assumption

theorem execFaultPop_keeps (hflt : Keep.flt P) {x1} {v} {s : State} (h : P s) {t : State} (e : execFaultPop x1 v s = .next t) : P t := by
  obtain rfl := Host.Outcome.next.inj e
  refine faultPop_keeps hflt ?_
  assumption

theorem execFullSelftest_keeps (hregs : Keep.regs P) (hflt : Keep.flt P) {x1} {v} {s : State} (h : P s) {t : State} (e : execFullSelftest x1 v s = .next t) : P t := by
  obtain rfl := Host.Outcome.next.inj e
  refine ftGo_keeps hregs hflt ?_
  assumption

theorem execFullSelftestDone_keeps (hregs : Keep.regs P) (hmem : Keep.mem P) (hsheaves : Keep.sheaves P) (hses : Keep.ses P) (hpairs : Keep.pairs P) (heth : Keep.eth P) (hflt : Keep.flt P) (hint : Keep.int P) (hstl : Keep.stl P) (hout : Keep.out P) {found} {s : State} (h : P s) {t : State} (e : execFullSelftestDone found s = .next t) : P t := by
  obtain rfl := Host.Outcome.next.inj e
  refine ftEnd_keeps hregs hmem hsheaves hses hpairs heth hflt hint hstl hout ?_
  assumption

theorem execPortLoopSelftestStart_keeps (hregs : Keep.regs P) (hports : Keep.ports P) (hlnk : Keep.lnk P) (heth : Keep.eth P) (hflt : Keep.flt P) (hint : Keep.int P) (hstl : Keep.stl P) (hout : Keep.out P) {p} {s : State} (h : P s) {t : State} (e : execPortLoopSelftestStart p s = .next t) : P t := by
  obtain rfl := Host.Outcome.next.inj e
  refine Keep.ite ?_ ?_
  · refine loopBegin_keeps hregs hports hlnk heth hflt hint hstl hout ?_
    refine loopWant_keeps hflt ?_
    refine State.updPort_keeps hports ?_
    assumption
  · assumption

theorem execPortLoopSelftestDone_keeps (hregs : Keep.regs P) (hports : Keep.ports P) (hsheaves : Keep.sheaves P) (hlnk : Keep.lnk P) (heth : Keep.eth P) (hflt : Keep.flt P) (hint : Keep.int P) (hstl : Keep.stl P) (hout : Keep.out P) {p} {pass} {cond} {s : State} (h : P s) {t : State} (e : execPortLoopSelftestDone p pass cond s = .next t) : P t := by
  obtain rfl := Host.Outcome.next.inj e
  extract_lets -underBinder -merge -useContext +onlyGivenNames x
  clear_value x
  extract_lets -underBinder -merge -useContext +onlyGivenNames x
  have hx : P x := by
    subst x
    refine loopBegin_keeps hregs hports hlnk heth hflt hint hstl hout ?_
    assumption
  clear_value x
  refine Keep.ite ?_ ?_
  · extract_lets -underBinder -merge -useContext +onlyGivenNames x
    clear_value x
    refine loopBegin_keeps hregs hports hlnk heth hflt hint hstl hout ?_
    refine dcBegin_keeps hregs hports hsheaves ?_
    refine loopEnd_keeps hregs hports heth hflt hint hstl hout ?_
    assumption
  · assumption

theorem execPbadClear_keeps (hregs : Keep.regs P) (hports : Keep.ports P) (hlnk : Keep.lnk P) (heth : Keep.eth P) (hflt : Keep.flt P) (hint : Keep.int P) (hstl : Keep.stl P) (hout : Keep.out P) {x1} {n} {v} {s : State} (h : P s) {t : State} (e : execPbadClear x1 n v s = .next t) : P t := by
  obtain rfl := Host.Outcome.next.inj e
  refine pbadWrite_keeps hregs hports hlnk heth hflt hint hstl hout ?_
  assumption

theorem txCommand_keeps (hregs : Keep.regs P) (hsheaves : Keep.sheaves P) (hholds : Keep.holds P) (hlnk : Keep.lnk P) (hcores : Keep.cores P) (heth : Keep.eth P) (hint : Keep.int P) (hstl : Keep.stl P) (hout : Keep.out P) {s : State} {n} (h : P s) : P (txCommand s n) := by
  unfold txCommand
  split
  · assumption
  · extract_lets -underBinder -merge -useContext +onlyGivenNames x
    have hx : P x := by
      subst x
      refine State.updSheaf_keeps hsheaves ?_
      assumption
    clear_value x
    extract_lets -underBinder -merge -useContext +onlyGivenNames x
    clear_value x
    extract_lets -underBinder -merge -useContext +onlyGivenNames x
    have hx : P x := by
      subst x
      refine Keep.ite ?_ ?_
      · refine evt_keeps hregs heth hint hstl hout ?_
        assumption
      · assumption
    clear_value x
    refine Keep.ite ?_ ?_
    · refine txRefused_keeps hregs hholds hlnk hcores ?_
      assumption
    · refine Keep.ite ?_ ?_
      · refine State.updSheaf_keeps hsheaves ?_
        assumption
      · refine txRefused_keeps hregs hholds hlnk hcores ?_
        refine setEvt_keeps hregs heth hint hstl hout ?_
        assumption

theorem refuseAll_keeps (hregs : Keep.regs P) (hsheaves : Keep.sheaves P) (hholds : Keep.holds P) (hlnk : Keep.lnk P) (hcores : Keep.cores P) {s : State} {n} (h : P s) : P (refuseAll s n) := by
  unfold refuseAll
  extract_lets -underBinder -merge -useContext +onlyGivenNames x
  clear_value x
  extract_lets -underBinder -merge -useContext +onlyGivenNames x
  have hx : P x := by
    subst x
    refine State.updSheaf_keeps hsheaves ?_
    assumption
  clear_value x
  refine Keep.foldl ?_ ?_
  · assumption
  · intro _ _ _
    refine txRefused_keeps hregs hholds hlnk hcores ?_
    assumption

theorem blankFrom_keeps (hregs : Keep.regs P) (hports : Keep.ports P) (hsheaves : Keep.sheaves P) (hspks : Keep.spks P) (hholds : Keep.holds P) (heth : Keep.eth P) (hflt : Keep.flt P) (hint : Keep.int P) (hstl : Keep.stl P) (hfree : Keep.free P) (hout : Keep.out P) {s : State} {n} {b5} (h : P s) : P (blankFrom s n b5) := by
  unfold blankFrom
  extract_lets -underBinder -merge -useContext +onlyGivenNames x
  have hx : P x := by
    subst x
    refine spikeBlank_keeps hregs hsheaves hspks hholds heth hint hstl hfree hout ?_
    refine loopAbandon_keeps hregs hports heth hflt hint hstl hout ?_
    refine calAbandon_keeps hregs hports hsheaves heth hint hstl hout ?_
    assumption
  clear_value x
  refine State.updSheaf_keeps hsheaves ?_
  refine setBlank_keeps hregs ?_
  assumption

theorem blankingStart_keeps (hregs : Keep.regs P) (htime : Keep.time P) (hports : Keep.ports P) (hsheaves : Keep.sheaves P) (hspks : Keep.spks P) (hholds : Keep.holds P) (heth : Keep.eth P) (hflt : Keep.flt P) (hint : Keep.int P) (hstl : Keep.stl P) (hfree : Keep.free P) (hout : Keep.out P) {s : State} {n} (h : P s) : P (blankingStart s n) := by
  unfold blankingStart
  split
  · assumption
  · refine Keep.ite ?_ ?_
    · assumption
    · extract_lets -underBinder -merge -useContext +onlyGivenNames x
      clear_value x
      extract_lets -underBinder -merge -useContext +onlyGivenNames x
      have hx : P x := by
        subst x
        refine reach_keeps htime ?_
        assumption
      clear_value x
      extract_lets -underBinder -merge -useContext +onlyGivenNames x
      clear_value x
      extract_lets -underBinder -merge -useContext +onlyGivenNames x
      have hx : P x := by
        subst x
        refine blankFrom_keeps hregs hports hsheaves hspks hholds heth hflt hint hstl hfree hout ?_
        assumption
      clear_value x
      extract_lets -underBinder -merge -useContext +onlyGivenNames x
      have hx : P x := by
        subst x
        split
        · refine setNudge_keeps hregs hsheaves ?_
          assumption
        · assumption
      clear_value x
      refine State.updSheaf_keeps hsheaves ?_
      assumption

theorem txStart_keeps (hregs : Keep.regs P) (htime : Keep.time P) (hports : Keep.ports P) (hsheaves : Keep.sheaves P) (heth : Keep.eth P) (hint : Keep.int P) (hstl : Keep.stl P) (hout : Keep.out P) {s : State} {n} (h : P s) : P (txStart s n) := by
  unfold txStart
  split
  · assumption
  · refine Keep.ite ?_ ?_
    · assumption
    · extract_lets -underBinder -merge -useContext +onlyGivenNames x
      have hx : P x := by
        subst x
        refine reach_keeps htime ?_
        assumption
      clear_value x
      extract_lets -underBinder -merge -useContext +onlyGivenNames x
      clear_value x
      extract_lets -underBinder -merge -useContext +onlyGivenNames x
      have hx : P x := by
        subst x
        refine State.updSheaf_keeps hsheaves ?_
        assumption
      clear_value x
      extract_lets -underBinder -merge -useContext +onlyGivenNames x
      have hx : P x := by
        subst x
        refine bump_keeps hregs ?_
        refine rsetBit_keeps hregs ?_
        assumption
      clear_value x
      extract_lets -underBinder -merge -useContext +onlyGivenNames x
      have hx : P x := by
        subst x
        refine Keep.foldl ?_ ?_
        · assumption
        · intro _ _ _
          refine Keep.ite ?_ ?_
          · refine tunePort_keeps hports ?_
            refine rsetBit_keeps hregs ?_
            assumption
          · assumption
      clear_value x
      extract_lets -underBinder -merge -useContext +onlyGivenNames x
      have hx : P x := by
        subst x
        split
        · refine bump_keeps hregs ?_
          assumption
        · assumption
      clear_value x
      refine stolon_keeps hregs heth hint hstl hout ?_
      refine Keep.set_out hout ?_
      assumption

theorem mismatch_keeps (hregs : Keep.regs P) (hports : Keep.ports P) (heth : Keep.eth P) (hint : Keep.int P) (hstl : Keep.stl P) (hout : Keep.out P) {s : State} {p} {m} {e5} (h : P s) : P (mismatch s p m e5) := by
  unfold mismatch
  extract_lets -underBinder -merge -useContext +onlyGivenNames x
  clear_value x
  extract_lets -underBinder -merge -useContext +onlyGivenNames x
  have hx : P x := by
    subst x
    refine rset_keeps hregs ?_
    refine rset_keeps hregs ?_
    assumption
  clear_value x
  extract_lets -underBinder -merge -useContext +onlyGivenNames x
  have hx : P x := by
    subst x
    refine bump_keeps hregs ?_
    refine rset_keeps hregs ?_
    assumption
  clear_value x
  refine aerialMeasure_keeps hregs hports heth hint hstl hout ?_
  assumption

theorem dcForgo_keeps (hregs : Keep.regs P) (hports : Keep.ports P) (hsheaves : Keep.sheaves P) {s : State} {p} (h : P s) : P (dcForgo s p) := by
  unfold dcForgo
  extract_lets -underBinder -merge -useContext +onlyGivenNames x
  clear_value x
  extract_lets -underBinder -merge -useContext +onlyGivenNames x
  have hx : P x := by
    subst x
    refine State.updPort_keeps hports ?_
    assumption
  clear_value x
  split
  · refine Keep.ite ?_ ?_
    · refine holdPort_keeps hregs hports ?_
      refine State.updSheaf_keeps hsheaves ?_
      assumption
    · assumption
  · assumption

theorem portsDrop_keeps (hregs : Keep.regs P) (hports : Keep.ports P) (hsheaves : Keep.sheaves P) {s : State} {n} (h : P s) : P (portsDrop s n) := by
  unfold portsDrop
  refine Keep.foldl ?_ ?_
  · assumption
  · intro _ _ _
    refine Keep.ite ?_ ?_
    · assumption
    · refine drainState_keeps hregs ?_
      refine dcForgo_keeps hregs hports hsheaves ?_
      assumption

theorem txFinish_keeps (hregs : Keep.regs P) (hports : Keep.ports P) (hsheaves : Keep.sheaves P) (hholds : Keep.holds P) (hlnk : Keep.lnk P) (hcores : Keep.cores P) (heth : Keep.eth P) (hint : Keep.int P) (hstl : Keep.stl P) (hout : Keep.out P) {s : State} {n} {c} {e5} {meas} (h : P s) : P (txFinish s n c e5 meas) := by
  unfold txFinish
  extract_lets -underBinder -merge -useContext +onlyGivenNames x
  have hx : P x := by
    subst x
    refine Keep.foldl ?_ ?_
    · assumption
    · intro _ _ _
      split
      · extract_lets -underBinder -merge -useContext +onlyGivenNames x
        have hx : P x := by
          subst x
          refine rsetBit_keeps hregs ?_
          assumption
        clear_value x
        refine Keep.ite ?_ ?_
        · refine mismatch_keeps hregs hports heth hint hstl hout ?_
          assumption
        · assumption
      · assumption
  clear_value x
  extract_lets -underBinder -merge -useContext +onlyGivenNames x
  have hx : P x := by
    subst x
    refine State.updSheaf_keeps hsheaves ?_
    assumption
  clear_value x
  extract_lets -underBinder -merge -useContext +onlyGivenNames x
  have hx : P x := by
    subst x
    refine portsDrop_keeps hregs hports hsheaves ?_
    refine rsetBit_keeps hregs ?_
    assumption
  clear_value x
  extract_lets -underBinder -merge -useContext +onlyGivenNames x
  clear_value x
  extract_lets -underBinder -merge -useContext +onlyGivenNames x
  have hx : P x := by
    subst x
    refine Keep.ite ?_ ?_
    · refine State.updSheaf_keeps hsheaves ?_
      assumption
    · refine setNudge_keeps hregs hsheaves ?_
      assumption
  clear_value x
  refine txEnded_keeps hregs hholds hlnk hcores ?_
  refine stolon_keeps hregs heth hint hstl hout ?_
  refine tuneAtEnd_keeps hports ?_
  assumption

theorem txEnd_keeps (hregs : Keep.regs P) (htime : Keep.time P) (hports : Keep.ports P) (hsheaves : Keep.sheaves P) (hholds : Keep.holds P) (hlnk : Keep.lnk P) (hcores : Keep.cores P) (heth : Keep.eth P) (hint : Keep.int P) (hstl : Keep.stl P) (hout : Keep.out P) {s : State} {n} {meas} (h : P s) : P (txEnd s n meas) := by
  unfold txEnd
  split
  · refine txFinish_keeps hregs hports hsheaves hholds hlnk hcores heth hint hstl hout ?_
    refine reach_keeps htime ?_
    assumption
  · assumption

theorem txCut_keeps (hregs : Keep.regs P) (hports : Keep.ports P) (hsheaves : Keep.sheaves P) (hholds : Keep.holds P) (hlnk : Keep.lnk P) (hcores : Keep.cores P) (heth : Keep.eth P) (hint : Keep.int P) (hstl : Keep.stl P) (hfree : Keep.free P) (hout : Keep.out P) {s : State} {n} (h : P s) : P (txCut s n) := by
  unfold txCut
  split
  · refine txFinish_keeps hregs hports hsheaves hholds hlnk hcores heth hint hstl hout ?_
    refine bumpFree_keeps hfree ?_
    refine evt_keeps hregs heth hint hstl hout ?_
    assumption
  · assumption

theorem txForgo_keeps (hregs : Keep.regs P) (hsheaves : Keep.sheaves P) {s : State} {n} (h : P s) : P (txForgo s n) := by
  unfold txForgo
  refine Keep.ite ?_ ?_
  · refine State.updSheaf_keeps hsheaves ?_
    refine setNudge_keeps hregs hsheaves ?_
    assumption
  · assumption

theorem captureFrom_keeps (hregs : Keep.regs P) (hports : Keep.ports P) (hsheaves : Keep.sheaves P) (hlnk : Keep.lnk P) (heth : Keep.eth P) (hflt : Keep.flt P) (hint : Keep.int P) (hstl : Keep.stl P) (hout : Keep.out P) {s : State} {n} {c} (h : P s) : P (captureFrom s n c) := by
  unfold captureFrom
  extract_lets -underBinder -merge -useContext +onlyGivenNames x
  have hx : P x := by
    subst x
    refine State.updSheaf_keeps hsheaves ?_
    refine setBlank_keeps hregs ?_
    assumption
  clear_value x
  extract_lets -underBinder -merge -useContext +onlyGivenNames x
  have hx : P x := by
    subst x
    refine Keep.foldl ?_ ?_
    · assumption
    · intro _ _ _
      refine Keep.ite ?_ ?_
      · refine State.updPort_keeps hports ?_
        assumption
      · assumption
  clear_value x
  refine loopBegin_keeps hregs hports hlnk heth hflt hint hstl hout ?_
  refine dcBegin_keeps hregs hports hsheaves ?_
  assumption

theorem receiveResume_keeps (hregs : Keep.regs P) (htime : Keep.time P) (hports : Keep.ports P) (hsheaves : Keep.sheaves P) (hlnk : Keep.lnk P) (heth : Keep.eth P) (hflt : Keep.flt P) (hint : Keep.int P) (hstl : Keep.stl P) (hout : Keep.out P) {s : State} {n} (h : P s) : P (receiveResume s n) := by
  unfold receiveResume
  extract_lets -underBinder -merge -useContext +onlyGivenNames x
  clear_value x
  refine Keep.ite ?_ ?_
  · refine captureFrom_keeps hregs hports hsheaves hlnk heth hflt hint hstl hout ?_
    refine State.updSheaf_keeps hsheaves ?_
    refine reach_keeps htime ?_
    assumption
  · assumption

theorem sheafStop_keeps (hregs : Keep.regs P) (hports : Keep.ports P) (hsheaves : Keep.sheaves P) (hsearches : Keep.searches P) (hgroups : Keep.groups P) (hholds : Keep.holds P) (hlnk : Keep.lnk P) (hcores : Keep.cores P) (heth : Keep.eth P) (hint : Keep.int P) (hstl : Keep.stl P) (hfree : Keep.free P) (hout : Keep.out P) {s : State} {n} {hard} (h : P s) : P (sheafStop s n hard) := by
  unfold sheafStop
  extract_lets -underBinder -merge -useContext +onlyGivenNames x
  clear_value x
  extract_lets -underBinder -merge -useContext +onlyGivenNames x
  have hx : P x := by
    subst x
    refine drainState_keeps hregs ?_
    assumption
  clear_value x
  extract_lets -underBinder -merge -useContext +onlyGivenNames x
  have hx : P x := by
    subst x
    refine Keep.ite ?_ ?_
    · refine txCut_keeps hregs hports hsheaves hholds hlnk hcores heth hint hstl hfree hout ?_
      assumption
    · assumption
  clear_value x
  extract_lets -underBinder -merge -useContext +onlyGivenNames x
  have hx : P x := by
    subst x
    refine txForgo_keeps hregs hsheaves ?_
    refine refuseAll_keeps hregs hsheaves hholds hlnk hcores ?_
    assumption
  clear_value x
  extract_lets -underBinder -merge -useContext +onlyGivenNames x
  have hx : P x := by
    subst x
    refine calStop_keeps hregs hports hsheaves heth hint hstl hout ?_
    assumption
  clear_value x
  refine Keep.ite ?_ ?_
  · refine searchSheafOff_keeps hregs hsearches hgroups heth hint hstl hout ?_
    assumption
  · assumption

theorem sheafBegin_keeps (hregs : Keep.regs P) (hports : Keep.ports P) (hsheaves : Keep.sheaves P) (heth : Keep.eth P) (hint : Keep.int P) (hstl : Keep.stl P) (hout : Keep.out P) {s : State} {n} (h : P s) : P (sheafBegin s n) := by
  unfold sheafBegin
  extract_lets -underBinder -merge -useContext +onlyGivenNames x
  clear_value x
  extract_lets -underBinder -merge -useContext +onlyGivenNames x
  clear_value x
  extract_lets -underBinder -merge -useContext +onlyGivenNames x
  clear_value x
  extract_lets -underBinder -merge -useContext +onlyGivenNames x
  clear_value x
  refine Keep.ite ?_ ?_
  · extract_lets -underBinder -merge -useContext +onlyGivenNames x
    have hx : P x := by
      subst x
      refine Keep.set_sheaves hsheaves ?_
      assumption
    clear_value x
    extract_lets -underBinder -merge -useContext +onlyGivenNames x
    have hx : P x := by
      subst x
      refine rsetBit_keeps hregs ?_
      refine setState_keeps hregs ?_
      assumption
    clear_value x
    refine Keep.foldl ?_ ?_
    · assumption
    · intro _ _ _
      refine State.updPort_keeps hports ?_
      assumption
  · refine setState_keeps hregs ?_
    refine setEn_keeps hregs ?_
    refine evt_keeps hregs heth hint hstl hout ?_
    assumption

theorem startDc_keeps (hregs : Keep.regs P) (hfree : Keep.free P) {s : State} {p} (h : P s) : P (startDc s p) := by
  unfold startDc
  refine bumpFree_keeps hfree ?_
  refine rset_keeps hregs ?_
  refine rset_keeps hregs ?_
  assumption

theorem portAtOn_keeps (hregs : Keep.regs P) (hports : Keep.ports P) (hfree : Keep.free P) {c} {s : State} {p} (h : P s) : P (portAtOn c s p) := by
  unfold portAtOn
  refine Keep.ite ?_ ?_
  · assumption
  · refine Keep.ite ?_ ?_
    · extract_lets -underBinder -merge -useContext +onlyGivenNames x
      have hx : P x := by
        subst x
        refine State.updPort_keeps hports ?_
        refine startDc_keeps hregs hfree ?_
        assumption
      clear_value x
      extract_lets -underBinder -merge -useContext +onlyGivenNames x
      have hx : P x := by
        subst x
        refine Keep.ite ?_ ?_
        · refine setState_keeps hregs ?_
          assumption
        · assumption
      clear_value x
      refine Keep.ite ?_ ?_
      · refine State.updPort_keeps hports ?_
        assumption
      · assumption
    · refine Keep.ite ?_ ?_
      · refine State.updPort_keeps hports ?_
        assumption
      · assumption

theorem transUp_keeps (hregs : Keep.regs P) (htrans : Keep.trans P) (hwin : Keep.win P) (heth : Keep.eth P) (hint : Keep.int P) (hstl : Keep.stl P) (hout : Keep.out P) {s : State} (h : P s) : P (transUp s) := by
  unfold transUp
  split
  · refine Keep.ite ?_ ?_
    · extract_lets -underBinder -merge -useContext +onlyGivenNames x
      clear_value x
      extract_lets -underBinder -merge -useContext +onlyGivenNames x
      have hx : P x := by
        subst x
        refine Keep.set_trans htrans ?_
        assumption
      clear_value x
      refine Keep.ite ?_ ?_
      · assumption
      · refine winStart_keeps hregs hwin heth hint hstl hout ?_
        assumption
    · assumption
  · assumption

theorem sheafOn_keeps (hregs : Keep.regs P) (htrans : Keep.trans P) (hports : Keep.ports P) (hsheaves : Keep.sheaves P) (hwin : Keep.win P) (hlnk : Keep.lnk P) (heth : Keep.eth P) (hflt : Keep.flt P) (hint : Keep.int P) (hstl : Keep.stl P) (hfree : Keep.free P) (hout : Keep.out P) {s : State} {n} (h : P s) : P (sheafOn s n) := by
  unfold sheafOn
  extract_lets -underBinder -merge -useContext +onlyGivenNames x
  clear_value x
  extract_lets -underBinder -merge -useContext +onlyGivenNames x
  have hx : P x := by
    subst x
    refine rsetBit_keeps hregs ?_
    refine setState_keeps hregs ?_
    assumption
  clear_value x
  extract_lets -underBinder -merge -useContext +onlyGivenNames x
  have hx : P x := by
    subst x
    refine gainRefresh_keeps hregs ?_
    refine calApply_keeps hports ?_
    assumption
  clear_value x
  extract_lets -underBinder -merge -useContext +onlyGivenNames x
  have hx : P x := by
    subst x
    refine Keep.foldl ?_ ?_
    · assumption
    · intro _ _ _
      refine portAtOn_keeps hregs hports hfree ?_
      assumption
  clear_value x
  refine transUp_keeps hregs htrans hwin heth hint hstl hout ?_
  refine captureFrom_keeps hregs hports hsheaves hlnk heth hflt hint hstl hout ?_
  assumption

theorem sheafOff_keeps (hregs : Keep.regs P) (hports : Keep.ports P) (hsheaves : Keep.sheaves P) (heth : Keep.eth P) (hint : Keep.int P) (hstl : Keep.stl P) (hout : Keep.out P) {s : State} {n} (h : P s) : P (sheafOff s n) := by
  unfold sheafOff
  extract_lets -underBinder -merge -useContext +onlyGivenNames x
  have hx : P x := by
    subst x
    refine setNudge_keeps hregs hsheaves ?_
    assumption
  clear_value x
  extract_lets -underBinder -merge -useContext +onlyGivenNames x
  have hx : P x := by
    subst x
    refine rset_keeps hregs ?_
    assumption
  clear_value x
  extract_lets -underBinder -merge -useContext +onlyGivenNames x
  have hx : P x := by
    subst x
    refine Keep.set_sheaves hsheaves ?_
    assumption
  clear_value x
  extract_lets -underBinder -merge -useContext +onlyGivenNames x
  have hx : P x := by
    subst x
    refine Keep.foldl ?_ ?_
    · assumption
    · intro _ _ _
      refine State.updPort_keeps hports ?_
      assumption
  clear_value x
  refine Keep.ite ?_ ?_
  · refine sheafBegin_keeps hregs hports hsheaves heth hint hstl hout ?_
    assumption
  · assumption

theorem shfCtlWrite_keeps (hregs : Keep.regs P) (hports : Keep.ports P) (hsheaves : Keep.sheaves P) (hsearches : Keep.searches P) (hgroups : Keep.groups P) (hholds : Keep.holds P) (hlnk : Keep.lnk P) (hcores : Keep.cores P) (heth : Keep.eth P) (hint : Keep.int P) (hstl : Keep.stl P) (hfree : Keep.free P) (hout : Keep.out P) {n} {v} {s : State} (h : P s) : P (shfCtlWrite n v s) := by
  unfold shfCtlWrite
  extract_lets -underBinder -merge -useContext +onlyGivenNames x
  clear_value x
  extract_lets -underBinder -merge -useContext +onlyGivenNames x
  clear_value x
  extract_lets -underBinder -merge -useContext +onlyGivenNames x
  clear_value x
  extract_lets -underBinder -merge -useContext +onlyGivenNames x
  have hx : P x := by
    subst x
    refine rwrite_keeps hregs ?_
    assumption
  clear_value x
  refine Keep.ite ?_ ?_
  · refine sheafBegin_keeps hregs hports hsheaves heth hint hstl hout ?_
    assumption
  · refine Keep.ite ?_ ?_
    · refine sheafStop_keeps hregs hports hsheaves hsearches hgroups hholds hlnk hcores heth hint hstl hfree hout ?_
      assumption
    · assumption

theorem portBegin_keeps (hregs : Keep.regs P) (hports : Keep.ports P) (hsheaves : Keep.sheaves P) (hfree : Keep.free P) {s : State} {p} (h : P s) : P (portBegin s p) := by
  unfold portBegin
  extract_lets -underBinder -merge -useContext +onlyGivenNames x
  clear_value x
  extract_lets -underBinder -merge -useContext +onlyGivenNames x
  have hx : P x := by
    subst x
    refine setState_keeps hregs ?_
    assumption
  clear_value x
  refine Keep.ite ?_ ?_
  · refine dcBegin_keeps hregs hports hsheaves ?_
    refine State.updPort_keeps hports ?_
    assumption
  · refine Keep.ite ?_ ?_
    · refine bumpFree_keeps hfree ?_
      refine State.updPort_keeps hports ?_
      assumption
    · assumption

theorem prtCtlWrite_keeps (hregs : Keep.regs P) (hports : Keep.ports P) (hsheaves : Keep.sheaves P) (hfree : Keep.free P) {p} {v} {s : State} (h : P s) : P (prtCtlWrite p v s) := by
  unfold prtCtlWrite
  extract_lets -underBinder -merge -useContext +onlyGivenNames x
  clear_value x
  extract_lets -underBinder -merge -useContext +onlyGivenNames x
  clear_value x
  extract_lets -underBinder -merge -useContext +onlyGivenNames x
  have hx : P x := by
    subst x
    refine rwrite_keeps hregs ?_
    assumption
  clear_value x
  extract_lets -underBinder -merge -useContext +onlyGivenNames x
  have hx : P x := by
    subst x
    refine Keep.ite ?_ ?_
    · refine rset_keeps hregs ?_
      assumption
    · assumption
  clear_value x
  refine Keep.ite ?_ ?_
  · refine portBegin_keeps hregs hports hsheaves hfree ?_
    assumption
  · refine Keep.ite ?_ ?_
    · refine Keep.ite ?_ ?_
      · assumption
      · refine drainState_keeps hregs ?_
        refine dcForgo_keeps hregs hports hsheaves ?_
        assumption
    · assumption

theorem portDrained_keeps (hregs : Keep.regs P) (hports : Keep.ports P) (hsheaves : Keep.sheaves P) (hfree : Keep.free P) {s : State} {p} (h : P s) : P (portDrained s p) := by
  unfold portDrained
  refine Keep.ite ?_ ?_
  · assumption
  · extract_lets -underBinder -merge -useContext +onlyGivenNames x
    have hx : P x := by
      subst x
      refine portOff_keeps hregs hports ?_
      assumption
    clear_value x
    refine Keep.ite ?_ ?_
    · refine portBegin_keeps hregs hports hsheaves hfree ?_
      assumption
    · assumption

theorem synthUnlock_keeps (hregs : Keep.regs P) (hports : Keep.ports P) (hsheaves : Keep.sheaves P) (hspks : Keep.spks P) (hholds : Keep.holds P) (hlnk : Keep.lnk P) (hcores : Keep.cores P) (heth : Keep.eth P) (hflt : Keep.flt P) (hint : Keep.int P) (hstl : Keep.stl P) (hfree : Keep.free P) (hout : Keep.out P) {s : State} {n} (h : P s) : P (synthUnlock s n) := by
  unfold synthUnlock
  extract_lets -underBinder -merge -useContext +onlyGivenNames x
  have hx : P x := by
    subst x
    refine evt_keeps hregs heth hint hstl hout ?_
    refine rsetBit_keeps hregs ?_
    assumption
  clear_value x
  extract_lets -underBinder -merge -useContext +onlyGivenNames x
  have hx : P x := by
    subst x
    refine txForgo_keeps hregs hsheaves ?_
    refine refuseAll_keeps hregs hsheaves hholds hlnk hcores ?_
    refine txCut_keeps hregs hports hsheaves hholds hlnk hcores heth hint hstl hfree hout ?_
    assumption
  clear_value x
  refine blankFrom_keeps hregs hports hsheaves hspks hholds heth hflt hint hstl hfree hout ?_
  refine State.updSheaf_keeps hsheaves ?_
  assumption

theorem synthRelock_keeps (hregs : Keep.regs P) (hpower : Keep.power P) (hsheaves : Keep.sheaves P) (hflt : Keep.flt P) {s : State} {n} (h : P s) : P (synthRelock s n) := by
  unfold synthRelock
  extract_lets -underBinder -merge -useContext +onlyGivenNames x
  have hx : P x := by
    subst x
    refine State.updSheaf_keeps hsheaves ?_
    refine rsetBit_keeps hregs ?_
    assumption
  clear_value x
  extract_lets -underBinder -merge -useContext +onlyGivenNames x
  clear_value x
  extract_lets -underBinder -merge -useContext +onlyGivenNames x
  have hx : P x := by
    subst x
    refine Keep.set_power hpower ?_
    assumption
  clear_value x
  refine Keep.foldl ?_ ?_
  · assumption
  · intro _ _ _
    refine loopWant_keeps hflt ?_
    assumption

theorem refclkLoss_keeps (hregs : Keep.regs P) (hpower : Keep.power P) (hports : Keep.ports P) (hsheaves : Keep.sheaves P) (hholds : Keep.holds P) (hlnk : Keep.lnk P) (hcores : Keep.cores P) (heth : Keep.eth P) (hflt : Keep.flt P) (hint : Keep.int P) (hstl : Keep.stl P) (hfree : Keep.free P) (hout : Keep.out P) {s : State} (h : P s) : P (refclkLoss s) := by
  unfold refclkLoss
  extract_lets -underBinder -merge -useContext +onlyGivenNames x
  clear_value x
  extract_lets -underBinder -merge -useContext +onlyGivenNames x
  have hx : P x := by
    subst x
    refine Keep.set_power hpower ?_
    assumption
  clear_value x
  extract_lets -underBinder -merge -useContext +onlyGivenNames x
  have hx : P x := by
    subst x
    refine Keep.foldl ?_ ?_
    · assumption
    · intro _ _ _
      refine txForgo_keeps hregs hsheaves ?_
      refine refuseAll_keeps hregs hsheaves hholds hlnk hcores ?_
      refine txCut_keeps hregs hports hsheaves hholds hlnk hcores heth hint hstl hfree hout ?_
      assumption
  clear_value x
  refine fault_keeps hregs heth hflt hint hstl hout ?_
  assumption

theorem vrfStop_keeps (hregs : Keep.regs P) (hports : Keep.ports P) (hsheaves : Keep.sheaves P) (hsearches : Keep.searches P) (hgroups : Keep.groups P) (hholds : Keep.holds P) (hlnk : Keep.lnk P) (hcores : Keep.cores P) (heth : Keep.eth P) (hflt : Keep.flt P) (hint : Keep.int P) (hstl : Keep.stl P) (hfree : Keep.free P) (hout : Keep.out P) {s : State} {n} (h : P s) : P (vrfStop s n) := by
  unfold vrfStop
  refine Keep.ite ?_ ?_
  · refine fault_keeps hregs heth hflt hint hstl hout ?_
    refine sheafStop_keeps hregs hports hsheaves hsearches hgroups hholds hlnk hcores heth hint hstl hfree hout ?_
    assumption
  · assumption

theorem execTxCommand_keeps (hregs : Keep.regs P) (hsheaves : Keep.sheaves P) (hholds : Keep.holds P) (hlnk : Keep.lnk P) (hcores : Keep.cores P) (heth : Keep.eth P) (hint : Keep.int P) (hstl : Keep.stl P) (hout : Keep.out P) {n} {s : State} (h : P s) {t : State} (e : execTxCommand n s = .next t) : P t := by
  obtain rfl := Host.Outcome.next.inj e
  refine txCommand_keeps hregs hsheaves hholds hlnk hcores heth hint hstl hout ?_
  assumption

theorem execBlankingStart_keeps (hregs : Keep.regs P) (htime : Keep.time P) (hports : Keep.ports P) (hsheaves : Keep.sheaves P) (hspks : Keep.spks P) (hholds : Keep.holds P) (heth : Keep.eth P) (hflt : Keep.flt P) (hint : Keep.int P) (hstl : Keep.stl P) (hfree : Keep.free P) (hout : Keep.out P) {n} {s : State} (h : P s) {t : State} (e : execBlankingStart n s = .next t) : P t := by
  obtain rfl := Host.Outcome.next.inj e
  refine blankingStart_keeps hregs htime hports hsheaves hspks hholds heth hflt hint hstl hfree hout ?_
  assumption

theorem execTxStart_keeps (hregs : Keep.regs P) (htime : Keep.time P) (hports : Keep.ports P) (hsheaves : Keep.sheaves P) (heth : Keep.eth P) (hint : Keep.int P) (hstl : Keep.stl P) (hout : Keep.out P) {n} {s : State} (h : P s) {t : State} (e : execTxStart n s = .next t) : P t := by
  obtain rfl := Host.Outcome.next.inj e
  refine txStart_keeps hregs htime hports hsheaves heth hint hstl hout ?_
  assumption

theorem execTxEnd_keeps (hregs : Keep.regs P) (htime : Keep.time P) (hports : Keep.ports P) (hsheaves : Keep.sheaves P) (hholds : Keep.holds P) (hlnk : Keep.lnk P) (hcores : Keep.cores P) (heth : Keep.eth P) (hint : Keep.int P) (hstl : Keep.stl P) (hout : Keep.out P) {n} {meas} {s : State} (h : P s) {t : State} (e : execTxEnd n meas s = .next t) : P t := by
  unfold execTxEnd at e
  split at e
  · cases e
  · obtain rfl := Host.Outcome.next.inj e
    refine txEnd_keeps hregs htime hports hsheaves hholds hlnk hcores heth hint hstl hout ?_
    assumption

theorem execReceiveResume_keeps (hregs : Keep.regs P) (htime : Keep.time P) (hports : Keep.ports P) (hsheaves : Keep.sheaves P) (hlnk : Keep.lnk P) (heth : Keep.eth P) (hflt : Keep.flt P) (hint : Keep.int P) (hstl : Keep.stl P) (hout : Keep.out P) {n} {s : State} (h : P s) {t : State} (e : execReceiveResume n s = .next t) : P t := by
  obtain rfl := Host.Outcome.next.inj e
  refine receiveResume_keeps hregs htime hports hsheaves hlnk heth hflt hint hstl hout ?_
  assumption

theorem execCaptureResume_keeps (hregs : Keep.regs P) (htime : Keep.time P) (hports : Keep.ports P) (hsheaves : Keep.sheaves P) (hlnk : Keep.lnk P) (heth : Keep.eth P) (hflt : Keep.flt P) (hint : Keep.int P) (hstl : Keep.stl P) (hout : Keep.out P) {n} {s : State} (h : P s) {t : State} (e : execCaptureResume n s = .next t) : P t := by
  obtain rfl := Host.Outcome.next.inj e
  refine Keep.ite ?_ ?_
  · refine receiveResume_keeps hregs htime hports hsheaves hlnk heth hflt hint hstl hout ?_
    assumption
  · assumption

theorem execSynthUnlock_keeps (hregs : Keep.regs P) (hports : Keep.ports P) (hsheaves : Keep.sheaves P) (hspks : Keep.spks P) (hholds : Keep.holds P) (hlnk : Keep.lnk P) (hcores : Keep.cores P) (heth : Keep.eth P) (hflt : Keep.flt P) (hint : Keep.int P) (hstl : Keep.stl P) (hfree : Keep.free P) (hout : Keep.out P) {n} {s : State} (h : P s) {t : State} (e : execSynthUnlock n s = .next t) : P t := by
  obtain rfl := Host.Outcome.next.inj e
  refine Keep.ite ?_ ?_
  · refine synthUnlock_keeps hregs hports hsheaves hspks hholds hlnk hcores heth hflt hint hstl hfree hout ?_
    assumption
  · assumption

theorem execSynthRelock_keeps (hregs : Keep.regs P) (hpower : Keep.power P) (hsheaves : Keep.sheaves P) (hflt : Keep.flt P) {n} {s : State} (h : P s) {t : State} (e : execSynthRelock n s = .next t) : P t := by
  obtain rfl := Host.Outcome.next.inj e
  refine Keep.ite ?_ ?_
  · refine synthRelock_keeps hregs hpower hsheaves hflt ?_
    assumption
  · assumption

theorem execRefclkLoss_keeps (hregs : Keep.regs P) (hpower : Keep.power P) (hports : Keep.ports P) (hsheaves : Keep.sheaves P) (hholds : Keep.holds P) (hlnk : Keep.lnk P) (hcores : Keep.cores P) (heth : Keep.eth P) (hflt : Keep.flt P) (hint : Keep.int P) (hstl : Keep.stl P) (hfree : Keep.free P) (hout : Keep.out P) {s : State} (h : P s) {t : State} (e : execRefclkLoss s = .next t) : P t := by
  obtain rfl := Host.Outcome.next.inj e
  refine Keep.ite ?_ ?_
  · assumption
  · refine refclkLoss_keeps hregs hpower hports hsheaves hholds hlnk hcores heth hflt hint hstl hfree hout ?_
    assumption

theorem execRefclkReturn_keeps (hpower : Keep.power P) {s : State} (h : P s) {t : State} (e : execRefclkReturn s = .next t) : P t := by
  obtain rfl := Host.Outcome.next.inj e
  refine Keep.ite ?_ ?_
  · refine Keep.set_power hpower ?_
    assumption
  · assumption

theorem execVrfDrop_keeps (hregs : Keep.regs P) (hpower : Keep.power P) (hports : Keep.ports P) (hsheaves : Keep.sheaves P) (hsearches : Keep.searches P) (hgroups : Keep.groups P) (hholds : Keep.holds P) (hlnk : Keep.lnk P) (hcores : Keep.cores P) (heth : Keep.eth P) (hflt : Keep.flt P) (hint : Keep.int P) (hstl : Keep.stl P) (hfree : Keep.free P) (hout : Keep.out P) {s : State} (h : P s) {t : State} (e : execVrfDrop s = .next t) : P t := by
  obtain rfl := Host.Outcome.next.inj e
  refine Keep.ite ?_ ?_
  · assumption
  · refine Keep.foldl ?_ ?_
    · refine Keep.set_power hpower ?_
      assumption
    · intro _ _ _
      refine vrfStop_keeps hregs hports hsheaves hsearches hgroups hholds hlnk hcores heth hflt hint hstl hfree hout ?_
      assumption

theorem execVrfReturn_keeps (hpower : Keep.power P) {s : State} (h : P s) {t : State} (e : execVrfReturn s = .next t) : P t := by
  obtain rfl := Host.Outcome.next.inj e
  refine Keep.set_power hpower ?_
  assumption

theorem updFrame_keeps (hframes : Keep.frames P) {s : State} {id} {f} (h : P s) : P (updFrame s id f) := by
  unfold updFrame
  refine Keep.set_frames hframes ?_
  assumption

theorem dropFrame_keeps (hframes : Keep.frames P) {s : State} {id} (h : P s) : P (dropFrame s id) := by
  unfold dropFrame
  refine Keep.set_frames hframes ?_
  assumption

theorem discardFrame_keeps (hframes : Keep.frames P) (hholds : Keep.holds P) {s : State} {f} (h : P s) : P (discardFrame s f) := by
  unfold discardFrame
  refine dropFrame_keeps hframes ?_
  refine release_keeps hholds ?_
  assumption

theorem lookFrame_keeps (hregs : Keep.regs P) (hframes : Keep.frames P) (hholds : Keep.holds P) {s : State} {f} {h2} (h : P s) : P (lookFrame s f h2) := by
  unfold lookFrame
  split
  · extract_lets -underBinder -merge -useContext +onlyGivenNames x
    clear_value x
    extract_lets -underBinder -merge -useContext +onlyGivenNames x
    clear_value x
    refine updFrame_keeps hframes ?_
    assumption
  · extract_lets -underBinder -merge -useContext +onlyGivenNames x
    clear_value x
    extract_lets -underBinder -merge -useContext +onlyGivenNames x
    have hx : P x := by
      subst x
      refine bump_keeps hregs ?_
      assumption
    clear_value x
    extract_lets -underBinder -merge -useContext +onlyGivenNames x
    clear_value x
    refine Keep.ite ?_ ?_
    · refine discardFrame_keeps hframes hholds ?_
      refine bump_keeps hregs ?_
      assumption
    · refine updFrame_keeps hframes ?_
      assumption

theorem filterFrame_keeps (hregs : Keep.regs P) (hframes : Keep.frames P) (hholds : Keep.holds P) (heth : Keep.eth P) (hint : Keep.int P) (hstl : Keep.stl P) (hout : Keep.out P) {s : State} {f} (h : P s) : P (filterFrame s f) := by
  unfold filterFrame
  split
  · unfold filterFrame.filterOut
    extract_lets -underBinder -merge -useContext +onlyGivenNames x
    have hx : P x := by
      subst x
      refine evt_keeps hregs heth hint hstl hout ?_
      assumption
    clear_value x
    refine Keep.ite ?_ ?_
    · refine updFrame_keeps hframes ?_
      assumption
    · refine discardFrame_keeps hframes hholds ?_
      refine bump_keeps hregs ?_
      assumption
  · extract_lets -underBinder -merge -useContext +onlyGivenNames x
    clear_value x
    refine Keep.ite ?_ ?_
    · unfold filterFrame.filterOut
      extract_lets -underBinder -merge -useContext +onlyGivenNames x
      have hx : P x := by
        subst x
        refine evt_keeps hregs heth hint hstl hout ?_
        assumption
      clear_value x
      refine Keep.ite ?_ ?_
      · refine updFrame_keeps hframes ?_
        assumption
      · refine discardFrame_keeps hframes hholds ?_
        refine bump_keeps hregs ?_
        assumption
    · refine Keep.ite ?_ ?_
      · refine lookFrame_keeps hregs hframes hholds ?_
        assumption
      · refine updFrame_keeps hframes ?_
        assumption

theorem filterFrame.filterOut_keeps (hregs : Keep.regs P) (hframes : Keep.frames P) (hholds : Keep.holds P) (heth : Keep.eth P) (hint : Keep.int P) (hstl : Keep.stl P) (hout : Keep.out P) {s : State} {f} (h : P s) : P (filterFrame.filterOut s f) := by
  unfold filterFrame.filterOut
  extract_lets -underBinder -merge -useContext +onlyGivenNames x
  have hx : P x := by
    subst x
    refine evt_keeps hregs heth hint hstl hout ?_
    assumption
  clear_value x
  refine Keep.ite ?_ ?_
  · refine updFrame_keeps hframes ?_
    assumption
  · refine discardFrame_keeps hframes hholds ?_
    refine bump_keeps hregs ?_
    assumption

theorem lookAt_keeps (hregs : Keep.regs P) (htime : Keep.time P) (hframes : Keep.frames P) (hholds : Keep.holds P) (hsage : Keep.sage P) (heth : Keep.eth P) (hint : Keep.int P) (hstl : Keep.stl P) (hout : Keep.out P) {s : State} {f} (h : P s) : P (lookAt s f) := by
  unfold lookAt
  extract_lets -underBinder -merge -useContext +onlyGivenNames x
  clear_value x
  refine filterFrame_keeps hregs hframes hholds heth hint hstl hout ?_
  refine reach_keeps htime ?_
  refine dirUpTo_keeps hregs hsage heth hint hstl hout ?_
  assumption

theorem noteRef_keeps (hsage : Keep.sage P) {s : State} {f} (h : P s) : P (noteRef s f) := by
  unfold noteRef
  refine Keep.ite ?_ ?_
  · refine Keep.set_sage hsage ?_
    assumption
  · assumption

theorem noteScore_keeps (hsage : Keep.sage P) {s : State} {f} (h : P s) : P (noteScore s f) := by
  unfold noteScore
  refine Keep.ite ?_ ?_
  · assumption
  · extract_lets -underBinder -merge -useContext +onlyGivenNames x
    clear_value x
    refine Keep.set_sage hsage ?_
    assumption

theorem finishFrame_keeps (hregs : Keep.regs P) (hframes : Keep.frames P) (hholds : Keep.holds P) (hwin : Keep.win P) (hsage : Keep.sage P) (heth : Keep.eth P) (hflt : Keep.flt P) (hint : Keep.int P) (hstl : Keep.stl P) (hout : Keep.out P) {s : State} {f} (h : P s) : P (finishFrame s f) := by
  unfold finishFrame
  extract_lets -underBinder -merge -useContext +onlyGivenNames x
  clear_value x
  extract_lets -underBinder -merge -useContext +onlyGivenNames x
  clear_value x
  extract_lets -underBinder -merge -useContext +onlyGivenNames x
  clear_value x
  extract_lets -underBinder -merge -useContext +onlyGivenNames x
  clear_value x
  extract_lets -underBinder -merge -useContext +onlyGivenNames x
  have hx : P x := by
    subst x
    refine dropFrame_keeps hframes ?_
    assumption
  clear_value x
  extract_lets -underBinder -merge -useContext +onlyGivenNames x
  have hx : P x := by
    subst x
    refine Keep.ite ?_ ?_
    · refine verdict_keeps hwin ?_
      assumption
    · assumption
  clear_value x
  refine Keep.ite ?_ ?_
  · dsimp -zeta only
    refine verdict_keeps hwin ?_
    refine release_keeps hholds ?_
    refine poisonMet_keeps hregs heth hflt hint hstl hout ?_
    assumption
  · refine Keep.ite ?_ ?_
    · refine release_keeps hholds ?_
      assumption
    · extract_lets -underBinder -merge -useContext +onlyGivenNames x
      clear_value x
      extract_lets -underBinder -merge -useContext +onlyGivenNames x
      have hx : P x := by
        subst x
        refine emit_keeps hwin ?_
        refine passHold_keeps hholds ?_
        assumption
      clear_value x
      extract_lets -underBinder -merge -useContext +onlyGivenNames x
      have hx : P x := by
        subst x
        refine noteRef_keeps hsage ?_
        assumption
      clear_value x
      refine Keep.foldl ?_ ?_
      · assumption
      · intro _ _ _
        refine verdict_keeps hwin ?_
        assumption

theorem takeCounter_keeps (hregs : Keep.regs P) (hmem : Keep.mem P) (heth : Keep.eth P) (hint : Keep.int P) (hstl : Keep.stl P) (hout : Keep.out P) {s : State} {n} (h : P s) : P (takeCounter s n).2 := by
  unfold takeCounter
  extract_lets -underBinder -merge -useContext +onlyGivenNames x
  clear_value x
  split
  · dsimp -zeta only
    refine evt_keeps hregs heth hint hstl hout ?_
    refine sesPut_keeps hmem ?_
    assumption
  · dsimp -zeta only
    refine advanceOut_keeps hmem ?_
    assumption

theorem putPlain_keeps (hmem : Keep.mem P) (hflt : Keep.flt P) {s : State} {f} {body} (h : P s) : P (putPlain s f body).2 := by
  unfold putPlain
  extract_lets -underBinder -merge -useContext +onlyGivenNames x
  clear_value x
  dsimp -zeta only
  refine writeData_keeps hmem hflt ?_
  assumption

theorem judgeFresh_keeps (hregs : Keep.regs P) (hmem : Keep.mem P) (heth : Keep.eth P) (hint : Keep.int P) (hstl : Keep.stl P) (hout : Keep.out P) {s : State} {n} {v} (h : P s) : P (judgeFresh s n v).2 := by
  unfold judgeFresh
  extract_lets -underBinder -merge -useContext +onlyGivenNames x
  clear_value x
  extract_lets -underBinder -merge -useContext +onlyGivenNames x
  clear_value x
  split
  · extract_lets -underBinder -merge -useContext +onlyGivenNames x
    have hx : P x := by
      subst x
      refine sesPut_keeps hmem ?_
      assumption
    clear_value x
    dsimp -zeta only
    refine evt_keeps hregs heth hint hstl hout ?_
    refine bump_keeps hregs ?_
    assumption
  · split
    · extract_lets -underBinder -merge -useContext +onlyGivenNames x
      have hx : P x := by
        subst x
        refine sesPut_keeps hmem ?_
        assumption
      clear_value x
      dsimp -zeta only
      refine bump_keeps hregs ?_
      assumption
    · dsimp -zeta only
      refine bump_keeps hregs ?_
      refine sesSetFresh_keeps hmem ?_
      assumption

theorem ackKey_keeps (hpairs : Keep.pairs P) {s : State} {f} (h : P s) : P (ackKey s f) := by
  unfold ackKey
  refine loadKey_keeps hpairs ?_
  assumption

theorem openPlain_keeps (hmem : Keep.mem P) (hflt : Keep.flt P) {s : State} {f} {h2} {v} (h : P s) : P (openPlain s f h2 v).2 := by
  unfold openPlain
  split
  · split
    · dsimp -zeta only
      assumption
    · refine putPlain_keeps hmem hflt ?_
      assumption
  · dsimp -zeta only
    assumption

theorem judge3_keeps (hregs : Keep.regs P) (hmem : Keep.mem P) (hpairs : Keep.pairs P) (heth : Keep.eth P) (hflt : Keep.flt P) (hint : Keep.int P) (hstl : Keep.stl P) (hout : Keep.out P) {s : State} {f} {h2} (h : P s) : P (judge3 s f h2).2.2 := by
  unfold judge3
  extract_lets -underBinder -merge -useContext +onlyGivenNames x
  clear_value x
  extract_lets -underBinder -merge -useContext +onlyGivenNames x
  clear_value x
  split
  · extract_lets -underBinder -merge -useContext +onlyGivenNames x
    clear_value x
    split
    · dsimp -zeta only
      refine bump_keeps hregs ?_
      assumption
    · dsimp -zeta only
      refine bump_keeps hregs ?_
      assumption
  · extract_lets -underBinder -merge -useContext +onlyGivenNames x
    clear_value x
    extract_lets -underBinder -merge -useContext +onlyGivenNames x
    clear_value x
    extract_lets -underBinder -merge -useContext +onlyGivenNames x
    clear_value x
    extract_lets -underBinder -merge -useContext +onlyGivenNames x
    clear_value x
    extract_lets -underBinder -merge -useContext +onlyGivenNames x
    clear_value x
    extract_lets -underBinder -merge -useContext +onlyGivenNames x
    clear_value x
    split
    · dsimp -zeta only
      refine bump_keeps hregs ?_
      refine openPlain_keeps hmem hflt ?_
      assumption
    · split
      · dsimp -zeta only
        refine bump_keeps hregs ?_
        assumption
      · split
        · dsimp -zeta only
          refine bump_keeps hregs ?_
          assumption
        · split
          · dsimp -zeta only
            assumption
          · split
            · dsimp -zeta only
              refine evt_keeps hregs heth hint hstl hout ?_
              refine bump_keeps hregs ?_
              refine openPlain_keeps hmem hflt ?_
              refine ackKey_keeps hpairs ?_
              assumption
            · dsimp -zeta only
              refine openPlain_keeps hmem hflt ?_
              refine judgeFresh_keeps hregs hmem heth hint hstl hout ?_
              refine ackKey_keeps hpairs ?_
              assumption

theorem ackSteps_keeps (hregs : Keep.regs P) (hmem : Keep.mem P) (heth : Keep.eth P) (hint : Keep.int P) (hstl : Keep.stl P) (hout : Keep.out P) {s : State} {f} {h2} {o} (h : P s) : P (ackSteps s f h2 o).2 := by
  unfold ackSteps
  split
  · dsimp -zeta only
    assumption
  · split
    · dsimp -zeta only
      refine evt_keeps hregs heth hint hstl hout ?_
      refine bump_keeps hregs ?_
      assumption
    · split
      · dsimp -zeta only
        refine bump_keeps hregs ?_
        assumption
      · split
        · dsimp -zeta only
          assumption
        · extract_lets -underBinder -merge -useContext +onlyGivenNames x
          clear_value x
          split
          · split
            · dsimp -zeta only
              refine Keep.pat2 ?_ (by assumption)
              refine takeCounter_keeps hregs hmem heth hint hstl hout ?_
              assumption
            · dsimp -zeta only
              refine Keep.pat2 ?_ (by assumption)
              refine takeCounter_keeps hregs hmem heth hint hstl hout ?_
              assumption
          · dsimp -zeta only
            assumption

theorem judgeFrame_keeps (hregs : Keep.regs P) (hmem : Keep.mem P) (hframes : Keep.frames P) (hholds : Keep.holds P) (hwin : Keep.win P) (hlnk : Keep.lnk P) (hpairs : Keep.pairs P) (hcores : Keep.cores P) (hsage : Keep.sage P) (heth : Keep.eth P) (hflt : Keep.flt P) (hint : Keep.int P) (hstl : Keep.stl P) (hout : Keep.out P) {s : State} {f} {quiet} (h : P s) : P (judgeFrame s f quiet) := by
  unfold judgeFrame
  split
  · refine finishFrame_keeps hregs hframes hholds hwin hsage heth hflt hint hstl hout ?_
    assumption
  · dsimp -zeta only
    extract_lets -underBinder -merge -useContext +onlyGivenNames x
    clear_value x
    refine Keep.ite ?_ ?_
    · refine finishFrame_keeps hregs hframes hholds hwin hsage heth hflt hint hstl hout ?_
      refine judge3_keeps hregs hmem hpairs heth hflt hint hstl hout ?_
      assumption
    · extract_lets -underBinder -merge -useContext +onlyGivenNames x
      have hx : P x := by
        subst x
        refine noteScore_keeps hsage ?_
        refine judge3_keeps hregs hmem hpairs heth hflt hint hstl hout ?_
        assumption
      clear_value x
      extract_lets -underBinder -merge -useContext +onlyGivenNames x
      have hx : P x := by
        subst x
        split
        · refine Keep.ite ?_ ?_
          · refine reqAcked_keeps hregs hholds hlnk hcores ?_
            assumption
          · assumption
        · assumption
      clear_value x
      refine Keep.ite ?_ ?_
      · refine updFrame_keeps hframes ?_
        split
        · dsimp -zeta only
          assumption
        · refine ackSteps_keeps hregs hmem heth hint hstl hout ?_
          assumption
      · refine finishFrame_keeps hregs hframes hholds hwin hsage heth hflt hint hstl hout ?_
        split
        · dsimp -zeta only
          assumption
        · refine ackSteps_keeps hregs hmem heth hint hstl hout ?_
          assumption

theorem engineEvent_keeps (hregs : Keep.regs P) (hmem : Keep.mem P) (htime : Keep.time P) (hframes : Keep.frames P) (hholds : Keep.holds P) (hwin : Keep.win P) (hlnk : Keep.lnk P) (hses : Keep.ses P) (hpairs : Keep.pairs P) (hcores : Keep.cores P) (hsage : Keep.sage P) (husl : Keep.usl P) (heth : Keep.eth P) (hflt : Keep.flt P) (hint : Keep.int P) (hstl : Keep.stl P) (hfree : Keep.free P) (hout : Keep.out P) {s : State} {cls} (h : P s) : P (engineEvent s cls) := by
  unfold engineEvent
  refine Keep.ite ?_ ?_
  · refine sesHead_keeps hregs hmem htime hses hcores hsage husl heth hint hstl hfree hout ?_
    assumption
  · refine Keep.ite ?_ ?_
    · split
      · refine judgeFrame_keeps hregs hmem hframes hholds hwin hlnk hpairs hcores hsage heth hflt hint hstl hout ?_
        refine reach_keeps htime ?_
        assumption
      · assumption
    · split
      · refine lookAt_keeps hregs htime hframes hholds hsage heth hint hstl hout ?_
        assumption
      · assumption

theorem engineTo_keeps (hregs : Keep.regs P) (hmem : Keep.mem P) (htime : Keep.time P) (hframes : Keep.frames P) (hholds : Keep.holds P) (hwin : Keep.win P) (hlnk : Keep.lnk P) (hses : Keep.ses P) (hpairs : Keep.pairs P) (hcores : Keep.cores P) (hsage : Keep.sage P) (husl : Keep.usl P) (heth : Keep.eth P) (hflt : Keep.flt P) (hint : Keep.int P) (hstl : Keep.stl P) (hfree : Keep.free P) (hout : Keep.out P) {t0} {cls} {x3} {x4 : State} (h : P x4) : P (engineTo t0 cls x3 x4) := by
  induction x3 generalizing t0 cls x4 with
  | zero =>
    unfold engineTo
    assumption
  | succ n ih =>
    unfold engineTo
    split
    · refine Keep.ite ?_ ?_
      · refine ih ?_
        refine engineEvent_keeps hregs hmem htime hframes hholds hwin hlnk hses hpairs hcores hsage husl heth hflt hint hstl hfree hout ?_
        assumption
      · assumption
    · assumption

theorem sessionLookup_keeps (hregs : Keep.regs P) (hmem : Keep.mem P) (htime : Keep.time P) (hframes : Keep.frames P) (hholds : Keep.holds P) (hwin : Keep.win P) (hlnk : Keep.lnk P) (hses : Keep.ses P) (hpairs : Keep.pairs P) (hcores : Keep.cores P) (hsage : Keep.sage P) (husl : Keep.usl P) (heth : Keep.eth P) (hflt : Keep.flt P) (hint : Keep.int P) (hstl : Keep.stl P) (hfree : Keep.free P) (hout : Keep.out P) {s : State} (h : P s) : P (sessionLookup s) := by
  unfold sessionLookup
  split
  · refine engineEvent_keeps hregs hmem htime hframes hholds hwin hlnk hses hpairs hcores hsage husl heth hflt hint hstl hfree hout ?_
    refine engineTo_keeps hregs hmem htime hframes hholds hwin hlnk hses hpairs hcores hsage husl heth hflt hint hstl hfree hout ?_
    assumption
  · assumption

theorem frameJudgement_keeps (hregs : Keep.regs P) (hmem : Keep.mem P) (htime : Keep.time P) (hframes : Keep.frames P) (hholds : Keep.holds P) (hwin : Keep.win P) (hlnk : Keep.lnk P) (hses : Keep.ses P) (hpairs : Keep.pairs P) (hcores : Keep.cores P) (hsage : Keep.sage P) (husl : Keep.usl P) (heth : Keep.eth P) (hflt : Keep.flt P) (hint : Keep.int P) (hstl : Keep.stl P) (hfree : Keep.free P) (hout : Keep.out P) {s : State} (h : P s) : P (frameJudgement s) := by
  unfold frameJudgement
  split
  · refine engineEvent_keeps hregs hmem htime hframes hholds hwin hlnk hses hpairs hcores hsage husl heth hflt hint hstl hfree hout ?_
    refine engineTo_keeps hregs hmem htime hframes hholds hwin hlnk hses hpairs hcores hsage husl heth hflt hint hstl hfree hout ?_
    assumption
  · assumption

theorem engineToCommand_keeps (hregs : Keep.regs P) (hmem : Keep.mem P) (htime : Keep.time P) (hframes : Keep.frames P) (hholds : Keep.holds P) (hwin : Keep.win P) (hlnk : Keep.lnk P) (hses : Keep.ses P) (hpairs : Keep.pairs P) (hcores : Keep.cores P) (hsage : Keep.sage P) (husl : Keep.usl P) (heth : Keep.eth P) (hflt : Keep.flt P) (hint : Keep.int P) (hstl : Keep.stl P) (hfree : Keep.free P) (hout : Keep.out P) {x1} {x2 : State} (h : P x2) : P (engineToCommand x1 x2) := by
  induction x1 generalizing x2 with
  | zero =>
    unfold engineToCommand
    assumption
  | succ n ih =>
    unfold engineToCommand
    split
    · refine Keep.ite ?_ ?_
      · assumption
      · refine ih ?_
        refine engineEvent_keeps hregs hmem htime hframes hholds hwin hlnk hses hpairs hcores hsage husl heth hflt hint hstl hfree hout ?_
        assumption
    · assumption

theorem sesRow_keeps (hregs : Keep.regs P) (hmem : Keep.mem P) (htime : Keep.time P) (hframes : Keep.frames P) (hholds : Keep.holds P) (hwin : Keep.win P) (hlnk : Keep.lnk P) (hses : Keep.ses P) (hpairs : Keep.pairs P) (hcores : Keep.cores P) (hsage : Keep.sage P) (husl : Keep.usl P) (heth : Keep.eth P) (hflt : Keep.flt P) (hint : Keep.int P) (hstl : Keep.stl P) (hfree : Keep.free P) (hout : Keep.out P) {op} {s : State} (h : P s) : P (sesRow op s) := by
  unfold sesRow
  refine Keep.ite ?_ ?_
  · assumption
  · extract_lets -underBinder -merge -useContext +onlyGivenNames x
    have hx : P x := by
      subst x
      refine engineToCommand_keeps hregs hmem htime hframes hholds hwin hlnk hses hpairs hcores hsage husl heth hflt hint hstl hfree hout ?_
      assumption
    clear_value x
    split
    · refine Keep.ite ?_ ?_
      · refine sesHead_keeps hregs hmem htime hses hcores hsage husl heth hint hstl hfree hout ?_
        assumption
      · assumption
    · assumption

theorem makeFollow_keeps (hlnk : Keep.lnk P) {s : State} {f} {p} {h3} {chan} {df} {pend} (h : P s) : P (makeFollow s f p h3 chan df pend) := by
  unfold makeFollow
  split
  · assumption
  · extract_lets -underBinder -merge -useContext +onlyGivenNames x
    clear_value x
    extract_lets -underBinder -merge -useContext +onlyGivenNames x
    clear_value x
    extract_lets -underBinder -merge -useContext +onlyGivenNames x
    clear_value x
    extract_lets -underBinder -merge -useContext +onlyGivenNames x
    clear_value x
    refine Keep.ite ?_ ?_
    · refine updReq_keeps hlnk ?_
      assumption
    · assumption

theorem decideAck_keeps (hregs : Keep.regs P) (hsheaves : Keep.sheaves P) (hframes : Keep.frames P) (hholds : Keep.holds P) (hwin : Keep.win P) (hlnk : Keep.lnk P) (hsage : Keep.sage P) (heth : Keep.eth P) (hflt : Keep.flt P) (hint : Keep.int P) (hstl : Keep.stl P) (hout : Keep.out P) {s : State} {f} {p} {h3} (h : P s) : P (decideAck s f p h3) := by
  unfold decideAck
  extract_lets -underBinder -merge -useContext +onlyGivenNames x
  clear_value x
  extract_lets -underBinder -merge -useContext +onlyGivenNames x
  clear_value x
  split
  · refine finishFrame_keeps hregs hframes hholds hwin hsage heth hflt hint hstl hout ?_
    refine evt_keeps hregs heth hint hstl hout ?_
    refine bump_keeps hregs ?_
    assumption
  · extract_lets -underBinder -merge -useContext +onlyGivenNames x
    clear_value x
    extract_lets -underBinder -merge -useContext +onlyGivenNames x
    clear_value x
    dsimp -zeta only
    extract_lets -underBinder -merge -useContext +onlyGivenNames x
    clear_value x
    extract_lets -underBinder -merge -useContext +onlyGivenNames x
    clear_value x
    extract_lets -underBinder -merge -useContext +onlyGivenNames x
    clear_value x
    split
    · refine finishFrame_keeps hregs hframes hholds hwin hsage heth hflt hint hstl hout ?_
      refine gateVerdict_keeps hwin ?_
      refine gateJudge_keeps hregs hlnk heth hint hstl hout ?_
      assumption
    · extract_lets -underBinder -merge -useContext +onlyGivenNames x
      have hx : P x := by
        subst x
        refine grantTx_keeps hsheaves hlnk ?_
        refine gateJudge_keeps hregs hlnk heth hint hstl hout ?_
        assumption
      clear_value x
      refine makeFollow_keeps hlnk ?_
      refine finishFrame_keeps hregs hframes hholds hwin hsage heth hflt hint hstl hout ?_
      assumption

theorem claimDecision_keeps (hregs : Keep.regs P) (htime : Keep.time P) (hsheaves : Keep.sheaves P) (hframes : Keep.frames P) (hholds : Keep.holds P) (hwin : Keep.win P) (hlnk : Keep.lnk P) (hcores : Keep.cores P) (hsage : Keep.sage P) (heth : Keep.eth P) (hflt : Keep.flt P) (hint : Keep.int P) (hstl : Keep.stl P) (hout : Keep.out P) {s : State} (h : P s) : P (claimDecision s) := by
  unfold claimDecision
  refine Keep.ite ?_ ?_
  · assumption
  · split
    · assumption
    · extract_lets -underBinder -merge -useContext +onlyGivenNames x
      have hx : P x := by
        subst x
        refine prunePlan_keeps hlnk ?_
        refine reach_keeps htime ?_
        assumption
      clear_value x
      split
      · split
        · split
          · refine decideAck_keeps hregs hsheaves hframes hholds hwin hlnk hsage heth hflt hint hstl hout ?_
            assumption
          · assumption
        · assumption
      · split
        · split
          · refine decideFollow_keeps hregs hsheaves hholds hwin hlnk hcores heth hint hstl hout ?_
            assumption
          · assumption
        · assumption
      · split
        · refine decideRequest_keeps hregs hsheaves hholds hwin hlnk hcores heth hint hstl hout ?_
          assumption
        · assumption

theorem lnkStop_keeps (hregs : Keep.regs P) (hframes : Keep.frames P) (hholds : Keep.holds P) (hwin : Keep.win P) (hlnk : Keep.lnk P) (hcores : Keep.cores P) (hsage : Keep.sage P) (heth : Keep.eth P) (hflt : Keep.flt P) (hint : Keep.int P) (hstl : Keep.stl P) (hout : Keep.out P) {s : State} (h : P s) : P (lnkStop s) := by
  unfold lnkStop
  extract_lets -underBinder -merge -useContext +onlyGivenNames x
  clear_value x
  extract_lets -underBinder -merge -useContext +onlyGivenNames x
  have hx : P x := by
    subst x
    refine drainState_keeps hregs ?_
    assumption
  clear_value x
  extract_lets -underBinder -merge -useContext +onlyGivenNames x
  have hx : P x := by
    subst x
    refine lnkShow_keeps hregs ?_
    refine updLnk_keeps hlnk ?_
    assumption
  clear_value x
  extract_lets -underBinder -merge -useContext +onlyGivenNames x
  have hx : P x := by
    subst x
    refine Keep.foldl ?_ ?_
    · assumption
    · intro _ _ _
      refine reqEnd_keeps hregs hholds hlnk hcores ?_
      assumption
  clear_value x
  refine Keep.foldl ?_ ?_
  · assumption
  · intro _ _ _
    refine finishFrame_keeps hregs hframes hholds hwin hsage heth hflt hint hstl hout ?_
    assumption

theorem lnkCtlWrite_keeps (hregs : Keep.regs P) (hframes : Keep.frames P) (hholds : Keep.holds P) (hwin : Keep.win P) (hlnk : Keep.lnk P) (hcores : Keep.cores P) (hsage : Keep.sage P) (heth : Keep.eth P) (hflt : Keep.flt P) (hint : Keep.int P) (hstl : Keep.stl P) (hout : Keep.out P) {v} {s : State} (h : P s) : P (lnkCtlWrite v s) := by
  unfold lnkCtlWrite
  extract_lets -underBinder -merge -useContext +onlyGivenNames x
  clear_value x
  extract_lets -underBinder -merge -useContext +onlyGivenNames x
  have hx : P x := by
    subst x
    refine setEn_keeps hregs ?_
    refine rwrite_keeps hregs ?_
    assumption
  clear_value x
  extract_lets -underBinder -merge -useContext +onlyGivenNames x
  have hx : P x := by
    subst x
    refine Keep.ite ?_ ?_
    · refine Keep.foldl ?_ ?_
      · assumption
      · intro _ _ _
        refine rset_keeps hregs ?_
        assumption
    · assumption
  clear_value x
  extract_lets -underBinder -merge -useContext +onlyGivenNames x
  clear_value x
  refine Keep.ite ?_ ?_
  · extract_lets -underBinder -merge -useContext +onlyGivenNames x
    have hx : P x := by
      subst x
      refine lnkShow_keeps hregs ?_
      refine updLnk_keeps hlnk ?_
      assumption
    clear_value x
    extract_lets -underBinder -merge -useContext +onlyGivenNames x
    have hx : P x := by
      subst x
      refine setEn_keeps hregs ?_
      assumption
    clear_value x
    refine Keep.ite ?_ ?_
    · refine lnkBegin_keeps hregs hlnk heth hint hstl hout ?_
      assumption
    · assumption
  · refine Keep.ite ?_ ?_
    · extract_lets -underBinder -merge -useContext +onlyGivenNames x
      clear_value x
      refine Keep.ite ?_ ?_
      · refine Keep.ite ?_ ?_
        · refine evt_keeps hregs heth hint hstl hout ?_
          refine lnkStop_keeps hregs hframes hholds hwin hlnk hcores hsage heth hflt hint hstl hout ?_
          assumption
        · refine lnkShow_keeps hregs ?_
          refine updLnk_keeps hlnk ?_
          assumption
      · refine lnkStop_keeps hregs hframes hholds hwin hlnk hcores hsage heth hflt hint hstl hout ?_
        assumption
    · refine setEn_keeps hregs ?_
      assumption

theorem execSessionLookup_keeps (hregs : Keep.regs P) (hmem : Keep.mem P) (htime : Keep.time P) (hframes : Keep.frames P) (hholds : Keep.holds P) (hwin : Keep.win P) (hlnk : Keep.lnk P) (hses : Keep.ses P) (hpairs : Keep.pairs P) (hcores : Keep.cores P) (hsage : Keep.sage P) (husl : Keep.usl P) (heth : Keep.eth P) (hflt : Keep.flt P) (hint : Keep.int P) (hstl : Keep.stl P) (hfree : Keep.free P) (hout : Keep.out P) {s : State} (h : P s) {t : State} (e : execSessionLookup s = .next t) : P t := by
  obtain rfl := Host.Outcome.next.inj e
  refine sessionLookup_keeps hregs hmem htime hframes hholds hwin hlnk hses hpairs hcores hsage husl heth hflt hint hstl hfree hout ?_
  assumption

theorem execFrameJudgement_keeps (hregs : Keep.regs P) (hmem : Keep.mem P) (htime : Keep.time P) (hframes : Keep.frames P) (hholds : Keep.holds P) (hwin : Keep.win P) (hlnk : Keep.lnk P) (hses : Keep.ses P) (hpairs : Keep.pairs P) (hcores : Keep.cores P) (hsage : Keep.sage P) (husl : Keep.usl P) (heth : Keep.eth P) (hflt : Keep.flt P) (hint : Keep.int P) (hstl : Keep.stl P) (hfree : Keep.free P) (hout : Keep.out P) {s : State} (h : P s) {t : State} (e : execFrameJudgement s = .next t) : P t := by
  obtain rfl := Host.Outcome.next.inj e
  refine frameJudgement_keeps hregs hmem htime hframes hholds hwin hlnk hses hpairs hcores hsage husl heth hflt hint hstl hfree hout ?_
  assumption

theorem execClaimDecision_keeps (hregs : Keep.regs P) (htime : Keep.time P) (hsheaves : Keep.sheaves P) (hframes : Keep.frames P) (hholds : Keep.holds P) (hwin : Keep.win P) (hlnk : Keep.lnk P) (hcores : Keep.cores P) (hsage : Keep.sage P) (heth : Keep.eth P) (hflt : Keep.flt P) (hint : Keep.int P) (hstl : Keep.stl P) (hout : Keep.out P) {s : State} (h : P s) {t : State} (e : execClaimDecision s = .next t) : P t := by
  obtain rfl := Host.Outcome.next.inj e
  refine claimDecision_keeps hregs htime hsheaves hframes hholds hwin hlnk hcores hsage heth hflt hint hstl hout ?_
  assumption

theorem execLinkStop_keeps (hregs : Keep.regs P) (htime : Keep.time P) (hframes : Keep.frames P) (hholds : Keep.holds P) (hwin : Keep.win P) (hlnk : Keep.lnk P) (hcores : Keep.cores P) (hsage : Keep.sage P) (heth : Keep.eth P) (hflt : Keep.flt P) (hint : Keep.int P) (hstl : Keep.stl P) (hout : Keep.out P) {s : State} (h : P s) {t : State} (e : execLinkStop s = .next t) : P t := by
  obtain rfl := Host.Outcome.next.inj e
  split
  · refine lnkStop_keeps hregs hframes hholds hwin hlnk hcores hsage heth hflt hint hstl hout ?_
    refine reach_keeps htime ?_
    assumption
  · assumption

theorem execAdmitSession_keeps (hregs : Keep.regs P) (hmem : Keep.mem P) (htime : Keep.time P) (hframes : Keep.frames P) (hholds : Keep.holds P) (hwin : Keep.win P) (hlnk : Keep.lnk P) (hses : Keep.ses P) (hpairs : Keep.pairs P) (hcores : Keep.cores P) (hsage : Keep.sage P) (husl : Keep.usl P) (heth : Keep.eth P) (hflt : Keep.flt P) (hint : Keep.int P) (hstl : Keep.stl P) (hfree : Keep.free P) (hout : Keep.out P) {s : State} (h : P s) {t : State} (e : execAdmitSession s = .next t) : P t := by
  obtain rfl := Host.Outcome.next.inj e
  refine sesRow_keeps hregs hmem htime hframes hholds hwin hlnk hses hpairs hcores hsage husl heth hflt hint hstl hfree hout ?_
  assumption

theorem execRemove_keeps (hregs : Keep.regs P) (hmem : Keep.mem P) (htime : Keep.time P) (hframes : Keep.frames P) (hholds : Keep.holds P) (hwin : Keep.win P) (hlnk : Keep.lnk P) (hses : Keep.ses P) (hpairs : Keep.pairs P) (hcores : Keep.cores P) (hsage : Keep.sage P) (husl : Keep.usl P) (heth : Keep.eth P) (hflt : Keep.flt P) (hint : Keep.int P) (hstl : Keep.stl P) (hfree : Keep.free P) (hout : Keep.out P) {s : State} (h : P s) {t : State} (e : execRemove s = .next t) : P t := by
  obtain rfl := Host.Outcome.next.inj e
  refine sesRow_keeps hregs hmem htime hframes hholds hwin hlnk hses hpairs hcores hsage husl heth hflt hint hstl hfree hout ?_
  assumption

theorem execSetpol_keeps (hregs : Keep.regs P) (hmem : Keep.mem P) (htime : Keep.time P) (hframes : Keep.frames P) (hholds : Keep.holds P) (hwin : Keep.win P) (hlnk : Keep.lnk P) (hses : Keep.ses P) (hpairs : Keep.pairs P) (hcores : Keep.cores P) (hsage : Keep.sage P) (husl : Keep.usl P) (heth : Keep.eth P) (hflt : Keep.flt P) (hint : Keep.int P) (hstl : Keep.stl P) (hfree : Keep.free P) (hout : Keep.out P) {s : State} (h : P s) {t : State} (e : execSetpol s = .next t) : P t := by
  obtain rfl := Host.Outcome.next.inj e
  refine sesRow_keeps hregs hmem htime hframes hholds hwin hlnk hses hpairs hcores hsage husl heth hflt hint hstl hfree hout ?_
  assumption

theorem execSetfresh_keeps (hregs : Keep.regs P) (hmem : Keep.mem P) (htime : Keep.time P) (hframes : Keep.frames P) (hholds : Keep.holds P) (hwin : Keep.win P) (hlnk : Keep.lnk P) (hses : Keep.ses P) (hpairs : Keep.pairs P) (hcores : Keep.cores P) (hsage : Keep.sage P) (husl : Keep.usl P) (heth : Keep.eth P) (hflt : Keep.flt P) (hint : Keep.int P) (hstl : Keep.stl P) (hfree : Keep.free P) (hout : Keep.out P) {s : State} (h : P s) {t : State} (e : execSetfresh s = .next t) : P t := by
  obtain rfl := Host.Outcome.next.inj e
  refine sesRow_keeps hregs hmem htime hframes hholds hwin hlnk hses hpairs hcores hsage husl heth hflt hint hstl hfree hout ?_
  assumption

theorem execFcres_keeps (hregs : Keep.regs P) (hmem : Keep.mem P) (htime : Keep.time P) (hframes : Keep.frames P) (hholds : Keep.holds P) (hwin : Keep.win P) (hlnk : Keep.lnk P) (hses : Keep.ses P) (hpairs : Keep.pairs P) (hcores : Keep.cores P) (hsage : Keep.sage P) (husl : Keep.usl P) (heth : Keep.eth P) (hflt : Keep.flt P) (hint : Keep.int P) (hstl : Keep.stl P) (hfree : Keep.free P) (hout : Keep.out P) {s : State} (h : P s) {t : State} (e : execFcres s = .next t) : P t := by
  obtain rfl := Host.Outcome.next.inj e
  refine sesRow_keeps hregs hmem htime hframes hholds hwin hlnk hses hpairs hcores hsage husl heth hflt hint hstl hfree hout ?_
  assumption

theorem execKeyderive_keeps (hregs : Keep.regs P) (hmem : Keep.mem P) (htime : Keep.time P) (hframes : Keep.frames P) (hholds : Keep.holds P) (hwin : Keep.win P) (hlnk : Keep.lnk P) (hses : Keep.ses P) (hpairs : Keep.pairs P) (hcores : Keep.cores P) (hsage : Keep.sage P) (husl : Keep.usl P) (heth : Keep.eth P) (hflt : Keep.flt P) (hint : Keep.int P) (hstl : Keep.stl P) (hfree : Keep.free P) (hout : Keep.out P) {s : State} (h : P s) {t : State} (e : execKeyderive s = .next t) : P t := by
  obtain rfl := Host.Outcome.next.inj e
  refine sesRow_keeps hregs hmem htime hframes hholds hwin hlnk hses hpairs hcores hsage husl heth hflt hint hstl hfree hout ?_
  assumption

theorem execKeyinstall_keeps (hregs : Keep.regs P) (hmem : Keep.mem P) (htime : Keep.time P) (hframes : Keep.frames P) (hholds : Keep.holds P) (hwin : Keep.win P) (hlnk : Keep.lnk P) (hses : Keep.ses P) (hpairs : Keep.pairs P) (hcores : Keep.cores P) (hsage : Keep.sage P) (husl : Keep.usl P) (heth : Keep.eth P) (hflt : Keep.flt P) (hint : Keep.int P) (hstl : Keep.stl P) (hfree : Keep.free P) (hout : Keep.out P) {s : State} (h : P s) {t : State} (e : execKeyinstall s = .next t) : P t := by
  obtain rfl := Host.Outcome.next.inj e
  refine sesRow_keeps hregs hmem htime hframes hholds hwin hlnk hses hpairs hcores hsage husl heth hflt hint hstl hfree hout ?_
  assumption

theorem execKeyclear_keeps (hregs : Keep.regs P) (hmem : Keep.mem P) (htime : Keep.time P) (hframes : Keep.frames P) (hholds : Keep.holds P) (hwin : Keep.win P) (hlnk : Keep.lnk P) (hses : Keep.ses P) (hpairs : Keep.pairs P) (hcores : Keep.cores P) (hsage : Keep.sage P) (husl : Keep.usl P) (heth : Keep.eth P) (hflt : Keep.flt P) (hint : Keep.int P) (hstl : Keep.stl P) (hfree : Keep.free P) (hout : Keep.out P) {s : State} (h : P s) {t : State} (e : execKeyclear s = .next t) : P t := by
  obtain rfl := Host.Outcome.next.inj e
  refine sesRow_keeps hregs hmem htime hframes hholds hwin hlnk hses hpairs hcores hsage husl heth hflt hint hstl hfree hout ?_
  assumption

theorem execClrcnt_keeps (hregs : Keep.regs P) (hmem : Keep.mem P) (htime : Keep.time P) (hframes : Keep.frames P) (hholds : Keep.holds P) (hwin : Keep.win P) (hlnk : Keep.lnk P) (hses : Keep.ses P) (hpairs : Keep.pairs P) (hcores : Keep.cores P) (hsage : Keep.sage P) (husl : Keep.usl P) (heth : Keep.eth P) (hflt : Keep.flt P) (hint : Keep.int P) (hstl : Keep.stl P) (hfree : Keep.free P) (hout : Keep.out P) {s : State} (h : P s) {t : State} (e : execClrcnt s = .next t) : P t := by
  obtain rfl := Host.Outcome.next.inj e
  refine sesRow_keeps hregs hmem htime hframes hholds hwin hlnk hses hpairs hcores hsage husl heth hflt hint hstl hfree hout ?_
  assumption

end Sys2Proof.Machine
end

