-- ==== Sys2Proof/Laws/KeepCluster.lean ====
section
/-!
SUPPORT. Which parts of the state the operations may change: Sage, the timebase, clusters and the lanes.
-/

namespace Sys2Proof.Machine

variable {P : State → Prop}

theorem updSage_keeps (hsage : Keep.sage P) {s : State} {f} (h : P s) : P (updSage s f) := by
  unfold updSage
  refine Keep.set_sage hsage ?_
  assumption

theorem placeNew_keeps (hsage : Keep.sage P) {s : State} {n} {carry} (h : P s) : P (placeNew s n carry) := by
  unfold placeNew
  split
  · assumption
  · refine updSage_keeps hsage ?_
    assumption

theorem sendTake_keeps (hholds : Keep.holds P) (hcores : Keep.cores P) (hsage : Keep.sage P) {s : State} {p} (h : P s) : P (sendTake s p) := by
  unfold sendTake
  split
  · refine Keep.ite ?_ ?_
    · refine updSage_keeps hsage ?_
      refine arrive_keeps hcores ?_
      refine Keep.ite ?_ ?_
      · assumption
      · refine passHold_keeps hholds ?_
        assumption
    · assumption
  · assumption

theorem sendRec_keeps (hcores : Keep.cores P) (hsage : Keep.sage P) {s : State} {r} {k} (h : P s) : P (sendRec s r k) := by
  unfold sendRec
  extract_lets -underBinder -merge -useContext +onlyGivenNames x
  have hx : P x := by
    subst x
    refine arrive_keeps hcores ?_
    assumption
  clear_value x
  refine updSage_keeps hsage ?_
  assumption

theorem routeOne_keeps (hholds : Keep.holds P) (hcores : Keep.cores P) (hsage : Keep.sage P) {st} {r} (h : P st.1) : P (routeOne st r).1 := by
  unfold routeOne
  dsimp -zeta only
  split
  · dsimp -zeta only
    assumption
  · split
    · dsimp -zeta only
      assumption
    · extract_lets -underBinder -merge -useContext +onlyGivenNames x
      have hx : P x := by
        subst x
        refine Keep.ite ?_ ?_
        · assumption
        · refine placeNew_keeps hsage ?_
          assumption
      clear_value x
      split
      · dsimp -zeta only
        assumption
      · extract_lets -underBinder -merge -useContext +onlyGivenNames x
        have hx : P x := by
          subst x
          refine sendTake_keeps hholds hcores hsage ?_
          assumption
        clear_value x
        extract_lets -underBinder -merge -useContext +onlyGivenNames x
        clear_value x
        split
        · dsimp -zeta only
          assumption
        · dsimp -zeta only
          refine sendRec_keeps hcores hsage ?_
          assumption

theorem moveRelease_keeps (hcores : Keep.cores P) (hsage : Keep.sage P) {s : State} {m} (h : P s) : P (moveRelease s m) := by
  unfold moveRelease
  refine Keep.ite ?_ ?_
  · refine updSage_keeps hsage ?_
    refine arrive_keeps hcores ?_
    assumption
  · assumption

theorem sendMarker_keeps (hcores : Keep.cores P) (hsage : Keep.sage P) {s : State} {e1} (h : P s) : P (sendMarker s e1) := by
  unfold sendMarker
  extract_lets -underBinder -merge -useContext +onlyGivenNames x
  clear_value x
  extract_lets -underBinder -merge -useContext +onlyGivenNames x
  have hx : P x := by
    subst x
    refine Keep.ite ?_ ?_
    · assumption
    · refine placeNew_keeps hsage ?_
      assumption
  clear_value x
  split
  · refine Keep.ite ?_ ?_
    · assumption
    · refine updSage_keeps hsage ?_
      refine arrive_keeps hcores ?_
      assumption
  · refine Keep.ite ?_ ?_
    · refine updSage_keeps hsage ?_
      assumption
    · assumption

theorem sagePump_keeps (hholds : Keep.holds P) (hwin : Keep.win P) (hcores : Keep.cores P) (hsage : Keep.sage P) {s : State} (h : P s) : P (sagePump s) := by
  unfold sagePump
  extract_lets -underBinder -merge -useContext +onlyGivenNames x
  clear_value x
  extract_lets -underBinder -merge -useContext +onlyGivenNames x
  clear_value x
  extract_lets -underBinder -merge -useContext +onlyGivenNames x
  have hx : P x := by
    subst x
    refine Keep.set_win_sage hwin hsage ?_
    assumption
  clear_value x
  extract_lets -underBinder -merge -useContext +onlyGivenNames x
  have hx : P x := by
    subst x
    refine Keep.foldl ?_ ?_
    · assumption
    · intro _ _ _
      refine sendMarker_keeps hcores hsage ?_
      assumption
  clear_value x
  extract_lets -underBinder -merge -useContext +onlyGivenNames x
  have hx : P x := by
    subst x
    refine Keep.foldl ?_ ?_
    · assumption
    · intro _ _ _
      refine Keep.ite ?_ ?_
      · refine sendTake_keeps hholds hcores hsage ?_
        assumption
      · assumption
  clear_value x
  dsimp -zeta only
  extract_lets -underBinder -merge -useContext +onlyGivenNames x
  clear_value x
  extract_lets -underBinder -merge -useContext +onlyGivenNames x
  have hx : P x := by
    subst x
    refine updSage_keeps hsage ?_
    refine Keep.foldl1 ?_ ?_
    · dsimp -zeta only
      refine Keep.set_sage hsage ?_
      assumption
    · intro _ _ _
      refine routeOne_keeps hholds hcores hsage ?_
      assumption
  clear_value x
  refine Keep.foldl ?_ ?_
  · assumption
  · intro _ _ _
    refine moveRelease_keeps hcores hsage ?_
    assumption

theorem startMove_keeps (hregs : Keep.regs P) (hholds : Keep.holds P) (hsage : Keep.sage P) (heth : Keep.eth P) (hint : Keep.int P) (hstl : Keep.stl P) (hfree : Keep.free P) (hout : Keep.out P) {s : State} {n} {a} {b} {e4} (h : P s) : P (startMove s n a b e4).1 := by
  unfold startMove
  split
  · dsimp -zeta only
    refine updSage_keeps hsage ?_
    refine Keep.patSome1 ?_ (by assumption)
    refine reserve_keeps hregs hholds hfree ?_
    assumption
  · dsimp -zeta only
    refine evt_keeps hregs heth hint hstl hout ?_
    refine bump_keeps hregs ?_
    assumption

theorem balance_keeps (hregs : Keep.regs P) (hholds : Keep.holds P) (hsage : Keep.sage P) (heth : Keep.eth P) (hint : Keep.int P) (hstl : Keep.stl P) (hfree : Keep.free P) (hout : Keep.out P) {e0} {x2} {x3 : State} {x4} {x5} (h : P x3) : P (balance e0 x2 x3 x4 x5) := by
  induction x2 generalizing e0 x3 x4 x5 with
  | zero =>
    unfold balance
    assumption
  | succ n ih =>
    unfold balance
    extract_lets -underBinder -merge -useContext +onlyGivenNames x
    clear_value x
    extract_lets -underBinder -merge -useContext +onlyGivenNames x
    clear_value x
    extract_lets -underBinder -merge -useContext +onlyGivenNames x
    clear_value x
    refine Keep.ite ?_ ?_
    · assumption
    · split
      · extract_lets -underBinder -merge -useContext +onlyGivenNames x
        clear_value x
        extract_lets -underBinder -merge -useContext +onlyGivenNames x
        clear_value x
        split
        · dsimp -zeta only
          refine Keep.ite ?_ ?_
          · refine ih ?_
            refine startMove_keeps hregs hholds hsage heth hint hstl hfree hout ?_
            refine bumpFree_keeps hfree ?_
            assumption
          · refine ih ?_
            refine startMove_keeps hregs hholds hsage heth hint hstl hfree hout ?_
            refine bumpFree_keeps hfree ?_
            assumption
        · assumption
      · assumption

theorem sageBoundary_keeps (hregs : Keep.regs P) (hholds : Keep.holds P) (hsage : Keep.sage P) (heth : Keep.eth P) (hint : Keep.int P) (hstl : Keep.stl P) (hfree : Keep.free P) (hout : Keep.out P) {s : State} {e1} (h : P s) : P (sageBoundary s e1) := by
  unfold sageBoundary
  extract_lets -underBinder -merge -useContext +onlyGivenNames x
  have hx : P x := by
    subst x
    refine Keep.foldl ?_ ?_
    · assumption
    · intro _ _ _
      refine rset_keeps hregs ?_
      assumption
  clear_value x
  extract_lets -underBinder -merge -useContext +onlyGivenNames x
  have hx : P x := by
    subst x
    refine Keep.ite ?_ ?_
    · assumption
    · refine balance_keeps hregs hholds hsage heth hint hstl hfree hout ?_
      assumption
  clear_value x
  refine updSage_keeps hsage ?_
  assumption

theorem finishMove_keeps (hregs : Keep.regs P) (hholds : Keep.holds P) (hwin : Keep.win P) (hcores : Keep.cores P) (hsage : Keep.sage P) {s : State} {m} (h : P s) : P (finishMove s m) := by
  unfold finishMove
  split
  · assumption
  · extract_lets -underBinder -merge -useContext +onlyGivenNames x
    have hx : P x := by
      subst x
      refine passHold_keeps hholds ?_
      assumption
    clear_value x
    refine sagePump_keeps hholds hwin hcores hsage ?_
    refine bump_keeps hregs ?_
    refine updSage_keeps hsage ?_
    assumption

theorem moveComplete_keeps (hregs : Keep.regs P) (hholds : Keep.holds P) (hwin : Keep.win P) (hcores : Keep.cores P) (hsage : Keep.sage P) {n} {s : State} (h : P s) : P (moveComplete n s) := by
  unfold moveComplete
  split
  · refine Keep.ite ?_ ?_
    · refine finishMove_keeps hregs hholds hwin hcores hsage ?_
      assumption
    · assumption
  · assumption

theorem rxIssue_keeps (hsage : Keep.sage P) {s : State} {k} (h : P s) : P (rxIssue s k) := by
  unfold rxIssue
  refine updSage_keeps hsage ?_
  assumption

theorem rxPopped_keeps (hholds : Keep.holds P) (hcores : Keep.cores P) (hsage : Keep.sage P) {s : State} {k} {ws} (h : P s) : P (rxPopped s k ws) := by
  unfold rxPopped
  extract_lets -underBinder -merge -useContext +onlyGivenNames x
  clear_value x
  refine Keep.ite ?_ ?_
  · extract_lets -underBinder -merge -useContext +onlyGivenNames x
    clear_value x
    refine State.updCore_keeps hcores ?_
    refine passHold_keeps hholds ?_
    assumption
  · refine Keep.ite ?_ ?_
    · refine updSage_keeps hsage ?_
      refine passHold_keeps hholds ?_
      assumption
    · assumption

theorem grantEntry_keeps (hregs : Keep.regs P) (hcores : Keep.cores P) {s : State} {k} {gran} {st} (h : P s) : P (grantEntry s k gran st) := by
  unfold grantEntry
  refine completion_keeps hregs hcores ?_
  assumption

theorem granuleReservation_keeps (hregs : Keep.regs P) (hmem : Keep.mem P) (hholds : Keep.holds P) (hwin : Keep.win P) (hcores : Keep.cores P) (hflt : Keep.flt P) (hfree : Keep.free P) {k} {s : State} (h : P s) : P (granuleReservation k s) := by
  unfold granuleReservation
  split
  · assumption
  · extract_lets -underBinder -merge -useContext +onlyGivenNames x
    have hx : P x := by
      subst x
      refine takeOut_keeps hcores ?_
      assumption
    clear_value x
    extract_lets -underBinder -merge -useContext +onlyGivenNames x
    clear_value x
    refine Keep.ite ?_ ?_
    · refine grantEntry_keeps hregs hcores ?_
      assumption
    · split
      · extract_lets -underBinder -merge -useContext +onlyGivenNames x
        clear_value x
        extract_lets -underBinder -merge -useContext +onlyGivenNames x
        clear_value x
        extract_lets -underBinder -merge -useContext +onlyGivenNames x
        have hx : P x := by
          subst x
          refine grantEntry_keeps hregs hcores ?_
          refine storeRows_keeps hmem hflt ?_
          refine Keep.patSome1 ?_ (by assumption)
          refine reserve_keeps hregs hholds hfree ?_
          assumption
        clear_value x
        refine Keep.ite ?_ ?_
        · assumption
        · refine release_keeps hholds ?_
          assumption
      · extract_lets -underBinder -merge -useContext +onlyGivenNames x
        clear_value x
        extract_lets -underBinder -merge -useContext +onlyGivenNames x
        have hx : P x := by
          subst x
          refine verdict_keeps hwin ?_
          assumption
        clear_value x
        refine grantEntry_keeps hregs hcores ?_
        assumption

theorem recordReturn_keeps (hregs : Keep.regs P) (hholds : Keep.holds P) (hwin : Keep.win P) (hcores : Keep.cores P) (hsage : Keep.sage P) (heth : Keep.eth P) (hint : Keep.int P) (hstl : Keep.stl P) (hout : Keep.out P) {k} {s : State} (h : P s) : P (recordReturn k s) := by
  unfold recordReturn
  split
  · assumption
  · extract_lets -underBinder -merge -useContext +onlyGivenNames x
    have hx : P x := by
      subst x
      refine takeOut_keeps hcores ?_
      assumption
    clear_value x
    split
    · refine sagePump_keeps hholds hwin hcores hsage ?_
      refine release_keeps hholds ?_
      assumption
    · refine Keep.ite ?_ ?_
      · refine evt_keeps hregs heth hint hstl hout ?_
        assumption
      · assumption

theorem sageTillerLeft_keeps (hregs : Keep.regs P) (hholds : Keep.holds P) (hwin : Keep.win P) (hcores : Keep.cores P) (hsage : Keep.sage P) {s : State} {t1} (h : P s) : P (sageTillerLeft s t1) := by
  unfold sageTillerLeft
  extract_lets -underBinder -merge -useContext +onlyGivenNames x
  clear_value x
  extract_lets -underBinder -merge -useContext +onlyGivenNames x
  clear_value x
  extract_lets -underBinder -merge -useContext +onlyGivenNames x
  clear_value x
  extract_lets -underBinder -merge -useContext +onlyGivenNames x
  clear_value x
  extract_lets -underBinder -merge -useContext +onlyGivenNames x
  have hx : P x := by
    subst x
    refine Keep.foldl ?_ ?_
    · assumption
    · intro _ _ _
      refine passHold_keeps hholds ?_
      assumption
  clear_value x
  extract_lets -underBinder -merge -useContext +onlyGivenNames x
  clear_value x
  extract_lets -underBinder -merge -useContext +onlyGivenNames x
  have hx : P x := by
    subst x
    refine Keep.foldl ?_ ?_
    · assumption
    · intro _ _ _
      refine release_keeps hholds ?_
      assumption
  clear_value x
  extract_lets -underBinder -merge -useContext +onlyGivenNames x
  clear_value x
  extract_lets -underBinder -merge -useContext +onlyGivenNames x
  clear_value x
  extract_lets -underBinder -merge -useContext +onlyGivenNames x
  clear_value x
  extract_lets -underBinder -merge -useContext +onlyGivenNames x
  have hx : P x := by
    subst x
    refine Keep.foldl ?_ ?_
    · assumption
    · intro _ _ _
      refine release_keeps hholds ?_
      assumption
  clear_value x
  extract_lets -underBinder -merge -useContext +onlyGivenNames x
  clear_value x
  extract_lets -underBinder -merge -useContext +onlyGivenNames x
  have hx : P x := by
    subst x
    refine State.updCore_keeps hcores ?_
    assumption
  clear_value x
  extract_lets -underBinder -merge -useContext +onlyGivenNames x
  have hx : P x := by
    subst x
    refine Keep.ite ?_ ?_
    · refine bump_keeps hregs ?_
      assumption
    · assumption
  clear_value x
  extract_lets -underBinder -merge -useContext +onlyGivenNames x
  have hx : P x := by
    subst x
    refine updSage_keeps hsage ?_
    assumption
  clear_value x
  extract_lets -underBinder -merge -useContext +onlyGivenNames x
  have hx : P x := by
    subst x
    refine Keep.foldl ?_ ?_
    · assumption
    · intro _ _ _
      refine placeNew_keeps hsage ?_
      assumption
  clear_value x
  extract_lets -underBinder -merge -useContext +onlyGivenNames x
  have hx : P x := by
    subst x
    refine Keep.foldl ?_ ?_
    · assumption
    · intro _ _ _
      refine finishMove_keeps hregs hholds hwin hcores hsage ?_
      assumption
  clear_value x
  refine sagePump_keeps hholds hwin hcores hsage ?_
  assumption

theorem returnAll_keeps (hregs : Keep.regs P) (hholds : Keep.holds P) (hwin : Keep.win P) (hcores : Keep.cores P) (hsage : Keep.sage P) (heth : Keep.eth P) (hint : Keep.int P) (hstl : Keep.stl P) (hout : Keep.out P) {k} {x2} {x3 : State} (h : P x3) : P (returnAll k x2 x3) := by
  induction x2 generalizing k x3 with
  | zero =>
    unfold returnAll
    assumption
  | succ n ih =>
    unfold returnAll
    refine Keep.ite ?_ ?_
    · assumption
    · refine ih ?_
      refine recordReturn_keeps hregs hholds hwin hcores hsage heth hint hstl hout ?_
      assumption

theorem reserveAll_keeps (hregs : Keep.regs P) (hmem : Keep.mem P) (hholds : Keep.holds P) (hwin : Keep.win P) (hcores : Keep.cores P) (hflt : Keep.flt P) (hfree : Keep.free P) {k} {x2} {x3 : State} (h : P x3) : P (reserveAll k x2 x3) := by
  induction x2 generalizing k x3 with
  | zero =>
    unfold reserveAll
    assumption
  | succ n ih =>
    unfold reserveAll
    refine Keep.ite ?_ ?_
    · assumption
    · refine ih ?_
      refine granuleReservation_keeps hregs hmem hholds hwin hcores hflt hfree ?_
      assumption

theorem coreLeft_keeps (hregs : Keep.regs P) (hmem : Keep.mem P) (hholds : Keep.holds P) (hwin : Keep.win P) (hlnk : Keep.lnk P) (hses : Keep.ses P) (hkey : Keep.key P) (hcores : Keep.cores P) (hsage : Keep.sage P) (heth : Keep.eth P) (hflt : Keep.flt P) (hint : Keep.int P) (hstl : Keep.stl P) (hfree : Keep.free P) (hout : Keep.out P) {s : State} {t1} (h : P s) : P (coreLeft s t1) := by
  unfold coreLeft
  refine deliverAll_keeps hregs hcores hfree ?_
  refine disown_keeps hlnk hses hkey hcores heth ?_
  refine reserveAll_keeps hregs hmem hholds hwin hcores hflt hfree ?_
  refine sageTillerLeft_keeps hregs hholds hwin hcores hsage ?_
  refine returnAll_keeps hregs hholds hwin hcores hsage heth hint hstl hout ?_
  assumption

theorem execRecordAccept_keeps (hregs : Keep.regs P) (hmem : Keep.mem P) (hboot : Keep.boot P) (hholds : Keep.holds P) (hwin : Keep.win P) (hcores : Keep.cores P) (hsage : Keep.sage P) (heth : Keep.eth P) (hflt : Keep.flt P) (hint : Keep.int P) (hstl : Keep.stl P) (hfree : Keep.free P) (hout : Keep.out P) {s : State} (h : P s) {t : State} (e : execRecordAccept s = .next t) : P t := by
  obtain rfl := Host.Outcome.next.inj e
  split
  · refine sagePump_keeps hholds hwin hcores hsage ?_
    refine winDrain_keeps hregs ?_
    refine acceptRec_keeps hregs hmem hboot hholds hwin heth hflt hint hstl hfree hout ?_
    refine Keep.set_win hwin ?_
    assumption
  · assumption

theorem execWinnowRelease_keeps (hregs : Keep.regs P) (hmem : Keep.mem P) (htime : Keep.time P) (hboot : Keep.boot P) (hholds : Keep.holds P) (hwin : Keep.win P) (hcores : Keep.cores P) (hsage : Keep.sage P) (heth : Keep.eth P) (hflt : Keep.flt P) (hint : Keep.int P) (hstl : Keep.stl P) (hout : Keep.out P) {s : State} (h : P s) {t : State} (e : execWinnowRelease s = .next t) : P t := by
  obtain rfl := Host.Outcome.next.inj e
  refine sagePump_keeps hholds hwin hcores hsage ?_
  split
  · refine Keep.ite ?_ ?_
    · refine releaseDue_keeps hregs hmem hboot hwin heth hflt hint hstl hout ?_
      refine reach_keeps htime ?_
      assumption
    · refine releaseDue_keeps hregs hmem hboot hwin heth hflt hint hstl hout ?_
      assumption
  · refine releaseDue_keeps hregs hmem hboot hwin heth hflt hint hstl hout ?_
    assumption

theorem execHorizonArm_keeps (hregs : Keep.regs P) (hmem : Keep.mem P) (hboot : Keep.boot P) (hholds : Keep.holds P) (hwin : Keep.win P) (hcores : Keep.cores P) (hsage : Keep.sage P) (heth : Keep.eth P) (hflt : Keep.flt P) (hint : Keep.int P) (hstl : Keep.stl P) (hout : Keep.out P) {x1} {v} {s : State} (h : P s) {t : State} (e : execHorizonArm x1 v s = .next t) : P t := by
  obtain rfl := Host.Outcome.next.inj e
  refine sagePump_keeps hholds hwin hcores hsage ?_
  refine winHorWrite_keeps hregs hmem hboot hwin heth hflt hint hstl hout ?_
  assumption

theorem execHorizonApply_keeps (hregs : Keep.regs P) (hmem : Keep.mem P) (htime : Keep.time P) (hboot : Keep.boot P) (hholds : Keep.holds P) (hwin : Keep.win P) (hcores : Keep.cores P) (hsage : Keep.sage P) (heth : Keep.eth P) (hflt : Keep.flt P) (hint : Keep.int P) (hstl : Keep.stl P) (hout : Keep.out P) {s : State} (h : P s) {t : State} (e : execHorizonApply s = .next t) : P t := by
  obtain rfl := Host.Outcome.next.inj e
  split
  · extract_lets -underBinder -merge -useContext +onlyGivenNames x
    have hx : P x := by
      subst x
      refine reachRp_keeps hwin ?_
      refine reach_keeps htime ?_
      assumption
    clear_value x
    extract_lets -underBinder -merge -useContext +onlyGivenNames x
    have hx : P x := by
      subst x
      refine rsetFld_keeps hregs ?_
      refine rsetBit_keeps hregs ?_
      assumption
    clear_value x
    refine sagePump_keeps hholds hwin hcores hsage ?_
    refine releaseDue_keeps hregs hmem hboot hwin heth hflt hint hstl hout ?_
    refine Keep.set_win hwin ?_
    assumption
  · assumption

theorem execGranuleReservation_keeps (hregs : Keep.regs P) (hmem : Keep.mem P) (hholds : Keep.holds P) (hwin : Keep.win P) (hcores : Keep.cores P) (hflt : Keep.flt P) (hfree : Keep.free P) {core} {s : State} (h : P s) {t : State} (e : execGranuleReservation core s = .next t) : P t := by
  obtain rfl := Host.Outcome.next.inj e
  refine granuleReservation_keeps hregs hmem hholds hwin hcores hflt hfree ?_
  assumption

theorem execRecordReturn_keeps (hregs : Keep.regs P) (hholds : Keep.holds P) (hwin : Keep.win P) (hcores : Keep.cores P) (hsage : Keep.sage P) (heth : Keep.eth P) (hint : Keep.int P) (hstl : Keep.stl P) (hout : Keep.out P) {core} {s : State} (h : P s) {t : State} (e : execRecordReturn core s = .next t) : P t := by
  obtain rfl := Host.Outcome.next.inj e
  refine recordReturn_keeps hregs hholds hwin hcores hsage heth hint hstl hout ?_
  assumption

theorem execMoveComplete_keeps (hregs : Keep.regs P) (hholds : Keep.holds P) (hwin : Keep.win P) (hcores : Keep.cores P) (hsage : Keep.sage P) {session} {s : State} (h : P s) {t : State} (e : execMoveComplete session s = .next t) : P t := by
  obtain rfl := Host.Outcome.next.inj e
  refine moveComplete_keeps hregs hholds hwin hcores hsage ?_
  assumption

theorem rsetSigned_keeps (hregs : Keep.regs P) {s : State} {a} {n} {v} (h : P s) : P (rsetSigned s a n v) := by
  unfold rsetSigned
  refine rsetGroup_keeps hregs ?_
  assumption

theorem rateNow_keeps (hregs : Keep.regs P) (htime : Keep.time P) {s : State} {v} (h : P s) : P (rateNow s v) := by
  unfold rateNow
  extract_lets -underBinder -merge -useContext +onlyGivenNames x
  have hx : P x := by
    subst x
    refine rsetBit_keeps hregs ?_
    assumption
  clear_value x
  refine Keep.set_time htime ?_
  assumption

theorem rateWrite_keeps (hregs : Keep.regs P) (hstaged : Keep.staged P) (htime : Keep.time P) (heth : Keep.eth P) (hint : Keep.int P) (hstl : Keep.stl P) (hout : Keep.out P) {i} {a} {v} {s : State} (h : P s) : P (rateWrite i a v s) := by
  unfold rateWrite
  refine Keep.ite ?_ ?_
  · assumption
  · extract_lets -underBinder -merge -useContext +onlyGivenNames x
    have hx : P x := by
      subst x
      refine groupWrite_keeps hregs hstaged ?_
      assumption
    clear_value x
    refine Keep.ite ?_ ?_
    · assumption
    · extract_lets -underBinder -merge -useContext +onlyGivenNames x
      clear_value x
      refine Keep.ite ?_ ?_
      · refine evt_keeps hregs heth hint hstl hout ?_
        refine rateNow_keeps hregs htime ?_
        assumption
      · extract_lets -underBinder -merge -useContext +onlyGivenNames x
        have hx : P x := by
          subst x
          refine rsetBit_keeps hregs ?_
          assumption
        clear_value x
        refine Keep.set_time htime ?_
        assumption

theorem armStep_keeps (hregs : Keep.regs P) (htime : Keep.time P) {s : State} {by_} {t2} (h : P s) : P (armStep s by_ t2) := by
  unfold armStep
  extract_lets -underBinder -merge -useContext +onlyGivenNames x
  have hx : P x := by
    subst x
    refine rsetBit_keeps hregs ?_
    assumption
  clear_value x
  refine Keep.set_time htime ?_
  assumption

theorem stepWrite_keeps (hregs : Keep.regs P) (hstaged : Keep.staged P) (htime : Keep.time P) {i} {a} {v} {s : State} (h : P s) : P (stepWrite i a v s) := by
  unfold stepWrite
  refine Keep.ite ?_ ?_
  · assumption
  · extract_lets -underBinder -merge -useContext +onlyGivenNames x
    have hx : P x := by
      subst x
      refine groupWrite_keeps hregs hstaged ?_
      assumption
    clear_value x
    refine Keep.ite ?_ ?_
    · assumption
    · refine armStep_keeps hregs htime ?_
      assumption

theorem stepApply_keeps (hregs : Keep.regs P) (htime : Keep.time P) (heth : Keep.eth P) (hint : Keep.int P) (hstl : Keep.stl P) (hout : Keep.out P) {s : State} (h : P s) : P (stepApply s) := by
  unfold stepApply
  split
  · assumption
  · refine Keep.ite ?_ ?_
    · assumption
    · extract_lets -underBinder -merge -useContext +onlyGivenNames x
      have hx : P x := by
        subst x
        refine rsetBit_keeps hregs ?_
        refine reach_keeps htime ?_
        assumption
      clear_value x
      extract_lets -underBinder -merge -useContext +onlyGivenNames x
      clear_value x
      extract_lets -underBinder -merge -useContext +onlyGivenNames x
      have hx : P x := by
        subst x
        refine Keep.set_time htime ?_
        assumption
      clear_value x
      refine evt_keeps hregs heth hint hstl hout ?_
      assumption

theorem tbsCtlWrite_keeps (hregs : Keep.regs P) (htime : Keep.time P) (hrtc : Keep.rtc P) {v} {s : State} (h : P s) : P (tbsCtlWrite v s) := by
  unfold tbsCtlWrite
  extract_lets -underBinder -merge -useContext +onlyGivenNames x
  clear_value x
  extract_lets -underBinder -merge -useContext +onlyGivenNames x
  have hx : P x := by
    subst x
    refine rwrite_keeps hregs ?_
    assumption
  clear_value x
  refine Keep.ite ?_ ?_
  · refine noteDisc_keeps hrtc ?_
    assumption
  · extract_lets -underBinder -merge -useContext +onlyGivenNames x
    have hx : P x := by
      subst x
      refine rsetBit_keeps hregs ?_
      assumption
    clear_value x
    refine noteDisc_keeps hrtc ?_
    refine Keep.set_time htime ?_
    assumption

theorem ppsEdge_keeps (hregs : Keep.regs P) (htime : Keep.time P) {s : State} {cap} (h : P s) : P (ppsEdge s cap) := by
  unfold ppsEdge
  refine Keep.ite ?_ ?_
  · assumption
  · split
    · refine Keep.set_time htime ?_
      assumption
    · extract_lets -underBinder -merge -useContext +onlyGivenNames x
      clear_value x
      extract_lets -underBinder -merge -useContext +onlyGivenNames x
      clear_value x
      extract_lets -underBinder -merge -useContext +onlyGivenNames x
      have hx : P x := by
        subst x
        refine Keep.ite ?_ ?_
        · refine rsetBit_keeps hregs ?_
          assumption
        · assumption
      clear_value x
      refine Keep.set_time htime ?_
      assumption

theorem ppsUpdate_keeps (hregs : Keep.regs P) (htime : Keep.time P) (hfree : Keep.free P) {s : State} (h : P s) : P (ppsUpdate s) := by
  unfold ppsUpdate
  split
  · assumption
  · extract_lets -underBinder -merge -useContext +onlyGivenNames x
    have hx : P x := by
      subst x
      refine reach_keeps htime ?_
      assumption
    clear_value x
    extract_lets -underBinder -merge -useContext +onlyGivenNames x
    clear_value x
    extract_lets -underBinder -merge -useContext +onlyGivenNames x
    have hx : P x := by
      subst x
      refine bumpFree_keeps hfree ?_
      refine rateNow_keeps hregs htime ?_
      refine rsetSigned_keeps hregs ?_
      assumption
    clear_value x
    refine Keep.set_time htime ?_
    assumption

theorem ppsLoss_keeps (hregs : Keep.regs P) (htime : Keep.time P) (heth : Keep.eth P) (hrtc : Keep.rtc P) (hint : Keep.int P) (hstl : Keep.stl P) (hout : Keep.out P) {s : State} (h : P s) : P (ppsLoss s) := by
  unfold ppsLoss
  split
  · assumption
  · extract_lets -underBinder -merge -useContext +onlyGivenNames x
    have hx : P x := by
      subst x
      refine reach_keeps htime ?_
      assumption
    clear_value x
    extract_lets -underBinder -merge -useContext +onlyGivenNames x
    have hx : P x := by
      subst x
      refine rsetBit_keeps hregs ?_
      assumption
    clear_value x
    refine evt_keeps hregs heth hint hstl hout ?_
    refine noteDisc_keeps hrtc ?_
    refine Keep.set_time htime ?_
    assumption

theorem ppsRise_keeps (htime : Keep.time P) {s : State} (h : P s) : P (ppsRise s) := by
  unfold ppsRise
  refine Keep.ite ?_ ?_
  · assumption
  · extract_lets -underBinder -merge -useContext +onlyGivenNames x
    clear_value x
    extract_lets -underBinder -merge -useContext +onlyGivenNames x
    have hx : P x := by
      subst x
      refine reach_keeps htime ?_
      assumption
    clear_value x
    refine Keep.set_time htime ?_
    assumption

theorem ppsCapRead_keeps (hregs : Keep.regs P) {s : State} (h : P s) : P (ppsCapRead s) := by
  unfold ppsCapRead
  refine rsetFld_keeps hregs ?_
  assumption

theorem execRateCommit_keeps (hregs : Keep.regs P) (hstaged : Keep.staged P) (htime : Keep.time P) (heth : Keep.eth P) (hint : Keep.int P) (hstl : Keep.stl P) (hout : Keep.out P) {i} {v} {s : State} (h : P s) {t : State} (e : execRateCommit i v s = .next t) : P t := by
  obtain rfl := Host.Outcome.next.inj e
  refine rateWrite_keeps hregs hstaged htime heth hint hstl hout ?_
  assumption

theorem execRateApply_keeps (hregs : Keep.regs P) (htime : Keep.time P) {s : State} (h : P s) {t : State} (e : execRateApply s = .next t) : P t := by
  obtain rfl := Host.Outcome.next.inj e
  split
  · refine rateNow_keeps hregs htime ?_
    refine reach_keeps htime ?_
    assumption
  · assumption

theorem execStepCommit_keeps (hregs : Keep.regs P) (hstaged : Keep.staged P) (htime : Keep.time P) {i} {v} {s : State} (h : P s) {t : State} (e : execStepCommit i v s = .next t) : P t := by
  obtain rfl := Host.Outcome.next.inj e
  refine stepWrite_keeps hregs hstaged htime ?_
  assumption

theorem execStepApply_keeps (hregs : Keep.regs P) (htime : Keep.time P) (heth : Keep.eth P) (hint : Keep.int P) (hstl : Keep.stl P) (hout : Keep.out P) {s : State} (h : P s) {t : State} (e : execStepApply s = .next t) : P t := by
  obtain rfl := Host.Outcome.next.inj e
  refine stepApply_keeps hregs htime heth hint hstl hout ?_
  assumption

theorem execPpsInEdge_keeps (hregs : Keep.regs P) (htime : Keep.time P) (heth : Keep.eth P) (hint : Keep.int P) (hstl : Keep.stl P) (hout : Keep.out P) {sub} {s : State} (h : P s) {t : State} (e : execPpsInEdge sub s = .next t) : P t := by
  obtain rfl := Host.Outcome.next.inj e
  extract_lets -underBinder -merge -useContext +onlyGivenNames x
  clear_value x
  extract_lets -underBinder -merge -useContext +onlyGivenNames x
  have hx : P x := by
    subst x
    refine rsetGroup_keeps hregs ?_
    assumption
  clear_value x
  extract_lets -underBinder -merge -useContext +onlyGivenNames x
  have hx : P x := by
    subst x
    refine rset_keeps hregs ?_
    assumption
  clear_value x
  extract_lets -underBinder -merge -useContext +onlyGivenNames x
  have hx : P x := by
    subst x
    refine ppsEdge_keeps hregs htime ?_
    assumption
  clear_value x
  refine stolon_keeps hregs heth hint hstl hout ?_
  refine evt_keeps hregs heth hint hstl hout ?_
  assumption

theorem execPpsLoopUpdate_keeps (hregs : Keep.regs P) (htime : Keep.time P) (hfree : Keep.free P) {s : State} (h : P s) {t : State} (e : execPpsLoopUpdate s = .next t) : P t := by
  obtain rfl := Host.Outcome.next.inj e
  refine ppsUpdate_keeps hregs htime hfree ?_
  assumption

theorem execPpsLoss_keeps (hregs : Keep.regs P) (htime : Keep.time P) (heth : Keep.eth P) (hrtc : Keep.rtc P) (hint : Keep.int P) (hstl : Keep.stl P) (hout : Keep.out P) {s : State} (h : P s) {t : State} (e : execPpsLoss s = .next t) : P t := by
  obtain rfl := Host.Outcome.next.inj e
  refine ppsLoss_keeps hregs htime heth hrtc hint hstl hout ?_
  assumption

theorem execPpsOutEdge_keeps (htime : Keep.time P) {s : State} (h : P s) {t : State} (e : execPpsOutEdge s = .next t) : P t := by
  obtain rfl := Host.Outcome.next.inj e
  refine ppsRise_keeps htime ?_
  assumption

theorem updUsl_keeps (husl : Keep.usl P) {s : State} {f} (h : P s) : P (updUsl s f) := by
  unfold updUsl
  refine Keep.set_usl husl ?_
  assumption

theorem showMap_keeps (hregs : Keep.regs P) {s : State} (h : P s) : P (showMap s) := by
  unfold showMap
  refine Keep.foldl ?_ ?_
  · assumption
  · intro _ _ _
    refine rset_keeps hregs ?_
    assumption

theorem showPeers_keeps (hregs : Keep.regs P) {s : State} {ring} (h : P s) : P (showPeers s ring) := by
  unfold showPeers
  extract_lets -underBinder -merge -useContext +onlyGivenNames x
  clear_value x
  extract_lets -underBinder -merge -useContext +onlyGivenNames x
  clear_value x
  extract_lets -underBinder -merge -useContext +onlyGivenNames x
  subst x
  extract_lets -underBinder -merge -useContext +onlyGivenNames x
  have hx : P x := by
    subst x
    dsimp -zeta only
    refine Keep.ite ?_ ?_
    · refine rset_keeps hregs ?_
      assumption
    · assumption
  clear_value x
  dsimp -zeta only
  refine Keep.ite ?_ ?_
  · refine rset_keeps hregs ?_
    assumption
  · assumption

theorem leaveCluster_keeps (hregs : Keep.regs P) (husl : Keep.usl P) (heth : Keep.eth P) (hrtc : Keep.rtc P) (hint : Keep.int P) (hstl : Keep.stl P) (hout : Keep.out P) {s : State} (h : P s) : P (leaveCluster s) := by
  unfold leaveCluster
  refine Keep.ite ?_ ?_
  · refine evt_keeps hregs heth hint hstl hout ?_
    refine noteDisc_keeps hrtc ?_
    refine rsetFld_keeps hregs ?_
    refine rset_keeps hregs ?_
    refine updUsl_keeps husl ?_
    assumption
  · assumption

theorem formCluster_keeps (hregs : Keep.regs P) (husl : Keep.usl P) (heth : Keep.eth P) (hint : Keep.int P) (hstl : Keep.stl P) (hfree : Keep.free P) (hout : Keep.out P) {s : State} {census} {ring} (h : P s) : P (formCluster s census ring) := by
  unfold formCluster
  extract_lets -underBinder -merge -useContext +onlyGivenNames x
  clear_value x
  extract_lets -underBinder -merge -useContext +onlyGivenNames x
  clear_value x
  refine Keep.ite ?_ ?_
  · assumption
  · refine Keep.ite ?_ ?_
    · refine evt_keeps hregs heth hint hstl hout ?_
      assumption
    · split
      · assumption
      · extract_lets -underBinder -merge -useContext +onlyGivenNames x
        clear_value x
        extract_lets -underBinder -merge -useContext +onlyGivenNames x
        clear_value x
        extract_lets -underBinder -merge -useContext +onlyGivenNames x
        clear_value x
        extract_lets -underBinder -merge -useContext +onlyGivenNames x
        clear_value x
        extract_lets -underBinder -merge -useContext +onlyGivenNames x
        clear_value x
        extract_lets -underBinder -merge -useContext +onlyGivenNames x
        have hx : P x := by
          subst x
          refine Keep.ite ?_ ?_
          · refine evt_keeps hregs heth hint hstl hout ?_
            assumption
          · assumption
        clear_value x
        extract_lets -underBinder -merge -useContext +onlyGivenNames x
        have hx : P x := by
          subst x
          refine updUsl_keeps husl ?_
          refine bumpFree_keeps hfree ?_
          assumption
        clear_value x
        extract_lets -underBinder -merge -useContext +onlyGivenNames x
        have hx : P x := by
          subst x
          refine rset_keeps hregs ?_
          assumption
        clear_value x
        extract_lets -underBinder -merge -useContext +onlyGivenNames x
        clear_value x
        extract_lets -underBinder -merge -useContext +onlyGivenNames x
        have hx : P x := by
          subst x
          refine rset_keeps hregs ?_
          assumption
        clear_value x
        refine evt_keeps hregs heth hint hstl hout ?_
        refine showPeers_keeps hregs ?_
        refine showMap_keeps hregs ?_
        assumption

theorem timing_keeps (hregs : Keep.regs P) (htime : Keep.time P) (hrtc : Keep.rtc P) {s : State} {off} {rate} {step} (h : P s) : P (timing s off rate step) := by
  unfold timing
  refine Keep.ite ?_ ?_
  · assumption
  · extract_lets -underBinder -merge -useContext +onlyGivenNames x
    clear_value x
    extract_lets -underBinder -merge -useContext +onlyGivenNames x
    have hx : P x := by
      subst x
      refine rset_keeps hregs ?_
      assumption
    clear_value x
    extract_lets -underBinder -merge -useContext +onlyGivenNames x
    have hx : P x := by
      subst x
      refine noteDisc_keeps hrtc ?_
      refine rsetBit_keeps hregs ?_
      assumption
    clear_value x
    refine Keep.ite ?_ ?_
    · assumption
    · extract_lets -underBinder -merge -useContext +onlyGivenNames x
      have hx : P x := by
        subst x
        refine rateNow_keeps hregs htime ?_
        refine rsetSigned_keeps hregs ?_
        assumption
      clear_value x
      refine Keep.ite ?_ ?_
      · assumption
      · refine armStep_keeps hregs htime ?_
        refine rsetSigned_keeps hregs ?_
        assumption

theorem linkDown_keeps (hregs : Keep.regs P) (husl : Keep.usl P) (heth : Keep.eth P) (hrtc : Keep.rtc P) (hint : Keep.int P) (hstl : Keep.stl P) (hout : Keep.out P) {s : State} {n} (h : P s) : P (linkDown s n) := by
  unfold linkDown
  extract_lets -underBinder -merge -useContext +onlyGivenNames x
  have hx : P x := by
    subst x
    refine rsetBit_keeps hregs ?_
    assumption
  clear_value x
  refine Keep.ite ?_ ?_
  · assumption
  · refine Keep.ite ?_ ?_
    · refine Keep.ite ?_ ?_
      · refine evt_keeps hregs heth hint hstl hout ?_
        assumption
      · assumption
    · refine leaveCluster_keeps hregs husl heth hrtc hint hstl hout ?_
      assumption

theorem laneFault_keeps (hregs : Keep.regs P) (husl : Keep.usl P) (heth : Keep.eth P) (hflt : Keep.flt P) (hrtc : Keep.rtc P) (hint : Keep.int P) (hstl : Keep.stl P) (hout : Keep.out P) {s : State} {n} {lane} (h : P s) : P (laneFault s n lane) := by
  unfold laneFault
  refine Keep.ite ?_ ?_
  · assumption
  · extract_lets -underBinder -merge -useContext +onlyGivenNames x
    clear_value x
    extract_lets -underBinder -merge -useContext +onlyGivenNames x
    have hx : P x := by
      subst x
      refine updUsl_keeps husl ?_
      assumption
    clear_value x
    extract_lets -underBinder -merge -useContext +onlyGivenNames x
    clear_value x
    extract_lets -underBinder -merge -useContext +onlyGivenNames x
    clear_value x
    extract_lets -underBinder -merge -useContext +onlyGivenNames x
    have hx : P x := by
      subst x
      refine Keep.ite ?_ ?_
      · refine evt_keeps hregs heth hint hstl hout ?_
        refine updUsl_keeps husl ?_
        assumption
      · assumption
    clear_value x
    extract_lets -underBinder -merge -useContext +onlyGivenNames x
    have hx : P x := by
      subst x
      refine fault_keeps hregs heth hflt hint hstl hout ?_
      assumption
    clear_value x
    refine linkDown_keeps hregs husl heth hrtc hint hstl hout ?_
    refine rsetBit_keeps hregs ?_
    assumption

theorem retrained_keeps (hregs : Keep.regs P) (heth : Keep.eth P) (hint : Keep.int P) (hstl : Keep.stl P) (hout : Keep.out P) {s : State} {n} (h : P s) : P (retrained s n) := by
  unfold retrained
  refine Keep.ite ?_ ?_
  · assumption
  · split
    · assumption
    · extract_lets -underBinder -merge -useContext +onlyGivenNames x
      clear_value x
      extract_lets -underBinder -merge -useContext +onlyGivenNames x
      have hx : P x := by
        subst x
        refine rsetFld_keeps hregs ?_
        assumption
      clear_value x
      refine evt_keeps hregs heth hint hstl hout ?_
      refine Keep.ite ?_ ?_
      · assumption
      · refine rsetBit_keeps hregs ?_
        assumption

theorem updHand_keeps (hsage : Keep.sage P) {s : State} {h1} {f} (h : P s) : P (updHand s h1 f) := by
  unfold updHand
  refine updSage_keeps hsage ?_
  assumption

theorem giveSession_keeps (hregs : Keep.regs P) (hsage : Keep.sage P) (husl : Keep.usl P) (heth : Keep.eth P) (hint : Keep.int P) (hstl : Keep.stl P) (hfree : Keep.free P) (hout : Keep.out P) {s : State} {n} {c} {d} (h : P s) : P (giveSession s n c d) := by
  unfold giveSession
  refine Keep.ite ?_ ?_
  · refine evt_keeps hregs heth hint hstl hout ?_
    assumption
  · extract_lets -underBinder -merge -useContext +onlyGivenNames x
    clear_value x
    extract_lets -underBinder -merge -useContext +onlyGivenNames x
    clear_value x
    extract_lets -underBinder -merge -useContext +onlyGivenNames x
    have hx : P x := by
      subst x
      refine updSage_keeps hsage ?_
      assumption
    clear_value x
    refine dirSend_keeps husl hfree hout ?_
    refine rsetBit_keeps hregs ?_
    assumption

theorem chooseOwner_keeps (hregs : Keep.regs P) (hsage : Keep.sage P) (husl : Keep.usl P) (heth : Keep.eth P) (hint : Keep.int P) (hstl : Keep.stl P) (hfree : Keep.free P) (hout : Keep.out P) {s : State} {n} {e2} (h : P s) : P (chooseOwner s n e2) := by
  unfold chooseOwner
  extract_lets -underBinder -merge -useContext +onlyGivenNames x
  clear_value x
  split
  · refine Keep.ite ?_ ?_
    · extract_lets -underBinder -merge -useContext +onlyGivenNames x
      clear_value x
      refine Keep.ite ?_ ?_
      · refine giveSession_keeps hregs hsage husl heth hint hstl hfree hout ?_
        refine bumpFree_keeps hfree ?_
        assumption
      · refine bumpFree_keeps hfree ?_
        assumption
    · assumption
  · assumption

theorem decideHands_keeps (hregs : Keep.regs P) (hsage : Keep.sage P) (husl : Keep.usl P) (heth : Keep.eth P) (hint : Keep.int P) (hstl : Keep.stl P) (hfree : Keep.free P) (hout : Keep.out P) {s : State} {e1} (h : P s) : P (decideHands s e1) := by
  unfold decideHands
  refine Keep.ite ?_ ?_
  · refine Keep.foldl ?_ ?_
    · assumption
    · intro _ _ _
      refine chooseOwner_keeps hregs hsage husl heth hint hstl hfree hout ?_
      assumption
  · assumption

theorem memberHands_keeps (hregs : Keep.regs P) (hsage : Keep.sage P) (husl : Keep.usl P) (heth : Keep.eth P) (hint : Keep.int P) (hstl : Keep.stl P) (hfree : Keep.free P) (hout : Keep.out P) {s : State} (h : P s) : P (memberHands s) := by
  unfold memberHands
  refine Keep.ite ?_ ?_
  · refine Keep.foldl ?_ ?_
    · assumption
    · intro _ _ _
      split
      · refine Keep.ite ?_ ?_
        · refine giveSession_keeps hregs hsage husl heth hint hstl hfree hout ?_
          assumption
        · assumption
      · assumption
  · assumption

theorem admitHanded_keeps (hregs : Keep.regs P) (hmem : Keep.mem P) (hses : Keep.ses P) (heth : Keep.eth P) (hint : Keep.int P) (hstl : Keep.stl P) (hfree : Keep.free P) (hout : Keep.out P) {s : State} {n} {k} (h : P s) : P (admitHanded s n k) := by
  unfold admitHanded
  extract_lets -underBinder -merge -useContext +onlyGivenNames x
  clear_value x
  extract_lets -underBinder -merge -useContext +onlyGivenNames x
  clear_value x
  refine sesShow_keeps hregs ?_
  refine doAdmit_keeps hregs hmem hses heth hint hstl hfree hout ?_
  assumption

theorem handEffect_keeps (hregs : Keep.regs P) (hmem : Keep.mem P) (htime : Keep.time P) (hholds : Keep.holds P) (hwin : Keep.win P) (hses : Keep.ses P) (hcores : Keep.cores P) (hsage : Keep.sage P) (heth : Keep.eth P) (hint : Keep.int P) (hstl : Keep.stl P) (hfree : Keep.free P) (hout : Keep.out P) {s : State} (h : P s) : P (handEffect s) := by
  unfold handEffect
  extract_lets -underBinder -merge -useContext +onlyGivenNames x
  clear_value x
  split
  · assumption
  · extract_lets -underBinder -merge -useContext +onlyGivenNames x
    have hx : P x := by
      subst x
      refine dirUpTo_keeps hregs hsage heth hint hstl hout ?_
      refine reach_keeps htime ?_
      assumption
    clear_value x
    extract_lets -underBinder -merge -useContext +onlyGivenNames x
    have hx : P x := by
      subst x
      refine Keep.ite ?_ ?_
      · refine bump_keeps hregs ?_
        refine updHand_keeps hsage ?_
        assumption
      · split
        · extract_lets -underBinder -merge -useContext +onlyGivenNames x
          have hx : P x := by
            subst x
            refine admitHanded_keeps hregs hmem hses heth hint hstl hfree hout ?_
            assumption
          clear_value x
          extract_lets -underBinder -merge -useContext +onlyGivenNames x
          have hx : P x := by
            subst x
            refine updHand_keeps hsage ?_
            assumption
          clear_value x
          refine bump_keeps hregs ?_
          refine updSage_keeps hsage ?_
          assumption
        · refine updHand_keeps hsage ?_
          assumption
    clear_value x
    extract_lets -underBinder -merge -useContext +onlyGivenNames x
    have hx : P x := by
      subst x
      refine rsetBit_keeps hregs ?_
      assumption
    clear_value x
    refine sagePump_keeps hholds hwin hcores hsage ?_
    refine evt_keeps hregs heth hint hstl hout ?_
    assumption

theorem handSend_keeps (hregs : Keep.regs P) (hmem : Keep.mem P) (htime : Keep.time P) (hholds : Keep.holds P) (hwin : Keep.win P) (hses : Keep.ses P) (hcores : Keep.cores P) (hsage : Keep.sage P) (husl : Keep.usl P) (hfree : Keep.free P) (hout : Keep.out P) {s : State} {n} (h : P s) : P (handSend s n) := by
  unfold handSend
  split
  · assumption
  · split
    · assumption
    · refine Keep.ite ?_ ?_
      · assumption
      · extract_lets -underBinder -merge -useContext +onlyGivenNames x
        have hx : P x := by
          subst x
          refine reach_keeps htime ?_
          assumption
        clear_value x
        extract_lets -underBinder -merge -useContext +onlyGivenNames x
        clear_value x
        extract_lets -underBinder -merge -useContext +onlyGivenNames x
        clear_value x
        extract_lets -underBinder -merge -useContext +onlyGivenNames x
        clear_value x
        extract_lets -underBinder -merge -useContext +onlyGivenNames x
        clear_value x
        extract_lets -underBinder -merge -useContext +onlyGivenNames x
        have hx : P x := by
          subst x
          refine uslSend_keeps husl hfree hout ?_
          assumption
        clear_value x
        extract_lets -underBinder -merge -useContext +onlyGivenNames x
        have hx : P x := by
          subst x
          refine updHand_keeps hsage ?_
          assumption
        clear_value x
        extract_lets -underBinder -merge -useContext +onlyGivenNames x
        have hx : P x := by
          subst x
          refine sesShow_keeps hregs ?_
          refine doRemove_keeps hmem hses ?_
          assumption
        clear_value x
        refine sagePump_keeps hholds hwin hcores hsage ?_
        refine updSage_keeps hsage ?_
        assumption

theorem judgeHeld_keeps (hregs : Keep.regs P) (hmem : Keep.mem P) (hframes : Keep.frames P) (hholds : Keep.holds P) (hwin : Keep.win P) (hlnk : Keep.lnk P) (hpairs : Keep.pairs P) (hcores : Keep.cores P) (hsage : Keep.sage P) (heth : Keep.eth P) (hflt : Keep.flt P) (hint : Keep.int P) (hstl : Keep.stl P) (hout : Keep.out P) {n} {peer} {late} {p} {x5} {x6 : State} (h : P x6) : P (judgeHeld n peer late p x5 x6) := by
  induction x5 generalizing n peer late p x6 with
  | zero =>
    unfold judgeHeld
    assumption
  | succ n ih =>
    unfold judgeHeld
    split
    · assumption
    · extract_lets -underBinder -merge -useContext +onlyGivenNames x
      clear_value x
      extract_lets -underBinder -merge -useContext +onlyGivenNames x
      clear_value x
      extract_lets -underBinder -merge -useContext +onlyGivenNames x
      have hx : P x := by
        subst x
        refine judgeFrame_keeps hregs hmem hframes hholds hwin hlnk hpairs hcores hsage heth hflt hint hstl hout ?_
        refine updFrame_keeps hframes ?_
        assumption
      clear_value x
      extract_lets -underBinder -merge -useContext +onlyGivenNames x
      clear_value x
      extract_lets -underBinder -merge -useContext +onlyGivenNames x
      clear_value x
      extract_lets -underBinder -merge -useContext +onlyGivenNames x
      have hx : P x := by
        subst x
        refine Keep.ite ?_ ?_
        · refine verdict_keeps hwin ?_
          assumption
        · assumption
      clear_value x
      refine ih ?_
      assumption

theorem handReceive_keeps (hregs : Keep.regs P) (hmem : Keep.mem P) (hframes : Keep.frames P) (hholds : Keep.holds P) (hwin : Keep.win P) (hlnk : Keep.lnk P) (hpairs : Keep.pairs P) (hcores : Keep.cores P) (hsage : Keep.sage P) (heth : Keep.eth P) (hflt : Keep.flt P) (hint : Keep.int P) (hstl : Keep.stl P) (hout : Keep.out P) {s : State} {f} (h : P s) : P (handReceive s f) := by
  unfold handReceive
  split
  · assumption
  · split
    · assumption
    · extract_lets -underBinder -merge -useContext +onlyGivenNames x
      clear_value x
      extract_lets -underBinder -merge -useContext +onlyGivenNames x
      have hx : P x := by
        subst x
        refine sesPut_keeps hmem ?_
        refine sesPut_keeps hmem ?_
        assumption
      clear_value x
      extract_lets -underBinder -merge -useContext +onlyGivenNames x
      have hx : P x := by
        subst x
        refine updHand_keeps hsage ?_
        assumption
      clear_value x
      refine Keep.ite ?_ ?_
      · extract_lets -underBinder -merge -useContext +onlyGivenNames x
        clear_value x
        extract_lets -underBinder -merge -useContext +onlyGivenNames x
        have hx : P x := by
          subst x
          refine evt_keeps hregs heth hint hstl hout ?_
          refine bump_keeps hregs ?_
          assumption
        clear_value x
        extract_lets -underBinder -merge -useContext +onlyGivenNames x
        have hx : P x := by
          subst x
          refine judgeHeld_keeps hregs hmem hframes hholds hwin hlnk hpairs hcores hsage heth hflt hint hstl hout ?_
          assumption
        clear_value x
        refine updHand_keeps hsage ?_
        assumption
      · assumption

theorem heldJudgement_keeps (hregs : Keep.regs P) (hmem : Keep.mem P) (htime : Keep.time P) (hframes : Keep.frames P) (hholds : Keep.holds P) (hwin : Keep.win P) (hlnk : Keep.lnk P) (hses : Keep.ses P) (hpairs : Keep.pairs P) (hcores : Keep.cores P) (hsage : Keep.sage P) (husl : Keep.usl P) (heth : Keep.eth P) (hflt : Keep.flt P) (hint : Keep.int P) (hstl : Keep.stl P) (hfree : Keep.free P) (hout : Keep.out P) {s : State} {n} (h : P s) : P (heldJudgement s n) := by
  unfold heldJudgement
  split
  · assumption
  · extract_lets -underBinder -merge -useContext +onlyGivenNames x
    have hx : P x := by
      subst x
      refine reach_keeps htime ?_
      refine engineTo_keeps hregs hmem htime hframes hholds hwin hlnk hses hpairs hcores hsage husl heth hflt hint hstl hfree hout ?_
      assumption
    clear_value x
    extract_lets -underBinder -merge -useContext +onlyGivenNames x
    have hx : P x := by
      subst x
      refine judgeHeld_keeps hregs hmem hframes hholds hwin hlnk hpairs hcores hsage heth hflt hint hstl hout ?_
      assumption
    clear_value x
    refine updHand_keeps hsage ?_
    assumption

theorem dirReceive_keeps (hregs : Keep.regs P) (hsage : Keep.sage P) (heth : Keep.eth P) (hint : Keep.int P) (hstl : Keep.stl P) (hout : Keep.out P) {s : State} {f} (h : P s) : P (dirReceive s f) := by
  unfold dirReceive
  refine Keep.ite ?_ ?_
  · assumption
  · extract_lets -underBinder -merge -useContext +onlyGivenNames x
    clear_value x
    extract_lets -underBinder -merge -useContext +onlyGivenNames x
    clear_value x
    extract_lets -underBinder -merge -useContext +onlyGivenNames x
    have hx : P x := by
      subst x
      refine Keep.ite ?_ ?_
      · refine rsetBit_keeps hregs ?_
        refine updSage_keeps hsage ?_
        assumption
      · assumption
    clear_value x
    refine Keep.ite ?_ ?_
    · refine evt_keeps hregs heth hint hstl hout ?_
      refine dirApply_keeps hregs hsage heth hint hstl hout ?_
      assumption
    · refine updSage_keeps hsage ?_
      assumption

theorem epochBoundary_keeps (hregs : Keep.regs P) (htime : Keep.time P) (hholds : Keep.holds P) (hwin : Keep.win P) (hcores : Keep.cores P) (hsage : Keep.sage P) (husl : Keep.usl P) (heth : Keep.eth P) (hint : Keep.int P) (hstl : Keep.stl P) (hfree : Keep.free P) (hout : Keep.out P) {s : State} (h : P s) : P (epochBoundary s) := by
  unfold epochBoundary
  extract_lets -underBinder -merge -useContext +onlyGivenNames x
  clear_value x
  extract_lets -underBinder -merge -useContext +onlyGivenNames x
  have hx : P x := by
    subst x
    refine updSage_keeps hsage ?_
    refine reach_keeps htime ?_
    assumption
  clear_value x
  extract_lets -underBinder -merge -useContext +onlyGivenNames x
  have hx : P x := by
    subst x
    refine decideHands_keeps hregs hsage husl heth hint hstl hfree hout ?_
    refine sageBoundary_keeps hregs hholds hsage heth hint hstl hfree hout ?_
    assumption
  clear_value x
  refine sagePump_keeps hholds hwin hcores hsage ?_
  refine stolon_keeps hregs heth hint hstl hout ?_
  assumption

theorem execClusterFormation_keeps (hregs : Keep.regs P) (husl : Keep.usl P) (heth : Keep.eth P) (hint : Keep.int P) (hstl : Keep.stl P) (hfree : Keep.free P) (hout : Keep.out P) {census} {ring} {s : State} (h : P s) {t : State} (e : execClusterFormation census ring s = .next t) : P t := by
  obtain rfl := Host.Outcome.next.inj e
  refine formCluster_keeps hregs husl heth hint hstl hfree hout ?_
  assumption

theorem execTimingMessage_keeps (hregs : Keep.regs P) (htime : Keep.time P) (hrtc : Keep.rtc P) {off} {rate} {step} {s : State} (h : P s) {t : State} (e : execTimingMessage off rate step s = .next t) : P t := by
  obtain rfl := Host.Outcome.next.inj e
  refine timing_keeps hregs htime hrtc ?_
  assumption

theorem execUsethResend_keeps (hregs : Keep.regs P) {n} {crc} {s : State} (h : P s) {t : State} (e : execUsethResend n crc s = .next t) : P t := by
  obtain rfl := Host.Outcome.next.inj e
  refine Keep.ite ?_ ?_
  · refine bump_keeps hregs ?_
    assumption
  · assumption

theorem execUsethLaneFault_keeps (hregs : Keep.regs P) (husl : Keep.usl P) (heth : Keep.eth P) (hflt : Keep.flt P) (hrtc : Keep.rtc P) (hint : Keep.int P) (hstl : Keep.stl P) (hout : Keep.out P) {n} {lane} {s : State} (h : P s) {t : State} (e : execUsethLaneFault n lane s = .next t) : P t := by
  obtain rfl := Host.Outcome.next.inj e
  refine laneFault_keeps hregs husl heth hflt hrtc hint hstl hout ?_
  assumption

theorem execUsethRetrainComplete_keeps (hregs : Keep.regs P) (heth : Keep.eth P) (hint : Keep.int P) (hstl : Keep.stl P) (hout : Keep.out P) {n} {s : State} (h : P s) {t : State} (e : execUsethRetrainComplete n s = .next t) : P t := by
  obtain rfl := Host.Outcome.next.inj e
  refine retrained_keeps hregs heth hint hstl hout ?_
  assumption

theorem execDirReceive_keeps (hregs : Keep.regs P) (hsage : Keep.sage P) (heth : Keep.eth P) (hint : Keep.int P) (hstl : Keep.stl P) (hout : Keep.out P) {f} {s : State} (h : P s) {t : State} (e : execDirReceive f s = .next t) : P t := by
  obtain rfl := Host.Outcome.next.inj e
  refine dirReceive_keeps hregs hsage heth hint hstl hout ?_
  assumption

theorem execHandoverEffect_keeps (hregs : Keep.regs P) (hmem : Keep.mem P) (htime : Keep.time P) (hholds : Keep.holds P) (hwin : Keep.win P) (hses : Keep.ses P) (hcores : Keep.cores P) (hsage : Keep.sage P) (heth : Keep.eth P) (hint : Keep.int P) (hstl : Keep.stl P) (hfree : Keep.free P) (hout : Keep.out P) {s : State} (h : P s) {t : State} (e : execHandoverEffect s = .next t) : P t := by
  obtain rfl := Host.Outcome.next.inj e
  refine handEffect_keeps hregs hmem htime hholds hwin hses hcores hsage heth hint hstl hfree hout ?_
  assumption

theorem execHandSend_keeps (hregs : Keep.regs P) (hmem : Keep.mem P) (htime : Keep.time P) (hholds : Keep.holds P) (hwin : Keep.win P) (hses : Keep.ses P) (hcores : Keep.cores P) (hsage : Keep.sage P) (husl : Keep.usl P) (hfree : Keep.free P) (hout : Keep.out P) {session} {s : State} (h : P s) {t : State} (e : execHandSend session s = .next t) : P t := by
  obtain rfl := Host.Outcome.next.inj e
  refine handSend_keeps hregs hmem htime hholds hwin hses hcores hsage husl hfree hout ?_
  assumption

theorem execHandReceive_keeps (hregs : Keep.regs P) (hmem : Keep.mem P) (hframes : Keep.frames P) (hholds : Keep.holds P) (hwin : Keep.win P) (hlnk : Keep.lnk P) (hpairs : Keep.pairs P) (hcores : Keep.cores P) (hsage : Keep.sage P) (heth : Keep.eth P) (hflt : Keep.flt P) (hint : Keep.int P) (hstl : Keep.stl P) (hout : Keep.out P) {f} {s : State} (h : P s) {t : State} (e : execHandReceive f s = .next t) : P t := by
  obtain rfl := Host.Outcome.next.inj e
  refine handReceive_keeps hregs hmem hframes hholds hwin hlnk hpairs hcores hsage heth hflt hint hstl hout ?_
  assumption

theorem execHeldFrameJudgement_keeps (hregs : Keep.regs P) (hmem : Keep.mem P) (htime : Keep.time P) (hframes : Keep.frames P) (hholds : Keep.holds P) (hwin : Keep.win P) (hlnk : Keep.lnk P) (hses : Keep.ses P) (hpairs : Keep.pairs P) (hcores : Keep.cores P) (hsage : Keep.sage P) (husl : Keep.usl P) (heth : Keep.eth P) (hflt : Keep.flt P) (hint : Keep.int P) (hstl : Keep.stl P) (hfree : Keep.free P) (hout : Keep.out P) {session} {s : State} (h : P s) {t : State} (e : execHeldFrameJudgement session s = .next t) : P t := by
  obtain rfl := Host.Outcome.next.inj e
  refine heldJudgement_keeps hregs hmem htime hframes hholds hwin hlnk hses hpairs hcores hsage husl heth hflt hint hstl hfree hout ?_
  assumption

theorem execEpochBoundary_keeps (hregs : Keep.regs P) (htime : Keep.time P) (hholds : Keep.holds P) (hwin : Keep.win P) (hcores : Keep.cores P) (hsage : Keep.sage P) (husl : Keep.usl P) (heth : Keep.eth P) (hint : Keep.int P) (hstl : Keep.stl P) (hfree : Keep.free P) (hout : Keep.out P) {s : State} (h : P s) {t : State} (e : execEpochBoundary s = .next t) : P t := by
  obtain rfl := Host.Outcome.next.inj e
  refine epochBoundary_keeps hregs htime hholds hwin hcores hsage husl heth hint hstl hfree hout ?_
  assumption

theorem updEth_keeps (heth : Keep.eth P) {s : State} {f} (h : P s) : P (updEth s f) := by
  unfold updEth
  refine Keep.set_eth heth ?_
  assumption

theorem netSend_keeps (hregs : Keep.regs P) (hout : Keep.out P) {s : State} {lane} {d} (h : P s) : P (netSend s lane d) := by
  unfold netSend
  refine bump_keeps hregs ?_
  refine Keep.set_out hout ?_
  assumption

theorem sendFlow_keeps (hregs : Keep.regs P) (heth : Keep.eth P) (hout : Keep.out P) {s : State} {lane} {form} {flow} {tag} {body} (h : P s) : P (sendFlow s lane form flow tag body) := by
  unfold sendFlow
  extract_lets -underBinder -merge -useContext +onlyGivenNames x
  clear_value x
  extract_lets -underBinder -merge -useContext +onlyGivenNames x
  clear_value x
  refine Keep.foldl ?_ ?_
  · assumption
  · intro _ _ _
    extract_lets -underBinder -merge -useContext +onlyGivenNames x
    clear_value x
    extract_lets -underBinder -merge -useContext +onlyGivenNames x
    clear_value x
    refine netSend_keeps hregs hout ?_
    refine updEth_keeps heth ?_
    assumption

theorem outRefused_keeps (hregs : Keep.regs P) (heth : Keep.eth P) (hint : Keep.int P) (hstl : Keep.stl P) (hout : Keep.out P) {s : State} (h : P s) : P (outRefused s) := by
  unfold outRefused
  refine evt_keeps hregs heth hint hstl hout ?_
  refine bump_keeps hregs ?_
  assumption

theorem netTake_keeps (hregs : Keep.regs P) (hholds : Keep.holds P) (hcores : Keep.cores P) (heth : Keep.eth P) (hint : Keep.int P) (hstl : Keep.stl P) (hout : Keep.out P) {s : State} {k} (h : P s) : P (netTake s k).2 := by
  unfold netTake
  split
  · dsimp -zeta only
    assumption
  · extract_lets -underBinder -merge -useContext +onlyGivenNames x
    clear_value x
    extract_lets -underBinder -merge -useContext +onlyGivenNames x
    clear_value x
    extract_lets -underBinder -merge -useContext +onlyGivenNames x
    clear_value x
    split
    · dsimp -zeta only
      refine outRefused_keeps hregs heth hint hstl hout ?_
      refine takeOut_keeps hcores ?_
      assumption
    · split
      · dsimp -zeta only
        refine outRefused_keeps hregs heth hint hstl hout ?_
        refine release_keeps hholds ?_
        refine takeOut_keeps hcores ?_
        assumption
      · split
        · split
          · dsimp -zeta only
            assumption
          · extract_lets -underBinder -merge -useContext +onlyGivenNames x
            have hx : P x := by
              subst x
              refine passHold_keeps hholds ?_
              refine takeOut_keeps hcores ?_
              assumption
            clear_value x
            dsimp -zeta only
            refine updEth_keeps heth ?_
            assumption
        · extract_lets -underBinder -merge -useContext +onlyGivenNames x
          clear_value x
          extract_lets -underBinder -merge -useContext +onlyGivenNames x
          have hx : P x := by
            subst x
            refine takeOut_keeps hcores ?_
            assumption
          clear_value x
          split
          · extract_lets -underBinder -merge -useContext +onlyGivenNames x
            have hx : P x := by
              subst x
              refine passHold_keeps hholds ?_
              assumption
            clear_value x
            dsimp -zeta only
            refine updEth_keeps heth ?_
            assumption
          · dsimp -zeta only
            refine bump_keeps hregs ?_
            refine release_keeps hholds ?_
            assumption

theorem netService_keeps (hregs : Keep.regs P) (hholds : Keep.holds P) (hcores : Keep.cores P) (heth : Keep.eth P) (hint : Keep.int P) (hstl : Keep.stl P) (hout : Keep.out P) {k} {x2} {x3 : State} (h : P x3) : P (netService k x2 x3) := by
  induction x2 generalizing k x3 with
  | zero =>
    unfold netService
    assumption
  | succ n ih =>
    unfold netService
    dsimp -zeta only
    refine Keep.ite ?_ ?_
    · refine ih ?_
      refine netTake_keeps hregs hholds hcores heth hint hstl hout ?_
      assumption
    · refine netTake_keeps hregs hholds hcores heth hint hstl hout ?_
      assumption

theorem netAll_keeps (hregs : Keep.regs P) (hholds : Keep.holds P) (hcores : Keep.cores P) (heth : Keep.eth P) (hint : Keep.int P) (hstl : Keep.stl P) (hout : Keep.out P) {s : State} (h : P s) : P (netAll s) := by
  unfold netAll
  refine Keep.foldl ?_ ?_
  · assumption
  · intro _ _ _
    refine netService_keeps hregs hholds hcores heth hint hstl hout ?_
    assumption

theorem laneDown_keeps (hregs : Keep.regs P) (hholds : Keep.holds P) (heth : Keep.eth P) {s : State} {n} {all} (h : P s) : P (laneDown s n all) := by
  unfold laneDown
  extract_lets -underBinder -merge -useContext +onlyGivenNames x
  clear_value x
  extract_lets -underBinder -merge -useContext +onlyGivenNames x
  clear_value x
  extract_lets -underBinder -merge -useContext +onlyGivenNames x
  have hx : P x := by
    subst x
    refine Keep.foldl ?_ ?_
    · assumption
    · intro _ _ _
      refine bump_keeps hregs ?_
      refine release_keeps hholds ?_
      assumption
  clear_value x
  refine updEth_keeps heth ?_
  assumption

theorem sentHead_keeps (hregs : Keep.regs P) (hmem : Keep.mem P) (hholds : Keep.holds P) (hcores : Keep.cores P) (heth : Keep.eth P) (hout : Keep.out P) {s : State} {n} {ts} {sub} (h : P s) : P (sentHead s n ts sub) := by
  unfold sentHead
  split
  · assumption
  · extract_lets -underBinder -merge -useContext +onlyGivenNames x
    clear_value x
    extract_lets -underBinder -merge -useContext +onlyGivenNames x
    clear_value x
    extract_lets -underBinder -merge -useContext +onlyGivenNames x
    subst x
    refine Keep.ite ?_ ?_
    · assumption
    · extract_lets -underBinder -merge -useContext +onlyGivenNames x
      clear_value x
      extract_lets -underBinder -merge -useContext +onlyGivenNames x
      have hx : P x := by
        subst x
        refine updEth_keeps heth ?_
        assumption
      clear_value x
      extract_lets -underBinder -merge -useContext +onlyGivenNames x
      have hx : P x := by
        subst x
        refine Keep.ite ?_ ?_
        · refine netSend_keeps hregs hout ?_
          assumption
        · refine sendFlow_keeps hregs heth hout ?_
          assumption
      clear_value x
      refine Keep.ite ?_ ?_
      · refine Keep.ite ?_ ?_
        · extract_lets -underBinder -merge -useContext +onlyGivenNames x
          have hx : P x := by
            subst x
            refine msets_keeps hmem ?_
            assumption
          clear_value x
          refine arrive_keeps hcores ?_
          refine passHold_keeps hholds ?_
          assumption
        · refine entryLost_keeps hregs ?_
          refine release_keeps hholds ?_
          assumption
      · refine release_keeps hholds ?_
        assumption

theorem mgmtArrive_keeps (hregs : Keep.regs P) (heth : Keep.eth P) {s : State} {lane} {m} (h : P s) : P (mgmtArrive s lane m) := by
  unfold mgmtArrive
  extract_lets -underBinder -merge -useContext +onlyGivenNames x
  have hx : P x := by
    subst x
    refine bump_keeps hregs ?_
    assumption
  clear_value x
  extract_lets -underBinder -merge -useContext +onlyGivenNames x
  clear_value x
  extract_lets -underBinder -merge -useContext +onlyGivenNames x
  clear_value x
  extract_lets -underBinder -merge -useContext +onlyGivenNames x
  clear_value x
  extract_lets -underBinder -merge -useContext +onlyGivenNames x
  subst x
  split
  · assumption
  · refine Keep.ite ?_ ?_
    · assumption
    · refine Keep.ite ?_ ?_
      · assumption
      · extract_lets -underBinder -merge -useContext +onlyGivenNames x
        clear_value x
        refine Keep.ite ?_ ?_
        · assumption
        · extract_lets -underBinder -merge -useContext +onlyGivenNames x
          have hx : P x := by
            subst x
            refine rsetGroup_keeps hregs ?_
            assumption
          clear_value x
          refine Keep.ite ?_ ?_
          · refine bump_keeps hregs ?_
            assumption
          · refine updEth_keeps heth ?_
            assumption

theorem netDeliver_keeps (hregs : Keep.regs P) (hmem : Keep.mem P) (hholds : Keep.holds P) (hcores : Keep.cores P) (hflt : Keep.flt P) (hfree : Keep.free P) {s : State} {n} {core} {d} {ts} {sub} (h : P s) : P (netDeliver s n core d ts sub) := by
  unfold netDeliver
  extract_lets -underBinder -merge -useContext +onlyGivenNames x
  have hx : P x := by
    subst x
    refine bump_keeps hregs ?_
    assumption
  clear_value x
  refine Keep.ite ?_ ?_
  · assumption
  · split
    · assumption
    · extract_lets -underBinder -merge -useContext +onlyGivenNames x
      have hx : P x := by
        subst x
        refine writeMeta_keeps hmem hflt ?_
        refine Keep.patSome1 ?_ (by assumption)
        refine reserve_keeps hregs hholds hfree ?_
        assumption
      clear_value x
      refine arrive_keeps hcores ?_
      refine writeData_keeps hmem hflt ?_
      assumption

theorem netReceive_keeps (hregs : Keep.regs P) (hmem : Keep.mem P) (hholds : Keep.holds P) (hcores : Keep.cores P) (heth : Keep.eth P) (hflt : Keep.flt P) (hfree : Keep.free P) {s : State} {n} {frame} {ts} {sub} (h : P s) : P (netReceive s n frame ts sub) := by
  unfold netReceive
  refine Keep.ite ?_ ?_
  · assumption
  · extract_lets -underBinder -merge -useContext +onlyGivenNames x
    clear_value x
    refine Keep.ite ?_ ?_
    · refine bump_keeps hregs ?_
      assumption
    · refine Keep.ite ?_ ?_
      · assumption
      · extract_lets -underBinder -merge -useContext +onlyGivenNames x
        have hx : P x := by
          subst x
          refine bump_keeps hregs ?_
          assumption
        clear_value x
        refine Keep.ite ?_ ?_
        · assumption
        · split
          · refine mgmtArrive_keeps hregs heth ?_
            assumption
          · refine Keep.ite ?_ ?_
            · refine netDeliver_keeps hregs hmem hholds hcores hflt hfree ?_
              assumption
            · refine netDeliver_keeps hregs hmem hholds hcores hflt hfree ?_
              assumption

theorem flowLoad_keeps (hregs : Keep.regs P) (heth : Keep.eth P) {s : State} (h : P s) : P (flowLoad s) := by
  unfold flowLoad
  extract_lets -underBinder -merge -useContext +onlyGivenNames x
  clear_value x
  extract_lets -underBinder -merge -useContext +onlyGivenNames x
  have hx : P x := by
    subst x
    refine updEth_keeps heth ?_
    assumption
  clear_value x
  refine rsetBit_keeps hregs ?_
  assumption

theorem ethCtlWrite_keeps (hregs : Keep.regs P) (heth : Keep.eth P) {v} {s : State} (h : P s) : P (ethCtlWrite v s) := by
  unfold ethCtlWrite
  extract_lets -underBinder -merge -useContext +onlyGivenNames x
  have hx : P x := by
    subst x
    refine Keep.ite ?_ ?_
    · refine Keep.foldl ?_ ?_
      · assumption
      · intro _ _ _
        refine rset_keeps hregs ?_
        assumption
    · assumption
  clear_value x
  refine Keep.ite ?_ ?_
  · refine flowLoad_keeps hregs heth ?_
    assumption
  · assumption

theorem linkChange_keeps (hregs : Keep.regs P) (hholds : Keep.holds P) (heth : Keep.eth P) (hout : Keep.out P) {s : State} {n} {up} (h : P s) : P (linkChange s n up) := by
  unfold linkChange
  refine Keep.ite ?_ ?_
  · assumption
  · extract_lets -underBinder -merge -useContext +onlyGivenNames x
    have hx : P x := by
      subst x
      refine rsetBit_keeps hregs ?_
      assumption
    clear_value x
    refine Keep.ite ?_ ?_
    · refine mgmtEvent_keeps hregs heth hout ?_
      assumption
    · refine laneDown_keeps hregs hholds heth ?_
      assumption

theorem rxPop_keeps (hregs : Keep.regs P) (hlatches : Keep.latches P) (hholds : Keep.holds P) (hcores : Keep.cores P) (heth : Keep.eth P) (hint : Keep.int P) (hstl : Keep.stl P) (hout : Keep.out P) {i} {s : State} (h : P s) : P (rxPop i s).2 := by
  unfold rxPop
  split
  · dsimp -zeta only
    refine latchWords_keeps hlatches ?_
    assumption
  · extract_lets -underBinder -merge -useContext +onlyGivenNames x
    clear_value x
    extract_lets -underBinder -merge -useContext +onlyGivenNames x
    have hx : P x := by
      subst x
      refine latchWords_keeps hlatches ?_
      refine passHold_keeps hholds ?_
      assumption
    clear_value x
    dsimp -zeta only
    refine netAll_keeps hregs hholds hcores heth hint hstl hout ?_
    refine updEth_keeps heth ?_
    assumption

theorem rxRet_keeps (hregs : Keep.regs P) (hholds : Keep.holds P) (heth : Keep.eth P) (hint : Keep.int P) (hstl : Keep.stl P) (hout : Keep.out P) {v} {s : State} (h : P s) : P (rxRet v s) := by
  unfold rxRet
  split
  · refine release_keeps hholds ?_
    assumption
  · refine evt_keeps hregs heth hint hstl hout ?_
    assumption

theorem hostReserve_keeps (hregs : Keep.regs P) (hmem : Keep.mem P) (hholds : Keep.holds P) (heth : Keep.eth P) (hflt : Keep.flt P) (hint : Keep.int P) (hstl : Keep.stl P) (hfree : Keep.free P) (hout : Keep.out P) {v} {s : State} (h : P s) : P (hostReserve v s) := by
  unfold hostReserve
  extract_lets -underBinder -merge -useContext +onlyGivenNames x
  clear_value x
  refine Keep.ite ?_ ?_
  · refine evt_keeps hregs heth hint hstl hout ?_
    refine rset_keeps hregs ?_
    assumption
  · split
    · extract_lets -underBinder -merge -useContext +onlyGivenNames x
      clear_value x
      refine rset_keeps hregs ?_
      refine storeRows_keeps hmem hflt ?_
      refine Keep.patSome1 ?_ (by assumption)
      refine reserve_keeps hregs hholds hfree ?_
      assumption
    · refine evt_keeps hregs heth hint hstl hout ?_
      refine rset_keeps hregs ?_
      assumption

theorem hostSend_keeps (hregs : Keep.regs P) (hholds : Keep.holds P) (hcores : Keep.cores P) (heth : Keep.eth P) (hint : Keep.int P) (hstl : Keep.stl P) (hout : Keep.out P) {v} {s : State} (h : P s) : P (hostSend v s) := by
  unfold hostSend
  extract_lets -underBinder -merge -useContext +onlyGivenNames x
  clear_value x
  split
  · refine evt_keeps hregs heth hint hstl hout ?_
    assumption
  · extract_lets -underBinder -merge -useContext +onlyGivenNames x
    clear_value x
    refine Keep.ite ?_ ?_
    · refine evt_keeps hregs heth hint hstl hout ?_
      assumption
    · refine arrive_keeps hcores ?_
      refine passHold_keeps hholds ?_
      assumption

theorem hspWrite_keeps (hregs : Keep.regs P) (hmem : Keep.mem P) (hholds : Keep.holds P) (hcores : Keep.cores P) (heth : Keep.eth P) (hflt : Keep.flt P) (hint : Keep.int P) (hstl : Keep.stl P) (hfree : Keep.free P) (hout : Keep.out P) {a} {v} {s : State} (h : P s) : P (hspWrite a v s) := by
  unfold hspWrite
  refine Keep.ite ?_ ?_
  · refine rxRet_keeps hregs hholds heth hint hstl hout ?_
    assumption
  · refine Keep.ite ?_ ?_
    · refine hostReserve_keeps hregs hmem hholds heth hflt hint hstl hfree hout ?_
      assumption
    · refine Keep.ite ?_ ?_
      · refine hostSend_keeps hregs hholds hcores heth hint hstl hout ?_
        assumption
      · refine rwrite_keeps hregs ?_
        assumption

theorem execEthFrameReceive_keeps (hregs : Keep.regs P) (hmem : Keep.mem P) (hholds : Keep.holds P) (hcores : Keep.cores P) (heth : Keep.eth P) (hflt : Keep.flt P) (hfree : Keep.free P) {n} {frame} {ts} {sub} {s : State} (h : P s) {t : State} (e : execEthFrameReceive n frame ts sub s = .next t) : P t := by
  obtain rfl := Host.Outcome.next.inj e
  refine netReceive_keeps hregs hmem hholds hcores heth hflt hfree ?_
  assumption

theorem execEthLinkChange_keeps (hregs : Keep.regs P) (hholds : Keep.holds P) (heth : Keep.eth P) (hout : Keep.out P) {n} {up} {s : State} (h : P s) {t : State} (e : execEthLinkChange n up s = .next t) : P t := by
  obtain rfl := Host.Outcome.next.inj e
  refine linkChange_keeps hregs hholds heth hout ?_
  assumption

theorem execDatagramSent_keeps (hregs : Keep.regs P) (hmem : Keep.mem P) (hholds : Keep.holds P) (hcores : Keep.cores P) (heth : Keep.eth P) (hout : Keep.out P) {n} {ts} {sub} {s : State} (h : P s) {t : State} (e : execDatagramSent n ts sub s = .next t) : P t := by
  obtain rfl := Host.Outcome.next.inj e
  refine sentHead_keeps hregs hmem hholds hcores heth hout ?_
  assumption

theorem execFlowload_keeps (hregs : Keep.regs P) (heth : Keep.eth P) {x1} {v} {s : State} (h : P s) {t : State} (e : execFlowload x1 v s = .next t) : P t := by
  obtain rfl := Host.Outcome.next.inj e
  refine ethCtlWrite_keeps hregs heth ?_
  assumption

theorem execRxpop_keeps (hregs : Keep.regs P) (hlatches : Keep.latches P) (hholds : Keep.holds P) (hcores : Keep.cores P) (heth : Keep.eth P) (hint : Keep.int P) (hstl : Keep.stl P) (hout : Keep.out P) {i} {s : State} (h : P s) {t : State} (e : execRxpop i s = .next t) : P t := by
  obtain rfl := Host.Outcome.next.inj e
  dsimp -zeta only
  refine Keep.set_out hout ?_
  refine rxPop_keeps hregs hlatches hholds hcores heth hint hstl hout ?_
  assumption

theorem execRxret_keeps (hregs : Keep.regs P) (hmem : Keep.mem P) (hholds : Keep.holds P) (hcores : Keep.cores P) (heth : Keep.eth P) (hflt : Keep.flt P) (hint : Keep.int P) (hstl : Keep.stl P) (hfree : Keep.free P) (hout : Keep.out P) {x1} {v} {s : State} (h : P s) {t : State} (e : execRxret x1 v s = .next t) : P t := by
  obtain rfl := Host.Outcome.next.inj e
  refine hspWrite_keeps hregs hmem hholds hcores heth hflt hint hstl hfree hout ?_
  assumption

theorem execHresv_keeps (hregs : Keep.regs P) (hmem : Keep.mem P) (hholds : Keep.holds P) (hcores : Keep.cores P) (heth : Keep.eth P) (hflt : Keep.flt P) (hint : Keep.int P) (hstl : Keep.stl P) (hfree : Keep.free P) (hout : Keep.out P) {x1} {v} {s : State} (h : P s) {t : State} (e : execHresv x1 v s = .next t) : P t := by
  obtain rfl := Host.Outcome.next.inj e
  refine hspWrite_keeps hregs hmem hholds hcores heth hflt hint hstl hfree hout ?_
  assumption

theorem execHsend_keeps (hregs : Keep.regs P) (hmem : Keep.mem P) (hholds : Keep.holds P) (hcores : Keep.cores P) (heth : Keep.eth P) (hflt : Keep.flt P) (hint : Keep.int P) (hstl : Keep.stl P) (hfree : Keep.free P) (hout : Keep.out P) {x1} {v} {s : State} (h : P s) {t : State} (e : execHsend x1 v s = .next t) : P t := by
  obtain rfl := Host.Outcome.next.inj e
  refine hspWrite_keeps hregs hmem hholds hcores heth hflt hint hstl hfree hout ?_
  assumption

end Sys2Proof.Machine
end

