-- ==== Sys2Proof/Laws/KeepControl.lean ====
section
/-!
SUPPORT. Which parts of the state the operations may change: reset, blocks, update, modes, boot and the register bus.
-/

namespace Sys2Proof.Machine

variable {P : State → Prop}

theorem fuseInterrupt_keeps (hfuses : Keep.fuses P) (hfree : Keep.free P) {s : State} (h : P s) : P (fuseInterrupt s) := by
  unfold fuseInterrupt
  split
  · assumption
  · extract_lets -underBinder -merge -useContext +onlyGivenNames x
    clear_value x
    extract_lets -underBinder -merge -useContext +onlyGivenNames x
    clear_value x
    extract_lets -underBinder -merge -useContext +onlyGivenNames x
    subst x
    extract_lets -underBinder -merge -useContext +onlyGivenNames x
    clear_value x
    extract_lets -underBinder -merge -useContext +onlyGivenNames x
    clear_value x
    extract_lets -underBinder -merge -useContext +onlyGivenNames x
    clear_value x
    extract_lets -underBinder -merge -useContext +onlyGivenNames x
    clear_value x
    refine bumpFree_keeps hfree ?_
    refine Keep.set_fuses hfuses ?_
    assumption

theorem interruptStores_keeps (hfuses : Keep.fuses P) (hxsp : Keep.xsp P) (hflash : Keep.flash P) (hfree : Keep.free P) {s : State} (h : P s) : P (interruptStores s) := by
  unfold interruptStores
  extract_lets -underBinder -merge -useContext +onlyGivenNames x
  have hx : P x := by
    subst x
    refine fuseInterrupt_keeps hfuses hfree ?_
    refine xspInterrupt_keeps hxsp hflash hfree ?_
    assumption
  clear_value x
  refine Keep.ite ?_ ?_
  · refine breakTarget_keeps hflash hfree ?_
    assumption
  · assumption

theorem freshChip_keeps (hregs : Keep.regs P) (hlatches : Keep.latches P) (hstaged : Keep.staged P) (hmem : Keep.mem P) (htlm : Keep.tlm P) (htime : Keep.time P) (hpower : Keep.power P) (hboot : Keep.boot P) (hwdog : Keep.wdog P) (htrans : Keep.trans P) (hports : Keep.ports P) (hsheaves : Keep.sheaves P) (hsearches : Keep.searches P) (hgroups : Keep.groups P) (hsamplePhase : Keep.samplePhase P) (hdetq : Keep.detq P) (hspks : Keep.spks P) (hframes : Keep.frames P) (hnextFrame : Keep.nextFrame P) (hholds : Keep.holds P) (hwin : Keep.win P) (hlnk : Keep.lnk P) (hfuses : Keep.fuses P) (hses : Keep.ses P) (hpairs : Keep.pairs P) (hkey : Keep.key P) (hcores : Keep.cores P) (hfence : Keep.fence P) (hsage : Keep.sage P) (husl : Keep.usl P) (heth : Keep.eth P) (hxsp : Keep.xsp P) (hflash : Keep.flash P) (hflt : Keep.flt P) (htmrs : Keep.tmrs P) (hrtc : Keep.rtc P) (hint : Keep.int P) (hstl : Keep.stl P) (htag : Keep.tag P) (hreader : Keep.reader P) (hupd : Keep.upd P) (hfree : Keep.free P) (hout : Keep.out P) {s : State} {por} (h : P s) : P (freshChip s por) := by
  unfold freshChip
  extract_lets s1 fresh
  have hs : P s1 := by
    subst s1
    refine interruptStores_keeps hfuses hxsp hflash hfree ?_
    assumption
  clear_value s1
  refine Keep.renew hregs hlatches hstaged hmem htlm htime hpower hboot hwdog htrans hports hsheaves hsearches hgroups hsamplePhase hdetq hspks hframes hnextFrame hholds hwin hlnk hses hpairs hkey hcores hfence hsage husl heth hxsp hflt htmrs hrtc hint hstl htag hreader hupd hfree hout hs rfl rfl ?_ (fun _ => rfl) (fun _ => rfl) rfl rfl
  exact SMap.wf_filter _

theorem chipReset_keeps (hregs : Keep.regs P) (hlatches : Keep.latches P) (hstaged : Keep.staged P) (hmem : Keep.mem P) (htlm : Keep.tlm P) (htime : Keep.time P) (hpower : Keep.power P) (hboot : Keep.boot P) (hwdog : Keep.wdog P) (htrans : Keep.trans P) (hports : Keep.ports P) (hsheaves : Keep.sheaves P) (hsearches : Keep.searches P) (hgroups : Keep.groups P) (hsamplePhase : Keep.samplePhase P) (hdetq : Keep.detq P) (hspks : Keep.spks P) (hframes : Keep.frames P) (hnextFrame : Keep.nextFrame P) (hholds : Keep.holds P) (hwin : Keep.win P) (hlnk : Keep.lnk P) (hfuses : Keep.fuses P) (hses : Keep.ses P) (hpairs : Keep.pairs P) (hkey : Keep.key P) (hcores : Keep.cores P) (hfence : Keep.fence P) (hsage : Keep.sage P) (husl : Keep.usl P) (heth : Keep.eth P) (hxsp : Keep.xsp P) (hflash : Keep.flash P) (hflt : Keep.flt P) (htmrs : Keep.tmrs P) (hrtc : Keep.rtc P) (hint : Keep.int P) (hstl : Keep.stl P) (htag : Keep.tag P) (hreader : Keep.reader P) (hupd : Keep.upd P) (hfree : Keep.free P) (hout : Keep.out P) {s : State} {cause} (h : P s) : P (chipReset s cause) := by
  unfold chipReset
  refine Keep.ite ?_ ?_
  · assumption
  · extract_lets -underBinder -merge -useContext +onlyGivenNames x
    clear_value x
    extract_lets -underBinder -merge -useContext +onlyGivenNames x
    have hx : P x := by
      subst x
      refine freshChip_keeps hregs hlatches hstaged hmem htlm htime hpower hboot hwdog htrans hports hsheaves hsearches hgroups hsamplePhase hdetq hspks hframes hnextFrame hholds hwin hlnk hfuses hses hpairs hkey hcores hfence hsage husl heth hxsp hflash hflt htmrs hrtc hint hstl htag hreader hupd hfree hout ?_
      assumption
    clear_value x
    refine rset_keeps hregs ?_
    assumption

theorem powerOnReset_keeps (hregs : Keep.regs P) (hlatches : Keep.latches P) (hstaged : Keep.staged P) (hmem : Keep.mem P) (htlm : Keep.tlm P) (htime : Keep.time P) (hpower : Keep.power P) (hboot : Keep.boot P) (hwdog : Keep.wdog P) (htrans : Keep.trans P) (hports : Keep.ports P) (hsheaves : Keep.sheaves P) (hsearches : Keep.searches P) (hgroups : Keep.groups P) (hsamplePhase : Keep.samplePhase P) (hdetq : Keep.detq P) (hspks : Keep.spks P) (hframes : Keep.frames P) (hnextFrame : Keep.nextFrame P) (hholds : Keep.holds P) (hwin : Keep.win P) (hlnk : Keep.lnk P) (hfuses : Keep.fuses P) (hses : Keep.ses P) (hpairs : Keep.pairs P) (hkey : Keep.key P) (hcores : Keep.cores P) (hfence : Keep.fence P) (hsage : Keep.sage P) (husl : Keep.usl P) (heth : Keep.eth P) (hxsp : Keep.xsp P) (hflash : Keep.flash P) (hflt : Keep.flt P) (htmrs : Keep.tmrs P) (hrtc : Keep.rtc P) (hint : Keep.int P) (hstl : Keep.stl P) (htag : Keep.tag P) (hreader : Keep.reader P) (hupd : Keep.upd P) (hfree : Keep.free P) (hout : Keep.out P) {s : State} (h : P s) : P (powerOnReset s) := by
  unfold powerOnReset
  extract_lets -underBinder -merge -useContext +onlyGivenNames x
  have hx : P x := by
    subst x
    refine rtcToMain_keeps hrtc ?_
    refine freshChip_keeps hregs hlatches hstaged hmem htlm htime hpower hboot hwdog htrans hports hsheaves hsearches hgroups hsamplePhase hdetq hspks hframes hnextFrame hholds hwin hlnk hfuses hses hpairs hkey hcores hfence hsage husl heth hxsp hflash hflt htmrs hrtc hint hstl htag hreader hupd hfree hout ?_
    assumption
  clear_value x
  refine Keep.ite ?_ ?_
  · assumption
  · refine updTag_keeps htag ?_ ?_
    · assumption
    · rfl

theorem enterRetain_keeps (hregs : Keep.regs P) (hlatches : Keep.latches P) (hstaged : Keep.staged P) (hmem : Keep.mem P) (htlm : Keep.tlm P) (htime : Keep.time P) (hpower : Keep.power P) (hboot : Keep.boot P) (hwdog : Keep.wdog P) (htrans : Keep.trans P) (hports : Keep.ports P) (hsheaves : Keep.sheaves P) (hsearches : Keep.searches P) (hgroups : Keep.groups P) (hsamplePhase : Keep.samplePhase P) (hdetq : Keep.detq P) (hspks : Keep.spks P) (hframes : Keep.frames P) (hnextFrame : Keep.nextFrame P) (hholds : Keep.holds P) (hwin : Keep.win P) (hlnk : Keep.lnk P) (hfuses : Keep.fuses P) (hses : Keep.ses P) (hpairs : Keep.pairs P) (hkey : Keep.key P) (hcores : Keep.cores P) (hfence : Keep.fence P) (hsage : Keep.sage P) (husl : Keep.usl P) (heth : Keep.eth P) (hxsp : Keep.xsp P) (hflash : Keep.flash P) (hflt : Keep.flt P) (htmrs : Keep.tmrs P) (hrtc : Keep.rtc P) (hint : Keep.int P) (hstl : Keep.stl P) (htag : Keep.tag P) (hreader : Keep.reader P) (hupd : Keep.upd P) (hfree : Keep.free P) (hout : Keep.out P) {s : State} (h : P s) : P (enterRetain s) := by
  unfold enterRetain
  split
  · exact h
  · extract_lets s1 m fresh t
    have hs : P s1 := by
      subst s1
      refine interruptStores_keeps hfuses hxsp hflash hfree ?_
      refine rtcToVbak_keeps hregs hrtc ?_
      refine rtcLock_keeps hregs heth hrtc hint hstl hout ?_
      assumption
    clear_value s1
    refine rset_keeps hregs ?_
    refine Keep.renew hregs hlatches hstaged hmem htlm htime hpower hboot hwdog htrans hports hsheaves hsearches hgroups hsamplePhase hdetq hspks hframes hnextFrame hholds hwin hlnk hses hpairs hkey hcores hfence hsage husl heth hxsp hflt htmrs hrtc hint hstl htag hreader hupd hfree hout hs rfl rfl ?_ (fun _ => rfl) (fun _ => rfl) rfl rfl
    exact SMap.wf_filter _

theorem wdctlWrite_keeps (hregs : Keep.regs P) (hwdog : Keep.wdog P) {v} {s : State} (h : P s) : P (wdctlWrite v s) := by
  unfold wdctlWrite
  refine Keep.ite ?_ ?_
  · assumption
  · extract_lets -underBinder -merge -useContext +onlyGivenNames x
    have hx : P x := by
      subst x
      refine rset_keeps hregs ?_
      assumption
    clear_value x
    refine Keep.ite ?_ ?_
    · refine Keep.set_wdog hwdog ?_
      assumption
    · assumption

theorem wdkickWrite_keeps (hwdog : Keep.wdog P) {lvl} {v} {s : State} (h : P s) : P (wdkickWrite lvl v s) := by
  unfold wdkickWrite
  refine Keep.ite ?_ ?_
  · refine Keep.set_wdog hwdog ?_
    assumption
  · assumption

theorem svcreadyWrite_keeps (hregs : Keep.regs P) (hboot : Keep.boot P) {lvl} {v} {s : State} (h : P s) : P (svcreadyWrite lvl v s) := by
  unfold svcreadyWrite
  refine Keep.ite ?_ ?_
  · extract_lets -underBinder -merge -useContext +onlyGivenNames x
    have hx : P x := by
      subst x
      refine rset_keeps hregs ?_
      assumption
    clear_value x
    refine Keep.ite ?_ ?_
    · refine Keep.set_boot hboot ?_
      assumption
    · assumption
  · assumption

theorem enterProvision_keeps (hregs : Keep.regs P) (hboot : Keep.boot P) (hfence : Keep.fence P) (heth : Keep.eth P) (hint : Keep.int P) (hstl : Keep.stl P) (hout : Keep.out P) {s : State} {err} (h : P s) : P (enterProvision s err) := by
  unfold enterProvision
  extract_lets -underBinder -merge -useContext +onlyGivenNames x
  have hx : P x := by
    subst x
    refine fenceCommit_keeps hregs hfence heth hint hstl hout ?_
    refine fenceStage_keeps hregs ?_
    assumption
  clear_value x
  extract_lets -underBinder -merge -useContext +onlyGivenNames x
  have hx : P x := by
    subst x
    refine rsetBit_keeps hregs ?_
    refine rsetFld_keeps hregs ?_
    assumption
  clear_value x
  extract_lets -underBinder -merge -useContext +onlyGivenNames x
  have hx : P x := by
    subst x
    refine rset_keeps hregs ?_
    assumption
  clear_value x
  refine Keep.set_boot hboot ?_
  assumption

theorem leaveHold_keeps (hregs : Keep.regs P) (hboot : Keep.boot P) (hfence : Keep.fence P) (heth : Keep.eth P) (hint : Keep.int P) (hstl : Keep.stl P) (hout : Keep.out P) {s : State} (h : P s) : P (leaveHold s) := by
  unfold leaveHold
  extract_lets -underBinder -merge -useContext +onlyGivenNames x
  have hx : P x := by
    subst x
    refine rsetBit_keeps hregs ?_
    assumption
  clear_value x
  extract_lets -underBinder -merge -useContext +onlyGivenNames x
  clear_value x
  refine Keep.ite ?_ ?_
  · refine enterProvision_keeps hregs hboot hfence heth hint hstl hout ?_
    assumption
  · refine Keep.set_boot hboot ?_
    assumption

theorem bootgoWrite_keeps (hregs : Keep.regs P) (hboot : Keep.boot P) (hfence : Keep.fence P) (heth : Keep.eth P) (hint : Keep.int P) (hstl : Keep.stl P) (hout : Keep.out P) {lvl} {v} {s : State} (h : P s) : P (bootgoWrite lvl v s) := by
  unfold bootgoWrite
  refine Keep.ite ?_ ?_
  · refine leaveHold_keeps hregs hboot hfence heth hint hstl hout ?_
    assumption
  · assumption

theorem bootcfgWrite_keeps (hregs : Keep.regs P) (hboot : Keep.boot P) (hfence : Keep.fence P) (heth : Keep.eth P) (hint : Keep.int P) (hstl : Keep.stl P) (hout : Keep.out P) {lvl} {v} {s : State} (h : P s) : P (bootcfgWrite lvl v s) := by
  unfold bootcfgWrite
  refine Keep.ite ?_ ?_
  · extract_lets -underBinder -merge -useContext +onlyGivenNames x
    have hx : P x := by
      subst x
      refine rwrite_keeps hregs ?_
      assumption
    clear_value x
    refine Keep.ite ?_ ?_
    · refine leaveHold_keeps hregs hboot hfence heth hint hstl hout ?_
      assumption
    · assumption
  · assumption

theorem rstctlWrite_keeps (hregs : Keep.regs P) (hlatches : Keep.latches P) (hstaged : Keep.staged P) (hmem : Keep.mem P) (htlm : Keep.tlm P) (htime : Keep.time P) (hpower : Keep.power P) (hboot : Keep.boot P) (hwdog : Keep.wdog P) (htrans : Keep.trans P) (hports : Keep.ports P) (hsheaves : Keep.sheaves P) (hsearches : Keep.searches P) (hgroups : Keep.groups P) (hsamplePhase : Keep.samplePhase P) (hdetq : Keep.detq P) (hspks : Keep.spks P) (hframes : Keep.frames P) (hnextFrame : Keep.nextFrame P) (hholds : Keep.holds P) (hwin : Keep.win P) (hlnk : Keep.lnk P) (hfuses : Keep.fuses P) (hses : Keep.ses P) (hpairs : Keep.pairs P) (hkey : Keep.key P) (hcores : Keep.cores P) (hfence : Keep.fence P) (hsage : Keep.sage P) (husl : Keep.usl P) (heth : Keep.eth P) (hxsp : Keep.xsp P) (hflash : Keep.flash P) (hflt : Keep.flt P) (htmrs : Keep.tmrs P) (hrtc : Keep.rtc P) (hint : Keep.int P) (hstl : Keep.stl P) (htag : Keep.tag P) (hreader : Keep.reader P) (hupd : Keep.upd P) (hfree : Keep.free P) (hout : Keep.out P) {lvl} {v} {s : State} (h : P s) : P (rstctlWrite lvl v s) := by
  unfold rstctlWrite
  refine Keep.ite ?_ ?_
  · refine chipReset_keeps hregs hlatches hstaged hmem htlm htime hpower hboot hwdog htrans hports hsheaves hsearches hgroups hsamplePhase hdetq hspks hframes hnextFrame hholds hwin hlnk hfuses hses hpairs hkey hcores hfence hsage husl heth hxsp hflash hflt htmrs hrtc hint hstl htag hreader hupd hfree hout ?_
    assumption
  · assumption

theorem sysWrite_keeps (hregs : Keep.regs P) (hlatches : Keep.latches P) (hstaged : Keep.staged P) (hmem : Keep.mem P) (htlm : Keep.tlm P) (htime : Keep.time P) (hpower : Keep.power P) (hboot : Keep.boot P) (hwdog : Keep.wdog P) (htrans : Keep.trans P) (hports : Keep.ports P) (hsheaves : Keep.sheaves P) (hsearches : Keep.searches P) (hgroups : Keep.groups P) (hsamplePhase : Keep.samplePhase P) (hdetq : Keep.detq P) (hspks : Keep.spks P) (hframes : Keep.frames P) (hnextFrame : Keep.nextFrame P) (hholds : Keep.holds P) (hwin : Keep.win P) (hlnk : Keep.lnk P) (hfuses : Keep.fuses P) (hses : Keep.ses P) (hpairs : Keep.pairs P) (hkey : Keep.key P) (hcores : Keep.cores P) (hfence : Keep.fence P) (hsage : Keep.sage P) (husl : Keep.usl P) (heth : Keep.eth P) (hxsp : Keep.xsp P) (hflash : Keep.flash P) (hflt : Keep.flt P) (htmrs : Keep.tmrs P) (hrtc : Keep.rtc P) (hint : Keep.int P) (hstl : Keep.stl P) (htag : Keep.tag P) (hreader : Keep.reader P) (hupd : Keep.upd P) (hfree : Keep.free P) (hout : Keep.out P) {lvl} {a} {v} {s : State} (h : P s) : P (sysWrite lvl a v s) := by
  unfold sysWrite
  refine Keep.ite ?_ ?_
  · refine bootcfgWrite_keeps hregs hboot hfence heth hint hstl hout ?_
    assumption
  · refine Keep.ite ?_ ?_
    · refine bootgoWrite_keeps hregs hboot hfence heth hint hstl hout ?_
      assumption
    · refine Keep.ite ?_ ?_
      · refine rstctlWrite_keeps hregs hlatches hstaged hmem htlm htime hpower hboot hwdog htrans hports hsheaves hsearches hgroups hsamplePhase hdetq hspks hframes hnextFrame hholds hwin hlnk hfuses hses hpairs hkey hcores hfence hsage husl heth hxsp hflash hflt htmrs hrtc hint hstl htag hreader hupd hfree hout ?_
        assumption
      · refine Keep.ite ?_ ?_
        · refine wdctlWrite_keeps hregs hwdog ?_
          assumption
        · refine Keep.ite ?_ ?_
          · refine Keep.ite ?_ ?_
            · assumption
            · refine rset_keeps hregs ?_
              assumption
          · refine Keep.ite ?_ ?_
            · refine wdkickWrite_keeps hwdog ?_
              assumption
            · refine Keep.ite ?_ ?_
              · refine svcreadyWrite_keeps hregs hboot ?_
                assumption
              · refine rwrite_keeps hregs ?_
                assumption

theorem execPowerOnReset_keeps (hregs : Keep.regs P) (hlatches : Keep.latches P) (hstaged : Keep.staged P) (hmem : Keep.mem P) (htlm : Keep.tlm P) (htime : Keep.time P) (hpower : Keep.power P) (hboot : Keep.boot P) (hwdog : Keep.wdog P) (htrans : Keep.trans P) (hports : Keep.ports P) (hsheaves : Keep.sheaves P) (hsearches : Keep.searches P) (hgroups : Keep.groups P) (hsamplePhase : Keep.samplePhase P) (hdetq : Keep.detq P) (hspks : Keep.spks P) (hframes : Keep.frames P) (hnextFrame : Keep.nextFrame P) (hholds : Keep.holds P) (hwin : Keep.win P) (hlnk : Keep.lnk P) (hfuses : Keep.fuses P) (hses : Keep.ses P) (hpairs : Keep.pairs P) (hkey : Keep.key P) (hcores : Keep.cores P) (hfence : Keep.fence P) (hsage : Keep.sage P) (husl : Keep.usl P) (heth : Keep.eth P) (hxsp : Keep.xsp P) (hflash : Keep.flash P) (hflt : Keep.flt P) (htmrs : Keep.tmrs P) (hrtc : Keep.rtc P) (hint : Keep.int P) (hstl : Keep.stl P) (htag : Keep.tag P) (hreader : Keep.reader P) (hupd : Keep.upd P) (hfree : Keep.free P) (hout : Keep.out P) {s : State} (h : P s) {t : State} (e : execPowerOnReset s = .next t) : P t := by
  obtain rfl := Host.Outcome.next.inj e
  refine powerOnReset_keeps hregs hlatches hstaged hmem htlm htime hpower hboot hwdog htrans hports hsheaves hsearches hgroups hsamplePhase hdetq hspks hframes hnextFrame hholds hwin hlnk hfuses hses hpairs hkey hcores hfence hsage husl heth hxsp hflash hflt htmrs hrtc hint hstl htag hreader hupd hfree hout ?_
  assumption

theorem execExternalReset_keeps (hregs : Keep.regs P) (hlatches : Keep.latches P) (hstaged : Keep.staged P) (hmem : Keep.mem P) (htlm : Keep.tlm P) (htime : Keep.time P) (hpower : Keep.power P) (hboot : Keep.boot P) (hwdog : Keep.wdog P) (htrans : Keep.trans P) (hports : Keep.ports P) (hsheaves : Keep.sheaves P) (hsearches : Keep.searches P) (hgroups : Keep.groups P) (hsamplePhase : Keep.samplePhase P) (hdetq : Keep.detq P) (hspks : Keep.spks P) (hframes : Keep.frames P) (hnextFrame : Keep.nextFrame P) (hholds : Keep.holds P) (hwin : Keep.win P) (hlnk : Keep.lnk P) (hfuses : Keep.fuses P) (hses : Keep.ses P) (hpairs : Keep.pairs P) (hkey : Keep.key P) (hcores : Keep.cores P) (hfence : Keep.fence P) (hsage : Keep.sage P) (husl : Keep.usl P) (heth : Keep.eth P) (hxsp : Keep.xsp P) (hflash : Keep.flash P) (hflt : Keep.flt P) (htmrs : Keep.tmrs P) (hrtc : Keep.rtc P) (hint : Keep.int P) (hstl : Keep.stl P) (htag : Keep.tag P) (hreader : Keep.reader P) (hupd : Keep.upd P) (hfree : Keep.free P) (hout : Keep.out P) {s : State} (h : P s) {t : State} (e : execExternalReset s = .next t) : P t := by
  obtain rfl := Host.Outcome.next.inj e
  refine Keep.ite ?_ ?_
  · assumption
  · refine chipReset_keeps hregs hlatches hstaged hmem htlm htime hpower hboot hwdog htrans hports hsheaves hsearches hgroups hsamplePhase hdetq hspks hframes hnextFrame hholds hwin hlnk hfuses hses hpairs hkey hcores hfence hsage husl heth hxsp hflash hflt htmrs hrtc hint hstl htag hreader hupd hfree hout ?_
    refine Keep.set_power hpower ?_
    assumption

theorem execResetRelease_keeps (hpower : Keep.power P) (hboot : Keep.boot P) {s : State} (h : P s) {t : State} (e : execResetRelease s = .next t) : P t := by
  obtain rfl := Host.Outcome.next.inj e
  refine Keep.ite ?_ ?_
  · extract_lets -underBinder -merge -useContext +onlyGivenNames x
    clear_value x
    extract_lets -underBinder -merge -useContext +onlyGivenNames x
    have hx : P x := by
      subst x
      refine Keep.set_power hpower ?_
      assumption
    clear_value x
    refine Keep.ite ?_ ?_
    · assumption
    · refine Keep.set_boot hboot ?_
      assumption
  · assumption

theorem execWatchdogReset_keeps (hregs : Keep.regs P) (hlatches : Keep.latches P) (hstaged : Keep.staged P) (hmem : Keep.mem P) (htlm : Keep.tlm P) (htime : Keep.time P) (hpower : Keep.power P) (hboot : Keep.boot P) (hwdog : Keep.wdog P) (htrans : Keep.trans P) (hports : Keep.ports P) (hsheaves : Keep.sheaves P) (hsearches : Keep.searches P) (hgroups : Keep.groups P) (hsamplePhase : Keep.samplePhase P) (hdetq : Keep.detq P) (hspks : Keep.spks P) (hframes : Keep.frames P) (hnextFrame : Keep.nextFrame P) (hholds : Keep.holds P) (hwin : Keep.win P) (hlnk : Keep.lnk P) (hfuses : Keep.fuses P) (hses : Keep.ses P) (hpairs : Keep.pairs P) (hkey : Keep.key P) (hcores : Keep.cores P) (hfence : Keep.fence P) (hsage : Keep.sage P) (husl : Keep.usl P) (heth : Keep.eth P) (hxsp : Keep.xsp P) (hflash : Keep.flash P) (hflt : Keep.flt P) (htmrs : Keep.tmrs P) (hrtc : Keep.rtc P) (hint : Keep.int P) (hstl : Keep.stl P) (htag : Keep.tag P) (hreader : Keep.reader P) (hupd : Keep.upd P) (hfree : Keep.free P) (hout : Keep.out P) {s : State} (h : P s) {t : State} (e : execWatchdogReset s = .next t) : P t := by
  obtain rfl := Host.Outcome.next.inj e
  refine Keep.ite ?_ ?_
  · refine chipReset_keeps hregs hlatches hstaged hmem htlm htime hpower hboot hwdog htrans hports hsheaves hsearches hgroups hsamplePhase hdetq hspks hframes hnextFrame hholds hwin hlnk hfuses hses hpairs hkey hcores hfence hsage husl heth hxsp hflash hflt htmrs hrtc hint hstl htag hreader hupd hfree hout ?_
    assumption
  · assumption

theorem execSoftwareReset_keeps (hregs : Keep.regs P) (hlatches : Keep.latches P) (hstaged : Keep.staged P) (hmem : Keep.mem P) (htlm : Keep.tlm P) (htime : Keep.time P) (hpower : Keep.power P) (hboot : Keep.boot P) (hwdog : Keep.wdog P) (htrans : Keep.trans P) (hports : Keep.ports P) (hsheaves : Keep.sheaves P) (hsearches : Keep.searches P) (hgroups : Keep.groups P) (hsamplePhase : Keep.samplePhase P) (hdetq : Keep.detq P) (hspks : Keep.spks P) (hframes : Keep.frames P) (hnextFrame : Keep.nextFrame P) (hholds : Keep.holds P) (hwin : Keep.win P) (hlnk : Keep.lnk P) (hfuses : Keep.fuses P) (hses : Keep.ses P) (hpairs : Keep.pairs P) (hkey : Keep.key P) (hcores : Keep.cores P) (hfence : Keep.fence P) (hsage : Keep.sage P) (husl : Keep.usl P) (heth : Keep.eth P) (hxsp : Keep.xsp P) (hflash : Keep.flash P) (hflt : Keep.flt P) (htmrs : Keep.tmrs P) (hrtc : Keep.rtc P) (hint : Keep.int P) (hstl : Keep.stl P) (htag : Keep.tag P) (hreader : Keep.reader P) (hupd : Keep.upd P) (hfree : Keep.free P) (hout : Keep.out P) {i} {v} {s : State} (h : P s) {t : State} (e : execSoftwareReset i v s = .next t) : P t := by
  obtain rfl := Host.Outcome.next.inj e
  refine sysWrite_keeps hregs hlatches hstaged hmem htlm htime hpower hboot hwdog htrans hports hsheaves hsearches hgroups hsamplePhase hdetq hspks hframes hnextFrame hholds hwin hlnk hfuses hses hpairs hkey hcores hfence hsage husl heth hxsp hflash hflt htmrs hrtc hint hstl htag hreader hupd hfree hout ?_
  assumption

theorem execDebugReset_keeps (hregs : Keep.regs P) (hlatches : Keep.latches P) (hstaged : Keep.staged P) (hmem : Keep.mem P) (htlm : Keep.tlm P) (htime : Keep.time P) (hpower : Keep.power P) (hboot : Keep.boot P) (hwdog : Keep.wdog P) (htrans : Keep.trans P) (hports : Keep.ports P) (hsheaves : Keep.sheaves P) (hsearches : Keep.searches P) (hgroups : Keep.groups P) (hsamplePhase : Keep.samplePhase P) (hdetq : Keep.detq P) (hspks : Keep.spks P) (hframes : Keep.frames P) (hnextFrame : Keep.nextFrame P) (hholds : Keep.holds P) (hwin : Keep.win P) (hlnk : Keep.lnk P) (hfuses : Keep.fuses P) (hses : Keep.ses P) (hpairs : Keep.pairs P) (hkey : Keep.key P) (hcores : Keep.cores P) (hfence : Keep.fence P) (hsage : Keep.sage P) (husl : Keep.usl P) (heth : Keep.eth P) (hxsp : Keep.xsp P) (hflash : Keep.flash P) (hflt : Keep.flt P) (htmrs : Keep.tmrs P) (hrtc : Keep.rtc P) (hint : Keep.int P) (hstl : Keep.stl P) (htag : Keep.tag P) (hreader : Keep.reader P) (hupd : Keep.upd P) (hfree : Keep.free P) (hout : Keep.out P) {s : State} (h : P s) {t : State} (e : execDebugReset s = .next t) : P t := by
  obtain rfl := Host.Outcome.next.inj e
  refine chipReset_keeps hregs hlatches hstaged hmem htlm htime hpower hboot hwdog htrans hports hsheaves hsearches hgroups hsamplePhase hdetq hspks hframes hnextFrame hholds hwin hlnk hfuses hses hpairs hkey hcores hfence hsage husl heth hxsp hflash hflt htmrs hrtc hint hstl htag hreader hupd hfree hout ?_
  assumption

theorem execWatchdogEnable_keeps (hregs : Keep.regs P) (hlatches : Keep.latches P) (hstaged : Keep.staged P) (hmem : Keep.mem P) (htlm : Keep.tlm P) (htime : Keep.time P) (hpower : Keep.power P) (hboot : Keep.boot P) (hwdog : Keep.wdog P) (htrans : Keep.trans P) (hports : Keep.ports P) (hsheaves : Keep.sheaves P) (hsearches : Keep.searches P) (hgroups : Keep.groups P) (hsamplePhase : Keep.samplePhase P) (hdetq : Keep.detq P) (hspks : Keep.spks P) (hframes : Keep.frames P) (hnextFrame : Keep.nextFrame P) (hholds : Keep.holds P) (hwin : Keep.win P) (hlnk : Keep.lnk P) (hfuses : Keep.fuses P) (hses : Keep.ses P) (hpairs : Keep.pairs P) (hkey : Keep.key P) (hcores : Keep.cores P) (hfence : Keep.fence P) (hsage : Keep.sage P) (husl : Keep.usl P) (heth : Keep.eth P) (hxsp : Keep.xsp P) (hflash : Keep.flash P) (hflt : Keep.flt P) (htmrs : Keep.tmrs P) (hrtc : Keep.rtc P) (hint : Keep.int P) (hstl : Keep.stl P) (htag : Keep.tag P) (hreader : Keep.reader P) (hupd : Keep.upd P) (hfree : Keep.free P) (hout : Keep.out P) {i} {v} {s : State} (h : P s) {t : State} (e : execWatchdogEnable i v s = .next t) : P t := by
  obtain rfl := Host.Outcome.next.inj e
  refine sysWrite_keeps hregs hlatches hstaged hmem htlm htime hpower hboot hwdog htrans hports hsheaves hsearches hgroups hsamplePhase hdetq hspks hframes hnextFrame hholds hwin hlnk hfuses hses hpairs hkey hcores hfence hsage husl heth hxsp hflash hflt htmrs hrtc hint hstl htag hreader hupd hfree hout ?_
  assumption

theorem execWatchdogKick_keeps (hregs : Keep.regs P) (hlatches : Keep.latches P) (hstaged : Keep.staged P) (hmem : Keep.mem P) (htlm : Keep.tlm P) (htime : Keep.time P) (hpower : Keep.power P) (hboot : Keep.boot P) (hwdog : Keep.wdog P) (htrans : Keep.trans P) (hports : Keep.ports P) (hsheaves : Keep.sheaves P) (hsearches : Keep.searches P) (hgroups : Keep.groups P) (hsamplePhase : Keep.samplePhase P) (hdetq : Keep.detq P) (hspks : Keep.spks P) (hframes : Keep.frames P) (hnextFrame : Keep.nextFrame P) (hholds : Keep.holds P) (hwin : Keep.win P) (hlnk : Keep.lnk P) (hfuses : Keep.fuses P) (hses : Keep.ses P) (hpairs : Keep.pairs P) (hkey : Keep.key P) (hcores : Keep.cores P) (hfence : Keep.fence P) (hsage : Keep.sage P) (husl : Keep.usl P) (heth : Keep.eth P) (hxsp : Keep.xsp P) (hflash : Keep.flash P) (hflt : Keep.flt P) (htmrs : Keep.tmrs P) (hrtc : Keep.rtc P) (hint : Keep.int P) (hstl : Keep.stl P) (htag : Keep.tag P) (hreader : Keep.reader P) (hupd : Keep.upd P) (hfree : Keep.free P) (hout : Keep.out P) {i} {v} {s : State} (h : P s) {t : State} (e : execWatchdogKick i v s = .next t) : P t := by
  obtain rfl := Host.Outcome.next.inj e
  refine sysWrite_keeps hregs hlatches hstaged hmem htlm htime hpower hboot hwdog htrans hports hsheaves hsearches hgroups hsamplePhase hdetq hspks hframes hnextFrame hholds hwin hlnk hfuses hses hpairs hkey hcores hfence hsage husl heth hxsp hflash hflt htmrs hrtc hint hstl htag hreader hupd hfree hout ?_
  assumption

theorem execServiceReady_keeps (hregs : Keep.regs P) (hlatches : Keep.latches P) (hstaged : Keep.staged P) (hmem : Keep.mem P) (htlm : Keep.tlm P) (htime : Keep.time P) (hpower : Keep.power P) (hboot : Keep.boot P) (hwdog : Keep.wdog P) (htrans : Keep.trans P) (hports : Keep.ports P) (hsheaves : Keep.sheaves P) (hsearches : Keep.searches P) (hgroups : Keep.groups P) (hsamplePhase : Keep.samplePhase P) (hdetq : Keep.detq P) (hspks : Keep.spks P) (hframes : Keep.frames P) (hnextFrame : Keep.nextFrame P) (hholds : Keep.holds P) (hwin : Keep.win P) (hlnk : Keep.lnk P) (hfuses : Keep.fuses P) (hses : Keep.ses P) (hpairs : Keep.pairs P) (hkey : Keep.key P) (hcores : Keep.cores P) (hfence : Keep.fence P) (hsage : Keep.sage P) (husl : Keep.usl P) (heth : Keep.eth P) (hxsp : Keep.xsp P) (hflash : Keep.flash P) (hflt : Keep.flt P) (htmrs : Keep.tmrs P) (hrtc : Keep.rtc P) (hint : Keep.int P) (hstl : Keep.stl P) (htag : Keep.tag P) (hreader : Keep.reader P) (hupd : Keep.upd P) (hfree : Keep.free P) (hout : Keep.out P) {i} {v} {s : State} (h : P s) {t : State} (e : execServiceReady i v s = .next t) : P t := by
  obtain rfl := Host.Outcome.next.inj e
  refine sysWrite_keeps hregs hlatches hstaged hmem htlm htime hpower hboot hwdog htrans hports hsheaves hsearches hgroups hsamplePhase hdetq hspks hframes hnextFrame hholds hwin hlnk hfuses hses hpairs hkey hcores hfence hsage husl heth hxsp hflash hflt htmrs hrtc hint hstl htag hreader hupd hfree hout ?_
  assumption

theorem execHoldPointRelease_keeps (hregs : Keep.regs P) (hlatches : Keep.latches P) (hstaged : Keep.staged P) (hmem : Keep.mem P) (htlm : Keep.tlm P) (htime : Keep.time P) (hpower : Keep.power P) (hboot : Keep.boot P) (hwdog : Keep.wdog P) (htrans : Keep.trans P) (hports : Keep.ports P) (hsheaves : Keep.sheaves P) (hsearches : Keep.searches P) (hgroups : Keep.groups P) (hsamplePhase : Keep.samplePhase P) (hdetq : Keep.detq P) (hspks : Keep.spks P) (hframes : Keep.frames P) (hnextFrame : Keep.nextFrame P) (hholds : Keep.holds P) (hwin : Keep.win P) (hlnk : Keep.lnk P) (hfuses : Keep.fuses P) (hses : Keep.ses P) (hpairs : Keep.pairs P) (hkey : Keep.key P) (hcores : Keep.cores P) (hfence : Keep.fence P) (hsage : Keep.sage P) (husl : Keep.usl P) (heth : Keep.eth P) (hxsp : Keep.xsp P) (hflash : Keep.flash P) (hflt : Keep.flt P) (htmrs : Keep.tmrs P) (hrtc : Keep.rtc P) (hint : Keep.int P) (hstl : Keep.stl P) (htag : Keep.tag P) (hreader : Keep.reader P) (hupd : Keep.upd P) (hfree : Keep.free P) (hout : Keep.out P) {i} {v} {s : State} (h : P s) {t : State} (e : execHoldPointRelease i v s = .next t) : P t := by
  obtain rfl := Host.Outcome.next.inj e
  refine sysWrite_keeps hregs hlatches hstaged hmem htlm htime hpower hboot hwdog htrans hports hsheaves hsearches hgroups hsamplePhase hdetq hspks hframes hnextFrame hholds hwin hlnk hfuses hses hpairs hkey hcores hfence hsage husl heth hxsp hflash hflt htmrs hrtc hint hstl htag hreader hupd hfree hout ?_
  assumption

theorem execVioWarning_keeps (hregs : Keep.regs P) (hlatches : Keep.latches P) (hstaged : Keep.staged P) (hmem : Keep.mem P) (htlm : Keep.tlm P) (htime : Keep.time P) (hpower : Keep.power P) (hboot : Keep.boot P) (hwdog : Keep.wdog P) (htrans : Keep.trans P) (hports : Keep.ports P) (hsheaves : Keep.sheaves P) (hsearches : Keep.searches P) (hgroups : Keep.groups P) (hsamplePhase : Keep.samplePhase P) (hdetq : Keep.detq P) (hspks : Keep.spks P) (hframes : Keep.frames P) (hnextFrame : Keep.nextFrame P) (hholds : Keep.holds P) (hwin : Keep.win P) (hlnk : Keep.lnk P) (hfuses : Keep.fuses P) (hses : Keep.ses P) (hpairs : Keep.pairs P) (hkey : Keep.key P) (hcores : Keep.cores P) (hfence : Keep.fence P) (hsage : Keep.sage P) (husl : Keep.usl P) (heth : Keep.eth P) (hxsp : Keep.xsp P) (hflash : Keep.flash P) (hflt : Keep.flt P) (htmrs : Keep.tmrs P) (hrtc : Keep.rtc P) (hint : Keep.int P) (hstl : Keep.stl P) (htag : Keep.tag P) (hreader : Keep.reader P) (hupd : Keep.upd P) (hfree : Keep.free P) (hout : Keep.out P) {s : State} (h : P s) {t : State} (e : execVioWarning s = .next t) : P t := by
  obtain rfl := Host.Outcome.next.inj e
  refine enterRetain_keeps hregs hlatches hstaged hmem htlm htime hpower hboot hwdog htrans hports hsheaves hsearches hgroups hsamplePhase hdetq hspks hframes hnextFrame hholds hwin hlnk hfuses hses hpairs hkey hcores hfence hsage husl heth hxsp hflash hflt htmrs hrtc hint hstl htag hreader hupd hfree hout ?_
  assumption

theorem execSupplyWindowExit_keeps (hregs : Keep.regs P) (hlatches : Keep.latches P) (hstaged : Keep.staged P) (hmem : Keep.mem P) (htlm : Keep.tlm P) (htime : Keep.time P) (hpower : Keep.power P) (hboot : Keep.boot P) (hwdog : Keep.wdog P) (htrans : Keep.trans P) (hports : Keep.ports P) (hsheaves : Keep.sheaves P) (hsearches : Keep.searches P) (hgroups : Keep.groups P) (hsamplePhase : Keep.samplePhase P) (hdetq : Keep.detq P) (hspks : Keep.spks P) (hframes : Keep.frames P) (hnextFrame : Keep.nextFrame P) (hholds : Keep.holds P) (hwin : Keep.win P) (hlnk : Keep.lnk P) (hfuses : Keep.fuses P) (hses : Keep.ses P) (hpairs : Keep.pairs P) (hkey : Keep.key P) (hcores : Keep.cores P) (hfence : Keep.fence P) (hsage : Keep.sage P) (husl : Keep.usl P) (heth : Keep.eth P) (hxsp : Keep.xsp P) (hflash : Keep.flash P) (hflt : Keep.flt P) (htmrs : Keep.tmrs P) (hrtc : Keep.rtc P) (hint : Keep.int P) (hstl : Keep.stl P) (htag : Keep.tag P) (hreader : Keep.reader P) (hupd : Keep.upd P) (hfree : Keep.free P) (hout : Keep.out P) {s : State} (h : P s) {t : State} (e : execSupplyWindowExit s = .next t) : P t := by
  obtain rfl := Host.Outcome.next.inj e
  refine enterRetain_keeps hregs hlatches hstaged hmem htlm htime hpower hboot hwdog htrans hports hsheaves hsearches hgroups hsamplePhase hdetq hspks hframes hnextFrame hholds hwin hlnk hfuses hses hpairs hkey hcores hfence hsage husl heth hxsp hflash hflt htmrs hrtc hint hstl htag hreader hupd hfree hout ?_
  assumption

theorem enWritten_keeps {s : State} {b} {v} {begin_ : Sys2Proof.Machine.State → Sys2Proof.Machine.State} {stop : Sys2Proof.Machine.State → Sys2Proof.Machine.State} (h : P s) (hbegin_ : ∀ s, P s → P (begin_ s)) (hstop : ∀ s, P s → P (stop s)) : P (enWritten s b v begin_ stop) := by
  unfold enWritten
  extract_lets -underBinder -merge -useContext +onlyGivenNames x
  clear_value x
  refine Keep.ite ?_ ?_
  · refine hbegin_ _ ?_
    assumption
  · refine Keep.ite ?_ ?_
    · refine hstop _ ?_
      assumption
    · assumption

theorem offOrAgain_keeps (hregs : Keep.regs P) {s : State} {b} {begin_ : Sys2Proof.Machine.State → Sys2Proof.Machine.State} (h : P s) (hbegin_ : ∀ s, P s → P (begin_ s)) : P (offOrAgain s b begin_) := by
  unfold offOrAgain
  extract_lets -underBinder -merge -useContext +onlyGivenNames x
  have hx : P x := by
    subst x
    refine setState_keeps hregs ?_
    assumption
  clear_value x
  refine Keep.ite ?_ ?_
  · refine hbegin_ _ ?_
    assumption
  · assumption

theorem tilBegin_keeps (hregs : Keep.regs P) (hcores : Keep.cores P) {s : State} {t1} (h : P s) : P (tilBegin s t1) := by
  unfold tilBegin
  extract_lets -underBinder -merge -useContext +onlyGivenNames x
  clear_value x
  extract_lets -underBinder -merge -useContext +onlyGivenNames x
  clear_value x
  extract_lets -underBinder -merge -useContext +onlyGivenNames x
  clear_value x
  extract_lets -underBinder -merge -useContext +onlyGivenNames x
  clear_value x
  refine setState_keeps hregs ?_
  refine State.updCore_keeps hcores ?_
  refine rset_keeps hregs ?_
  assumption

theorem tilGone_keeps (hregs : Keep.regs P) (hmem : Keep.mem P) (hholds : Keep.holds P) (hwin : Keep.win P) (hlnk : Keep.lnk P) (hses : Keep.ses P) (hkey : Keep.key P) (hcores : Keep.cores P) (hsage : Keep.sage P) (heth : Keep.eth P) (hflt : Keep.flt P) (hint : Keep.int P) (hstl : Keep.stl P) (hfree : Keep.free P) (hout : Keep.out P) {s : State} {t1} (h : P s) : P (tilGone s t1) := by
  unfold tilGone
  refine coreLeft_keeps hregs hmem hholds hwin hlnk hses hkey hcores hsage heth hflt hint hstl hfree hout ?_
  refine State.updCore_keeps hcores ?_
  assumption

theorem tilStop_keeps (hregs : Keep.regs P) (hmem : Keep.mem P) (hholds : Keep.holds P) (hwin : Keep.win P) (hlnk : Keep.lnk P) (hses : Keep.ses P) (hkey : Keep.key P) (hcores : Keep.cores P) (hsage : Keep.sage P) (heth : Keep.eth P) (hflt : Keep.flt P) (hint : Keep.int P) (hstl : Keep.stl P) (hfree : Keep.free P) (hout : Keep.out P) {s : State} {t1} (h : P s) : P (tilStop s t1) := by
  unfold tilStop
  extract_lets -underBinder -merge -useContext +onlyGivenNames x
  have hx : P x := by
    subst x
    refine drainState_keeps hregs ?_
    assumption
  clear_value x
  refine Keep.ite ?_ ?_
  · assumption
  · refine tilGone_keeps hregs hmem hholds hwin hlnk hses hkey hcores hsage heth hflt hint hstl hfree hout ?_
    assumption

theorem tilOn_keeps (hregs : Keep.regs P) (hholds : Keep.holds P) (hwin : Keep.win P) (hcores : Keep.cores P) (hsage : Keep.sage P) {s : State} {t1} (h : P s) : P (tilOn s t1) := by
  unfold tilOn
  refine sagePump_keeps hholds hwin hcores hsage ?_
  refine State.updCore_keeps hcores ?_
  refine setState_keeps hregs ?_
  assumption

theorem tilCtlWrite_keeps (hregs : Keep.regs P) (hmem : Keep.mem P) (hholds : Keep.holds P) (hwin : Keep.win P) (hlnk : Keep.lnk P) (hses : Keep.ses P) (hkey : Keep.key P) (hcores : Keep.cores P) (hsage : Keep.sage P) (heth : Keep.eth P) (hflt : Keep.flt P) (hint : Keep.int P) (hstl : Keep.stl P) (hfree : Keep.free P) (hout : Keep.out P) {t0} {v} {s : State} (h : P s) : P (tilCtlWrite t0 v s) := by
  unfold tilCtlWrite
  extract_lets -underBinder -merge -useContext +onlyGivenNames x
  clear_value x
  extract_lets -underBinder -merge -useContext +onlyGivenNames x
  clear_value x
  extract_lets -underBinder -merge -useContext +onlyGivenNames x
  have hx : P x := by
    subst x
    refine rwrite_keeps hregs ?_
    assumption
  clear_value x
  extract_lets -underBinder -merge -useContext +onlyGivenNames x
  have hx : P x := by
    subst x
    refine Keep.ite ?_ ?_
    · refine rset_keeps hregs ?_
      assumption
    · assumption
  clear_value x
  refine enWritten_keeps ?_ ?_ ?_
  · assumption
  · intro _ _
    refine tilBegin_keeps hregs hcores ?_
    assumption
  · intro _ _
    refine tilStop_keeps hregs hmem hholds hwin hlnk hses hkey hcores hsage heth hflt hint hstl hfree hout ?_
    assumption

theorem hedBegin_keeps (hregs : Keep.regs P) (heth : Keep.eth P) (hint : Keep.int P) (hstl : Keep.stl P) (hfree : Keep.free P) (hout : Keep.out P) {s : State} {n} (h : P s) : P (hedBegin s n) := by
  unfold hedBegin
  refine fltRefresh_keeps hregs ?_
  refine hedStartCheck_keeps hregs heth hint hstl hfree hout ?_
  refine setState_keeps hregs ?_
  assumption

theorem hedCtlWrite_keeps (hregs : Keep.regs P) (heth : Keep.eth P) (hint : Keep.int P) (hstl : Keep.stl P) (hfree : Keep.free P) (hout : Keep.out P) {n} {v} {s : State} (h : P s) : P (hedCtlWrite n v s) := by
  unfold hedCtlWrite
  refine enWritten_keeps ?_ ?_ ?_
  · refine hedWrite_keeps hregs ?_
    assumption
  · intro _ _
    refine hedBegin_keeps hregs heth hint hstl hfree hout ?_
    assumption
  · intro _ _
    refine hedStop_keeps hregs ?_
    assumption

theorem uslBegin_keeps (hregs : Keep.regs P) (husl : Keep.usl P) {s : State} {n} (h : P s) : P (uslBegin s n) := by
  unfold uslBegin
  refine updUsl_keeps husl ?_
  refine setState_keeps hregs ?_
  assumption

theorem uslStop_keeps (hregs : Keep.regs P) (husl : Keep.usl P) (heth : Keep.eth P) (hrtc : Keep.rtc P) (hint : Keep.int P) (hstl : Keep.stl P) (hout : Keep.out P) {s : State} {n} (h : P s) : P (uslStop s n) := by
  unfold uslStop
  extract_lets -underBinder -merge -useContext +onlyGivenNames x
  have hx : P x := by
    subst x
    refine rsetFld_keeps hregs ?_
    refine drainState_keeps hregs ?_
    assumption
  clear_value x
  refine Keep.ite ?_ ?_
  · refine rset_keeps hregs ?_
    refine linkDown_keeps hregs husl heth hrtc hint hstl hout ?_
    assumption
  · assumption

theorem uslTrained_keeps (hregs : Keep.regs P) (husl : Keep.usl P) (heth : Keep.eth P) (hint : Keep.int P) (hstl : Keep.stl P) (hfree : Keep.free P) (hout : Keep.out P) {s : State} {n} {lanes} (h : P s) : P (uslTrained s n lanes) := by
  unfold uslTrained
  extract_lets -underBinder -merge -useContext +onlyGivenNames x
  clear_value x
  extract_lets -underBinder -merge -useContext +onlyGivenNames x
  clear_value x
  refine Keep.ite ?_ ?_
  · refine evt_keeps hregs heth hint hstl hout ?_
    refine drainState_keeps hregs ?_
    assumption
  · extract_lets -underBinder -merge -useContext +onlyGivenNames x
    have hx : P x := by
      subst x
      refine updUsl_keeps husl ?_
      assumption
    clear_value x
    extract_lets -underBinder -merge -useContext +onlyGivenNames x
    have hx : P x := by
      subst x
      refine rsetBit_keeps hregs ?_
      refine rsetFld_keeps hregs ?_
      refine setState_keeps hregs ?_
      assumption
    clear_value x
    extract_lets -underBinder -merge -useContext +onlyGivenNames x
    have hx : P x := by
      subst x
      refine bumpFree_keeps hfree ?_
      refine rset_keeps hregs ?_
      assumption
    clear_value x
    refine evt_keeps hregs heth hint hstl hout ?_
    assumption

theorem uslnCtlWrite_keeps (hregs : Keep.regs P) (husl : Keep.usl P) (heth : Keep.eth P) (hrtc : Keep.rtc P) (hint : Keep.int P) (hstl : Keep.stl P) (hout : Keep.out P) {n} {v} {s : State} (h : P s) : P (uslnCtlWrite n v s) := by
  unfold uslnCtlWrite
  extract_lets -underBinder -merge -useContext +onlyGivenNames x
  clear_value x
  extract_lets -underBinder -merge -useContext +onlyGivenNames x
  clear_value x
  refine enWritten_keeps ?_ ?_ ?_
  · refine rwrite_keeps hregs ?_
    assumption
  · intro _ _
    refine uslBegin_keeps hregs husl ?_
    assumption
  · intro _ _
    refine uslStop_keeps hregs husl heth hrtc hint hstl hout ?_
    assumption

theorem ethStop_keeps (hregs : Keep.regs P) (hholds : Keep.holds P) (heth : Keep.eth P) {s : State} {n} (h : P s) : P (ethStop s n) := by
  unfold ethStop
  refine laneDown_keeps hregs hholds heth ?_
  refine drainState_keeps hregs ?_
  assumption

theorem ethnCtlWrite_keeps (hregs : Keep.regs P) (hholds : Keep.holds P) (heth : Keep.eth P) {n} {v} {s : State} (h : P s) : P (ethnCtlWrite n v s) := by
  unfold ethnCtlWrite
  extract_lets -underBinder -merge -useContext +onlyGivenNames x
  clear_value x
  extract_lets -underBinder -merge -useContext +onlyGivenNames x
  clear_value x
  refine enWritten_keeps ?_ ?_ ?_
  · refine rwrite_keeps hregs ?_
    assumption
  · intro _ _
    refine setState_keeps hregs ?_
    assumption
  · intro _ _
    refine ethStop_keeps hregs hholds heth ?_
    assumption

theorem tmrBegin_keeps (hregs : Keep.regs P) (heth : Keep.eth P) (htmrs : Keep.tmrs P) (hint : Keep.int P) (hstl : Keep.stl P) (hout : Keep.out P) {s : State} {n} (h : P s) : P (tmrBegin s n) := by
  unfold tmrBegin
  refine tmrStart_keeps hregs heth htmrs hint hstl hout ?_
  refine setState_keeps hregs ?_
  assumption

theorem tmrnCtlWrite_keeps (hregs : Keep.regs P) (heth : Keep.eth P) (htmrs : Keep.tmrs P) (hint : Keep.int P) (hstl : Keep.stl P) (hout : Keep.out P) {n} {v} {s : State} (h : P s) : P (tmrnCtlWrite n v s) := by
  unfold tmrnCtlWrite
  extract_lets -underBinder -merge -useContext +onlyGivenNames x
  have hx : P x := by
    subst x
    refine rwrite_keeps hregs ?_
    assumption
  clear_value x
  refine Keep.ite ?_ ?_
  · assumption
  · refine enWritten_keeps ?_ ?_ ?_
    · assumption
    · intro _ _
      refine tmrBegin_keeps hregs heth htmrs hint hstl hout ?_
      assumption
    · intro _ _
      refine drainState_keeps hregs ?_
      assumption

theorem nfrBegin_keeps (hregs : Keep.regs P) {s : State} (h : P s) : P (nfrBegin s) := by
  unfold nfrBegin
  refine Keep.ite ?_ ?_
  · refine setState_keeps hregs ?_
    assumption
  · assumption

theorem nfrCtlWrite_keeps (hregs : Keep.regs P) (heth : Keep.eth P) (hint : Keep.int P) (hstl : Keep.stl P) (hreader : Keep.reader P) (hout : Keep.out P) {v} {s : State} (h : P s) : P (nfrCtlWrite v s) := by
  unfold nfrCtlWrite
  extract_lets -underBinder -merge -useContext +onlyGivenNames x
  have hx : P x := by
    subst x
    refine rwrite_keeps hregs ?_
    assumption
  clear_value x
  extract_lets -underBinder -merge -useContext +onlyGivenNames x
  have hx : P x := by
    subst x
    refine enWritten_keeps ?_ ?_ ?_
    · assumption
    · intro _ _
      refine nfrBegin_keeps hregs ?_
      assumption
    · intro _ _
      refine readerOff_keeps hregs heth hint hstl hreader hout ?_
      refine drainState_keeps hregs ?_
      assumption
  clear_value x
  refine Keep.ite ?_ ?_
  · refine readerReread_keeps hreader ?_
    assumption
  · assumption

theorem lnkDrained_keeps (hregs : Keep.regs P) (htime : Keep.time P) (hholds : Keep.holds P) (hlnk : Keep.lnk P) (hcores : Keep.cores P) (heth : Keep.eth P) (hint : Keep.int P) (hstl : Keep.stl P) (hout : Keep.out P) {s : State} (h : P s) : P (lnkDrained s) := by
  unfold lnkDrained
  refine Keep.ite ?_ ?_
  · assumption
  · extract_lets -underBinder -merge -useContext +onlyGivenNames x
    have hx : P x := by
      subst x
      refine reach_keeps htime ?_
      assumption
    clear_value x
    extract_lets -underBinder -merge -useContext +onlyGivenNames x
    have hx : P x := by
      subst x
      refine updLnk_keeps hlnk ?_
      assumption
    clear_value x
    extract_lets -underBinder -merge -useContext +onlyGivenNames x
    have hx : P x := by
      subst x
      refine Keep.foldl ?_ ?_
      · assumption
      · intro _ _ _
        refine reqEnd_keeps hregs hholds hlnk hcores ?_
        assumption
    clear_value x
    refine offOrAgain_keeps hregs ?_ ?_
    · assumption
    · intro _ _
      refine lnkBegin_keeps hregs hlnk heth hint hstl hout ?_
      assumption

theorem searchOn_keeps (hregs : Keep.regs P) (htime : Keep.time P) (hsearches : Keep.searches P) {s : State} {n} (h : P s) : P (searchOn s n) := by
  unfold searchOn
  split
  · refine Keep.ite ?_ ?_
    · extract_lets -underBinder -merge -useContext +onlyGivenNames x
      clear_value x
      refine State.updSearch_keeps hsearches ?_
      refine setState_keeps hregs ?_
      refine reach_keeps htime ?_
      assumption
    · assumption
  · assumption

theorem searchOff_keeps (hregs : Keep.regs P) (hsearches : Keep.searches P) (heth : Keep.eth P) (hint : Keep.int P) (hstl : Keep.stl P) (hout : Keep.out P) {s : State} {n} (h : P s) : P (searchOff s n) := by
  unfold searchOff
  refine Keep.ite ?_ ?_
  · refine offOrAgain_keeps hregs ?_ ?_
    · refine State.updSearch_keeps hsearches ?_
      assumption
    · intro _ _
      refine searchBegin_keeps hregs hsearches heth hint hstl hout ?_
      assumption
  · assumption

theorem blockWrite_keeps (hregs : Keep.regs P) (hmem : Keep.mem P) (hports : Keep.ports P) (hsheaves : Keep.sheaves P) (hsearches : Keep.searches P) (hgroups : Keep.groups P) (hframes : Keep.frames P) (hholds : Keep.holds P) (hwin : Keep.win P) (hlnk : Keep.lnk P) (hses : Keep.ses P) (hkey : Keep.key P) (hcores : Keep.cores P) (hsage : Keep.sage P) (husl : Keep.usl P) (heth : Keep.eth P) (hflt : Keep.flt P) (htmrs : Keep.tmrs P) (hrtc : Keep.rtc P) (hint : Keep.int P) (hstl : Keep.stl P) (hreader : Keep.reader P) (hfree : Keep.free P) (hout : Keep.out P) {b} {v} {s : State} (h : P s) : P (blockWrite b v s) := by
  unfold blockWrite
  split
  · refine prtCtlWrite_keeps hregs hports hsheaves hfree ?_
    assumption
  · refine shfCtlWrite_keeps hregs hports hsheaves hsearches hgroups hholds hlnk hcores heth hint hstl hfree hout ?_
    assumption
  · refine awnCtlWrite_keeps hregs hsearches heth hint hstl hout ?_
    assumption
  · refine hedCtlWrite_keeps hregs heth hint hstl hfree hout ?_
    assumption
  · refine lnkCtlWrite_keeps hregs hframes hholds hwin hlnk hcores hsage heth hflt hint hstl hout ?_
    assumption
  · refine tilCtlWrite_keeps hregs hmem hholds hwin hlnk hses hkey hcores hsage heth hflt hint hstl hfree hout ?_
    assumption
  · refine ethnCtlWrite_keeps hregs hholds heth ?_
    assumption
  · refine uslnCtlWrite_keeps hregs husl heth hrtc hint hstl hout ?_
    assumption
  · refine tmrnCtlWrite_keeps hregs heth htmrs hint hstl hout ?_
    assumption
  · refine nfrCtlWrite_keeps hregs heth hint hstl hreader hout ?_
    assumption

theorem blockStarted_keeps (hregs : Keep.regs P) (htime : Keep.time P) (htrans : Keep.trans P) (hports : Keep.ports P) (hsheaves : Keep.sheaves P) (hsearches : Keep.searches P) (hholds : Keep.holds P) (hwin : Keep.win P) (hlnk : Keep.lnk P) (hcores : Keep.cores P) (hsage : Keep.sage P) (husl : Keep.usl P) (heth : Keep.eth P) (hflt : Keep.flt P) (hint : Keep.int P) (hstl : Keep.stl P) (hreader : Keep.reader P) (hfree : Keep.free P) (hout : Keep.out P) {b} {lanes} {s : State} (h : P s) : P (blockStarted b lanes s) := by
  unfold blockStarted
  refine Keep.ite ?_ ?_
  · assumption
  · split
    · refine Keep.ite ?_ ?_
      · refine setState_keeps hregs ?_
        assumption
      · assumption
    · refine sheafOn_keeps hregs htrans hports hsheaves hwin hlnk heth hflt hint hstl hfree hout ?_
      assumption
    · refine searchOn_keeps hregs htime hsearches ?_
      assumption
    · refine Keep.ite ?_ ?_
      · assumption
      · refine setState_keeps hregs ?_
        assumption
    · refine lnkEnter_keeps hregs htime hlnk heth hint hstl hfree hout ?_
      assumption
    · refine tilOn_keeps hregs hholds hwin hcores hsage ?_
      assumption
    · refine setState_keeps hregs ?_
      assumption
    · refine uslTrained_keeps hregs husl heth hint hstl hfree hout ?_
      assumption
    · refine setState_keeps hregs ?_
      assumption
    · refine updReader_keeps hreader ?_
      refine rsetFld_keeps hregs ?_
      refine setState_keeps hregs ?_
      assumption

theorem blockDrained_keeps (hregs : Keep.regs P) (htime : Keep.time P) (hports : Keep.ports P) (hsheaves : Keep.sheaves P) (hsearches : Keep.searches P) (hholds : Keep.holds P) (hlnk : Keep.lnk P) (hcores : Keep.cores P) (husl : Keep.usl P) (heth : Keep.eth P) (htmrs : Keep.tmrs P) (hint : Keep.int P) (hstl : Keep.stl P) (hfree : Keep.free P) (hout : Keep.out P) {b} {s : State} (h : P s) : P (blockDrained b s) := by
  unfold blockDrained
  refine Keep.ite ?_ ?_
  · assumption
  · split
    · refine portDrained_keeps hregs hports hsheaves hfree ?_
      assumption
    · refine Keep.ite ?_ ?_
      · refine sheafOff_keeps hregs hports hsheaves heth hint hstl hout ?_
        assumption
      · assumption
    · refine searchOff_keeps hregs hsearches heth hint hstl hout ?_
      assumption
    · refine fltRefresh_keeps hregs ?_
      refine offOrAgain_keeps hregs ?_ ?_
      · refine rset_keeps hregs ?_
        assumption
      · intro _ _
        refine hedBegin_keeps hregs heth hint hstl hfree hout ?_
        assumption
    · refine lnkDrained_keeps hregs htime hholds hlnk hcores heth hint hstl hout ?_
      assumption
    · refine Keep.ite ?_ ?_
      · assumption
      · refine offOrAgain_keeps hregs ?_ ?_
        · assumption
        · intro _ _
          refine tilBegin_keeps hregs hcores ?_
          assumption
    · refine Keep.ite ?_ ?_
      · refine offOrAgain_keeps hregs ?_ ?_
        · assumption
        · intro _ _
          refine setState_keeps hregs ?_
          assumption
      · assumption
    · refine offOrAgain_keeps hregs ?_ ?_
      · assumption
      · intro _ _
        refine uslBegin_keeps hregs husl ?_
        assumption
    · refine offOrAgain_keeps hregs ?_ ?_
      · refine tmrOff_keeps htmrs ?_
        assumption
      · intro _ _
        refine tmrBegin_keeps hregs heth htmrs hint hstl hout ?_
        assumption
    · refine offOrAgain_keeps hregs ?_ ?_
      · assumption
      · intro _ _
        refine nfrBegin_keeps hregs ?_
        assumption

theorem execBlockEnable_keeps (hregs : Keep.regs P) (hmem : Keep.mem P) (hports : Keep.ports P) (hsheaves : Keep.sheaves P) (hsearches : Keep.searches P) (hgroups : Keep.groups P) (hframes : Keep.frames P) (hholds : Keep.holds P) (hwin : Keep.win P) (hlnk : Keep.lnk P) (hses : Keep.ses P) (hkey : Keep.key P) (hcores : Keep.cores P) (hsage : Keep.sage P) (husl : Keep.usl P) (heth : Keep.eth P) (hflt : Keep.flt P) (htmrs : Keep.tmrs P) (hrtc : Keep.rtc P) (hint : Keep.int P) (hstl : Keep.stl P) (hreader : Keep.reader P) (hfree : Keep.free P) (hout : Keep.out P) {x1} {b} {v} {s : State} (h : P s) {t : State} (e : execBlockEnable x1 b v s = .next t) : P t := by
  obtain rfl := Host.Outcome.next.inj e
  refine blockWrite_keeps hregs hmem hports hsheaves hsearches hgroups hframes hholds hwin hlnk hses hkey hcores hsage husl heth hflt htmrs hrtc hint hstl hreader hfree hout ?_
  assumption

theorem execBlockDisable_keeps (hregs : Keep.regs P) (hmem : Keep.mem P) (hports : Keep.ports P) (hsheaves : Keep.sheaves P) (hsearches : Keep.searches P) (hgroups : Keep.groups P) (hframes : Keep.frames P) (hholds : Keep.holds P) (hwin : Keep.win P) (hlnk : Keep.lnk P) (hses : Keep.ses P) (hkey : Keep.key P) (hcores : Keep.cores P) (hsage : Keep.sage P) (husl : Keep.usl P) (heth : Keep.eth P) (hflt : Keep.flt P) (htmrs : Keep.tmrs P) (hrtc : Keep.rtc P) (hint : Keep.int P) (hstl : Keep.stl P) (hreader : Keep.reader P) (hfree : Keep.free P) (hout : Keep.out P) {x1} {b} {v} {s : State} (h : P s) {t : State} (e : execBlockDisable x1 b v s = .next t) : P t := by
  obtain rfl := Host.Outcome.next.inj e
  refine blockWrite_keeps hregs hmem hports hsheaves hsearches hgroups hframes hholds hwin hlnk hses hkey hcores hsage husl heth hflt htmrs hrtc hint hstl hreader hfree hout ?_
  assumption

theorem execBlockStartComplete_keeps (hregs : Keep.regs P) (htime : Keep.time P) (htrans : Keep.trans P) (hports : Keep.ports P) (hsheaves : Keep.sheaves P) (hsearches : Keep.searches P) (hholds : Keep.holds P) (hwin : Keep.win P) (hlnk : Keep.lnk P) (hcores : Keep.cores P) (hsage : Keep.sage P) (husl : Keep.usl P) (heth : Keep.eth P) (hflt : Keep.flt P) (hint : Keep.int P) (hstl : Keep.stl P) (hreader : Keep.reader P) (hfree : Keep.free P) (hout : Keep.out P) {b} {lanes} {s : State} (h : P s) {t : State} (e : execBlockStartComplete b lanes s = .next t) : P t := by
  obtain rfl := Host.Outcome.next.inj e
  refine blockStarted_keeps hregs htime htrans hports hsheaves hsearches hholds hwin hlnk hcores hsage husl heth hflt hint hstl hreader hfree hout ?_
  assumption

theorem execBlockDrainComplete_keeps (hregs : Keep.regs P) (htime : Keep.time P) (hports : Keep.ports P) (hsheaves : Keep.sheaves P) (hsearches : Keep.searches P) (hholds : Keep.holds P) (hlnk : Keep.lnk P) (hcores : Keep.cores P) (husl : Keep.usl P) (heth : Keep.eth P) (htmrs : Keep.tmrs P) (hint : Keep.int P) (hstl : Keep.stl P) (hfree : Keep.free P) (hout : Keep.out P) {b} {s : State} (h : P s) {t : State} (e : execBlockDrainComplete b s = .next t) : P t := by
  obtain rfl := Host.Outcome.next.inj e
  refine blockDrained_keeps hregs htime hports hsheaves hsearches hholds hlnk hcores husl heth htmrs hint hstl hfree hout ?_
  assumption

theorem rejectTrials_keeps (hflash : Keep.flash P) {s : State} (h : P s) : P (rejectTrials s) := by
  unfold rejectTrials
  refine Keep.foldl ?_ ?_
  · assumption
  · intro _ _ _
    refine Keep.ite ?_ ?_
    · refine setMark_keeps hflash ?_
      assumption
    · assumption

theorem loadSection_keeps (hmem : Keep.mem P) (htlm : Keep.tlm P) (hflt : Keep.flt P) {s : State} {b} {c} (h : P s) : P (loadSection s b c) := by
  unfold loadSection
  extract_lets -underBinder -merge -useContext +onlyGivenNames x
  clear_value x
  refine Keep.ite ?_ ?_
  · dsimp -zeta only
    extract_lets -underBinder -merge -useContext +onlyGivenNames x
    have hx : P x := by
      subst x
      refine Keep.foldl ?_ ?_
      · assumption
      · intro _ _ _
        refine lset_keeps htlm ?_
        assumption
    clear_value x
    refine Keep.set_flt hflt ?_
    assumption
  · refine healRange_keeps hflt ?_
    refine msets_keeps hmem ?_
    assumption

theorem loadSections_keeps (hmem : Keep.mem P) (htlm : Keep.tlm P) (hflt : Keep.flt P) {s : State} {b} (h : P s) : P (loadSections s b) := by
  unfold loadSections
  refine Keep.foldl ?_ ?_
  · assumption
  · intro _ _ _
    refine loadSection_keeps hmem htlm hflt ?_
    assumption

theorem commitImageFence_keeps (hregs : Keep.regs P) (hfence : Keep.fence P) (heth : Keep.eth P) (hint : Keep.int P) (hstl : Keep.stl P) (hout : Keep.out P) {s : State} {b} (h : P s) : P (commitImageFence s b).2 := by
  unfold commitImageFence
  extract_lets -underBinder -merge -useContext +onlyGivenNames x
  have hx : P x := by
    subst x
    refine fenceCommit_keeps hregs hfence heth hint hstl hout ?_
    refine fenceStage_keeps hregs ?_
    assumption
  clear_value x
  dsimp -zeta only
  assumption

theorem stopTillers_keeps (hregs : Keep.regs P) (hmem : Keep.mem P) (hholds : Keep.holds P) (hwin : Keep.win P) (hlnk : Keep.lnk P) (hses : Keep.ses P) (hkey : Keep.key P) (hcores : Keep.cores P) (hsage : Keep.sage P) (heth : Keep.eth P) (hflt : Keep.flt P) (hint : Keep.int P) (hstl : Keep.stl P) (hfree : Keep.free P) (hout : Keep.out P) {s : State} (h : P s) : P (stopTillers s) := by
  unfold stopTillers
  refine Keep.foldl ?_ ?_
  · assumption
  · intro _ _ _
    extract_lets -underBinder -merge -useContext +onlyGivenNames x
    clear_value x
    refine Keep.ite ?_ ?_
    · refine tilStop_keeps hregs hmem hholds hwin hlnk hses hkey hcores hsage heth hflt hint hstl hfree hout ?_
      assumption
    · refine setEn_keeps hregs ?_
      assumption

theorem stopCrown_keeps (hregs : Keep.regs P) (hmem : Keep.mem P) (hholds : Keep.holds P) (hwin : Keep.win P) (hlnk : Keep.lnk P) (hses : Keep.ses P) (hkey : Keep.key P) (hcores : Keep.cores P) (hsage : Keep.sage P) (heth : Keep.eth P) (hflt : Keep.flt P) (hint : Keep.int P) (hstl : Keep.stl P) (hfree : Keep.free P) (hout : Keep.out P) {s : State} (h : P s) : P (stopCrown s) := by
  unfold stopCrown
  refine coreLeft_keeps hregs hmem hholds hwin hlnk hses hkey hcores hsage heth hflt hint hstl hfree hout ?_
  refine State.updCore_keeps hcores ?_
  assumption

theorem startCrown_keeps (hregs : Keep.regs P) (hholds : Keep.holds P) (hwin : Keep.win P) (hcores : Keep.cores P) (hsage : Keep.sage P) {s : State} {entry} (h : P s) : P (startCrown s entry) := by
  unfold startCrown
  extract_lets -underBinder -merge -useContext +onlyGivenNames x
  clear_value x
  extract_lets -underBinder -merge -useContext +onlyGivenNames x
  have hx : P x := by
    subst x
    refine State.updCore_keeps hcores ?_
    assumption
  clear_value x
  refine sagePump_keeps hholds hwin hcores hsage ?_
  refine rsetBit_keeps hregs ?_
  assumption

theorem pauseService_keeps (hregs : Keep.regs P) (hmem : Keep.mem P) (hholds : Keep.holds P) (hwin : Keep.win P) (hlnk : Keep.lnk P) (hses : Keep.ses P) (hkey : Keep.key P) (hcores : Keep.cores P) (hsage : Keep.sage P) (heth : Keep.eth P) (hflt : Keep.flt P) (hint : Keep.int P) (hstl : Keep.stl P) (hfree : Keep.free P) (hout : Keep.out P) {s : State} (h : P s) : P (pauseService s) := by
  unfold pauseService
  refine stopCrown_keeps hregs hmem hholds hwin hlnk hses hkey hcores hsage heth hflt hint hstl hfree hout ?_
  refine stopTillers_keeps hregs hmem hholds hwin hlnk hses hkey hcores hsage heth hflt hint hstl hfree hout ?_
  refine rset_keeps hregs ?_
  assumption

theorem setUpd_keeps (hregs : Keep.regs P) {s : State} {st} (h : P s) : P (setUpd s st) := by
  unfold setUpd
  refine rsetFld_keeps hregs ?_
  assumption

theorem updResult_keeps (hregs : Keep.regs P) {s : State} {r} (h : P s) : P (updResult s r) := by
  unfold updResult
  refine rset_keeps hregs ?_
  assumption

theorem applyEnd_keeps (hregs : Keep.regs P) (heth : Keep.eth P) (hint : Keep.int P) (hstl : Keep.stl P) (hupd : Keep.upd P) (hout : Keep.out P) {s : State} {r} (h : P s) : P (applyEnd s r) := by
  unfold applyEnd
  extract_lets -underBinder -merge -useContext +onlyGivenNames x
  clear_value x
  extract_lets -underBinder -merge -useContext +onlyGivenNames x
  have hx : P x := by
    subst x
    refine Keep.set_upd hupd ?_
    assumption
  clear_value x
  refine evt_keeps hregs heth hint hstl hout ?_
  refine setUpd_keeps hregs ?_
  refine updResult_keeps hregs ?_
  assumption

theorem applyBroken_keeps (hregs : Keep.regs P) (heth : Keep.eth P) (hflash : Keep.flash P) (hint : Keep.int P) (hstl : Keep.stl P) (hupd : Keep.upd P) (hfree : Keep.free P) (hout : Keep.out P) {s : State} {r} (h : P s) : P (applyBroken s r) := by
  unfold applyBroken
  refine applyEnd_keeps hregs heth hint hstl hupd hout ?_
  refine breakTarget_keeps hflash hfree ?_
  assumption

theorem updStart_keeps (hregs : Keep.regs P) (hflash : Keep.flash P) (hupd : Keep.upd P) {i} {lvl} {s : State} (h : P s) : P (updStart i lvl s) := by
  unfold updStart
  split
  · refine updResult_keeps hregs ?_
    assumption
  · extract_lets -underBinder -merge -useContext +onlyGivenNames x
    clear_value x
    extract_lets -underBinder -merge -useContext +onlyGivenNames x
    have hx : P x := by
      subst x
      refine flashErase_keeps hflash ?_
      assumption
    clear_value x
    extract_lets -underBinder -merge -useContext +onlyGivenNames x
    have hx : P x := by
      subst x
      refine rsetBit_keeps hregs ?_
      refine setUpd_keeps hregs ?_
      assumption
    clear_value x
    refine Keep.set_upd hupd ?_
    assumption

theorem updFeed_keeps (hupd : Keep.upd P) {i} {lvl} {s : State} (h : P s) : P (updFeed i lvl s) := by
  unfold updFeed
  refine Keep.ite ?_ ?_
  · refine Keep.set_upd hupd ?_
    assumption
  · assumption

theorem updActivate_keeps (hregs : Keep.regs P) (hmem : Keep.mem P) (hholds : Keep.holds P) (hwin : Keep.win P) (hlnk : Keep.lnk P) (hses : Keep.ses P) (hkey : Keep.key P) (hcores : Keep.cores P) (hsage : Keep.sage P) (heth : Keep.eth P) (hflash : Keep.flash P) (hflt : Keep.flt P) (hint : Keep.int P) (hstl : Keep.stl P) (hfree : Keep.free P) (hout : Keep.out P) {s : State} (h : P s) : P (updActivate s) := by
  unfold updActivate
  split
  · refine updResult_keeps hregs ?_
    assumption
  · refine Keep.ite ?_ ?_
    · refine updResult_keeps hregs ?_
      assumption
    · refine Keep.ite ?_ ?_
      · refine updResult_keeps hregs ?_
        assumption
      · refine pauseService_keeps hregs hmem hholds hwin hlnk hses hkey hcores hsage heth hflt hint hstl hfree hout ?_
        refine setUpd_keeps hregs ?_
        refine setMark_keeps hflash ?_
        assumption

theorem updAbort_keeps (hregs : Keep.regs P) (heth : Keep.eth P) (hflash : Keep.flash P) (hint : Keep.int P) (hstl : Keep.stl P) (hupd : Keep.upd P) (hfree : Keep.free P) (hout : Keep.out P) {s : State} (h : P s) : P (updAbort s) := by
  unfold updAbort
  refine Keep.ite ?_ ?_
  · refine applyBroken_keeps hregs heth hflash hint hstl hupd hfree hout ?_
    assumption
  · assumption

theorem updGo_keeps (hregs : Keep.regs P) (hmem : Keep.mem P) (hholds : Keep.holds P) (hwin : Keep.win P) (hlnk : Keep.lnk P) (hses : Keep.ses P) (hkey : Keep.key P) (hcores : Keep.cores P) (hsage : Keep.sage P) (heth : Keep.eth P) (hflash : Keep.flash P) (hflt : Keep.flt P) (hint : Keep.int P) (hstl : Keep.stl P) (hupd : Keep.upd P) (hfree : Keep.free P) (hout : Keep.out P) {i} {lvl} {v} {s : State} (h : P s) : P (updGo i lvl v s) := by
  unfold updGo
  extract_lets -underBinder -merge -useContext +onlyGivenNames x
  clear_value x
  refine Keep.ite ?_ ?_
  · assumption
  · refine Keep.ite ?_ ?_
    · refine updResult_keeps hregs ?_
      assumption
    · refine Keep.ite ?_ ?_
      · refine updStart_keeps hregs hflash hupd ?_
        assumption
      · refine Keep.ite ?_ ?_
        · refine updFeed_keeps hupd ?_
          assumption
        · refine Keep.ite ?_ ?_
          · refine updActivate_keeps hregs hmem hholds hwin hlnk hses hkey hcores hsage heth hflash hflt hint hstl hfree hout ?_
            assumption
          · refine updAbort_keeps hregs heth hflash hint hstl hupd hfree hout ?_
            assumption

theorem updConfirm_keeps (hregs : Keep.regs P) (hfuses : Keep.fuses P) (heth : Keep.eth P) (hflash : Keep.flash P) (hint : Keep.int P) (hstl : Keep.stl P) (hout : Keep.out P) {lvl} {v} {s : State} (h : P s) : P (updConfirm lvl v s) := by
  unfold updConfirm
  refine Keep.ite ?_ ?_
  · extract_lets -underBinder -merge -useContext +onlyGivenNames x
    clear_value x
    extract_lets -underBinder -merge -useContext +onlyGivenNames x
    have hx : P x := by
      subst x
      refine setMark_keeps hflash ?_
      assumption
    clear_value x
    extract_lets -underBinder -merge -useContext +onlyGivenNames x
    clear_value x
    extract_lets -underBinder -merge -useContext +onlyGivenNames x
    have hx : P x := by
      subst x
      refine Keep.set_fuses hfuses ?_
      assumption
    clear_value x
    refine evt_keeps hregs heth hint hstl hout ?_
    refine setUpd_keeps hregs ?_
    refine updResult_keeps hregs ?_
    assumption
  · assumption

theorem updWrite_keeps (hregs : Keep.regs P) (hstaged : Keep.staged P) (hmem : Keep.mem P) (hholds : Keep.holds P) (hwin : Keep.win P) (hlnk : Keep.lnk P) (hfuses : Keep.fuses P) (hses : Keep.ses P) (hkey : Keep.key P) (hcores : Keep.cores P) (hsage : Keep.sage P) (heth : Keep.eth P) (hflash : Keep.flash P) (hflt : Keep.flt P) (hint : Keep.int P) (hstl : Keep.stl P) (hupd : Keep.upd P) (hfree : Keep.free P) (hout : Keep.out P) {i} {lvl} {a} {v} {s : State} (h : P s) : P (updWrite i lvl a v s) := by
  unfold updWrite
  refine Keep.ite ?_ ?_
  · refine updGo_keeps hregs hmem hholds hwin hlnk hses hkey hcores hsage heth hflash hflt hint hstl hupd hfree hout ?_
    assumption
  · refine Keep.ite ?_ ?_
    · refine updConfirm_keeps hregs hfuses heth hflash hint hstl hout ?_
      assumption
    · refine Keep.ite ?_ ?_
      · refine groupWrite_keeps hregs hstaged ?_
        assumption
      · refine rwrite_keeps hregs ?_
        assumption

theorem deltaPut_keeps (hflash : Keep.flash P) (hupd : Keep.upd P) {s : State} {data} (h : P s) : P (deltaPut s data) := by
  unfold deltaPut
  extract_lets -underBinder -merge -useContext +onlyGivenNames x
  clear_value x
  extract_lets -underBinder -merge -useContext +onlyGivenNames x
  clear_value x
  extract_lets -underBinder -merge -useContext +onlyGivenNames x
  clear_value x
  extract_lets -underBinder -merge -useContext +onlyGivenNames x
  have hx : P x := by
    subst x
    refine Keep.foldl ?_ ?_
    · assumption
    · intro _ _ _
      refine flashErase_keeps hflash ?_
      assumption
  clear_value x
  extract_lets -underBinder -merge -useContext +onlyGivenNames x
  have hx : P x := by
    subst x
    refine flashPut_keeps hflash ?_
    assumption
  clear_value x
  refine Keep.set_upd hupd ?_
  assumption

theorem deltaRun_keeps (hregs : Keep.regs P) (heth : Keep.eth P) (hflash : Keep.flash P) (hint : Keep.int P) (hstl : Keep.stl P) (hupd : Keep.upd P) (hout : Keep.out P) {x1} {x2 : State} (h : P x2) : P (deltaRun x1 x2) := by
  induction x1 generalizing x2 with
  | zero =>
    unfold deltaRun
    assumption
  | succ n ih =>
    unfold deltaRun
    extract_lets -underBinder -merge -useContext +onlyGivenNames x
    clear_value x
    extract_lets -underBinder -merge -useContext +onlyGivenNames x
    clear_value x
    split
    · assumption
    · refine applyEnd_keeps hregs heth hint hstl hupd hout ?_
      assumption
    · refine ih ?_
      refine Keep.set_upd hupd ?_
      assumption
    · extract_lets -underBinder -merge -useContext +onlyGivenNames x
      have hx : P x := by
        subst x
        refine deltaPut_keeps hflash hupd ?_
        assumption
      clear_value x
      refine ih ?_
      refine Keep.set_upd hupd ?_
      assumption
    · refine Keep.set_upd hupd ?_
      assumption

theorem chunkTaken_keeps (hregs : Keep.regs P) (heth : Keep.eth P) (hflash : Keep.flash P) (hint : Keep.int P) (hstl : Keep.stl P) (hupd : Keep.upd P) (hout : Keep.out P) {s : State} {data} (h : P s) : P (chunkTaken s data) := by
  unfold chunkTaken
  extract_lets -underBinder -merge -useContext +onlyGivenNames x
  clear_value x
  extract_lets -underBinder -merge -useContext +onlyGivenNames x
  have hx : P x := by
    subst x
    refine Keep.set_upd hupd ?_
    assumption
  clear_value x
  refine evt_keeps hregs heth hint hstl hout ?_
  refine deltaRun_keeps hregs heth hflash hint hstl hupd hout ?_
  assumption

theorem applyCheck_keeps (hregs : Keep.regs P) (heth : Keep.eth P) (hint : Keep.int P) (hstl : Keep.stl P) (hupd : Keep.upd P) (hout : Keep.out P) {s : State} (h : P s) : P (applyCheck s) := by
  unfold applyCheck
  split
  · extract_lets -underBinder -merge -useContext +onlyGivenNames x
    clear_value x
    refine Keep.ite ?_ ?_
    · refine applyEnd_keeps hregs heth hint hstl hupd hout ?_
      assumption
    · refine Keep.ite ?_ ?_
      · refine applyEnd_keeps hregs heth hint hstl hupd hout ?_
        refine Keep.set_upd hupd ?_
        assumption
      · refine applyEnd_keeps hregs heth hint hstl hupd hout ?_
        assumption
  · assumption

theorem nameImage_keeps (hregs : Keep.regs P) (hboot : Keep.boot P) {s : State} {b} (h : P s) : P (nameImage s b) := by
  unfold nameImage
  extract_lets -underBinder -merge -useContext +onlyGivenNames x
  have hx : P x := by
    subst x
    refine rsetBit_keeps hregs ?_
    refine rsetBit_keeps hregs ?_
    assumption
  clear_value x
  refine Keep.set_boot hboot ?_
  assumption

theorem fallBack_keeps (hregs : Keep.regs P) (hflash : Keep.flash P) (hupd : Keep.upd P) {s : State} {cause} (h : P s) : P (fallBack s cause) := by
  unfold fallBack
  extract_lets -underBinder -merge -useContext +onlyGivenNames x
  have hx : P x := by
    subst x
    refine setUpd_keeps hregs ?_
    refine setMark_keeps hflash ?_
    assumption
  clear_value x
  refine Keep.set_upd hupd ?_
  assumption

theorem activationDone_keeps (hregs : Keep.regs P) (hmem : Keep.mem P) (htlm : Keep.tlm P) (hboot : Keep.boot P) (hholds : Keep.holds P) (hwin : Keep.win P) (hcores : Keep.cores P) (hfence : Keep.fence P) (hsage : Keep.sage P) (heth : Keep.eth P) (hflash : Keep.flash P) (hflt : Keep.flt P) (hint : Keep.int P) (hstl : Keep.stl P) (hupd : Keep.upd P) (hout : Keep.out P) {s : State} (h : P s) : P (activationDone s) := by
  unfold activationDone
  refine Keep.ite ?_ ?_
  · assumption
  · extract_lets -underBinder -merge -useContext +onlyGivenNames x
    clear_value x
    extract_lets -underBinder -merge -useContext +onlyGivenNames x
    have hx : P x := by
      subst x
      refine loadSections_keeps hmem htlm hflt ?_
      assumption
    clear_value x
    refine Keep.ite ?_ ?_
    · refine updResult_keeps hregs ?_
      refine fallBack_keeps hregs hflash hupd ?_
      assumption
    · split
      · refine updResult_keeps hregs ?_
        refine fallBack_keeps hregs hflash hupd ?_
        refine Keep.pat2 ?_ (by assumption)
        refine commitImageFence_keeps hregs hfence heth hint hstl hout ?_
        assumption
      · extract_lets -underBinder -merge -useContext +onlyGivenNames x
        have hx : P x := by
          subst x
          refine startCrown_keeps hregs hholds hwin hcores hsage ?_
          refine nameImage_keeps hregs hboot ?_
          refine Keep.pat2 ?_ (by assumption)
          refine commitImageFence_keeps hregs hfence heth hint hstl hout ?_
          assumption
        clear_value x
        extract_lets -underBinder -merge -useContext +onlyGivenNames x
        clear_value x
        extract_lets -underBinder -merge -useContext +onlyGivenNames x
        have hx : P x := by
          subst x
          refine Keep.set_upd hupd ?_
          assumption
        clear_value x
        refine setEvt_keeps hregs heth hint hstl hout ?_
        refine setUpd_keeps hregs ?_
        refine updResult_keeps hregs ?_
        assumption

theorem trialOver_keeps (hregs : Keep.regs P) (hmem : Keep.mem P) (htime : Keep.time P) (hholds : Keep.holds P) (hwin : Keep.win P) (hlnk : Keep.lnk P) (hses : Keep.ses P) (hkey : Keep.key P) (hcores : Keep.cores P) (hsage : Keep.sage P) (heth : Keep.eth P) (hflash : Keep.flash P) (hflt : Keep.flt P) (hint : Keep.int P) (hstl : Keep.stl P) (hupd : Keep.upd P) (hfree : Keep.free P) (hout : Keep.out P) {s : State} (h : P s) : P (trialOver s) := by
  unfold trialOver
  refine Keep.ite ?_ ?_
  · refine pauseService_keeps hregs hmem hholds hwin hlnk hses hkey hcores hsage heth hflt hint hstl hfree hout ?_
    refine fallBack_keeps hregs hflash hupd ?_
    refine reach_keeps htime ?_
    assumption
  · assumption

theorem fallBackDone_keeps (hregs : Keep.regs P) (hmem : Keep.mem P) (htlm : Keep.tlm P) (hboot : Keep.boot P) (hholds : Keep.holds P) (hwin : Keep.win P) (hcores : Keep.cores P) (hfence : Keep.fence P) (hsage : Keep.sage P) (heth : Keep.eth P) (hflt : Keep.flt P) (hint : Keep.int P) (hstl : Keep.stl P) (hout : Keep.out P) {s : State} (h : P s) : P (fallBackDone s) := by
  unfold fallBackDone
  refine Keep.ite ?_ ?_
  · assumption
  · extract_lets -underBinder -merge -useContext +onlyGivenNames x
    clear_value x
    extract_lets -underBinder -merge -useContext +onlyGivenNames x
    have hx : P x := by
      subst x
      refine commitImageFence_keeps hregs hfence heth hint hstl hout ?_
      refine loadSections_keeps hmem htlm hflt ?_
      assumption
    clear_value x
    extract_lets -underBinder -merge -useContext +onlyGivenNames x
    have hx : P x := by
      subst x
      refine startCrown_keeps hregs hholds hwin hcores hsage ?_
      refine nameImage_keeps hregs hboot ?_
      assumption
    clear_value x
    refine evt_keeps hregs heth hint hstl hout ?_
    refine setUpd_keeps hregs ?_
    refine updResult_keeps hregs ?_
    assumption

theorem execStart_keeps (hregs : Keep.regs P) (hmem : Keep.mem P) (hholds : Keep.holds P) (hwin : Keep.win P) (hlnk : Keep.lnk P) (hses : Keep.ses P) (hkey : Keep.key P) (hcores : Keep.cores P) (hsage : Keep.sage P) (heth : Keep.eth P) (hflash : Keep.flash P) (hflt : Keep.flt P) (hint : Keep.int P) (hstl : Keep.stl P) (hupd : Keep.upd P) (hfree : Keep.free P) (hout : Keep.out P) {i} {v} {s : State} (h : P s) {t : State} (e : execStart i v s = .next t) : P t := by
  obtain rfl := Host.Outcome.next.inj e
  refine updGo_keeps hregs hmem hholds hwin hlnk hses hkey hcores hsage heth hflash hflt hint hstl hupd hfree hout ?_
  assumption

theorem execFeed_keeps (hregs : Keep.regs P) (hmem : Keep.mem P) (hholds : Keep.holds P) (hwin : Keep.win P) (hlnk : Keep.lnk P) (hses : Keep.ses P) (hkey : Keep.key P) (hcores : Keep.cores P) (hsage : Keep.sage P) (heth : Keep.eth P) (hflash : Keep.flash P) (hflt : Keep.flt P) (hint : Keep.int P) (hstl : Keep.stl P) (hupd : Keep.upd P) (hfree : Keep.free P) (hout : Keep.out P) {i} {v} {s : State} (h : P s) {t : State} (e : execFeed i v s = .next t) : P t := by
  obtain rfl := Host.Outcome.next.inj e
  refine updGo_keeps hregs hmem hholds hwin hlnk hses hkey hcores hsage heth hflash hflt hint hstl hupd hfree hout ?_
  assumption

theorem execActivate_keeps (hregs : Keep.regs P) (hmem : Keep.mem P) (hholds : Keep.holds P) (hwin : Keep.win P) (hlnk : Keep.lnk P) (hses : Keep.ses P) (hkey : Keep.key P) (hcores : Keep.cores P) (hsage : Keep.sage P) (heth : Keep.eth P) (hflash : Keep.flash P) (hflt : Keep.flt P) (hint : Keep.int P) (hstl : Keep.stl P) (hupd : Keep.upd P) (hfree : Keep.free P) (hout : Keep.out P) {i} {v} {s : State} (h : P s) {t : State} (e : execActivate i v s = .next t) : P t := by
  obtain rfl := Host.Outcome.next.inj e
  refine updGo_keeps hregs hmem hholds hwin hlnk hses hkey hcores hsage heth hflash hflt hint hstl hupd hfree hout ?_
  assumption

theorem execAbort_keeps (hregs : Keep.regs P) (hmem : Keep.mem P) (hholds : Keep.holds P) (hwin : Keep.win P) (hlnk : Keep.lnk P) (hses : Keep.ses P) (hkey : Keep.key P) (hcores : Keep.cores P) (hsage : Keep.sage P) (heth : Keep.eth P) (hflash : Keep.flash P) (hflt : Keep.flt P) (hint : Keep.int P) (hstl : Keep.stl P) (hupd : Keep.upd P) (hfree : Keep.free P) (hout : Keep.out P) {i} {v} {s : State} (h : P s) {t : State} (e : execAbort i v s = .next t) : P t := by
  obtain rfl := Host.Outcome.next.inj e
  refine updGo_keeps hregs hmem hholds hwin hlnk hses hkey hcores hsage heth hflash hflt hint hstl hupd hfree hout ?_
  assumption

theorem execConfirm_keeps (hregs : Keep.regs P) (hstaged : Keep.staged P) (hmem : Keep.mem P) (hholds : Keep.holds P) (hwin : Keep.win P) (hlnk : Keep.lnk P) (hfuses : Keep.fuses P) (hses : Keep.ses P) (hkey : Keep.key P) (hcores : Keep.cores P) (hsage : Keep.sage P) (heth : Keep.eth P) (hflash : Keep.flash P) (hflt : Keep.flt P) (hint : Keep.int P) (hstl : Keep.stl P) (hupd : Keep.upd P) (hfree : Keep.free P) (hout : Keep.out P) {i} {v} {s : State} (h : P s) {t : State} (e : execConfirm i v s = .next t) : P t := by
  obtain rfl := Host.Outcome.next.inj e
  refine updWrite_keeps hregs hstaged hmem hholds hwin hlnk hfuses hses hkey hcores hsage heth hflash hflt hint hstl hupd hfree hout ?_
  assumption

theorem execApplyComplete_keeps (hregs : Keep.regs P) (heth : Keep.eth P) (hint : Keep.int P) (hstl : Keep.stl P) (hupd : Keep.upd P) (hout : Keep.out P) {s : State} (h : P s) {t : State} (e : execApplyComplete s = .next t) : P t := by
  obtain rfl := Host.Outcome.next.inj e
  refine applyCheck_keeps hregs heth hint hstl hupd hout ?_
  assumption

theorem execActivationComplete_keeps (hregs : Keep.regs P) (hmem : Keep.mem P) (htlm : Keep.tlm P) (hboot : Keep.boot P) (hholds : Keep.holds P) (hwin : Keep.win P) (hcores : Keep.cores P) (hfence : Keep.fence P) (hsage : Keep.sage P) (heth : Keep.eth P) (hflash : Keep.flash P) (hflt : Keep.flt P) (hint : Keep.int P) (hstl : Keep.stl P) (hupd : Keep.upd P) (hout : Keep.out P) {s : State} (h : P s) {t : State} (e : execActivationComplete s = .next t) : P t := by
  obtain rfl := Host.Outcome.next.inj e
  refine activationDone_keeps hregs hmem htlm hboot hholds hwin hcores hfence hsage heth hflash hflt hint hstl hupd hout ?_
  assumption

theorem execTrialDeadline_keeps (hregs : Keep.regs P) (hmem : Keep.mem P) (htime : Keep.time P) (hholds : Keep.holds P) (hwin : Keep.win P) (hlnk : Keep.lnk P) (hses : Keep.ses P) (hkey : Keep.key P) (hcores : Keep.cores P) (hsage : Keep.sage P) (heth : Keep.eth P) (hflash : Keep.flash P) (hflt : Keep.flt P) (hint : Keep.int P) (hstl : Keep.stl P) (hupd : Keep.upd P) (hfree : Keep.free P) (hout : Keep.out P) {s : State} (h : P s) {t : State} (e : execTrialDeadline s = .next t) : P t := by
  obtain rfl := Host.Outcome.next.inj e
  refine trialOver_keeps hregs hmem htime hholds hwin hlnk hses hkey hcores hsage heth hflash hflt hint hstl hupd hfree hout ?_
  assumption

theorem execFallbackComplete_keeps (hregs : Keep.regs P) (hmem : Keep.mem P) (htlm : Keep.tlm P) (hboot : Keep.boot P) (hholds : Keep.holds P) (hwin : Keep.win P) (hcores : Keep.cores P) (hfence : Keep.fence P) (hsage : Keep.sage P) (heth : Keep.eth P) (hflt : Keep.flt P) (hint : Keep.int P) (hstl : Keep.stl P) (hout : Keep.out P) {s : State} (h : P s) {t : State} (e : execFallbackComplete s = .next t) : P t := by
  obtain rfl := Host.Outcome.next.inj e
  refine fallBackDone_keeps hregs hmem htlm hboot hholds hwin hcores hfence hsage heth hflt hint hstl hout ?_
  assumption

theorem execMarginLow_keeps (hregs : Keep.regs P) (hpower : Keep.power P) (heth : Keep.eth P) (hflash : Keep.flash P) (hint : Keep.int P) (hstl : Keep.stl P) (hupd : Keep.upd P) (hfree : Keep.free P) (hout : Keep.out P) {s : State} (h : P s) {t : State} (e : execMarginLow s = .next t) : P t := by
  obtain rfl := Host.Outcome.next.inj e
  extract_lets -underBinder -merge -useContext +onlyGivenNames x
  clear_value x
  extract_lets -underBinder -merge -useContext +onlyGivenNames x
  have hx : P x := by
    subst x
    refine Keep.set_power hpower ?_
    assumption
  clear_value x
  refine Keep.ite ?_ ?_
  · refine applyBroken_keeps hregs heth hflash hint hstl hupd hfree hout ?_
    assumption
  · assumption

theorem execMarginClear_keeps (hpower : Keep.power P) {s : State} (h : P s) {t : State} (e : execMarginClear s = .next t) : P t := by
  obtain rfl := Host.Outcome.next.inj e
  refine Keep.set_power hpower ?_
  assumption

theorem dropTxreqs_keeps (hholds : Keep.holds P) (hcores : Keep.cores P) {s : State} {k} (h : P s) : P (dropTxreqs s k) := by
  unfold dropTxreqs
  extract_lets -underBinder -merge -useContext +onlyGivenNames x
  clear_value x
  extract_lets -underBinder -merge -useContext +onlyGivenNames x
  have hx : P x := by
    subst x
    refine Keep.foldl ?_ ?_
    · assumption
    · intro _ _ _
      split
      · refine release_keeps hholds ?_
        assumption
      · assumption
  clear_value x
  refine State.updCore_keeps hcores ?_
  assumption

theorem discardRequests_keeps (hholds : Keep.holds P) (hlnk : Keep.lnk P) (hcores : Keep.cores P) {s : State} (h : P s) : P (discardRequests s) := by
  unfold discardRequests
  extract_lets -underBinder -merge -useContext +onlyGivenNames x
  have hx : P x := by
    subst x
    refine Keep.foldl ?_ ?_
    · assumption
    · intro _ _ _
      refine dropTxreqs_keeps hholds hcores ?_
      assumption
  clear_value x
  extract_lets -underBinder -merge -useContext +onlyGivenNames x
  clear_value x
  extract_lets -underBinder -merge -useContext +onlyGivenNames x
  have hx : P x := by
    subst x
    refine Keep.foldl ?_ ?_
    · assumption
    · intro _ _ _
      split
      · refine release_keeps hholds ?_
        assumption
      · assumption
  clear_value x
  refine updLnk_keeps hlnk ?_
  assumption

theorem sheafTransit_keeps (hregs : Keep.regs P) (hports : Keep.ports P) (hsheaves : Keep.sheaves P) (hsearches : Keep.searches P) (hgroups : Keep.groups P) (hholds : Keep.holds P) (hlnk : Keep.lnk P) (hcores : Keep.cores P) (heth : Keep.eth P) (hint : Keep.int P) (hstl : Keep.stl P) (hfree : Keep.free P) (hout : Keep.out P) {restart} {s : State} {n} (h : P s) : P (sheafTransit restart s n) := by
  unfold sheafTransit
  extract_lets -underBinder -merge -useContext +onlyGivenNames x
  clear_value x
  extract_lets -underBinder -merge -useContext +onlyGivenNames x
  clear_value x
  extract_lets -underBinder -merge -useContext +onlyGivenNames x
  have hx : P x := by
    subst x
    refine Keep.ite ?_ ?_
    · refine sheafStop_keeps hregs hports hsheaves hsearches hgroups hholds hlnk hcores heth hint hstl hfree hout ?_
      assumption
    · assumption
  clear_value x
  refine Keep.ite ?_ ?_
  · refine setEn_keeps hregs ?_
    assumption
  · refine Keep.ite ?_ ?_
    · refine sheafBegin_keeps hregs hports hsheaves heth hint hstl hout ?_
      refine setEn_keeps hregs ?_
      assumption
    · refine setEn_keeps hregs ?_
      assumption

theorem stopLanes_keeps (hregs : Keep.regs P) (hholds : Keep.holds P) (heth : Keep.eth P) {s : State} (h : P s) : P (stopLanes s) := by
  unfold stopLanes
  refine Keep.foldl ?_ ?_
  · assumption
  · intro _ _ _
    extract_lets -underBinder -merge -useContext +onlyGivenNames x
    clear_value x
    refine Keep.ite ?_ ?_
    · refine ethStop_keeps hregs hholds heth ?_
      assumption
    · refine setEn_keeps hregs ?_
      assumption

theorem startLanes_keeps (hregs : Keep.regs P) {s : State} (h : P s) : P (startLanes s) := by
  unfold startLanes
  refine Keep.foldl ?_ ?_
  · assumption
  · intro _ _ _
    extract_lets -underBinder -merge -useContext +onlyGivenNames x
    clear_value x
    extract_lets -underBinder -merge -useContext +onlyGivenNames x
    have hx : P x := by
      subst x
      refine setEn_keeps hregs ?_
      assumption
    clear_value x
    refine Keep.ite ?_ ?_
    · refine setState_keeps hregs ?_
      assumption
    · assumption

theorem modeAccept_keeps (hregs : Keep.regs P) (hmem : Keep.mem P) (htrans : Keep.trans P) (hports : Keep.ports P) (hsheaves : Keep.sheaves P) (hsearches : Keep.searches P) (hgroups : Keep.groups P) (hholds : Keep.holds P) (hwin : Keep.win P) (hlnk : Keep.lnk P) (hses : Keep.ses P) (hkey : Keep.key P) (hcores : Keep.cores P) (hsage : Keep.sage P) (husl : Keep.usl P) (heth : Keep.eth P) (hflt : Keep.flt P) (hint : Keep.int P) (hstl : Keep.stl P) (hfree : Keep.free P) (hout : Keep.out P) {s : State} {t1} {init} (h : P s) : P (modeAccept s t1 init) := by
  unfold modeAccept
  extract_lets -underBinder -merge -useContext +onlyGivenNames x
  clear_value x
  extract_lets -underBinder -merge -useContext +onlyGivenNames x
  clear_value x
  extract_lets -underBinder -merge -useContext +onlyGivenNames x
  have hx : P x := by
    subst x
    refine Keep.ite ?_ ?_
    · refine memberHands_keeps hregs hsage husl heth hint hstl hfree hout ?_
      assumption
    · assumption
  clear_value x
  extract_lets -underBinder -merge -useContext +onlyGivenNames x
  have hx : P x := by
    subst x
    refine rsetBit_keeps hregs ?_
    refine rsetFld_keeps hregs ?_
    assumption
  clear_value x
  extract_lets -underBinder -merge -useContext +onlyGivenNames x
  have hx : P x := by
    subst x
    refine Keep.set_trans htrans ?_
    assumption
  clear_value x
  extract_lets -underBinder -merge -useContext +onlyGivenNames x
  have hx : P x := by
    subst x
    refine pauseService_keeps hregs hmem hholds hwin hlnk hses hkey hcores hsage heth hflt hint hstl hfree hout ?_
    assumption
  clear_value x
  extract_lets -underBinder -merge -useContext +onlyGivenNames x
  have hx : P x := by
    subst x
    refine Keep.ite ?_ ?_
    · assumption
    · refine stopLanes_keeps hregs hholds heth ?_
      assumption
  clear_value x
  extract_lets -underBinder -merge -useContext +onlyGivenNames x
  have hx : P x := by
    subst x
    refine Keep.ite ?_ ?_
    · refine Keep.foldl ?_ ?_
      · assumption
      · intro _ _ _
        refine sheafTransit_keeps hregs hports hsheaves hsearches hgroups hholds hlnk hcores heth hint hstl hfree hout ?_
        assumption
    · assumption
  clear_value x
  extract_lets -underBinder -merge -useContext +onlyGivenNames x
  have hx : P x := by
    subst x
    refine Keep.ite ?_ ?_
    · refine discardRequests_keeps hholds hlnk hcores ?_
      assumption
    · assumption
  clear_value x
  refine Keep.ite ?_ ?_
  · refine winStop_keeps hregs hwin ?_
    assumption
  · assumption

theorem modeRecord_keeps (hregs : Keep.regs P) {s : State} {i} {lvl} {v} (h : P s) : P (modeRecord s i lvl v) := by
  unfold modeRecord
  refine rsetFld_keeps hregs ?_
  refine rsetFld_keeps hregs ?_
  refine rsetFld_keeps hregs ?_
  assumption

theorem modeJudge_keeps (hregs : Keep.regs P) (hmem : Keep.mem P) (htrans : Keep.trans P) (hports : Keep.ports P) (hsheaves : Keep.sheaves P) (hsearches : Keep.searches P) (hgroups : Keep.groups P) (hholds : Keep.holds P) (hwin : Keep.win P) (hlnk : Keep.lnk P) (hses : Keep.ses P) (hkey : Keep.key P) (hcores : Keep.cores P) (hsage : Keep.sage P) (husl : Keep.usl P) (heth : Keep.eth P) (hflt : Keep.flt P) (hint : Keep.int P) (hstl : Keep.stl P) (hfree : Keep.free P) (hout : Keep.out P) {i} {lvl} {v} {s : State} (h : P s) : P (modeJudge i lvl v s) := by
  unfold modeJudge
  extract_lets -underBinder -merge -useContext +onlyGivenNames x
  have hx : P x := by
    subst x
    refine modeRecord_keeps hregs ?_
    assumption
  clear_value x
  split
  · refine rsetBit_keeps hregs ?_
    refine rsetFld_keeps hregs ?_
    assumption
  · refine modeAccept_keeps hregs hmem htrans hports hsheaves hsearches hgroups hholds hwin hlnk hses hkey hcores hsage husl heth hflt hint hstl hfree hout ?_
    assumption

theorem modeWrites_keeps (hregs : Keep.regs P) (hmem : Keep.mem P) (htrans : Keep.trans P) (hports : Keep.ports P) (hsheaves : Keep.sheaves P) (hsearches : Keep.searches P) (hgroups : Keep.groups P) (hholds : Keep.holds P) (hwin : Keep.win P) (hlnk : Keep.lnk P) (hses : Keep.ses P) (hkey : Keep.key P) (hcores : Keep.cores P) (hsage : Keep.sage P) (husl : Keep.usl P) (heth : Keep.eth P) (hflt : Keep.flt P) (hint : Keep.int P) (hstl : Keep.stl P) (hfree : Keep.free P) (hout : Keep.out P) {l} {s : State} (h : P s) : P (modeWrites l s) := by
  unfold modeWrites
  extract_lets -underBinder -merge -useContext +onlyGivenNames x
  clear_value x
  split
  · extract_lets -underBinder -merge -useContext +onlyGivenNames x
    have hx : P x := by
      subst x
      refine Keep.ite ?_ ?_
      · refine rsetBit_keeps hregs ?_
        assumption
      · assumption
    clear_value x
    refine modeJudge_keeps hregs hmem htrans hports hsheaves hsearches hgroups hholds hwin hlnk hses hkey hcores hsage husl heth hflt hint hstl hfree hout ?_
    assumption
  · assumption

theorem modeDone_keeps (hregs : Keep.regs P) (htrans : Keep.trans P) (hholds : Keep.holds P) (hwin : Keep.win P) (hcores : Keep.cores P) (hsage : Keep.sage P) {s : State} (h : P s) : P (modeDone s) := by
  unfold modeDone
  split
  · assumption
  · refine Keep.ite ?_ ?_
    · assumption
    · extract_lets -underBinder -merge -useContext +onlyGivenNames x
      clear_value x
      extract_lets -underBinder -merge -useContext +onlyGivenNames x
      have hx : P x := by
        subst x
        refine rset_keeps hregs ?_
        assumption
      clear_value x
      extract_lets -underBinder -merge -useContext +onlyGivenNames x
      have hx : P x := by
        subst x
        refine rsetBit_keeps hregs ?_
        refine rsetFld_keeps hregs ?_
        assumption
      clear_value x
      extract_lets -underBinder -merge -useContext +onlyGivenNames x
      have hx : P x := by
        subst x
        refine startCrown_keeps hregs hholds hwin hcores hsage ?_
        refine Keep.set_trans htrans ?_
        assumption
      clear_value x
      refine Keep.ite ?_ ?_
      · refine startLanes_keeps hregs ?_
        assumption
      · assumption

theorem execModeRequest_keeps (hregs : Keep.regs P) (hmem : Keep.mem P) (htrans : Keep.trans P) (hports : Keep.ports P) (hsheaves : Keep.sheaves P) (hsearches : Keep.searches P) (hgroups : Keep.groups P) (hholds : Keep.holds P) (hwin : Keep.win P) (hlnk : Keep.lnk P) (hses : Keep.ses P) (hkey : Keep.key P) (hcores : Keep.cores P) (hsage : Keep.sage P) (husl : Keep.usl P) (heth : Keep.eth P) (hflt : Keep.flt P) (hint : Keep.int P) (hstl : Keep.stl P) (hfree : Keep.free P) (hout : Keep.out P) {writes} {s : State} (h : P s) {t : State} (e : execModeRequest writes s = .next t) : P t := by
  obtain rfl := Host.Outcome.next.inj e
  refine modeWrites_keeps hregs hmem htrans hports hsheaves hsearches hgroups hholds hwin hlnk hses hkey hcores hsage husl heth hflt hint hstl hfree hout ?_
  assumption

theorem execModeTransitionComplete_keeps (hregs : Keep.regs P) (htrans : Keep.trans P) (hholds : Keep.holds P) (hwin : Keep.win P) (hcores : Keep.cores P) (hsage : Keep.sage P) {s : State} (h : P s) {t : State} (e : execModeTransitionComplete s = .next t) : P t := by
  obtain rfl := Host.Outcome.next.inj e
  refine modeDone_keeps hregs htrans hholds hwin hcores hsage ?_
  assumption

theorem bootStep_keeps (hboot : Keep.boot P) {s : State} {k} (h : P s) : P (bootStep s k) := by
  unfold bootStep
  refine Keep.set_boot hboot ?_
  assumption

theorem bootClocks_keeps (htime : Keep.time P) (hboot : Keep.boot P) (hsamplePhase : Keep.samplePhase P) (hcores : Keep.cores P) (hfree : Keep.free P) {s : State} (h : P s) : P (bootClocks s) := by
  unfold bootClocks
  extract_lets -underBinder -merge -useContext +onlyGivenNames x
  clear_value x
  extract_lets -underBinder -merge -useContext +onlyGivenNames x
  clear_value x
  refine bootStep_keeps hboot ?_
  refine bumpFree_keeps hfree ?_
  refine Keep.set_time_samplePhase_cores htime hsamplePhase hcores ?_
  assumption

theorem bootZeroise_keeps (hmem : Keep.mem P) (htlm : Keep.tlm P) (hboot : Keep.boot P) (hflt : Keep.flt P) {s : State} (h : P s) : P (bootZeroise s) := by
  unfold bootZeroise
  refine bootStep_keeps hboot ?_
  refine Keep.set_mem_tlm_boot_flt hmem htlm hboot hflt ?_ ?_ ?_
  · assumption
  · exact fun _ => rfl
  · exact fun _ => rfl

theorem loadMirrors_keeps (hregs : Keep.regs P) {s : State} (h : P s) : P (loadMirrors s) := by
  unfold loadMirrors
  extract_lets -underBinder -merge -useContext +onlyGivenNames x
  clear_value x
  extract_lets -underBinder -merge -useContext +onlyGivenNames x
  subst x
  extract_lets -underBinder -merge -useContext +onlyGivenNames x
  have hx : P x := by
    subst x
    refine rsetGroup_keeps hregs ?_
    assumption
  clear_value x
  extract_lets -underBinder -merge -useContext +onlyGivenNames x
  have hx : P x := by
    subst x
    refine rset_keeps hregs ?_
    assumption
  clear_value x
  extract_lets -underBinder -merge -useContext +onlyGivenNames x
  have hx : P x := by
    subst x
    refine rset_keeps hregs ?_
    refine rset_keeps hregs ?_
    assumption
  clear_value x
  extract_lets -underBinder -merge -useContext +onlyGivenNames x
  have hx : P x := by
    subst x
    refine rset_keeps hregs ?_
    assumption
  clear_value x
  extract_lets -underBinder -merge -useContext +onlyGivenNames x
  have hx : P x := by
    subst x
    refine rsetFld_keeps hregs ?_
    assumption
  clear_value x
  dsimp -zeta only
  refine Keep.foldl ?_ ?_
  · refine Keep.foldl ?_ ?_
    · assumption
    · intro _ _ _
      refine rset_keeps hregs ?_
      assumption
  · intro _ _ _
    refine rset_keeps hregs ?_
    assumption

theorem loadProfile_keeps (hregs : Keep.regs P) {s : State} (h : P s) : P (loadProfile s) := by
  unfold loadProfile
  split
  · extract_lets -underBinder -merge -useContext +onlyGivenNames x
    have hx : P x := by
      subst x
      refine Keep.foldl ?_ ?_
      · assumption
      · intro _ _ _
        refine rset_keeps hregs ?_
        assumption
    clear_value x
    extract_lets -underBinder -merge -useContext +onlyGivenNames x
    have hx : P x := by
      subst x
      refine rsetFld_keeps hregs ?_
      assumption
    clear_value x
    refine Keep.foldl ?_ ?_
    · refine rsetFld_keeps hregs ?_
      assumption
    · intro _ _ _
      refine gainRefresh_keeps hregs ?_
      assumption
  · assumption

theorem identCommits_keeps (htag : Keep.tag P) {s : State} (h : P s) : P (identCommits s) := by
  unfold identCommits
  extract_lets -underBinder -merge -useContext +onlyGivenNames x
  clear_value x
  refine Keep.foldl ?_ ?_
  · assumption
  · intro _ _ _
    extract_lets -underBinder -merge -useContext +onlyGivenNames x
    clear_value x
    refine Keep.ite ?_ ?_
    · assumption
    · refine askCommit_keeps htag ?_
      assumption

theorem drawSeed_keeps (hwin : Keep.win P) (hses : Keep.ses P) (hfree : Keep.free P) {s : State} (h : P s) : P (drawSeed s) := by
  unfold drawSeed
  extract_lets -underBinder -merge -useContext +onlyGivenNames x
  clear_value x
  refine bumpFree_keeps hfree ?_
  refine Keep.set_win_ses hwin hses ?_
  assumption

theorem bootErr_keeps (hregs : Keep.regs P) {s : State} {e1} (h : P s) : P (bootErr s e1) := by
  unfold bootErr
  refine rsetFld_keeps hregs ?_
  assumption

theorem readerStart_keeps (hregs : Keep.regs P) {s : State} (h : P s) : P (readerStart s) := by
  unfold readerStart
  refine Keep.ite ?_ ?_
  · refine nfrBegin_keeps hregs ?_
    assumption
  · assumption

theorem bootFuses_keeps (hregs : Keep.regs P) (hboot : Keep.boot P) (hwin : Keep.win P) (hses : Keep.ses P) (hfence : Keep.fence P) (heth : Keep.eth P) (hint : Keep.int P) (hstl : Keep.stl P) (htag : Keep.tag P) (hfree : Keep.free P) (hout : Keep.out P) {s : State} (h : P s) : P (bootFuses s) := by
  unfold bootFuses
  extract_lets -underBinder -merge -useContext +onlyGivenNames x
  have hx : P x := by
    subst x
    refine bootStep_keeps hboot ?_
    refine fenceCommit_keeps hregs hfence heth hint hstl hout ?_
    refine fenceStage_keeps hregs ?_
    assumption
  clear_value x
  refine Keep.ite ?_ ?_
  · extract_lets -underBinder -merge -useContext +onlyGivenNames x
    have hx : P x := by
      subst x
      refine bootErr_keeps hregs ?_
      refine readerStart_keeps hregs ?_
      assumption
    clear_value x
    refine Keep.set_boot hboot ?_
    assumption
  · extract_lets -underBinder -merge -useContext +onlyGivenNames x
    have hx : P x := by
      subst x
      refine identCommits_keeps htag ?_
      refine loadProfile_keeps hregs ?_
      refine loadMirrors_keeps hregs ?_
      refine drawSeed_keeps hwin hses hfree ?_
      assumption
    clear_value x
    extract_lets -underBinder -merge -useContext +onlyGivenNames x
    clear_value x
    refine readerStart_keeps hregs ?_
    refine Keep.ite ?_ ?_
    · refine bootErr_keeps hregs ?_
      assumption
    · assumption

theorem tryBank_keeps (hregs : Keep.regs P) (hmem : Keep.mem P) (htlm : Keep.tlm P) (hfence : Keep.fence P) (heth : Keep.eth P) (hflt : Keep.flt P) (hint : Keep.int P) (hstl : Keep.stl P) (hout : Keep.out P) {s : State} {b} (h : P s) : P (tryBank s b).2 := by
  unfold tryBank
  split
  · dsimp -zeta only
    assumption
  · extract_lets -underBinder -merge -useContext +onlyGivenNames x
    have hx : P x := by
      subst x
      refine loadSections_keeps hmem htlm hflt ?_
      assumption
    clear_value x
    split
    · refine commitImageFence_keeps hregs hfence heth hint hstl hout ?_
      assumption
    · dsimp -zeta only
      assumption

theorem bootBank_keeps (hregs : Keep.regs P) (hmem : Keep.mem P) (htlm : Keep.tlm P) (hfence : Keep.fence P) (heth : Keep.eth P) (hflt : Keep.flt P) (hint : Keep.int P) (hstl : Keep.stl P) (hout : Keep.out P) {s : State} (h : P s) : P (bootBank s).2 := by
  unfold bootBank
  split
  · dsimp -zeta only
    assumption
  · split
    · dsimp -zeta only
      refine Keep.pat2 ?_ (by assumption)
      refine tryBank_keeps hregs hmem htlm hfence heth hflt hint hstl hout ?_
      assumption
    · extract_lets -underBinder -merge -useContext +onlyGivenNames x
      clear_value x
      split
      · dsimp -zeta only
        refine Keep.pat2 ?_ (by assumption)
        refine tryBank_keeps hregs hmem htlm hfence heth hflt hint hstl hout ?_
        assumption
      · split
        · dsimp -zeta only
          refine Keep.pat2 ?_ (by assumption)
          refine tryBank_keeps hregs hmem htlm hfence heth hflt hint hstl hout ?_
          refine bootErr_keeps hregs ?_
          refine Keep.pat2 ?_ (by assumption)
          refine tryBank_keeps hregs hmem htlm hfence heth hflt hint hstl hout ?_
          assumption
        · dsimp -zeta only
          refine Keep.pat2 ?_ (by assumption)
          refine tryBank_keeps hregs hmem htlm hfence heth hflt hint hstl hout ?_
          refine bootErr_keeps hregs ?_
          refine Keep.pat2 ?_ (by assumption)
          refine tryBank_keeps hregs hmem htlm hfence heth hflt hint hstl hout ?_
          assumption

theorem loadBootcfg_keeps (hregs : Keep.regs P) (hboot : Keep.boot P) {s : State} {b} (h : P s) : P (loadBootcfg s b) := by
  unfold loadBootcfg
  refine Keep.ite ?_ ?_
  · extract_lets -underBinder -merge -useContext +onlyGivenNames x
    have hx : P x := by
      subst x
      refine rset_keeps hregs ?_
      assumption
    clear_value x
    refine Keep.set_boot hboot ?_
    assumption
  · assumption

theorem bootImage_keeps (hregs : Keep.regs P) (hmem : Keep.mem P) (htlm : Keep.tlm P) (hboot : Keep.boot P) (hfence : Keep.fence P) (heth : Keep.eth P) (hflash : Keep.flash P) (hflt : Keep.flt P) (hint : Keep.int P) (hstl : Keep.stl P) (hout : Keep.out P) {s : State} (h : P s) : P (bootImage s) := by
  unfold bootImage
  refine Keep.ite ?_ ?_
  · refine enterProvision_keeps hregs hboot hfence heth hint hstl hout ?_
    assumption
  · extract_lets -underBinder -merge -useContext +onlyGivenNames x
    have hx : P x := by
      subst x
      refine rejectTrials_keeps hflash ?_
      assumption
    clear_value x
    extract_lets -underBinder -merge -useContext +onlyGivenNames x
    have hx : P x := by
      subst x
      refine rset_keeps hregs ?_
      refine rsetFld_keeps hregs ?_
      assumption
    clear_value x
    split
    · refine enterProvision_keeps hregs hboot hfence heth hint hstl hout ?_
      refine Keep.pat2 ?_ (by assumption)
      refine bootBank_keeps hregs hmem htlm hfence heth hflt hint hstl hout ?_
      assumption
    · extract_lets -underBinder -merge -useContext +onlyGivenNames x
      have hx : P x := by
        subst x
        refine bootStep_keeps hboot ?_
        refine loadBootcfg_keeps hregs hboot ?_
        refine nameImage_keeps hregs hboot ?_
        refine Keep.pat2 ?_ (by assumption)
        refine bootBank_keeps hregs hmem htlm hfence heth hflt hint hstl hout ?_
        assumption
      clear_value x
      refine Keep.ite ?_ ?_
      · refine rsetBit_keeps hregs ?_
        assumption
      · refine leaveHold_keeps hregs hboot hfence heth hint hstl hout ?_
        assumption

theorem bootArm_keeps (hregs : Keep.regs P) (hpower : Keep.power P) (hboot : Keep.boot P) {s : State} (h : P s) : P (bootArm s) := by
  unfold bootArm
  extract_lets -underBinder -merge -useContext +onlyGivenNames x
  have hx : P x := by
    subst x
    refine rsetBit_keeps hregs ?_
    assumption
  clear_value x
  refine bootStep_keeps hboot ?_
  refine Keep.set_power hpower ?_
  assumption

theorem radioStart_keeps (hregs : Keep.regs P) (hboot : Keep.boot P) (hports : Keep.ports P) (hsheaves : Keep.sheaves P) (hsearches : Keep.searches P) (hgroups : Keep.groups P) (hholds : Keep.holds P) (hwin : Keep.win P) (hlnk : Keep.lnk P) (hcores : Keep.cores P) (heth : Keep.eth P) (hint : Keep.int P) (hstl : Keep.stl P) (hfree : Keep.free P) (hout : Keep.out P) {s : State} (h : P s) : P (radioStart s) := by
  unfold radioStart
  refine Keep.ite ?_ ?_
  · assumption
  · extract_lets -underBinder -merge -useContext +onlyGivenNames x
    clear_value x
    extract_lets -underBinder -merge -useContext +onlyGivenNames x
    have hx : P x := by
      subst x
      refine Keep.set_boot hboot ?_
      assumption
    clear_value x
    extract_lets -underBinder -merge -useContext +onlyGivenNames x
    have hx : P x := by
      subst x
      refine Keep.foldl ?_ ?_
      · assumption
      · intro _ _ _
        refine shfCtlWrite_keeps hregs hports hsheaves hsearches hgroups hholds hlnk hcores heth hint hstl hfree hout ?_
        assumption
    clear_value x
    extract_lets -underBinder -merge -useContext +onlyGivenNames x
    have hx : P x := by
      subst x
      refine Keep.foldl ?_ ?_
      · assumption
      · intro _ _ _
        refine prtCtlWrite_keeps hregs hports hsheaves hfree ?_
        assumption
    clear_value x
    extract_lets -underBinder -merge -useContext +onlyGivenNames x
    have hx : P x := by
      subst x
      refine Keep.foldl ?_ ?_
      · assumption
      · intro _ _ _
        refine awnCtlWrite_keeps hregs hsearches heth hint hstl hout ?_
        assumption
    clear_value x
    refine winStart_keeps hregs hwin heth hint hstl hout ?_
    assumption

theorem stepEight_keeps (hregs : Keep.regs P) (hboot : Keep.boot P) {s : State} (h : P s) : P (stepEight s) := by
  unfold stepEight
  refine bootStep_keeps hboot ?_
  refine rsetBit_keeps hregs ?_
  assumption

theorem bootTarget_keeps (hregs : Keep.regs P) (hmem : Keep.mem P) (hboot : Keep.boot P) (hholds : Keep.holds P) (hwin : Keep.win P) (hlnk : Keep.lnk P) (hses : Keep.ses P) (hkey : Keep.key P) (hcores : Keep.cores P) (hfence : Keep.fence P) (hsage : Keep.sage P) (heth : Keep.eth P) (hflt : Keep.flt P) (hint : Keep.int P) (hstl : Keep.stl P) (hfree : Keep.free P) (hout : Keep.out P) {s : State} (h : P s) : P (bootTarget s) := by
  unfold bootTarget
  extract_lets -underBinder -merge -useContext +onlyGivenNames x
  clear_value x
  extract_lets -underBinder -merge -useContext +onlyGivenNames x
  have hx : P x := by
    subst x
    refine bootStep_keeps hboot ?_
    refine rset_keeps hregs ?_
    assumption
  clear_value x
  refine Keep.ite ?_ ?_
  · refine fenceCommit_keeps hregs hfence heth hint hstl hout ?_
    refine fenceStage_keeps hregs ?_
    assumption
  · refine startCrown_keeps hregs hholds hwin hcores hsage ?_
    refine stopTillers_keeps hregs hmem hholds hwin hlnk hses hkey hcores hsage heth hflt hint hstl hfree hout ?_
    assumption

theorem execBootPllLock_keeps (htime : Keep.time P) (hboot : Keep.boot P) (hsamplePhase : Keep.samplePhase P) (hcores : Keep.cores P) (hfree : Keep.free P) {s : State} (h : P s) {t : State} (e : execBootPllLock s = .next t) : P t := by
  obtain rfl := Host.Outcome.next.inj e
  refine Keep.ite ?_ ?_
  · refine bootClocks_keeps htime hboot hsamplePhase hcores hfree ?_
    assumption
  · assumption

theorem execBootMemoryZeroise_keeps (hmem : Keep.mem P) (htlm : Keep.tlm P) (hboot : Keep.boot P) (hflt : Keep.flt P) {s : State} (h : P s) {t : State} (e : execBootMemoryZeroise s = .next t) : P t := by
  obtain rfl := Host.Outcome.next.inj e
  refine Keep.ite ?_ ?_
  · refine bootZeroise_keeps hmem htlm hboot hflt ?_
    assumption
  · assumption

theorem execBootFuseRead_keeps (hregs : Keep.regs P) (hboot : Keep.boot P) (hwin : Keep.win P) (hses : Keep.ses P) (hfence : Keep.fence P) (heth : Keep.eth P) (hint : Keep.int P) (hstl : Keep.stl P) (htag : Keep.tag P) (hfree : Keep.free P) (hout : Keep.out P) {s : State} (h : P s) {t : State} (e : execBootFuseRead s = .next t) : P t := by
  obtain rfl := Host.Outcome.next.inj e
  refine Keep.ite ?_ ?_
  · refine bootFuses_keeps hregs hboot hwin hses hfence heth hint hstl htag hfree hout ?_
    assumption
  · assumption

theorem execBootImageLoad_keeps (hregs : Keep.regs P) (hmem : Keep.mem P) (htlm : Keep.tlm P) (hboot : Keep.boot P) (hfence : Keep.fence P) (heth : Keep.eth P) (hflash : Keep.flash P) (hflt : Keep.flt P) (hint : Keep.int P) (hstl : Keep.stl P) (hout : Keep.out P) {s : State} (h : P s) {t : State} (e : execBootImageLoad s = .next t) : P t := by
  obtain rfl := Host.Outcome.next.inj e
  refine Keep.ite ?_ ?_
  · refine bootImage_keeps hregs hmem htlm hboot hfence heth hflash hflt hint hstl hout ?_
    assumption
  · assumption

theorem execBootGateArm_keeps (hregs : Keep.regs P) (hpower : Keep.power P) (hboot : Keep.boot P) {s : State} (h : P s) {t : State} (e : execBootGateArm s = .next t) : P t := by
  obtain rfl := Host.Outcome.next.inj e
  refine Keep.ite ?_ ?_
  · refine bootArm_keeps hregs hpower hboot ?_
    assumption
  · assumption

theorem execBootRadioStart_keeps (hregs : Keep.regs P) (hboot : Keep.boot P) (hports : Keep.ports P) (hsheaves : Keep.sheaves P) (hsearches : Keep.searches P) (hgroups : Keep.groups P) (hholds : Keep.holds P) (hwin : Keep.win P) (hlnk : Keep.lnk P) (hcores : Keep.cores P) (heth : Keep.eth P) (hint : Keep.int P) (hstl : Keep.stl P) (hfree : Keep.free P) (hout : Keep.out P) {s : State} (h : P s) {t : State} (e : execBootRadioStart s = .next t) : P t := by
  obtain rfl := Host.Outcome.next.inj e
  refine Keep.ite ?_ ?_
  · refine radioStart_keeps hregs hboot hports hsheaves hsearches hgroups hholds hwin hlnk hcores heth hint hstl hfree hout ?_
    assumption
  · assumption

theorem execStartupCalibration_keeps (hregs : Keep.regs P) (hboot : Keep.boot P) (hports : Keep.ports P) (hlnk : Keep.lnk P) (heth : Keep.eth P) (hint : Keep.int P) (hstl : Keep.stl P) (hout : Keep.out P) {vals} {s : State} (h : P s) {t : State} (e : execStartupCalibration vals s = .next t) : P t := by
  obtain rfl := Host.Outcome.next.inj e
  refine Keep.ite ?_ ?_
  · refine stepEight_keeps hregs hboot ?_
    refine Keep.ite ?_ ?_
    · refine Keep.foldl1 ?_ ?_
      · dsimp -zeta only
        assumption
      · intro _ _ _
        refine startupSheaf_keeps hregs hports hlnk heth hint hstl hout ?_
        assumption
    · assumption
  · assumption

theorem execBootTargetEntry_keeps (hregs : Keep.regs P) (hmem : Keep.mem P) (hboot : Keep.boot P) (hholds : Keep.holds P) (hwin : Keep.win P) (hlnk : Keep.lnk P) (hses : Keep.ses P) (hkey : Keep.key P) (hcores : Keep.cores P) (hfence : Keep.fence P) (hsage : Keep.sage P) (heth : Keep.eth P) (hflt : Keep.flt P) (hint : Keep.int P) (hstl : Keep.stl P) (hfree : Keep.free P) (hout : Keep.out P) {s : State} (h : P s) {t : State} (e : execBootTargetEntry s = .next t) : P t := by
  obtain rfl := Host.Outcome.next.inj e
  refine Keep.ite ?_ ?_
  · refine bootTarget_keeps hregs hmem hboot hholds hwin hlnk hses hkey hcores hfence hsage heth hflt hint hstl hfree hout ?_
    assumption
  · refine Keep.ite ?_ ?_
    · refine bootTarget_keeps hregs hmem hboot hholds hwin hlnk hses hkey hcores hfence hsage heth hflt hint hstl hfree hout ?_
      refine stepEight_keeps hregs hboot ?_
      assumption
    · assumption

theorem plainWrite_keeps (hregs : Keep.regs P) (hstaged : Keep.staged P) {i} {a} {v} {s : State} (h : P s) : P (plainWrite i a v s) := by
  unfold plainWrite
  refine Keep.ite ?_ ?_
  · refine groupWrite_keeps hregs hstaged ?_
    assumption
  · refine rwrite_keeps hregs ?_
    assumption

theorem clearRegs_keeps (hregs : Keep.regs P) {l} {s : State} (h : P s) : P (clearRegs l s) := by
  unfold clearRegs
  refine Keep.foldl ?_ ?_
  · assumption
  · intro _ _ _
    refine rset_keeps hregs ?_
    assumption

theorem fenWrite_keeps (hregs : Keep.regs P) (hstaged : Keep.staged P) (hfence : Keep.fence P) (heth : Keep.eth P) (hint : Keep.int P) (hstl : Keep.stl P) (hout : Keep.out P) {i} {lvl} {a} {v} {s : State} (h : P s) : P (fenWrite i lvl a v s) := by
  unfold fenWrite
  refine Keep.ite ?_ ?_
  · refine fenceRefuse_keeps hregs heth hint hstl hout ?_
    assumption
  · refine Keep.ite ?_ ?_
    · refine fenCommitWrite_keeps hregs hfence heth hint hstl hout ?_
      assumption
    · refine plainWrite_keeps hregs hstaged ?_
      assumption

theorem intWrite_keeps (hregs : Keep.regs P) (heth : Keep.eth P) (hint : Keep.int P) (hout : Keep.out P) {lvl} {a} {v} {s : State} (h : P s) : P (intWrite lvl a v s) := by
  unfold intWrite
  refine Keep.ite ?_ ?_
  · refine intCfgWrite_keeps hregs heth hint hout ?_
    assumption
  · refine Keep.ite ?_ ?_
    · refine extComplete_keeps hregs heth hint hout ?_
      assumption
    · refine Keep.ite ?_ ?_
      · refine extComplete_keeps hregs heth hint hout ?_
        assumption
      · refine rwrite_keeps hregs ?_
        assumption

theorem aesWrite_keeps (hregs : Keep.regs P) {a} {v} {s : State} (h : P s) : P (aesWrite a v s) := by
  unfold aesWrite
  refine Keep.ite ?_ ?_
  · refine Keep.ite ?_ ?_
    · refine clearRegs_keeps hregs ?_
      assumption
    · assumption
  · refine rwrite_keeps hregs ?_
    assumption

theorem tbsWrite_keeps (hregs : Keep.regs P) (hstaged : Keep.staged P) (htime : Keep.time P) (heth : Keep.eth P) (hrtc : Keep.rtc P) (hint : Keep.int P) (hstl : Keep.stl P) (hout : Keep.out P) {i} {a} {v} {s : State} (h : P s) : P (tbsWrite i a v s) := by
  unfold tbsWrite
  refine Keep.ite ?_ ?_
  · refine tbsCtlWrite_keeps hregs htime hrtc ?_
    assumption
  · refine Keep.ite ?_ ?_
    · refine rateWrite_keeps hregs hstaged htime heth hint hstl hout ?_
      assumption
    · refine Keep.ite ?_ ?_
      · refine stepWrite_keeps hregs hstaged htime ?_
        assumption
      · refine plainWrite_keeps hregs hstaged ?_
        assumption

theorem rglWrite_keeps (hregs : Keep.regs P) {a} {v} {s : State} (h : P s) : P (rglWrite a v s) := by
  unfold rglWrite
  refine Keep.ite ?_ ?_
  · refine Keep.ite ?_ ?_
    · refine clearRegs_keeps hregs ?_
      assumption
    · assumption
  · refine rwrite_keeps hregs ?_
    assumption

theorem prtWrite_keeps (hregs : Keep.regs P) (hports : Keep.ports P) {a} {v} {s : State} (h : P s) : P (prtWrite a v s) := by
  unfold prtWrite
  extract_lets -underBinder -merge -useContext +onlyGivenNames x
  clear_value x
  refine Keep.ite ?_ ?_
  · assumption
  · refine Keep.ite ?_ ?_
    · refine gainWrite_keeps hregs hports ?_
      assumption
    · refine Keep.ite ?_ ?_
      · refine tuneWrite_keeps hregs hports ?_
        assumption
      · refine rwrite_keeps hregs ?_
        assumption

theorem calWrite_keeps (hregs : Keep.regs P) (hstaged : Keep.staged P) (htime : Keep.time P) (hsheaves : Keep.sheaves P) (heth : Keep.eth P) (hint : Keep.int P) (hstl : Keep.stl P) (hout : Keep.out P) {i} {lvl} {a} {v} {s : State} (h : P s) : P (calWrite i lvl a v s) := by
  unfold calWrite
  refine Keep.ite ?_ ?_
  · refine calReqWrite_keeps hregs htime hsheaves heth hint hstl hout ?_
    assumption
  · refine Keep.ite ?_ ?_
    · refine calKeepWrite_keeps hregs ?_
      assumption
    · refine plainWrite_keeps hregs hstaged ?_
      assumption

theorem spkWrite_keeps (hregs : Keep.regs P) (heth : Keep.eth P) (hint : Keep.int P) (hstl : Keep.stl P) (hout : Keep.out P) {a} {v} {s : State} (h : P s) : P (spkWrite a v s) := by
  unfold spkWrite
  refine Keep.ite ?_ ?_
  · refine spkCtlWrite_keeps hregs ?_
    assumption
  · refine Keep.ite ?_ ?_
    · refine spkResWrite_keeps hregs heth hint hstl hout ?_
      assumption
    · refine rwrite_keeps hregs ?_
      assumption

theorem winWrite_keeps (hregs : Keep.regs P) (hstaged : Keep.staged P) (hmem : Keep.mem P) (hboot : Keep.boot P) (hholds : Keep.holds P) (hwin : Keep.win P) (hcores : Keep.cores P) (hsage : Keep.sage P) (heth : Keep.eth P) (hflt : Keep.flt P) (hint : Keep.int P) (hstl : Keep.stl P) (hout : Keep.out P) {i} {a} {v} {s : State} (h : P s) : P (winWrite i a v s) := by
  unfold winWrite
  refine Keep.ite ?_ ?_
  · refine sagePump_keeps hholds hwin hcores hsage ?_
    refine winHorWrite_keeps hregs hmem hboot hwin heth hflt hint hstl hout ?_
    assumption
  · refine Keep.ite ?_ ?_
    · refine winCtlWrite_keeps hregs ?_
      assumption
    · refine plainWrite_keeps hregs hstaged ?_
      assumption

theorem sagWrite_keeps (hregs : Keep.regs P) {a} {v} {s : State} (h : P s) : P (sagWrite a v s) := by
  unfold sagWrite
  extract_lets -underBinder -merge -useContext +onlyGivenNames x
  have hx : P x := by
    subst x
    refine rwrite_keeps hregs ?_
    assumption
  clear_value x
  refine Keep.ite ?_ ?_
  · refine clearRegs_keeps hregs ?_
    assumption
  · assumption

theorem lmNext_keeps (hregs : Keep.regs P) {s : State} {t1} (h : P s) : P (lmNext s t1) := by
  unfold lmNext
  refine rset_keeps hregs ?_
  assumption

theorem lmWrite_keeps (hregs : Keep.regs P) (htlm : Keep.tlm P) (heth : Keep.eth P) (hint : Keep.int P) (hstl : Keep.stl P) (hout : Keep.out P) {t0} {v} {s : State} (h : P s) : P (lmWrite t0 v s) := by
  unfold lmWrite
  refine Keep.ite ?_ ?_
  · refine lmNext_keeps hregs ?_
    refine lset_keeps htlm ?_
    assumption
  · refine evt_keeps hregs heth hint hstl hout ?_
    assumption

theorem lmRead_keeps (hregs : Keep.regs P) (heth : Keep.eth P) (hint : Keep.int P) (hstl : Keep.stl P) (hout : Keep.out P) {t0} {s : State} (h : P s) : P (lmRead t0 s).2 := by
  unfold lmRead
  split
  · dsimp -zeta only
    refine lmNext_keeps hregs ?_
    assumption
  · dsimp -zeta only
    refine evt_keeps hregs heth hint hstl hout ?_
    assumption

theorem tilWrite_keeps (hregs : Keep.regs P) (hstaged : Keep.staged P) (htlm : Keep.tlm P) (heth : Keep.eth P) (hint : Keep.int P) (hstl : Keep.stl P) (hout : Keep.out P) {i} {lvl} {a} {v} {s : State} (h : P s) : P (tilWrite i lvl a v s) := by
  unfold tilWrite
  extract_lets -underBinder -merge -useContext +onlyGivenNames x
  clear_value x
  refine Keep.ite ?_ ?_
  · refine Keep.ite ?_ ?_
    · refine rwrite_keeps hregs ?_
      assumption
    · assumption
  · refine Keep.ite ?_ ?_
    · refine lmWrite_keeps hregs htlm heth hint hstl hout ?_
      assumption
    · refine plainWrite_keeps hregs hstaged ?_
      assumption

theorem uslWrite_keeps (hregs : Keep.regs P) {lvl} {a} {v} {s : State} (h : P s) : P (uslWrite lvl a v s) := by
  unfold uslWrite
  refine Keep.ite ?_ ?_
  · refine Keep.ite ?_ ?_
    · refine rwrite_keeps hregs ?_
      assumption
    · assumption
  · extract_lets -underBinder -merge -useContext +onlyGivenNames x
    have hx : P x := by
      subst x
      refine rwrite_keeps hregs ?_
      assumption
    clear_value x
    refine Keep.ite ?_ ?_
    · refine clearRegs_keeps hregs ?_
      assumption
    · assumption

theorem ethWrite_keeps (hregs : Keep.regs P) (hstaged : Keep.staged P) (heth : Keep.eth P) {i} {lvl} {a} {v} {s : State} (h : P s) : P (ethWrite i lvl a v s) := by
  unfold ethWrite
  refine Keep.ite ?_ ?_
  · refine ethCtlWrite_keeps hregs heth ?_
    assumption
  · refine Keep.ite ?_ ?_
    · refine Keep.ite ?_ ?_
      · refine rwrite_keeps hregs ?_
        assumption
      · assumption
    · refine plainWrite_keeps hregs hstaged ?_
      assumption

theorem xspWrite_keeps (hregs : Keep.regs P) (hstaged : Keep.staged P) (heth : Keep.eth P) (hxsp : Keep.xsp P) (hint : Keep.int P) (hstl : Keep.stl P) (hout : Keep.out P) {i} {lvl} {a} {v} {s : State} (h : P s) : P (xspWrite i lvl a v s) := by
  unfold xspWrite
  refine Keep.ite ?_ ?_
  · refine xspGo_keeps hregs heth hxsp hint hstl hout ?_
    assumption
  · refine plainWrite_keeps hregs hstaged ?_
    assumption

theorem hedBlockWrite_keeps (hregs : Keep.regs P) (hports : Keep.ports P) (heth : Keep.eth P) (hint : Keep.int P) (hstl : Keep.stl P) (hout : Keep.out P) {a} {v} {s : State} (h : P s) : P (hedBlockWrite a v s) := by
  unfold hedBlockWrite
  extract_lets -underBinder -merge -useContext +onlyGivenNames x
  clear_value x
  refine Keep.ite ?_ ?_
  · refine hedWrite_keeps hregs ?_
    assumption
  · refine Keep.ite ?_ ?_
    · refine afclrWrite_keeps hregs hports heth hint hstl hout ?_
      assumption
    · refine rwrite_keeps hregs ?_
      assumption

theorem regWrite_keeps (hregs : Keep.regs P) (hlatches : Keep.latches P) (hstaged : Keep.staged P) (hmem : Keep.mem P) (htlm : Keep.tlm P) (htime : Keep.time P) (hpower : Keep.power P) (hboot : Keep.boot P) (hwdog : Keep.wdog P) (htrans : Keep.trans P) (hports : Keep.ports P) (hsheaves : Keep.sheaves P) (hsearches : Keep.searches P) (hgroups : Keep.groups P) (hsamplePhase : Keep.samplePhase P) (hdetq : Keep.detq P) (hspks : Keep.spks P) (hframes : Keep.frames P) (hnextFrame : Keep.nextFrame P) (hholds : Keep.holds P) (hwin : Keep.win P) (hlnk : Keep.lnk P) (hfuses : Keep.fuses P) (hses : Keep.ses P) (hpairs : Keep.pairs P) (hkey : Keep.key P) (hcores : Keep.cores P) (hfence : Keep.fence P) (hsage : Keep.sage P) (husl : Keep.usl P) (heth : Keep.eth P) (hxsp : Keep.xsp P) (hflash : Keep.flash P) (hflt : Keep.flt P) (htmrs : Keep.tmrs P) (hrtc : Keep.rtc P) (hint : Keep.int P) (hstl : Keep.stl P) (htag : Keep.tag P) (hreader : Keep.reader P) (hupd : Keep.upd P) (hfree : Keep.free P) (hout : Keep.out P) {i} {lvl} {a} {v} {s : State} (h : P s) : P (regWrite i lvl a v s) := by
  unfold regWrite
  split
  · refine blockWrite_keeps hregs hmem hports hsheaves hsearches hgroups hframes hholds hwin hlnk hses hkey hcores hsage husl heth hflt htmrs hrtc hint hstl hreader hfree hout ?_
    assumption
  · split
    · refine Keep.ite ?_ ?_
      · refine modeJudge_keeps hregs hmem htrans hports hsheaves hsearches hgroups hholds hwin hlnk hses hkey hcores hsage husl heth hflt hint hstl hfree hout ?_
        assumption
      · refine sysWrite_keeps hregs hlatches hstaged hmem htlm htime hpower hboot hwdog htrans hports hsheaves hsearches hgroups hsamplePhase hdetq hspks hframes hnextFrame hholds hwin hlnk hfuses hses hpairs hkey hcores hfence hsage husl heth hxsp hflash hflt htmrs hrtc hint hstl htag hreader hupd hfree hout ?_
        assumption
    · refine fenWrite_keeps hregs hstaged hfence heth hint hstl hout ?_
      assumption
    · refine intWrite_keeps hregs heth hint hout ?_
      assumption
    · refine stlWrite_keeps hregs heth hint hstl hout ?_
      assumption
    · refine tmrWrite_keeps hregs hstaged htmrs ?_
      assumption
    · refine rtcWrite_keeps hregs hstaged hrtc ?_
      assumption
    · refine keyWrite_keeps hregs hstaged hkey heth hint hstl hout ?_
      assumption
    · refine aesWrite_keeps hregs ?_
      assumption
    · refine updWrite_keeps hregs hstaged hmem hholds hwin hlnk hfuses hses hkey hcores hsage heth hflash hflt hint hstl hupd hfree hout ?_
      assumption
    · refine fltWrite_keeps hregs hports hlnk heth hflt hint hstl hout ?_
      assumption
    · refine tbsWrite_keeps hregs hstaged htime heth hrtc hint hstl hout ?_
      assumption
    · refine rglWrite_keeps hregs ?_
      assumption
    · refine prtWrite_keeps hregs hports ?_
      assumption
    · refine calWrite_keeps hregs hstaged htime hsheaves heth hint hstl hout ?_
      assumption
    · refine spkWrite_keeps hregs heth hint hstl hout ?_
      assumption
    · refine winWrite_keeps hregs hstaged hmem hboot hholds hwin hcores hsage heth hflt hint hstl hout ?_
      assumption
    · refine lnkWrite_keeps hregs hstaged hlnk heth hint hstl hout ?_
      assumption
    · refine sesRegWrite_keeps hregs hmem hses hcores hsage husl heth hint hstl hfree hout ?_
      assumption
    · refine sagWrite_keeps hregs ?_
      assumption
    · refine tilWrite_keeps hregs hstaged htlm heth hint hstl hout ?_
      assumption
    · refine uslWrite_keeps hregs ?_
      assumption
    · refine ethWrite_keeps hregs hstaged heth ?_
      assumption
    · refine hspWrite_keeps hregs hmem hholds hcores heth hflt hint hstl hfree hout ?_
      assumption
    · refine xspWrite_keeps hregs hstaged heth hxsp hint hstl hout ?_
      assumption
    · refine nftWrite_keeps hregs heth hint hstl htag hout ?_
      assumption
    · refine hedBlockWrite_keeps hregs hports heth hint hstl hout ?_
      assumption
    · refine plainWrite_keeps hregs hstaged ?_
      assumption

theorem plainRead_keeps (hlatches : Keep.latches P) {i} {a} {s : State} (h : P s) : P (plainRead i a s).2 := by
  unfold plainRead
  split
  · dsimp -zeta only
    assumption
  · split
    · refine groupRead_keeps hlatches ?_
      assumption
    · extract_lets -underBinder -merge -useContext +onlyGivenNames x
      clear_value x
      split
      · refine groupRead_keeps hlatches ?_
        assumption
      · dsimp -zeta only
        assumption

theorem regRead_keeps (hregs : Keep.regs P) (hlatches : Keep.latches P) (hholds : Keep.holds P) (hcores : Keep.cores P) (heth : Keep.eth P) (htmrs : Keep.tmrs P) (hint : Keep.int P) (hstl : Keep.stl P) (hout : Keep.out P) {i} {a} {s : State} (h : P s) : P (regRead i a s).2 := by
  unfold regRead
  extract_lets -underBinder -merge -useContext +onlyGivenNames x
  clear_value x
  extract_lets -underBinder -merge -useContext +onlyGivenNames x
  have hx : P x.2 := by
    subst x
    refine plainRead_keeps hlatches ?_
    assumption
  clear_value x
  extract_lets -underBinder -merge -useContext +onlyGivenNames x
  subst x
  extract_lets -underBinder -merge -useContext +onlyGivenNames x
  have hx : P x.2.2 := by
    subst x
    refine windowRead_keeps hregs heth hint hstl hout ?_
    assumption
  clear_value x
  split
  · refine extClaim_keeps hregs heth hint hout ?_
    assumption
  · split
    · refine extClaim_keeps hregs heth hint hout ?_
      assumption
    · split
      · refine capRead_keeps hlatches htmrs ?_
        assumption
      · split
        · try dsimp -zeta only
          refine ppsCapRead_keeps hregs ?_
          assumption
        · split
          · refine lmRead_keeps hregs heth hint hstl hout ?_
            assumption
          · split
            · refine rxPop_keeps hregs hlatches hholds hcores heth hint hstl hout ?_
              assumption
            · split
              · refine groupRead_keeps hlatches ?_
                assumption
              · split
                · split
                  · try dsimp -zeta only
                    assumption
                  · try dsimp -zeta only
                    assumption
                · refine plainRead_keeps hlatches ?_
                  assumption

theorem showRead_keeps (hout : Keep.out P) {r} (h : P r.2) : P (showRead r) := by
  unfold showRead
  extract_lets -underBinder -merge -useContext +onlyGivenNames x
  have hx : P x := by
    subst x
    assumption
  clear_value x
  refine Keep.set_out hout ?_
  assumption

theorem bridgeEnds_keeps (hregs : Keep.regs P) (heth : Keep.eth P) (hflt : Keep.flt P) (hint : Keep.int P) (hstl : Keep.stl P) (hout : Keep.out P) {b} {i} {write} {s : State} (h : P s) : P (bridgeEnds b i write s) := by
  unfold bridgeEnds
  refine Keep.ite ?_ ?_
  · assumption
  · extract_lets -underBinder -merge -useContext +onlyGivenNames x
    have hx : P x := by
      subst x
      refine fault_keeps hregs heth hflt hint hstl hout ?_
      assumption
    clear_value x
    extract_lets -underBinder -merge -useContext +onlyGivenNames x
    clear_value x
    extract_lets -underBinder -merge -useContext +onlyGivenNames x
    have hx : P x := by
      subst x
      refine Keep.set_flt hflt ?_
      assumption
    clear_value x
    refine Keep.ite ?_ ?_
    · assumption
    · refine showRead_keeps hout ?_
      dsimp -zeta only
      assumption

theorem accessEnded_keeps (hflt : Keep.flt P) {s : State} {i} {a} {write} (h : P s) : Keep.Some P (accessEnded s i a write) := by
  unfold accessEnded
  split
  · refine Keep.some ?_
    refine Keep.set_flt hflt ?_
    assumption
  · exact Keep.none

theorem execBridgeTimeout_keeps (hregs : Keep.regs P) (heth : Keep.eth P) (hflt : Keep.flt P) (hint : Keep.int P) (hstl : Keep.stl P) (hout : Keep.out P) {block} {i} {write} {s : State} (h : P s) {t : State} (e : execBridgeTimeout block i write s = .next t) : P t := by
  obtain rfl := Host.Outcome.next.inj e
  refine bridgeEnds_keeps hregs heth hflt hint hstl hout ?_
  assumption

theorem execLocalMemoryAccess_keeps (hregs : Keep.regs P) (htlm : Keep.tlm P) (heth : Keep.eth P) (hint : Keep.int P) (hstl : Keep.stl P) (hout : Keep.out P) {x1} {t1} {v} {s : State} (h : P s) {t : State} (e : execLocalMemoryAccess x1 t1 v s = .next t) : P t := by
  obtain rfl := Host.Outcome.next.inj e
  split
  · refine lmWrite_keeps hregs htlm heth hint hstl hout ?_
    assumption
  · refine showRead_keeps hout ?_
    refine lmRead_keeps hregs heth hint hstl hout ?_
    assumption

theorem execCounterClear_keeps (hregs : Keep.regs P) (hlatches : Keep.latches P) (hstaged : Keep.staged P) (hmem : Keep.mem P) (htlm : Keep.tlm P) (htime : Keep.time P) (hpower : Keep.power P) (hboot : Keep.boot P) (hwdog : Keep.wdog P) (htrans : Keep.trans P) (hports : Keep.ports P) (hsheaves : Keep.sheaves P) (hsearches : Keep.searches P) (hgroups : Keep.groups P) (hsamplePhase : Keep.samplePhase P) (hdetq : Keep.detq P) (hspks : Keep.spks P) (hframes : Keep.frames P) (hnextFrame : Keep.nextFrame P) (hholds : Keep.holds P) (hwin : Keep.win P) (hlnk : Keep.lnk P) (hfuses : Keep.fuses P) (hses : Keep.ses P) (hpairs : Keep.pairs P) (hkey : Keep.key P) (hcores : Keep.cores P) (hfence : Keep.fence P) (hsage : Keep.sage P) (husl : Keep.usl P) (heth : Keep.eth P) (hxsp : Keep.xsp P) (hflash : Keep.flash P) (hflt : Keep.flt P) (htmrs : Keep.tmrs P) (hrtc : Keep.rtc P) (hint : Keep.int P) (hstl : Keep.stl P) (htag : Keep.tag P) (hreader : Keep.reader P) (hupd : Keep.upd P) (hfree : Keep.free P) (hout : Keep.out P) {i} {a} {v} {s : State} (h : P s) {t : State} (e : execCounterClear i a v s = .next t) : P t := by
  obtain rfl := Host.Outcome.next.inj e
  refine regWrite_keeps hregs hlatches hstaged hmem htlm htime hpower hboot hwdog htrans hports hsheaves hsearches hgroups hsamplePhase hdetq hspks hframes hnextFrame hholds hwin hlnk hfuses hses hpairs hkey hcores hfence hsage husl heth hxsp hflash hflt htmrs hrtc hint hstl htag hreader hupd hfree hout ?_
  assumption

theorem execPeakClear_keeps (hregs : Keep.regs P) {x1} {v} {s : State} (h : P s) {t : State} (e : execPeakClear x1 v s = .next t) : P t := by
  obtain rfl := Host.Outcome.next.inj e
  refine spkCtlWrite_keeps hregs ?_
  assumption

theorem execMinClear_keeps (hregs : Keep.regs P) {x1} {v} {s : State} (h : P s) {t : State} (e : execMinClear x1 v s = .next t) : P t := by
  obtain rfl := Host.Outcome.next.inj e
  refine winCtlWrite_keeps hregs ?_
  assumption

end Sys2Proof.Machine
end

