-- ==== Sys2Proof/Laws/KeepPorts.lean ====
section
/-!
SUPPORT. Which parts of the state the operations may change: the ports, control registers and engines.
-/

namespace Sys2Proof.Machine

variable {P : State → Prop}

theorem fabricRead_keeps (hregs : Keep.regs P) (hlatches : Keep.latches P) (hholds : Keep.holds P) (hcores : Keep.cores P) (heth : Keep.eth P) (hflt : Keep.flt P) (htmrs : Keep.tmrs P) (hint : Keep.int P) (hstl : Keep.stl P) (hout : Keep.out P) {i} {a} {s : State} (h : P s) : P (fabricRead i a s).2.2 := by
  unfold fabricRead
  split
  · split
    · dsimp -zeta only
      refine Keep.patSome ?_ (by assumption)
      refine accessEnded_keeps hflt ?_
      assumption
    · split
      · refine windowRead_keeps hregs heth hint hstl hout ?_
        assumption
      · dsimp -zeta only
        refine regRead_keeps hregs hlatches hholds hcores heth htmrs hint hstl hout ?_
        assumption
  · dsimp -zeta only
    assumption
  · dsimp -zeta only
    assumption
  · dsimp -zeta only
    assumption

theorem fabricWrite_keeps (hregs : Keep.regs P) (hlatches : Keep.latches P) (hstaged : Keep.staged P) (hmem : Keep.mem P) (htlm : Keep.tlm P) (htime : Keep.time P) (hpower : Keep.power P) (hboot : Keep.boot P) (hwdog : Keep.wdog P) (htrans : Keep.trans P) (hports : Keep.ports P) (hsheaves : Keep.sheaves P) (hsearches : Keep.searches P) (hgroups : Keep.groups P) (hsamplePhase : Keep.samplePhase P) (hdetq : Keep.detq P) (hspks : Keep.spks P) (hframes : Keep.frames P) (hnextFrame : Keep.nextFrame P) (hholds : Keep.holds P) (hwin : Keep.win P) (hlnk : Keep.lnk P) (hfuses : Keep.fuses P) (hses : Keep.ses P) (hpairs : Keep.pairs P) (hkey : Keep.key P) (hcores : Keep.cores P) (hfence : Keep.fence P) (hsage : Keep.sage P) (husl : Keep.usl P) (heth : Keep.eth P) (hxsp : Keep.xsp P) (hflash : Keep.flash P) (hflt : Keep.flt P) (htmrs : Keep.tmrs P) (hrtc : Keep.rtc P) (hint : Keep.int P) (hstl : Keep.stl P) (htag : Keep.tag P) (hreader : Keep.reader P) (hupd : Keep.upd P) (hfree : Keep.free P) (hout : Keep.out P) {i} {lvl} {a} {v} {s : State} (h : P s) : P (fabricWrite i lvl a v s) := by
  unfold fabricWrite
  split
  · refine Keep.getD ?_ ?_
    · refine accessEnded_keeps hflt ?_
      assumption
    · refine regWrite_keeps hregs hlatches hstaged hmem htlm htime hpower hboot hwdog htrans hports hsheaves hsearches hgroups hsamplePhase hdetq hspks hframes hnextFrame hholds hwin hlnk hfuses hses hpairs hkey hcores hfence hsage husl heth hxsp hflash hflt htmrs hrtc hint hstl htag hreader hupd hfree hout ?_
      assumption
  · refine mset_keeps hmem ?_
    assumption
  · refine mset_keeps hmem ?_
    assumption
  · refine mset_keeps hmem ?_
    assumption
  · assumption

theorem outRead_keeps (hregs : Keep.regs P) (hlatches : Keep.latches P) (hholds : Keep.holds P) (hcores : Keep.cores P) (heth : Keep.eth P) (hflt : Keep.flt P) (htmrs : Keep.tmrs P) (hint : Keep.int P) (hstl : Keep.stl P) (hout : Keep.out P) {i} {a} {s : State} (h : P s) : P (outRead i a s).2 := by
  unfold outRead
  split
  · dsimp -zeta only
    refine Keep.pat2 ?_ (by assumption)
    refine fenceCheck_keeps hregs heth hint hstl hout ?_
    assumption
  · split
    · dsimp -zeta only
      refine poisonMet_keeps hregs heth hflt hint hstl hout ?_
      refine Keep.pat22 ?_ (by assumption)
      refine fabricRead_keeps hregs hlatches hholds hcores heth hflt htmrs hint hstl hout ?_
      refine Keep.pat2 ?_ (by assumption)
      refine fenceCheck_keeps hregs heth hint hstl hout ?_
      assumption
    · dsimp -zeta only
      refine Keep.pat22 ?_ (by assumption)
      refine fabricRead_keeps hregs hlatches hholds hcores heth hflt htmrs hint hstl hout ?_
      refine Keep.pat2 ?_ (by assumption)
      refine fenceCheck_keeps hregs heth hint hstl hout ?_
      assumption

theorem outWrite_keeps (hregs : Keep.regs P) (hlatches : Keep.latches P) (hstaged : Keep.staged P) (hmem : Keep.mem P) (htlm : Keep.tlm P) (htime : Keep.time P) (hpower : Keep.power P) (hboot : Keep.boot P) (hwdog : Keep.wdog P) (htrans : Keep.trans P) (hports : Keep.ports P) (hsheaves : Keep.sheaves P) (hsearches : Keep.searches P) (hgroups : Keep.groups P) (hsamplePhase : Keep.samplePhase P) (hdetq : Keep.detq P) (hspks : Keep.spks P) (hframes : Keep.frames P) (hnextFrame : Keep.nextFrame P) (hholds : Keep.holds P) (hwin : Keep.win P) (hlnk : Keep.lnk P) (hfuses : Keep.fuses P) (hses : Keep.ses P) (hpairs : Keep.pairs P) (hkey : Keep.key P) (hcores : Keep.cores P) (hfence : Keep.fence P) (hsage : Keep.sage P) (husl : Keep.usl P) (heth : Keep.eth P) (hxsp : Keep.xsp P) (hflash : Keep.flash P) (hflt : Keep.flt P) (htmrs : Keep.tmrs P) (hrtc : Keep.rtc P) (hint : Keep.int P) (hstl : Keep.stl P) (htag : Keep.tag P) (hreader : Keep.reader P) (hupd : Keep.upd P) (hfree : Keep.free P) (hout : Keep.out P) {i} {a} {v} {s : State} (h : P s) : P (outWrite i a v s).2 := by
  unfold outWrite
  split
  · dsimp -zeta only
    refine Keep.pat2 ?_ (by assumption)
    refine fenceCheck_keeps hregs heth hint hstl hout ?_
    assumption
  · dsimp -zeta only
    refine fabricWrite_keeps hregs hlatches hstaged hmem htlm htime hpower hboot hwdog htrans hports hsheaves hsearches hgroups hsamplePhase hdetq hspks hframes hnextFrame hholds hwin hlnk hfuses hses hpairs hkey hcores hfence hsage husl heth hxsp hflash hflt htmrs hrtc hint hstl htag hreader hupd hfree hout ?_
    refine Keep.pat2 ?_ (by assumption)
    refine fenceCheck_keeps hregs heth hint hstl hout ?_
    assumption

theorem portRead_keeps (hregs : Keep.regs P) (hlatches : Keep.latches P) (hholds : Keep.holds P) (hcores : Keep.cores P) (heth : Keep.eth P) (hflt : Keep.flt P) (htmrs : Keep.tmrs P) (hint : Keep.int P) (hstl : Keep.stl P) (hout : Keep.out P) {i} {a} {s : State} (h : P s) : P (portRead i a s).2 := by
  unfold portRead
  split
  · refine outRead_keeps hregs hlatches hholds hcores heth hflt htmrs hint hstl hout ?_
    assumption
  · dsimp -zeta only
    assumption

theorem portWrite_keeps (hregs : Keep.regs P) (hlatches : Keep.latches P) (hstaged : Keep.staged P) (hmem : Keep.mem P) (htlm : Keep.tlm P) (htime : Keep.time P) (hpower : Keep.power P) (hboot : Keep.boot P) (hwdog : Keep.wdog P) (htrans : Keep.trans P) (hports : Keep.ports P) (hsheaves : Keep.sheaves P) (hsearches : Keep.searches P) (hgroups : Keep.groups P) (hsamplePhase : Keep.samplePhase P) (hdetq : Keep.detq P) (hspks : Keep.spks P) (hframes : Keep.frames P) (hnextFrame : Keep.nextFrame P) (hholds : Keep.holds P) (hwin : Keep.win P) (hlnk : Keep.lnk P) (hfuses : Keep.fuses P) (hses : Keep.ses P) (hpairs : Keep.pairs P) (hkey : Keep.key P) (hcores : Keep.cores P) (hfence : Keep.fence P) (hsage : Keep.sage P) (husl : Keep.usl P) (heth : Keep.eth P) (hxsp : Keep.xsp P) (hflash : Keep.flash P) (hflt : Keep.flt P) (htmrs : Keep.tmrs P) (hrtc : Keep.rtc P) (hint : Keep.int P) (hstl : Keep.stl P) (htag : Keep.tag P) (hreader : Keep.reader P) (hupd : Keep.upd P) (hfree : Keep.free P) (hout : Keep.out P) {i} {a} {v} {s : State} (h : P s) : P (portWrite i a v s).2 := by
  unfold portWrite
  split
  · refine outWrite_keeps hregs hlatches hstaged hmem htlm htime hpower hboot hwdog htrans hports hsheaves hsearches hgroups hsamplePhase hdetq hspks hframes hnextFrame hholds hwin hlnk hfuses hses hpairs hkey hcores hfence hsage husl heth hxsp hflash hflt htmrs hrtc hint hstl htag hreader hupd hfree hout ?_
    assumption
  · dsimp -zeta only
    assumption

theorem portReads_keeps (hregs : Keep.regs P) (hlatches : Keep.latches P) (hholds : Keep.holds P) (hcores : Keep.cores P) (heth : Keep.eth P) (hflt : Keep.flt P) (htmrs : Keep.tmrs P) (hint : Keep.int P) (hstl : Keep.stl P) (hout : Keep.out P) {i} {x2} {x3} {x4 : State} (h : P x4) : P (portReads i x2 x3 x4).2 := by
  induction x3 generalizing i x2 x4 with
  | zero =>
    unfold portReads
    dsimp -zeta only
    assumption
  | succ n ih =>
    unfold portReads
    extract_lets -underBinder -merge -useContext +onlyGivenNames x
    have hx : P x.2 := by
      subst x
      refine portRead_keeps hregs hlatches hholds hcores heth hflt htmrs hint hstl hout ?_
      assumption
    clear_value x
    extract_lets -underBinder -merge -useContext +onlyGivenNames x
    have hx : P x.2 := by
      subst x
      refine ih ?_
      assumption
    clear_value x
    dsimp -zeta only
    assumption

theorem portWrites_keeps (hregs : Keep.regs P) (hlatches : Keep.latches P) (hstaged : Keep.staged P) (hmem : Keep.mem P) (htlm : Keep.tlm P) (htime : Keep.time P) (hpower : Keep.power P) (hboot : Keep.boot P) (hwdog : Keep.wdog P) (htrans : Keep.trans P) (hports : Keep.ports P) (hsheaves : Keep.sheaves P) (hsearches : Keep.searches P) (hgroups : Keep.groups P) (hsamplePhase : Keep.samplePhase P) (hdetq : Keep.detq P) (hspks : Keep.spks P) (hframes : Keep.frames P) (hnextFrame : Keep.nextFrame P) (hholds : Keep.holds P) (hwin : Keep.win P) (hlnk : Keep.lnk P) (hfuses : Keep.fuses P) (hses : Keep.ses P) (hpairs : Keep.pairs P) (hkey : Keep.key P) (hcores : Keep.cores P) (hfence : Keep.fence P) (hsage : Keep.sage P) (husl : Keep.usl P) (heth : Keep.eth P) (hxsp : Keep.xsp P) (hflash : Keep.flash P) (hflt : Keep.flt P) (htmrs : Keep.tmrs P) (hrtc : Keep.rtc P) (hint : Keep.int P) (hstl : Keep.stl P) (htag : Keep.tag P) (hreader : Keep.reader P) (hupd : Keep.upd P) (hfree : Keep.free P) (hout : Keep.out P) {i} {x2} {x3} {x4 : State} (h : P x4) : P (portWrites i x2 x3 x4).2 := by
  induction x3 generalizing i x2 x4 with
  | nil =>
    unfold portWrites
    dsimp -zeta only
    assumption
  | cons a r ih =>
    unfold portWrites
    extract_lets -underBinder -merge -useContext +onlyGivenNames x
    have hx : P x.2 := by
      subst x
      refine portWrite_keeps hregs hlatches hstaged hmem htlm htime hpower hboot hwdog htrans hports hsheaves hsearches hgroups hsamplePhase hdetq hspks hframes hnextFrame hholds hwin hlnk hfuses hses hpairs hkey hcores hfence hsage husl heth hxsp hflash hflt htmrs hrtc hint hstl htag hreader hupd hfree hout ?_
      assumption
    clear_value x
    split
    · extract_lets -underBinder -merge -useContext +onlyGivenNames x
      have hx : P x.2 := by
        subst x
        refine ih ?_
        assumption
      clear_value x
      dsimp -zeta only
      assumption
    · dsimp -zeta only
      assumption

theorem hostAnswer_keeps (hout : Keep.out P) {s : State} {ws} {st} (h : P s) : P (hostAnswer s ws st) := by
  unfold hostAnswer
  refine Keep.set_out hout ?_
  assumption

theorem hostRead_keeps (hregs : Keep.regs P) (hlatches : Keep.latches P) (hholds : Keep.holds P) (hcores : Keep.cores P) (heth : Keep.eth P) (hflt : Keep.flt P) (htmrs : Keep.tmrs P) (hint : Keep.int P) (hstl : Keep.stl P) (hout : Keep.out P) {a} {n} {s : State} (h : P s) : P (hostRead a n s) := by
  unfold hostRead
  refine Keep.ite ?_ ?_
  · assumption
  · extract_lets -underBinder -merge -useContext +onlyGivenNames x
    have hx : P x.2 := by
      subst x
      refine portReads_keeps hregs hlatches hholds hcores heth hflt htmrs hint hstl hout ?_
      assumption
    clear_value x
    refine hostAnswer_keeps hout ?_
    assumption

theorem hostWrite_keeps (hregs : Keep.regs P) (hlatches : Keep.latches P) (hstaged : Keep.staged P) (hmem : Keep.mem P) (htlm : Keep.tlm P) (htime : Keep.time P) (hpower : Keep.power P) (hboot : Keep.boot P) (hwdog : Keep.wdog P) (htrans : Keep.trans P) (hports : Keep.ports P) (hsheaves : Keep.sheaves P) (hsearches : Keep.searches P) (hgroups : Keep.groups P) (hsamplePhase : Keep.samplePhase P) (hdetq : Keep.detq P) (hspks : Keep.spks P) (hframes : Keep.frames P) (hnextFrame : Keep.nextFrame P) (hholds : Keep.holds P) (hwin : Keep.win P) (hlnk : Keep.lnk P) (hfuses : Keep.fuses P) (hses : Keep.ses P) (hpairs : Keep.pairs P) (hkey : Keep.key P) (hcores : Keep.cores P) (hfence : Keep.fence P) (hsage : Keep.sage P) (husl : Keep.usl P) (heth : Keep.eth P) (hxsp : Keep.xsp P) (hflash : Keep.flash P) (hflt : Keep.flt P) (htmrs : Keep.tmrs P) (hrtc : Keep.rtc P) (hint : Keep.int P) (hstl : Keep.stl P) (htag : Keep.tag P) (hreader : Keep.reader P) (hupd : Keep.upd P) (hfree : Keep.free P) (hout : Keep.out P) {a} {data} {s : State} (h : P s) : P (hostWrite a data s) := by
  unfold hostWrite
  refine Keep.ite ?_ ?_
  · assumption
  · extract_lets -underBinder -merge -useContext +onlyGivenNames x
    have hx : P x.2 := by
      subst x
      refine portWrites_keeps hregs hlatches hstaged hmem htlm htime hpower hboot hwdog htrans hports hsheaves hsearches hgroups hsamplePhase hdetq hspks hframes hnextFrame hholds hwin hlnk hfuses hses hpairs hkey hcores hfence hsage husl heth hxsp hflash hflt htmrs hrtc hint hstl htag hreader hupd hfree hout ?_
      assumption
    clear_value x
    refine Keep.ite ?_ ?_
    · refine hostAnswer_keeps hout ?_
      assumption
    · assumption

theorem hostStatus_keeps (heth : Keep.eth P) (hout : Keep.out P) {s : State} (h : P s) : P (hostStatus s) := by
  unfold hostStatus
  refine Keep.ite ?_ ?_
  · assumption
  · refine hostAnswer_keeps hout ?_
    refine updEth_keeps heth ?_
    assumption

theorem hostAbandon_keeps (hregs : Keep.regs P) (hlatches : Keep.latches P) (hstaged : Keep.staged P) (hmem : Keep.mem P) (htlm : Keep.tlm P) (htime : Keep.time P) (hpower : Keep.power P) (hboot : Keep.boot P) (hwdog : Keep.wdog P) (htrans : Keep.trans P) (hports : Keep.ports P) (hsheaves : Keep.sheaves P) (hsearches : Keep.searches P) (hgroups : Keep.groups P) (hsamplePhase : Keep.samplePhase P) (hdetq : Keep.detq P) (hspks : Keep.spks P) (hframes : Keep.frames P) (hnextFrame : Keep.nextFrame P) (hholds : Keep.holds P) (hwin : Keep.win P) (hlnk : Keep.lnk P) (hfuses : Keep.fuses P) (hses : Keep.ses P) (hpairs : Keep.pairs P) (hkey : Keep.key P) (hcores : Keep.cores P) (hfence : Keep.fence P) (hsage : Keep.sage P) (husl : Keep.usl P) (heth : Keep.eth P) (hxsp : Keep.xsp P) (hflash : Keep.flash P) (hflt : Keep.flt P) (htmrs : Keep.tmrs P) (hrtc : Keep.rtc P) (hint : Keep.int P) (hstl : Keep.stl P) (htag : Keep.tag P) (hreader : Keep.reader P) (hupd : Keep.upd P) (hfree : Keep.free P) (hout : Keep.out P) {a} {data} {reads} {s : State} (h : P s) : P (hostAbandon a data reads s) := by
  unfold hostAbandon
  refine Keep.ite ?_ ?_
  · assumption
  · extract_lets -underBinder -merge -useContext +onlyGivenNames x
    have hx : P x := by
      subst x
      refine Keep.ite ?_ ?_
      · refine portReads_keeps hregs hlatches hholds hcores heth hflt htmrs hint hstl hout ?_
        assumption
      · refine portWrites_keeps hregs hlatches hstaged hmem htlm htime hpower hboot hwdog htrans hports hsheaves hsearches hgroups hsamplePhase hdetq hspks hframes hnextFrame hholds hwin hlnk hfuses hses hpairs hkey hcores hfence hsage husl heth hxsp hflash hflt htmrs hrtc hint hstl htag hreader hupd hfree hout ?_
        assumption
    clear_value x
    refine Keep.ite ?_ ?_
    · refine evt_keeps hregs heth hint hstl hout ?_
      refine updEth_keeps heth ?_
      assumption
    · assumption

theorem hostBad_keeps (hregs : Keep.regs P) (heth : Keep.eth P) (hint : Keep.int P) (hstl : Keep.stl P) (hout : Keep.out P) {o} {s : State} (h : P s) : P (hostBad o s) := by
  unfold hostBad
  refine Keep.ite ?_ ?_
  · assumption
  · refine evt_keeps hregs heth hint hstl hout ?_
    assumption

theorem debugAnswer_keeps (hout : Keep.out P) {s : State} {e1} (h : P s) : P (debugAnswer s e1) := by
  unfold debugAnswer
  refine Keep.set_out hout ?_
  assumption

theorem debugRead_keeps (hregs : Keep.regs P) (hlatches : Keep.latches P) (hholds : Keep.holds P) (hcores : Keep.cores P) (heth : Keep.eth P) (hflt : Keep.flt P) (htmrs : Keep.tmrs P) (hint : Keep.int P) (hstl : Keep.stl P) (hout : Keep.out P) {a} {s : State} (h : P s) : P (debugRead a s) := by
  unfold debugRead
  refine Keep.ite ?_ ?_
  · assumption
  · extract_lets -underBinder -merge -useContext +onlyGivenNames x
    have hx : P x.2 := by
      subst x
      refine outRead_keeps hregs hlatches hholds hcores heth hflt htmrs hint hstl hout ?_
      assumption
    clear_value x
    refine debugAnswer_keeps hout ?_
    refine showRead_keeps hout ?_
    dsimp -zeta only
    assumption

theorem debugWrite_keeps (hregs : Keep.regs P) (hlatches : Keep.latches P) (hstaged : Keep.staged P) (hmem : Keep.mem P) (htlm : Keep.tlm P) (htime : Keep.time P) (hpower : Keep.power P) (hboot : Keep.boot P) (hwdog : Keep.wdog P) (htrans : Keep.trans P) (hports : Keep.ports P) (hsheaves : Keep.sheaves P) (hsearches : Keep.searches P) (hgroups : Keep.groups P) (hsamplePhase : Keep.samplePhase P) (hdetq : Keep.detq P) (hspks : Keep.spks P) (hframes : Keep.frames P) (hnextFrame : Keep.nextFrame P) (hholds : Keep.holds P) (hwin : Keep.win P) (hlnk : Keep.lnk P) (hfuses : Keep.fuses P) (hses : Keep.ses P) (hpairs : Keep.pairs P) (hkey : Keep.key P) (hcores : Keep.cores P) (hfence : Keep.fence P) (hsage : Keep.sage P) (husl : Keep.usl P) (heth : Keep.eth P) (hxsp : Keep.xsp P) (hflash : Keep.flash P) (hflt : Keep.flt P) (htmrs : Keep.tmrs P) (hrtc : Keep.rtc P) (hint : Keep.int P) (hstl : Keep.stl P) (htag : Keep.tag P) (hreader : Keep.reader P) (hupd : Keep.upd P) (hfree : Keep.free P) (hout : Keep.out P) {a} {v} {s : State} (h : P s) : P (debugWrite a v s) := by
  unfold debugWrite
  refine Keep.ite ?_ ?_
  · assumption
  · extract_lets -underBinder -merge -useContext +onlyGivenNames x
    have hx : P x.2 := by
      subst x
      refine outWrite_keeps hregs hlatches hstaged hmem htlm htime hpower hboot hwdog htrans hports hsheaves hsearches hgroups hsamplePhase hdetq hspks hframes hnextFrame hholds hwin hlnk hfuses hses hpairs hkey hcores hfence hsage husl heth hxsp hflash hflt htmrs hrtc hint hstl htag hreader hupd hfree hout ?_
      assumption
    clear_value x
    refine debugAnswer_keeps hout ?_
    assumption

theorem mgmtRespond_keeps (hregs : Keep.regs P) (hout : Keep.out P) {s : State} {lane} {op} {seq} {addr} {count} {status} {data} (h : P s) : P (mgmtRespond s lane op seq addr count status data) := by
  unfold mgmtRespond
  split
  · refine Keep.ite ?_ ?_
    · refine bump_keeps hregs ?_
      refine Keep.set_out hout ?_
      assumption
    · assumption
  · assumption

theorem mgmtPerform_keeps (hregs : Keep.regs P) (hlatches : Keep.latches P) (hstaged : Keep.staged P) (hmem : Keep.mem P) (htlm : Keep.tlm P) (htime : Keep.time P) (hpower : Keep.power P) (hboot : Keep.boot P) (hwdog : Keep.wdog P) (htrans : Keep.trans P) (hports : Keep.ports P) (hsheaves : Keep.sheaves P) (hsearches : Keep.searches P) (hgroups : Keep.groups P) (hsamplePhase : Keep.samplePhase P) (hdetq : Keep.detq P) (hspks : Keep.spks P) (hframes : Keep.frames P) (hnextFrame : Keep.nextFrame P) (hholds : Keep.holds P) (hwin : Keep.win P) (hlnk : Keep.lnk P) (hfuses : Keep.fuses P) (hses : Keep.ses P) (hpairs : Keep.pairs P) (hkey : Keep.key P) (hcores : Keep.cores P) (hfence : Keep.fence P) (hsage : Keep.sage P) (husl : Keep.usl P) (heth : Keep.eth P) (hxsp : Keep.xsp P) (hflash : Keep.flash P) (hflt : Keep.flt P) (htmrs : Keep.tmrs P) (hrtc : Keep.rtc P) (hint : Keep.int P) (hstl : Keep.stl P) (htag : Keep.tag P) (hreader : Keep.reader P) (hupd : Keep.upd P) (hfree : Keep.free P) (hout : Keep.out P) {op} {s : State} (h : P s) : P (mgmtPerform op s) := by
  unfold mgmtPerform
  split
  · assumption
  · refine Keep.ite ?_ ?_
    · assumption
    · extract_lets -underBinder -merge -useContext +onlyGivenNames x
      have hx : P x := by
        subst x
        refine updEth_keeps heth ?_
        assumption
      clear_value x
      extract_lets -underBinder -merge -useContext +onlyGivenNames x
      clear_value x
      extract_lets -underBinder -merge -useContext +onlyGivenNames x
      clear_value x
      extract_lets -underBinder -merge -useContext +onlyGivenNames x
      clear_value x
      refine Keep.ite ?_ ?_
      · extract_lets -underBinder -merge -useContext +onlyGivenNames x
        have hx : P x.2 := by
          subst x
          refine portReads_keeps hregs hlatches hholds hcores heth hflt htmrs hint hstl hout ?_
          assumption
        clear_value x
        refine mgmtRespond_keeps hregs hout ?_
        assumption
      · extract_lets -underBinder -merge -useContext +onlyGivenNames x
        have hx : P x.2 := by
          subst x
          refine portWrites_keeps hregs hlatches hstaged hmem htlm htime hpower hboot hwdog htrans hports hsheaves hsearches hgroups hsamplePhase hdetq hspks hframes hnextFrame hholds hwin hlnk hfuses hses hpairs hkey hcores hfence hsage husl heth hxsp hflash hflt htmrs hrtc hint hstl htag hreader hupd hfree hout ?_
          assumption
        clear_value x
        refine Keep.ite ?_ ?_
        · refine mgmtRespond_keeps hregs hout ?_
          assumption
        · assumption

theorem execRegisterWrite_keeps (hregs : Keep.regs P) (hlatches : Keep.latches P) (hstaged : Keep.staged P) (hmem : Keep.mem P) (htlm : Keep.tlm P) (htime : Keep.time P) (hpower : Keep.power P) (hboot : Keep.boot P) (hwdog : Keep.wdog P) (htrans : Keep.trans P) (hports : Keep.ports P) (hsheaves : Keep.sheaves P) (hsearches : Keep.searches P) (hgroups : Keep.groups P) (hsamplePhase : Keep.samplePhase P) (hdetq : Keep.detq P) (hspks : Keep.spks P) (hframes : Keep.frames P) (hnextFrame : Keep.nextFrame P) (hholds : Keep.holds P) (hwin : Keep.win P) (hlnk : Keep.lnk P) (hfuses : Keep.fuses P) (hses : Keep.ses P) (hpairs : Keep.pairs P) (hkey : Keep.key P) (hcores : Keep.cores P) (hfence : Keep.fence P) (hsage : Keep.sage P) (husl : Keep.usl P) (heth : Keep.eth P) (hxsp : Keep.xsp P) (hflash : Keep.flash P) (hflt : Keep.flt P) (htmrs : Keep.tmrs P) (hrtc : Keep.rtc P) (hint : Keep.int P) (hstl : Keep.stl P) (htag : Keep.tag P) (hreader : Keep.reader P) (hupd : Keep.upd P) (hfree : Keep.free P) (hout : Keep.out P) {i} {a} {v} {s : State} (h : P s) {t : State} (e : execRegisterWrite i a v s = .next t) : P t := by
  obtain rfl := Host.Outcome.next.inj e
  refine Keep.ite ?_ ?_
  · refine debugWrite_keeps hregs hlatches hstaged hmem htlm htime hpower hboot hwdog htrans hports hsheaves hsearches hgroups hsamplePhase hdetq hspks hframes hnextFrame hholds hwin hlnk hfuses hses hpairs hkey hcores hfence hsage husl heth hxsp hflash hflt htmrs hrtc hint hstl htag hreader hupd hfree hout ?_
    assumption
  · refine regWrite_keeps hregs hlatches hstaged hmem htlm htime hpower hboot hwdog htrans hports hsheaves hsearches hgroups hsamplePhase hdetq hspks hframes hnextFrame hholds hwin hlnk hfuses hses hpairs hkey hcores hfence hsage husl heth hxsp hflash hflt htmrs hrtc hint hstl htag hreader hupd hfree hout ?_
    assumption

theorem execGroupLatchRead_keeps (hregs : Keep.regs P) (hlatches : Keep.latches P) (hholds : Keep.holds P) (hcores : Keep.cores P) (heth : Keep.eth P) (hflt : Keep.flt P) (htmrs : Keep.tmrs P) (hint : Keep.int P) (hstl : Keep.stl P) (hout : Keep.out P) {i} {a} {s : State} (h : P s) {t : State} (e : execGroupLatchRead i a s = .next t) : P t := by
  obtain rfl := Host.Outcome.next.inj e
  refine Keep.ite ?_ ?_
  · refine debugRead_keeps hregs hlatches hholds hcores heth hflt htmrs hint hstl hout ?_
    assumption
  · refine showRead_keeps hout ?_
    refine regRead_keeps hregs hlatches hholds hcores heth htmrs hint hstl hout ?_
    assumption

theorem execHostRead_keeps (hregs : Keep.regs P) (hlatches : Keep.latches P) (hholds : Keep.holds P) (hcores : Keep.cores P) (heth : Keep.eth P) (hflt : Keep.flt P) (htmrs : Keep.tmrs P) (hint : Keep.int P) (hstl : Keep.stl P) (hout : Keep.out P) {a} {n} {s : State} (h : P s) {t : State} (e : execHostRead a n s = .next t) : P t := by
  obtain rfl := Host.Outcome.next.inj e
  refine hostRead_keeps hregs hlatches hholds hcores heth hflt htmrs hint hstl hout ?_
  assumption

theorem execHostWrite_keeps (hregs : Keep.regs P) (hlatches : Keep.latches P) (hstaged : Keep.staged P) (hmem : Keep.mem P) (htlm : Keep.tlm P) (htime : Keep.time P) (hpower : Keep.power P) (hboot : Keep.boot P) (hwdog : Keep.wdog P) (htrans : Keep.trans P) (hports : Keep.ports P) (hsheaves : Keep.sheaves P) (hsearches : Keep.searches P) (hgroups : Keep.groups P) (hsamplePhase : Keep.samplePhase P) (hdetq : Keep.detq P) (hspks : Keep.spks P) (hframes : Keep.frames P) (hnextFrame : Keep.nextFrame P) (hholds : Keep.holds P) (hwin : Keep.win P) (hlnk : Keep.lnk P) (hfuses : Keep.fuses P) (hses : Keep.ses P) (hpairs : Keep.pairs P) (hkey : Keep.key P) (hcores : Keep.cores P) (hfence : Keep.fence P) (hsage : Keep.sage P) (husl : Keep.usl P) (heth : Keep.eth P) (hxsp : Keep.xsp P) (hflash : Keep.flash P) (hflt : Keep.flt P) (htmrs : Keep.tmrs P) (hrtc : Keep.rtc P) (hint : Keep.int P) (hstl : Keep.stl P) (htag : Keep.tag P) (hreader : Keep.reader P) (hupd : Keep.upd P) (hfree : Keep.free P) (hout : Keep.out P) {a} {data} {s : State} (h : P s) {t : State} (e : execHostWrite a data s = .next t) : P t := by
  unfold execHostWrite at e
  split at e
  · obtain rfl := Host.Outcome.next.inj e
    refine hostWrite_keeps hregs hlatches hstaged hmem htlm htime hpower hboot hwdog htrans hports hsheaves hsearches hgroups hsamplePhase hdetq hspks hframes hnextFrame hholds hwin hlnk hfuses hses hpairs hkey hcores hfence hsage husl heth hxsp hflash hflt htmrs hrtc hint hstl htag hreader hupd hfree hout ?_
    assumption
  · cases e

theorem execHostStatus_keeps (heth : Keep.eth P) (hout : Keep.out P) {s : State} (h : P s) {t : State} (e : execHostStatus s = .next t) : P t := by
  obtain rfl := Host.Outcome.next.inj e
  refine hostStatus_keeps heth hout ?_
  assumption

theorem execHostAbort_keeps (hregs : Keep.regs P) (hlatches : Keep.latches P) (hstaged : Keep.staged P) (hmem : Keep.mem P) (htlm : Keep.tlm P) (htime : Keep.time P) (hpower : Keep.power P) (hboot : Keep.boot P) (hwdog : Keep.wdog P) (htrans : Keep.trans P) (hports : Keep.ports P) (hsheaves : Keep.sheaves P) (hsearches : Keep.searches P) (hgroups : Keep.groups P) (hsamplePhase : Keep.samplePhase P) (hdetq : Keep.detq P) (hspks : Keep.spks P) (hframes : Keep.frames P) (hnextFrame : Keep.nextFrame P) (hholds : Keep.holds P) (hwin : Keep.win P) (hlnk : Keep.lnk P) (hfuses : Keep.fuses P) (hses : Keep.ses P) (hpairs : Keep.pairs P) (hkey : Keep.key P) (hcores : Keep.cores P) (hfence : Keep.fence P) (hsage : Keep.sage P) (husl : Keep.usl P) (heth : Keep.eth P) (hxsp : Keep.xsp P) (hflash : Keep.flash P) (hflt : Keep.flt P) (htmrs : Keep.tmrs P) (hrtc : Keep.rtc P) (hint : Keep.int P) (hstl : Keep.stl P) (htag : Keep.tag P) (hreader : Keep.reader P) (hupd : Keep.upd P) (hfree : Keep.free P) (hout : Keep.out P) {a} {data} {reads} {s : State} (h : P s) {t : State} (e : execHostAbort a data reads s = .next t) : P t := by
  unfold execHostAbort at e
  split at e
  · obtain rfl := Host.Outcome.next.inj e
    refine hostAbandon_keeps hregs hlatches hstaged hmem htlm htime hpower hboot hwdog htrans hports hsheaves hsearches hgroups hsamplePhase hdetq hspks hframes hnextFrame hholds hwin hlnk hfuses hses hpairs hkey hcores hfence hsage husl heth hxsp hflash hflt htmrs hrtc hint hstl htag hreader hupd hfree hout ?_
    assumption
  · cases e

theorem execHostBadCommand_keeps (hregs : Keep.regs P) (heth : Keep.eth P) (hint : Keep.int P) (hstl : Keep.stl P) (hout : Keep.out P) {octet} {s : State} (h : P s) {t : State} (e : execHostBadCommand octet s = .next t) : P t := by
  obtain rfl := Host.Outcome.next.inj e
  refine hostBad_keeps hregs heth hint hstl hout ?_
  assumption

theorem execMgmtRead_keeps (hregs : Keep.regs P) (hlatches : Keep.latches P) (hstaged : Keep.staged P) (hmem : Keep.mem P) (htlm : Keep.tlm P) (htime : Keep.time P) (hpower : Keep.power P) (hboot : Keep.boot P) (hwdog : Keep.wdog P) (htrans : Keep.trans P) (hports : Keep.ports P) (hsheaves : Keep.sheaves P) (hsearches : Keep.searches P) (hgroups : Keep.groups P) (hsamplePhase : Keep.samplePhase P) (hdetq : Keep.detq P) (hspks : Keep.spks P) (hframes : Keep.frames P) (hnextFrame : Keep.nextFrame P) (hholds : Keep.holds P) (hwin : Keep.win P) (hlnk : Keep.lnk P) (hfuses : Keep.fuses P) (hses : Keep.ses P) (hpairs : Keep.pairs P) (hkey : Keep.key P) (hcores : Keep.cores P) (hfence : Keep.fence P) (hsage : Keep.sage P) (husl : Keep.usl P) (heth : Keep.eth P) (hxsp : Keep.xsp P) (hflash : Keep.flash P) (hflt : Keep.flt P) (htmrs : Keep.tmrs P) (hrtc : Keep.rtc P) (hint : Keep.int P) (hstl : Keep.stl P) (htag : Keep.tag P) (hreader : Keep.reader P) (hupd : Keep.upd P) (hfree : Keep.free P) (hout : Keep.out P) {s : State} (h : P s) {t : State} (e : execMgmtRead s = .next t) : P t := by
  obtain rfl := Host.Outcome.next.inj e
  refine mgmtPerform_keeps hregs hlatches hstaged hmem htlm htime hpower hboot hwdog htrans hports hsheaves hsearches hgroups hsamplePhase hdetq hspks hframes hnextFrame hholds hwin hlnk hfuses hses hpairs hkey hcores hfence hsage husl heth hxsp hflash hflt htmrs hrtc hint hstl htag hreader hupd hfree hout ?_
  assumption

theorem execMgmtWrite_keeps (hregs : Keep.regs P) (hlatches : Keep.latches P) (hstaged : Keep.staged P) (hmem : Keep.mem P) (htlm : Keep.tlm P) (htime : Keep.time P) (hpower : Keep.power P) (hboot : Keep.boot P) (hwdog : Keep.wdog P) (htrans : Keep.trans P) (hports : Keep.ports P) (hsheaves : Keep.sheaves P) (hsearches : Keep.searches P) (hgroups : Keep.groups P) (hsamplePhase : Keep.samplePhase P) (hdetq : Keep.detq P) (hspks : Keep.spks P) (hframes : Keep.frames P) (hnextFrame : Keep.nextFrame P) (hholds : Keep.holds P) (hwin : Keep.win P) (hlnk : Keep.lnk P) (hfuses : Keep.fuses P) (hses : Keep.ses P) (hpairs : Keep.pairs P) (hkey : Keep.key P) (hcores : Keep.cores P) (hfence : Keep.fence P) (hsage : Keep.sage P) (husl : Keep.usl P) (heth : Keep.eth P) (hxsp : Keep.xsp P) (hflash : Keep.flash P) (hflt : Keep.flt P) (htmrs : Keep.tmrs P) (hrtc : Keep.rtc P) (hint : Keep.int P) (hstl : Keep.stl P) (htag : Keep.tag P) (hreader : Keep.reader P) (hupd : Keep.upd P) (hfree : Keep.free P) (hout : Keep.out P) {s : State} (h : P s) {t : State} (e : execMgmtWrite s = .next t) : P t := by
  obtain rfl := Host.Outcome.next.inj e
  refine mgmtPerform_keeps hregs hlatches hstaged hmem htlm htime hpower hboot hwdog htrans hports hsheaves hsearches hgroups hsamplePhase hdetq hspks hframes hnextFrame hholds hwin hlnk hfuses hses hpairs hkey hcores hfence hsage husl heth hxsp hflash hflt htmrs hrtc hint hstl htag hreader hupd hfree hout ?_
  assumption

theorem crRead_keeps (hcores : Keep.cores P) (hfree : Keep.free P) {s : State} {k} {n} (h : P s) : P (crRead s k n).2 := by
  unfold crRead
  split
  · extract_lets -underBinder -merge -useContext +onlyGivenNames x
    clear_value x
    extract_lets -underBinder -merge -useContext +onlyGivenNames x
    clear_value x
    split
    · dsimp -zeta only
      refine State.updCore_keeps hcores ?_
      assumption
    · dsimp -zeta only
      assumption
  · dsimp -zeta only
    refine Keep.ite ?_ ?_
    · refine bumpFree_keeps hfree ?_
      assumption
    · assumption

theorem crWrite_keeps (hcores : Keep.cores P) {s : State} {k} {n} {v} (h : P s) : P (crWrite s k n v) := by
  unfold crWrite
  extract_lets -underBinder -merge -useContext +onlyGivenNames x
  clear_value x
  split
  · refine State.updCore_keeps hcores ?_
    assumption
  · refine State.updCore_keeps hcores ?_
    assumption

theorem stallOver_keeps (hregs : Keep.regs P) {s : State} {k} (h : P s) : P (stallOver s k) := by
  unfold stallOver
  refine Keep.ite ?_ ?_
  · refine rsetBit_keeps hregs ?_
    assumption
  · assumption

theorem takeTrap_keeps (hregs : Keep.regs P) (hlatches : Keep.latches P) (hstaged : Keep.staged P) (hmem : Keep.mem P) (htlm : Keep.tlm P) (htime : Keep.time P) (hpower : Keep.power P) (hboot : Keep.boot P) (hwdog : Keep.wdog P) (htrans : Keep.trans P) (hports : Keep.ports P) (hsheaves : Keep.sheaves P) (hsearches : Keep.searches P) (hgroups : Keep.groups P) (hsamplePhase : Keep.samplePhase P) (hdetq : Keep.detq P) (hspks : Keep.spks P) (hframes : Keep.frames P) (hnextFrame : Keep.nextFrame P) (hholds : Keep.holds P) (hwin : Keep.win P) (hlnk : Keep.lnk P) (hfuses : Keep.fuses P) (hses : Keep.ses P) (hpairs : Keep.pairs P) (hkey : Keep.key P) (hcores : Keep.cores P) (hfence : Keep.fence P) (hsage : Keep.sage P) (husl : Keep.usl P) (heth : Keep.eth P) (hxsp : Keep.xsp P) (hflash : Keep.flash P) (hflt : Keep.flt P) (htmrs : Keep.tmrs P) (hrtc : Keep.rtc P) (hint : Keep.int P) (hstl : Keep.stl P) (htag : Keep.tag P) (hreader : Keep.reader P) (hupd : Keep.upd P) (hfree : Keep.free P) (hout : Keep.out P) {s : State} {k} {t2} {tnpc} (h : P s) : P (takeTrap s k t2 tnpc) := by
  unfold takeTrap
  extract_lets -underBinder -merge -useContext +onlyGivenNames x
  have hx : P x := by
    subst x
    refine stallOver_keeps hregs ?_
    assumption
  clear_value x
  extract_lets -underBinder -merge -useContext +onlyGivenNames x
  clear_value x
  refine Keep.ite ?_ ?_
  · refine Keep.ite ?_ ?_
    · refine chipReset_keeps hregs hlatches hstaged hmem htlm htime hpower hboot hwdog htrans hports hsheaves hsearches hgroups hsamplePhase hdetq hspks hframes hnextFrame hholds hwin hlnk hfuses hses hpairs hkey hcores hfence hsage husl heth hxsp hflash hflt htmrs hrtc hint hstl htag hreader hupd hfree hout ?_
      assumption
    · refine State.updCore_keeps hcores ?_
      assumption
  · extract_lets -underBinder -merge -useContext +onlyGivenNames x
    have hx : P x := by
      subst x
      refine rsetGroup_keeps hregs ?_
      refine rset_keeps hregs ?_
      assumption
    clear_value x
    extract_lets -underBinder -merge -useContext +onlyGivenNames x
    have hx : P x := by
      subst x
      refine Keep.ite ?_ ?_
      · refine evt_keeps hregs heth hint hstl hout ?_
        assumption
      · assumption
    clear_value x
    refine Keep.ite ?_ ?_
    · extract_lets -underBinder -merge -useContext +onlyGivenNames x
      have hx : P x := by
        subst x
        refine fault_keeps hregs heth hflt hint hstl hout ?_
        refine evt_keeps hregs heth hint hstl hout ?_
        assumption
      clear_value x
      refine tilStop_keeps hregs hmem hholds hwin hlnk hses hkey hcores hsage heth hflt hint hstl hfree hout ?_
      assumption
    · refine State.updCore_keeps hcores ?_
      assumption

theorem takeInterrupt_keeps (hregs : Keep.regs P) (hcores : Keep.cores P) (hfree : Keep.free P) {s : State} {k} (h : P s) : P (takeInterrupt s k) := by
  unfold takeInterrupt
  extract_lets -underBinder -merge -useContext +onlyGivenNames x
  clear_value x
  refine Keep.ite ?_ ?_
  · assumption
  · split
    · refine bumpFree_keeps hfree ?_
      refine State.updCore_keeps hcores ?_
      refine stallOver_keeps hregs ?_
      assumption
    · assumption

theorem engineReads_keeps (hregs : Keep.regs P) (hlatches : Keep.latches P) (hholds : Keep.holds P) (hcores : Keep.cores P) (heth : Keep.eth P) (hflt : Keep.flt P) (htmrs : Keep.tmrs P) (hint : Keep.int P) (hstl : Keep.stl P) (hout : Keep.out P) {eng} {init} {lvl} {x4} {x5} {x6 : State} (h : P x6) : P (engineReads eng init lvl x4 x5 x6).2.2.2 := by
  induction x5 generalizing eng init lvl x4 x6 with
  | zero =>
    unfold engineReads
    dsimp -zeta only
    assumption
  | succ n ih =>
    unfold engineReads
    split
    · dsimp -zeta only
      refine Keep.pat2 ?_ (by assumption)
      refine fenceCheck_keeps hregs heth hint hstl hout ?_
      assumption
    · extract_lets -underBinder -merge -useContext +onlyGivenNames x
      have hx : P x.2.2 := by
        subst x
        refine fabricRead_keeps hregs hlatches hholds hcores heth hflt htmrs hint hstl hout ?_
        refine Keep.pat2 ?_ (by assumption)
        refine fenceCheck_keeps hregs heth hint hstl hout ?_
        assumption
      clear_value x
      extract_lets -underBinder -merge -useContext +onlyGivenNames x
      have hx : P x.2.2.2 := by
        subst x
        refine ih ?_
        assumption
      clear_value x
      dsimp -zeta only
      assumption

theorem engineWrites_keeps (hregs : Keep.regs P) (hlatches : Keep.latches P) (hstaged : Keep.staged P) (hmem : Keep.mem P) (htlm : Keep.tlm P) (htime : Keep.time P) (hpower : Keep.power P) (hboot : Keep.boot P) (hwdog : Keep.wdog P) (htrans : Keep.trans P) (hports : Keep.ports P) (hsheaves : Keep.sheaves P) (hsearches : Keep.searches P) (hgroups : Keep.groups P) (hsamplePhase : Keep.samplePhase P) (hdetq : Keep.detq P) (hspks : Keep.spks P) (hframes : Keep.frames P) (hnextFrame : Keep.nextFrame P) (hholds : Keep.holds P) (hwin : Keep.win P) (hlnk : Keep.lnk P) (hfuses : Keep.fuses P) (hses : Keep.ses P) (hpairs : Keep.pairs P) (hkey : Keep.key P) (hcores : Keep.cores P) (hfence : Keep.fence P) (hsage : Keep.sage P) (husl : Keep.usl P) (heth : Keep.eth P) (hxsp : Keep.xsp P) (hflash : Keep.flash P) (hflt : Keep.flt P) (htmrs : Keep.tmrs P) (hrtc : Keep.rtc P) (hint : Keep.int P) (hstl : Keep.stl P) (htag : Keep.tag P) (hreader : Keep.reader P) (hupd : Keep.upd P) (hfree : Keep.free P) (hout : Keep.out P) {eng} {init} {lvl} {x4} {x5} {x6 : State} (h : P x6) : P (engineWrites eng init lvl x4 x5 x6).2.2 := by
  induction x5 generalizing eng init lvl x4 x6 with
  | nil =>
    unfold engineWrites
    dsimp -zeta only
    assumption
  | cons a r ih =>
    unfold engineWrites
    split
    · dsimp -zeta only
      refine Keep.pat2 ?_ (by assumption)
      refine fenceCheck_keeps hregs heth hint hstl hout ?_
      assumption
    · extract_lets -underBinder -merge -useContext +onlyGivenNames x
      have hx : P x.2.2 := by
        subst x
        refine ih ?_
        refine fabricWrite_keeps hregs hlatches hstaged hmem htlm htime hpower hboot hwdog htrans hports hsheaves hsearches hgroups hsamplePhase hdetq hspks hframes hnextFrame hholds hwin hlnk hfuses hses hpairs hkey hcores hfence hsage husl heth hxsp hflash hflt htmrs hrtc hint hstl htag hreader hupd hfree hout ?_
        refine Keep.pat2 ?_ (by assumption)
        refine fenceCheck_keeps hregs heth hint hstl hout ?_
        assumption
      clear_value x
      dsimp -zeta only
      assumption

theorem engineStore_keeps (hregs : Keep.regs P) (hlatches : Keep.latches P) (hstaged : Keep.staged P) (hmem : Keep.mem P) (htlm : Keep.tlm P) (htime : Keep.time P) (hpower : Keep.power P) (hboot : Keep.boot P) (hwdog : Keep.wdog P) (htrans : Keep.trans P) (hports : Keep.ports P) (hsheaves : Keep.sheaves P) (hsearches : Keep.searches P) (hgroups : Keep.groups P) (hsamplePhase : Keep.samplePhase P) (hdetq : Keep.detq P) (hspks : Keep.spks P) (hframes : Keep.frames P) (hnextFrame : Keep.nextFrame P) (hholds : Keep.holds P) (hwin : Keep.win P) (hlnk : Keep.lnk P) (hfuses : Keep.fuses P) (hses : Keep.ses P) (hpairs : Keep.pairs P) (hkey : Keep.key P) (hcores : Keep.cores P) (hfence : Keep.fence P) (hsage : Keep.sage P) (husl : Keep.usl P) (heth : Keep.eth P) (hxsp : Keep.xsp P) (hflash : Keep.flash P) (hflt : Keep.flt P) (htmrs : Keep.tmrs P) (hrtc : Keep.rtc P) (hint : Keep.int P) (hstl : Keep.stl P) (htag : Keep.tag P) (hreader : Keep.reader P) (hupd : Keep.upd P) (hfree : Keep.free P) (hout : Keep.out P) {eng} {init} {lvl} {a} {ws} {s : State} (h : P s) : P (engineStore eng init lvl a ws s).2 := by
  unfold engineStore
  extract_lets -underBinder -merge -useContext +onlyGivenNames x
  have hx : P x.2.2 := by
    subst x
    refine engineWrites_keeps hregs hlatches hstaged hmem htlm htime hpower hboot hwdog htrans hports hsheaves hsearches hgroups hsamplePhase hdetq hspks hframes hnextFrame hholds hwin hlnk hfuses hses hpairs hkey hcores hfence hsage husl heth hxsp hflash hflt htmrs hrtc hint hstl htag hreader hupd hfree hout ?_
    assumption
  clear_value x
  dsimp -zeta only
  refine healRange_keeps hflt ?_
  assumption

theorem flashDone_keeps (hregs : Keep.regs P) (hlatches : Keep.latches P) (hstaged : Keep.staged P) (hmem : Keep.mem P) (htlm : Keep.tlm P) (htime : Keep.time P) (hpower : Keep.power P) (hboot : Keep.boot P) (hwdog : Keep.wdog P) (htrans : Keep.trans P) (hports : Keep.ports P) (hsheaves : Keep.sheaves P) (hsearches : Keep.searches P) (hgroups : Keep.groups P) (hsamplePhase : Keep.samplePhase P) (hdetq : Keep.detq P) (hspks : Keep.spks P) (hframes : Keep.frames P) (hnextFrame : Keep.nextFrame P) (hholds : Keep.holds P) (hwin : Keep.win P) (hlnk : Keep.lnk P) (hfuses : Keep.fuses P) (hses : Keep.ses P) (hpairs : Keep.pairs P) (hkey : Keep.key P) (hcores : Keep.cores P) (hfence : Keep.fence P) (hsage : Keep.sage P) (husl : Keep.usl P) (heth : Keep.eth P) (hxsp : Keep.xsp P) (hflash : Keep.flash P) (hflt : Keep.flt P) (htmrs : Keep.tmrs P) (hrtc : Keep.rtc P) (hint : Keep.int P) (hstl : Keep.stl P) (htag : Keep.tag P) (hreader : Keep.reader P) (hupd : Keep.upd P) (hfree : Keep.free P) (hout : Keep.out P) {o} {s : State} (h : P s) : P (flashDone o s) := by
  unfold flashDone
  split
  · assumption
  · extract_lets -underBinder -merge -useContext +onlyGivenNames x
    clear_value x
    refine Keep.ite ?_ ?_
    · extract_lets -underBinder -merge -useContext +onlyGivenNames x
      have hx : P x.2 := by
        subst x
        refine engineStore_keeps hregs hlatches hstaged hmem htlm htime hpower hboot hwdog htrans hports hsheaves hsearches hgroups hsamplePhase hdetq hspks hframes hnextFrame hholds hwin hlnk hfuses hses hpairs hkey hcores hfence hsage husl heth hxsp hflash hflt htmrs hrtc hint hstl htag hreader hupd hfree hout ?_
        assumption
      clear_value x
      refine xspEnd_keeps hregs heth hxsp hint hstl hout ?_
      assumption
    · refine Keep.ite ?_ ?_
      · extract_lets -underBinder -merge -useContext +onlyGivenNames x
        have hx : P x.2.2.2 := by
          subst x
          refine engineReads_keeps hregs hlatches hholds hcores heth hflt htmrs hint hstl hout ?_
          assumption
        clear_value x
        extract_lets -underBinder -merge -useContext +onlyGivenNames x
        have hx : P x := by
          subst x
          refine Keep.ite ?_ ?_
          · refine poisonMet_keeps hregs heth hflt hint hstl hout ?_
            assumption
          · assumption
        clear_value x
        extract_lets -underBinder -merge -useContext +onlyGivenNames x
        clear_value x
        extract_lets -underBinder -merge -useContext +onlyGivenNames x
        clear_value x
        refine Keep.ite ?_ ?_
        · refine xspEnd_keeps hregs heth hxsp hint hstl hout ?_
          refine breakRange_keeps hflash hfree ?_
          assumption
        · refine Keep.ite ?_ ?_
          · refine xspEnd_keeps hregs heth hxsp hint hstl hout ?_
            refine flashPut_keeps hflash ?_
            assumption
          · refine xspEnd_keeps hregs heth hxsp hint hstl hout ?_
            refine breakRange_keeps hflash hfree ?_
            assumption
      · refine Keep.ite ?_ ?_
        · refine xspEnd_keeps hregs heth hxsp hint hstl hout ?_
          refine flashErase_keeps hflash ?_
          assumption
        · refine xspEnd_keeps hregs heth hxsp hint hstl hout ?_
          refine breakRange_keeps hflash hfree ?_
          assumption

theorem msgOver_keeps (hregs : Keep.regs P) (hkey : Keep.key P) (heth : Keep.eth P) (hint : Keep.int P) (hstl : Keep.stl P) (hout : Keep.out P) {s : State} {st} {typ} {h3} (h : P s) : P (msgOver s st typ h3) := by
  unfold msgOver
  refine messageEnd_keeps hregs heth hint hstl hout ?_
  refine Keep.set_key hkey ?_
  assumption

theorem msgCheck_keeps (hregs : Keep.regs P) (hlatches : Keep.latches P) (hholds : Keep.holds P) (hkey : Keep.key P) (hcores : Keep.cores P) (heth : Keep.eth P) (hflt : Keep.flt P) (htmrs : Keep.tmrs P) (hint : Keep.int P) (hstl : Keep.stl P) (hout : Keep.out P) {s : State} (h : P s) : P (msgCheck s) := by
  unfold msgCheck
  split
  · assumption
  · refine Keep.ite ?_ ?_
    · assumption
    · refine Keep.ite ?_ ?_
      · refine msgOver_keeps hregs hkey heth hint hstl hout ?_
        assumption
      · refine Keep.ite ?_ ?_
        · refine msgOver_keeps hregs hkey heth hint hstl hout ?_
          assumption
        · extract_lets -underBinder -merge -useContext +onlyGivenNames x
          have hx : P x.2.2.2 := by
            subst x
            refine engineReads_keeps hregs hlatches hholds hcores heth hflt htmrs hint hstl hout ?_
            assumption
          clear_value x
          extract_lets -underBinder -merge -useContext +onlyGivenNames x
          have hx : P x := by
            subst x
            refine Keep.ite ?_ ?_
            · refine poisonMet_keeps hregs heth hflt hint hstl hout ?_
              assumption
            · assumption
          clear_value x
          refine Keep.ite ?_ ?_
          · refine msgOver_keeps hregs hkey heth hint hstl hout ?_
            assumption
          · extract_lets -underBinder -merge -useContext +onlyGivenNames x
            clear_value x
            split
            · refine Keep.set_key hkey ?_
              assumption
            · refine msgOver_keeps hregs hkey heth hint hstl hout ?_
              assumption

theorem messageMirrors_keeps (hregs : Keep.regs P) {s : State} (h : P s) : P (messageMirrors s) := by
  unfold messageMirrors
  extract_lets -underBinder -merge -useContext +onlyGivenNames x
  clear_value x
  refine rsetFld_keeps hregs ?_
  refine rset_keeps hregs ?_
  refine rset_keeps hregs ?_
  assumption

theorem msgEffect_keeps (hregs : Keep.regs P) (hfuses : Keep.fuses P) (hkey : Keep.key P) {s : State} {m} (h : P s) : P (msgEffect s m).2.2 := by
  unfold msgEffect
  extract_lets -underBinder -merge -useContext +onlyGivenNames x
  clear_value x
  extract_lets -underBinder -merge -useContext +onlyGivenNames x
  clear_value x
  extract_lets -underBinder -merge -useContext +onlyGivenNames x
  have hx : P x := by
    subst x
    refine Keep.set_fuses hfuses ?_
    assumption
  clear_value x
  split
  · split
    · extract_lets -underBinder -merge -useContext +onlyGivenNames x
      have hx : P x := by
        subst x
        refine fillSlot_keeps hregs hkey ?_
        assumption
      clear_value x
      dsimp -zeta only
      assumption
    · dsimp -zeta only
      assumption
  · split
    · dsimp -zeta only
      refine Keep.set_fuses hfuses ?_
      assumption
    · split
      · dsimp -zeta only
        refine Keep.ite ?_ ?_
        · assumption
        · refine Keep.set_fuses hfuses ?_
          assumption
      · split
        · dsimp -zeta only
          refine Keep.set_fuses hfuses ?_
          assumption
        · dsimp -zeta only
          assumption

theorem messageDone_keeps (hregs : Keep.regs P) (hlatches : Keep.latches P) (hholds : Keep.holds P) (hfuses : Keep.fuses P) (hkey : Keep.key P) (hcores : Keep.cores P) (heth : Keep.eth P) (hflt : Keep.flt P) (htmrs : Keep.tmrs P) (hint : Keep.int P) (hstl : Keep.stl P) (hout : Keep.out P) {s : State} (h : P s) : P (messageDone s) := by
  unfold messageDone
  extract_lets -underBinder -merge -useContext +onlyGivenNames x
  have hx : P x := by
    subst x
    refine msgCheck_keeps hregs hlatches hholds hkey hcores heth hflt htmrs hint hstl hout ?_
    assumption
  clear_value x
  split
  · assumption
  · extract_lets -underBinder -merge -useContext +onlyGivenNames x
    have hx : P x.2.2 := by
      subst x
      refine msgEffect_keeps hregs hfuses hkey ?_
      assumption
    clear_value x
    refine msgOver_keeps hregs hkey heth hint hstl hout ?_
    refine messageMirrors_keeps hregs ?_
    assumption

theorem messageRow_keeps (hregs : Keep.regs P) (hlatches : Keep.latches P) (hholds : Keep.holds P) (hkey : Keep.key P) (hcores : Keep.cores P) (heth : Keep.eth P) (hflt : Keep.flt P) (htmrs : Keep.tmrs P) (hint : Keep.int P) (hstl : Keep.stl P) (hout : Keep.out P) {i} {v} {s : State} (h : P s) : P (messageRow i v s) := by
  unfold messageRow
  extract_lets -underBinder -merge -useContext +onlyGivenNames x
  clear_value x
  extract_lets -underBinder -merge -useContext +onlyGivenNames x
  have hx : P x := by
    subst x
    refine msgGo_keeps hregs hkey heth hint hstl hout ?_
    assumption
  clear_value x
  refine Keep.ite ?_ ?_
  · assumption
  · refine msgCheck_keeps hregs hlatches hholds hkey hcores heth hflt htmrs hint hstl hout ?_
    assumption

theorem attestationDone_keeps (hregs : Keep.regs P) (hlatches : Keep.latches P) (hstaged : Keep.staged P) (hmem : Keep.mem P) (htlm : Keep.tlm P) (htime : Keep.time P) (hpower : Keep.power P) (hboot : Keep.boot P) (hwdog : Keep.wdog P) (htrans : Keep.trans P) (hports : Keep.ports P) (hsheaves : Keep.sheaves P) (hsearches : Keep.searches P) (hgroups : Keep.groups P) (hsamplePhase : Keep.samplePhase P) (hdetq : Keep.detq P) (hspks : Keep.spks P) (hframes : Keep.frames P) (hnextFrame : Keep.nextFrame P) (hholds : Keep.holds P) (hwin : Keep.win P) (hlnk : Keep.lnk P) (hfuses : Keep.fuses P) (hses : Keep.ses P) (hpairs : Keep.pairs P) (hkey : Keep.key P) (hcores : Keep.cores P) (hfence : Keep.fence P) (hsage : Keep.sage P) (husl : Keep.usl P) (heth : Keep.eth P) (hxsp : Keep.xsp P) (hflash : Keep.flash P) (hflt : Keep.flt P) (htmrs : Keep.tmrs P) (hrtc : Keep.rtc P) (hint : Keep.int P) (hstl : Keep.stl P) (htag : Keep.tag P) (hreader : Keep.reader P) (hupd : Keep.upd P) (hfree : Keep.free P) (hout : Keep.out P) {s : State} (h : P s) : P (attestationDone s) := by
  unfold attestationDone
  split
  · assumption
  · extract_lets -underBinder -merge -useContext +onlyGivenNames x
    clear_value x
    extract_lets -underBinder -merge -useContext +onlyGivenNames x
    clear_value x
    extract_lets -underBinder -merge -useContext +onlyGivenNames x
    have hx : P x := by
      subst x
      refine Keep.set_key hkey ?_
      assumption
    clear_value x
    extract_lets -underBinder -merge -useContext +onlyGivenNames x
    have hx : P x.2 := by
      subst x
      refine engineStore_keeps hregs hlatches hstaged hmem htlm htime hpower hboot hwdog htrans hports hsheaves hsearches hgroups hsamplePhase hdetq hspks hframes hnextFrame hholds hwin hlnk hfuses hses hpairs hkey hcores hfence hsage husl heth hxsp hflash hflt htmrs hrtc hint hstl htag hreader hupd hfree hout ?_
      assumption
    clear_value x
    refine attEnd_keeps hregs heth hint hstl hout ?_
    assumption

theorem chunkRead_keeps (hregs : Keep.regs P) (hlatches : Keep.latches P) (hholds : Keep.holds P) (hcores : Keep.cores P) (heth : Keep.eth P) (hflash : Keep.flash P) (hflt : Keep.flt P) (htmrs : Keep.tmrs P) (hint : Keep.int P) (hstl : Keep.stl P) (hupd : Keep.upd P) (hout : Keep.out P) {s : State} (h : P s) : P (chunkRead s) := by
  unfold chunkRead
  split
  · assumption
  · refine Keep.ite ?_ ?_
    · assumption
    · refine Keep.ite ?_ ?_
      · refine applyEnd_keeps hregs heth hint hstl hupd hout ?_
        assumption
      · extract_lets -underBinder -merge -useContext +onlyGivenNames x
        have hx : P x.2.2.2 := by
          subst x
          refine engineReads_keeps hregs hlatches hholds hcores heth hflt htmrs hint hstl hout ?_
          assumption
        clear_value x
        extract_lets -underBinder -merge -useContext +onlyGivenNames x
        have hx : P x := by
          subst x
          refine Keep.ite ?_ ?_
          · refine poisonMet_keeps hregs heth hflt hint hstl hout ?_
            assumption
          · assumption
        clear_value x
        refine Keep.ite ?_ ?_
        · refine chunkTaken_keeps hregs heth hflash hint hstl hupd hout ?_
          assumption
        · refine applyEnd_keeps hregs heth hint hstl hupd hout ?_
          assumption

theorem aesServe_keeps (hregs : Keep.regs P) (hpairs : Keep.pairs P) (hkey : Keep.key P) (hcores : Keep.cores P) {s : State} {r} (h : P s) : P (aesServe s r) := by
  unfold aesServe
  extract_lets -underBinder -merge -useContext +onlyGivenNames x
  clear_value x
  split
  · refine completion_keeps hregs hcores ?_
    assumption
  · refine Keep.ite ?_ ?_
    · refine Keep.set_key hkey ?_
      assumption
    · extract_lets -underBinder -merge -useContext +onlyGivenNames x
      clear_value x
      extract_lets -underBinder -merge -useContext +onlyGivenNames x
      clear_value x
      refine completion_keeps hregs hcores ?_
      refine loadKey_keeps hpairs ?_
      assumption

theorem blocksAgain_keeps (hregs : Keep.regs P) (hpairs : Keep.pairs P) (hkey : Keep.key P) (hcores : Keep.cores P) {s : State} (h : P s) : P (blocksAgain s) := by
  unfold blocksAgain
  refine Keep.foldl ?_ ?_
  · refine Keep.set_key hkey ?_
    assumption
  · intro _ _ _
    refine aesServe_keeps hregs hpairs hkey hcores ?_
    assumption

theorem modesPull_keeps (hkey : Keep.key P) (hcores : Keep.cores P) {k} {x2} {x3 : State} (h : P x3) : P (modesPull k x2 x3) := by
  induction x2 generalizing k x3 with
  | zero =>
    unfold modesPull
    assumption
  | succ n ih =>
    unfold modesPull
    split
    · assumption
    · refine Keep.ite ?_ ?_
      · assumption
      · extract_lets -underBinder -merge -useContext +onlyGivenNames x
        clear_value x
        extract_lets -underBinder -merge -useContext +onlyGivenNames x
        have hx : P x := by
          subst x
          refine takeOut_keeps hcores ?_
          assumption
        clear_value x
        refine ih ?_
        refine Keep.set_key hkey ?_
        assumption

theorem modesEnd_keeps (hregs : Keep.regs P) (hcores : Keep.cores P) {s : State} {d} {st} (h : P s) : P (modesEnd s d st) := by
  unfold modesEnd
  refine completion_keeps hregs hcores ?_
  assumption

theorem modesNext_keeps (hkey : Keep.key P) (hcores : Keep.cores P) {s : State} (h : P s) : P (modesNext s) := by
  unfold modesNext
  extract_lets -underBinder -merge -useContext +onlyGivenNames x
  clear_value x
  extract_lets -underBinder -merge -useContext +onlyGivenNames x
  have hx : P x := by
    subst x
    refine Keep.set_key hkey ?_
    assumption
  clear_value x
  refine Keep.foldl ?_ ?_
  · assumption
  · intro _ _ _
    refine modesPull_keeps hkey hcores ?_
    assumption

theorem modesPart_keeps (hregs : Keep.regs P) (hlatches : Keep.latches P) (hstaged : Keep.staged P) (hmem : Keep.mem P) (htlm : Keep.tlm P) (htime : Keep.time P) (hpower : Keep.power P) (hboot : Keep.boot P) (hwdog : Keep.wdog P) (htrans : Keep.trans P) (hports : Keep.ports P) (hsheaves : Keep.sheaves P) (hsearches : Keep.searches P) (hgroups : Keep.groups P) (hsamplePhase : Keep.samplePhase P) (hdetq : Keep.detq P) (hspks : Keep.spks P) (hframes : Keep.frames P) (hnextFrame : Keep.nextFrame P) (hholds : Keep.holds P) (hwin : Keep.win P) (hlnk : Keep.lnk P) (hfuses : Keep.fuses P) (hses : Keep.ses P) (hpairs : Keep.pairs P) (hkey : Keep.key P) (hcores : Keep.cores P) (hfence : Keep.fence P) (hsage : Keep.sage P) (husl : Keep.usl P) (heth : Keep.eth P) (hxsp : Keep.xsp P) (hflash : Keep.flash P) (hflt : Keep.flt P) (htmrs : Keep.tmrs P) (hrtc : Keep.rtc P) (hint : Keep.int P) (hstl : Keep.stl P) (htag : Keep.tag P) (hreader : Keep.reader P) (hupd : Keep.upd P) (hfree : Keep.free P) (hout : Keep.out P) {s : State} {d} {out} (h : P s) : P (modesPart s d out) := by
  unfold modesPart
  extract_lets -underBinder -merge -useContext +onlyGivenNames x
  clear_value x
  refine engineStore_keeps hregs hlatches hstaged hmem htlm htime hpower hboot hwdog htrans hports hsheaves hsearches hgroups hsamplePhase hdetq hspks hframes hnextFrame hholds hwin hlnk hfuses hses hpairs hkey hcores hfence hsage husl heth hxsp hflash hflt htmrs hrtc hint hstl htag hreader hupd hfree hout ?_
  refine bumpFree_keeps hfree ?_
  assumption

theorem modesRun_keeps (hregs : Keep.regs P) (hlatches : Keep.latches P) (hstaged : Keep.staged P) (hmem : Keep.mem P) (htlm : Keep.tlm P) (htime : Keep.time P) (hpower : Keep.power P) (hboot : Keep.boot P) (hwdog : Keep.wdog P) (htrans : Keep.trans P) (hports : Keep.ports P) (hsheaves : Keep.sheaves P) (hsearches : Keep.searches P) (hgroups : Keep.groups P) (hsamplePhase : Keep.samplePhase P) (hdetq : Keep.detq P) (hspks : Keep.spks P) (hframes : Keep.frames P) (hnextFrame : Keep.nextFrame P) (hholds : Keep.holds P) (hwin : Keep.win P) (hlnk : Keep.lnk P) (hfuses : Keep.fuses P) (hses : Keep.ses P) (hpairs : Keep.pairs P) (hkey : Keep.key P) (hcores : Keep.cores P) (hfence : Keep.fence P) (hsage : Keep.sage P) (husl : Keep.usl P) (heth : Keep.eth P) (hxsp : Keep.xsp P) (hflash : Keep.flash P) (hflt : Keep.flt P) (htmrs : Keep.tmrs P) (hrtc : Keep.rtc P) (hint : Keep.int P) (hstl : Keep.stl P) (htag : Keep.tag P) (hreader : Keep.reader P) (hupd : Keep.upd P) (hfree : Keep.free P) (hout : Keep.out P) {dead} {d} {s : State} (h : P s) : P (modesRun dead d s) := by
  unfold modesRun
  refine Keep.ite ?_ ?_
  · refine modesEnd_keeps hregs hcores ?_
    assumption
  · split
    · refine modesEnd_keeps hregs hcores ?_
      assumption
    · extract_lets -underBinder -merge -useContext +onlyGivenNames x
      have hx : P x := by
        subst x
        refine loadKey_keeps hpairs ?_
        assumption
      clear_value x
      extract_lets -underBinder -merge -useContext +onlyGivenNames x
      clear_value x
      extract_lets -underBinder -merge -useContext +onlyGivenNames x
      have hx : P x.2.2.2 := by
        subst x
        refine engineReads_keeps hregs hlatches hholds hcores heth hflt htmrs hint hstl hout ?_
        assumption
      clear_value x
      extract_lets -underBinder -merge -useContext +onlyGivenNames x
      have hx : P x := by
        subst x
        assumption
      clear_value x
      extract_lets -underBinder -merge -useContext +onlyGivenNames x
      clear_value x
      refine Keep.ite ?_ ?_
      · extract_lets -underBinder -merge -useContext +onlyGivenNames x
        clear_value x
        refine modesEnd_keeps hregs hcores ?_
        refine modesPart_keeps hregs hlatches hstaged hmem htlm htime hpower hboot hwdog htrans hports hsheaves hsearches hgroups hsamplePhase hdetq hspks hframes hnextFrame hholds hwin hlnk hfuses hses hpairs hkey hcores hfence hsage husl heth hxsp hflash hflt htmrs hrtc hint hstl htag hreader hupd hfree hout ?_
        assumption
      · extract_lets -underBinder -merge -useContext +onlyGivenNames x
        clear_value x
        extract_lets -underBinder -merge -useContext +onlyGivenNames x
        clear_value x
        refine Keep.ite ?_ ?_
        · extract_lets -underBinder -merge -useContext +onlyGivenNames x
          have hx : P x := by
            subst x
            refine Keep.ite ?_ ?_
            · refine poisonMet_keeps hregs heth hflt hint hstl hout ?_
              assumption
            · assumption
          clear_value x
          extract_lets -underBinder -merge -useContext +onlyGivenNames x
          have hx : P x.2.2 := by
            subst x
            refine engineWrites_keeps hregs hlatches hstaged hmem htlm htime hpower hboot hwdog htrans hports hsheaves hsearches hgroups hsamplePhase hdetq hspks hframes hnextFrame hholds hwin hlnk hfuses hses hpairs hkey hcores hfence hsage husl heth hxsp hflash hflt htmrs hrtc hint hstl htag hreader hupd hfree hout ?_
            assumption
          clear_value x
          extract_lets -underBinder -merge -useContext +onlyGivenNames x
          have hx : P x := by
            subst x
            refine poisonRange_keeps hflt ?_
            refine healRange_keeps hflt ?_
            assumption
          clear_value x
          refine modesEnd_keeps hregs hcores ?_
          assumption
        · extract_lets -underBinder -merge -useContext +onlyGivenNames x
          have hx : P x.2.2 := by
            subst x
            refine engineWrites_keeps hregs hlatches hstaged hmem htlm htime hpower hboot hwdog htrans hports hsheaves hsearches hgroups hsamplePhase hdetq hspks hframes hnextFrame hholds hwin hlnk hfuses hses hpairs hkey hcores hfence hsage husl heth hxsp hflash hflt htmrs hrtc hint hstl htag hreader hupd hfree hout ?_
            assumption
          clear_value x
          refine Keep.ite ?_ ?_
          · refine modesEnd_keeps hregs hcores ?_
            refine healRange_keeps hflt ?_
            assumption
          · refine modesEnd_keeps hregs hcores ?_
            refine healRange_keeps hflt ?_
            assumption

theorem modesDrain_keeps (hregs : Keep.regs P) (hkey : Keep.key P) (hcores : Keep.cores P) {x1} {x2 : State} (h : P x2) : P (modesDrain x1 x2) := by
  induction x1 generalizing x2 with
  | zero =>
    unfold modesDrain
    assumption
  | succ n ih =>
    unfold modesDrain
    split
    · refine Keep.ite ?_ ?_
      · refine ih ?_
        refine modesEnd_keeps hregs hcores ?_
        refine modesNext_keeps hkey hcores ?_
        assumption
      · assumption
    · assumption

theorem modesServe_keeps (hregs : Keep.regs P) (hlatches : Keep.latches P) (hstaged : Keep.staged P) (hmem : Keep.mem P) (htlm : Keep.tlm P) (htime : Keep.time P) (hpower : Keep.power P) (hboot : Keep.boot P) (hwdog : Keep.wdog P) (htrans : Keep.trans P) (hports : Keep.ports P) (hsheaves : Keep.sheaves P) (hsearches : Keep.searches P) (hgroups : Keep.groups P) (hsamplePhase : Keep.samplePhase P) (hdetq : Keep.detq P) (hspks : Keep.spks P) (hframes : Keep.frames P) (hnextFrame : Keep.nextFrame P) (hholds : Keep.holds P) (hwin : Keep.win P) (hlnk : Keep.lnk P) (hfuses : Keep.fuses P) (hses : Keep.ses P) (hpairs : Keep.pairs P) (hkey : Keep.key P) (hcores : Keep.cores P) (hfence : Keep.fence P) (hsage : Keep.sage P) (husl : Keep.usl P) (heth : Keep.eth P) (hxsp : Keep.xsp P) (hflash : Keep.flash P) (hflt : Keep.flt P) (htmrs : Keep.tmrs P) (hrtc : Keep.rtc P) (hint : Keep.int P) (hstl : Keep.stl P) (htag : Keep.tag P) (hreader : Keep.reader P) (hupd : Keep.upd P) (hfree : Keep.free P) (hout : Keep.out P) {op} {s : State} (h : P s) : P (modesServe op s) := by
  unfold modesServe
  refine Keep.ite ?_ ?_
  · assumption
  · extract_lets -underBinder -merge -useContext +onlyGivenNames x
    have hx : P x := by
      subst x
      refine modesDrain_keeps hregs hkey hcores ?_
      assumption
    clear_value x
    split
    · refine Keep.ite ?_ ?_
      · refine modesRun_keeps hregs hlatches hstaged hmem htlm htime hpower hboot hwdog htrans hports hsheaves hsearches hgroups hsamplePhase hdetq hspks hframes hnextFrame hholds hwin hlnk hfuses hses hpairs hkey hcores hfence hsage husl heth hxsp hflash hflt htmrs hrtc hint hstl htag hreader hupd hfree hout ?_
        refine modesNext_keeps hkey hcores ?_
        assumption
      · assumption
    · assumption

theorem ackBlockFails_keeps (hframes : Keep.frames P) {s : State} (h : P s) : P (ackBlockFails s) := by
  unfold ackBlockFails
  split
  · refine updFrame_keeps hframes ?_
    assumption
  · assumption

theorem aesMismatch_keeps (hregs : Keep.regs P) (hframes : Keep.frames P) (hpairs : Keep.pairs P) (heth : Keep.eth P) (hint : Keep.int P) (hstl : Keep.stl P) (hout : Keep.out P) {s : State} {k} (h : P s) : P (aesMismatch s k) := by
  unfold aesMismatch
  refine Keep.ite ?_ ?_
  · refine ackBlockFails_keeps hframes ?_
    refine pairMismatch_keeps hregs hpairs heth hint hstl hout ?_
    assumption
  · refine pairMismatch_keeps hregs hpairs heth hint hstl hout ?_
    assumption

theorem modesFails_keeps (hregs : Keep.regs P) (hlatches : Keep.latches P) (hstaged : Keep.staged P) (hmem : Keep.mem P) (htlm : Keep.tlm P) (htime : Keep.time P) (hpower : Keep.power P) (hboot : Keep.boot P) (hwdog : Keep.wdog P) (htrans : Keep.trans P) (hports : Keep.ports P) (hsheaves : Keep.sheaves P) (hsearches : Keep.searches P) (hgroups : Keep.groups P) (hsamplePhase : Keep.samplePhase P) (hdetq : Keep.detq P) (hspks : Keep.spks P) (hframes : Keep.frames P) (hnextFrame : Keep.nextFrame P) (hholds : Keep.holds P) (hwin : Keep.win P) (hlnk : Keep.lnk P) (hfuses : Keep.fuses P) (hses : Keep.ses P) (hpairs : Keep.pairs P) (hkey : Keep.key P) (hcores : Keep.cores P) (hfence : Keep.fence P) (hsage : Keep.sage P) (husl : Keep.usl P) (heth : Keep.eth P) (hxsp : Keep.xsp P) (hflash : Keep.flash P) (hflt : Keep.flt P) (htmrs : Keep.tmrs P) (hrtc : Keep.rtc P) (hint : Keep.int P) (hstl : Keep.stl P) (htag : Keep.tag P) (hreader : Keep.reader P) (hupd : Keep.upd P) (hfree : Keep.free P) (hout : Keep.out P) {s : State} (h : P s) : P (modesFails s) := by
  unfold modesFails
  refine Keep.ite ?_ ?_
  · assumption
  · extract_lets -underBinder -merge -useContext +onlyGivenNames x
    have hx : P x := by
      subst x
      refine evt_keeps hregs heth hint hstl hout ?_
      assumption
    clear_value x
    extract_lets -underBinder -merge -useContext +onlyGivenNames x
    have hx : P x := by
      subst x
      refine Keep.ite ?_ ?_
      · refine ackBlockFails_keeps hframes ?_
        assumption
      · assumption
    clear_value x
    extract_lets -underBinder -merge -useContext +onlyGivenNames x
    have hx : P x := by
      subst x
      split
      · refine modesRun_keeps hregs hlatches hstaged hmem htlm htime hpower hboot hwdog htrans hports hsheaves hsearches hgroups hsamplePhase hdetq hspks hframes hnextFrame hholds hwin hlnk hfuses hses hpairs hkey hcores hfence hsage husl heth hxsp hflash hflt htmrs hrtc hint hstl htag hreader hupd hfree hout ?_
        refine modesNext_keeps hkey hcores ?_
        assumption
      · assumption
    clear_value x
    refine pairService_keeps hregs hpairs ?_
    assumption

theorem testEnd_keeps (hregs : Keep.regs P) (hpairs : Keep.pairs P) (hkey : Keep.key P) (hcores : Keep.cores P) (heth : Keep.eth P) (hflt : Keep.flt P) (hint : Keep.int P) (hstl : Keep.stl P) (hout : Keep.out P) {s : State} {k} {pass} (h : P s) : P (testEnd s k pass) := by
  unfold testEnd
  refine Keep.ite ?_ ?_
  · refine blocksAgain_keeps hregs hpairs hkey hcores ?_
    refine katEnd_keeps hregs hpairs heth hflt hint hstl hout ?_
    assumption
  · assumption

theorem execAesMismatch_keeps (hregs : Keep.regs P) (hframes : Keep.frames P) (hpairs : Keep.pairs P) (heth : Keep.eth P) (hint : Keep.int P) (hstl : Keep.stl P) (hout : Keep.out P) {k} {s : State} (h : P s) {t : State} (e : execAesMismatch k s = .next t) : P t := by
  obtain rfl := Host.Outcome.next.inj e
  refine aesMismatch_keeps hregs hframes hpairs heth hint hstl hout ?_
  assumption

theorem execKnownAnswerTest_keeps (hregs : Keep.regs P) (hpairs : Keep.pairs P) (hkey : Keep.key P) (hcores : Keep.cores P) (heth : Keep.eth P) (hflt : Keep.flt P) (hint : Keep.int P) (hstl : Keep.stl P) (hout : Keep.out P) {e0} {pass} {s : State} (h : P s) {t : State} (e : execKnownAnswerTest e0 pass s = .next t) : P t := by
  obtain rfl := Host.Outcome.next.inj e
  refine testEnd_keeps hregs hpairs hkey hcores heth hflt hint hstl hout ?_
  assumption

theorem execModesSelfCheckFail_keeps (hregs : Keep.regs P) (hlatches : Keep.latches P) (hstaged : Keep.staged P) (hmem : Keep.mem P) (htlm : Keep.tlm P) (htime : Keep.time P) (hpower : Keep.power P) (hboot : Keep.boot P) (hwdog : Keep.wdog P) (htrans : Keep.trans P) (hports : Keep.ports P) (hsheaves : Keep.sheaves P) (hsearches : Keep.searches P) (hgroups : Keep.groups P) (hsamplePhase : Keep.samplePhase P) (hdetq : Keep.detq P) (hspks : Keep.spks P) (hframes : Keep.frames P) (hnextFrame : Keep.nextFrame P) (hholds : Keep.holds P) (hwin : Keep.win P) (hlnk : Keep.lnk P) (hfuses : Keep.fuses P) (hses : Keep.ses P) (hpairs : Keep.pairs P) (hkey : Keep.key P) (hcores : Keep.cores P) (hfence : Keep.fence P) (hsage : Keep.sage P) (husl : Keep.usl P) (heth : Keep.eth P) (hxsp : Keep.xsp P) (hflash : Keep.flash P) (hflt : Keep.flt P) (htmrs : Keep.tmrs P) (hrtc : Keep.rtc P) (hint : Keep.int P) (hstl : Keep.stl P) (htag : Keep.tag P) (hreader : Keep.reader P) (hupd : Keep.upd P) (hfree : Keep.free P) (hout : Keep.out P) {s : State} (h : P s) {t : State} (e : execModesSelfCheckFail s = .next t) : P t := by
  obtain rfl := Host.Outcome.next.inj e
  refine modesFails_keeps hregs hlatches hstaged hmem htlm htime hpower hboot hwdog htrans hports hsheaves hsearches hgroups hsamplePhase hdetq hspks hframes hnextFrame hholds hwin hlnk hfuses hses hpairs hkey hcores hfence hsage husl heth hxsp hflash hflt htmrs hrtc hint hstl htag hreader hupd hfree hout ?_
  assumption

theorem execFlashOpComplete_keeps (hregs : Keep.regs P) (hlatches : Keep.latches P) (hstaged : Keep.staged P) (hmem : Keep.mem P) (htlm : Keep.tlm P) (htime : Keep.time P) (hpower : Keep.power P) (hboot : Keep.boot P) (hwdog : Keep.wdog P) (htrans : Keep.trans P) (hports : Keep.ports P) (hsheaves : Keep.sheaves P) (hsearches : Keep.searches P) (hgroups : Keep.groups P) (hsamplePhase : Keep.samplePhase P) (hdetq : Keep.detq P) (hspks : Keep.spks P) (hframes : Keep.frames P) (hnextFrame : Keep.nextFrame P) (hholds : Keep.holds P) (hwin : Keep.win P) (hlnk : Keep.lnk P) (hfuses : Keep.fuses P) (hses : Keep.ses P) (hpairs : Keep.pairs P) (hkey : Keep.key P) (hcores : Keep.cores P) (hfence : Keep.fence P) (hsage : Keep.sage P) (husl : Keep.usl P) (heth : Keep.eth P) (hxsp : Keep.xsp P) (hflash : Keep.flash P) (hflt : Keep.flt P) (htmrs : Keep.tmrs P) (hrtc : Keep.rtc P) (hint : Keep.int P) (hstl : Keep.stl P) (htag : Keep.tag P) (hreader : Keep.reader P) (hupd : Keep.upd P) (hfree : Keep.free P) (hout : Keep.out P) {o} {s : State} (h : P s) {t : State} (e : execFlashOpComplete o s = .next t) : P t := by
  obtain rfl := Host.Outcome.next.inj e
  refine flashDone_keeps hregs hlatches hstaged hmem htlm htime hpower hboot hwdog htrans hports hsheaves hsearches hgroups hsamplePhase hdetq hspks hframes hnextFrame hholds hwin hlnk hfuses hses hpairs hkey hcores hfence hsage husl heth hxsp hflash hflt htmrs hrtc hint hstl htag hreader hupd hfree hout ?_
  assumption

theorem execSesskey_keeps (hregs : Keep.regs P) (hlatches : Keep.latches P) (hholds : Keep.holds P) (hkey : Keep.key P) (hcores : Keep.cores P) (heth : Keep.eth P) (hflt : Keep.flt P) (htmrs : Keep.tmrs P) (hint : Keep.int P) (hstl : Keep.stl P) (hout : Keep.out P) {i} {v} {s : State} (h : P s) {t : State} (e : execSesskey i v s = .next t) : P t := by
  obtain rfl := Host.Outcome.next.inj e
  refine messageRow_keeps hregs hlatches hholds hkey hcores heth hflt htmrs hint hstl hout ?_
  assumption

theorem execOwnerkey_keeps (hregs : Keep.regs P) (hlatches : Keep.latches P) (hholds : Keep.holds P) (hkey : Keep.key P) (hcores : Keep.cores P) (heth : Keep.eth P) (hflt : Keep.flt P) (htmrs : Keep.tmrs P) (hint : Keep.int P) (hstl : Keep.stl P) (hout : Keep.out P) {i} {v} {s : State} (h : P s) {t : State} (e : execOwnerkey i v s = .next t) : P t := by
  obtain rfl := Host.Outcome.next.inj e
  refine messageRow_keeps hregs hlatches hholds hkey hcores heth hflt htmrs hint hstl hout ?_
  assumption

theorem execOwnerlock_keeps (hregs : Keep.regs P) (hlatches : Keep.latches P) (hholds : Keep.holds P) (hkey : Keep.key P) (hcores : Keep.cores P) (heth : Keep.eth P) (hflt : Keep.flt P) (htmrs : Keep.tmrs P) (hint : Keep.int P) (hstl : Keep.stl P) (hout : Keep.out P) {i} {v} {s : State} (h : P s) {t : State} (e : execOwnerlock i v s = .next t) : P t := by
  obtain rfl := Host.Outcome.next.inj e
  refine messageRow_keeps hregs hlatches hholds hkey hcores heth hflt htmrs hint hstl hout ?_
  assumption

theorem execProfile_keeps (hregs : Keep.regs P) (hlatches : Keep.latches P) (hholds : Keep.holds P) (hkey : Keep.key P) (hcores : Keep.cores P) (heth : Keep.eth P) (hflt : Keep.flt P) (htmrs : Keep.tmrs P) (hint : Keep.int P) (hstl : Keep.stl P) (hout : Keep.out P) {i} {v} {s : State} (h : P s) {t : State} (e : execProfile i v s = .next t) : P t := by
  obtain rfl := Host.Outcome.next.inj e
  refine messageRow_keeps hregs hlatches hholds hkey hcores heth hflt htmrs hint hstl hout ?_
  assumption

theorem execMessageComplete_keeps (hregs : Keep.regs P) (hlatches : Keep.latches P) (hholds : Keep.holds P) (hfuses : Keep.fuses P) (hkey : Keep.key P) (hcores : Keep.cores P) (heth : Keep.eth P) (hflt : Keep.flt P) (htmrs : Keep.tmrs P) (hint : Keep.int P) (hstl : Keep.stl P) (hout : Keep.out P) {s : State} (h : P s) {t : State} (e : execMessageComplete s = .next t) : P t := by
  obtain rfl := Host.Outcome.next.inj e
  refine messageDone_keeps hregs hlatches hholds hfuses hkey hcores heth hflt htmrs hint hstl hout ?_
  assumption

theorem execAttestationComplete_keeps (hregs : Keep.regs P) (hlatches : Keep.latches P) (hstaged : Keep.staged P) (hmem : Keep.mem P) (htlm : Keep.tlm P) (htime : Keep.time P) (hpower : Keep.power P) (hboot : Keep.boot P) (hwdog : Keep.wdog P) (htrans : Keep.trans P) (hports : Keep.ports P) (hsheaves : Keep.sheaves P) (hsearches : Keep.searches P) (hgroups : Keep.groups P) (hsamplePhase : Keep.samplePhase P) (hdetq : Keep.detq P) (hspks : Keep.spks P) (hframes : Keep.frames P) (hnextFrame : Keep.nextFrame P) (hholds : Keep.holds P) (hwin : Keep.win P) (hlnk : Keep.lnk P) (hfuses : Keep.fuses P) (hses : Keep.ses P) (hpairs : Keep.pairs P) (hkey : Keep.key P) (hcores : Keep.cores P) (hfence : Keep.fence P) (hsage : Keep.sage P) (husl : Keep.usl P) (heth : Keep.eth P) (hxsp : Keep.xsp P) (hflash : Keep.flash P) (hflt : Keep.flt P) (htmrs : Keep.tmrs P) (hrtc : Keep.rtc P) (hint : Keep.int P) (hstl : Keep.stl P) (htag : Keep.tag P) (hreader : Keep.reader P) (hupd : Keep.upd P) (hfree : Keep.free P) (hout : Keep.out P) {s : State} (h : P s) {t : State} (e : execAttestationComplete s = .next t) : P t := by
  obtain rfl := Host.Outcome.next.inj e
  refine attestationDone_keeps hregs hlatches hstaged hmem htlm htime hpower hboot hwdog htrans hports hsheaves hsearches hgroups hsamplePhase hdetq hspks hframes hnextFrame hholds hwin hlnk hfuses hses hpairs hkey hcores hfence hsage husl heth hxsp hflash hflt htmrs hrtc hint hstl htag hreader hupd hfree hout ?_
  assumption

theorem execChunkConsumed_keeps (hregs : Keep.regs P) (hlatches : Keep.latches P) (hholds : Keep.holds P) (hcores : Keep.cores P) (heth : Keep.eth P) (hflash : Keep.flash P) (hflt : Keep.flt P) (htmrs : Keep.tmrs P) (hint : Keep.int P) (hstl : Keep.stl P) (hupd : Keep.upd P) (hout : Keep.out P) {s : State} (h : P s) {t : State} (e : execChunkConsumed s = .next t) : P t := by
  obtain rfl := Host.Outcome.next.inj e
  refine chunkRead_keeps hregs hlatches hholds hcores heth hflash hflt htmrs hint hstl hupd hout ?_
  assumption

theorem execCbcEnc_keeps (hregs : Keep.regs P) (hlatches : Keep.latches P) (hstaged : Keep.staged P) (hmem : Keep.mem P) (htlm : Keep.tlm P) (htime : Keep.time P) (hpower : Keep.power P) (hboot : Keep.boot P) (hwdog : Keep.wdog P) (htrans : Keep.trans P) (hports : Keep.ports P) (hsheaves : Keep.sheaves P) (hsearches : Keep.searches P) (hgroups : Keep.groups P) (hsamplePhase : Keep.samplePhase P) (hdetq : Keep.detq P) (hspks : Keep.spks P) (hframes : Keep.frames P) (hnextFrame : Keep.nextFrame P) (hholds : Keep.holds P) (hwin : Keep.win P) (hlnk : Keep.lnk P) (hfuses : Keep.fuses P) (hses : Keep.ses P) (hpairs : Keep.pairs P) (hkey : Keep.key P) (hcores : Keep.cores P) (hfence : Keep.fence P) (hsage : Keep.sage P) (husl : Keep.usl P) (heth : Keep.eth P) (hxsp : Keep.xsp P) (hflash : Keep.flash P) (hflt : Keep.flt P) (htmrs : Keep.tmrs P) (hrtc : Keep.rtc P) (hint : Keep.int P) (hstl : Keep.stl P) (htag : Keep.tag P) (hreader : Keep.reader P) (hupd : Keep.upd P) (hfree : Keep.free P) (hout : Keep.out P) {s : State} (h : P s) {t : State} (e : execCbcEnc s = .next t) : P t := by
  obtain rfl := Host.Outcome.next.inj e
  refine modesServe_keeps hregs hlatches hstaged hmem htlm htime hpower hboot hwdog htrans hports hsheaves hsearches hgroups hsamplePhase hdetq hspks hframes hnextFrame hholds hwin hlnk hfuses hses hpairs hkey hcores hfence hsage husl heth hxsp hflash hflt htmrs hrtc hint hstl htag hreader hupd hfree hout ?_
  assumption

theorem execCbcDec_keeps (hregs : Keep.regs P) (hlatches : Keep.latches P) (hstaged : Keep.staged P) (hmem : Keep.mem P) (htlm : Keep.tlm P) (htime : Keep.time P) (hpower : Keep.power P) (hboot : Keep.boot P) (hwdog : Keep.wdog P) (htrans : Keep.trans P) (hports : Keep.ports P) (hsheaves : Keep.sheaves P) (hsearches : Keep.searches P) (hgroups : Keep.groups P) (hsamplePhase : Keep.samplePhase P) (hdetq : Keep.detq P) (hspks : Keep.spks P) (hframes : Keep.frames P) (hnextFrame : Keep.nextFrame P) (hholds : Keep.holds P) (hwin : Keep.win P) (hlnk : Keep.lnk P) (hfuses : Keep.fuses P) (hses : Keep.ses P) (hpairs : Keep.pairs P) (hkey : Keep.key P) (hcores : Keep.cores P) (hfence : Keep.fence P) (hsage : Keep.sage P) (husl : Keep.usl P) (heth : Keep.eth P) (hxsp : Keep.xsp P) (hflash : Keep.flash P) (hflt : Keep.flt P) (htmrs : Keep.tmrs P) (hrtc : Keep.rtc P) (hint : Keep.int P) (hstl : Keep.stl P) (htag : Keep.tag P) (hreader : Keep.reader P) (hupd : Keep.upd P) (hfree : Keep.free P) (hout : Keep.out P) {s : State} (h : P s) {t : State} (e : execCbcDec s = .next t) : P t := by
  obtain rfl := Host.Outcome.next.inj e
  refine modesServe_keeps hregs hlatches hstaged hmem htlm htime hpower hboot hwdog htrans hports hsheaves hsearches hgroups hsamplePhase hdetq hspks hframes hnextFrame hholds hwin hlnk hfuses hses hpairs hkey hcores hfence hsage husl heth hxsp hflash hflt htmrs hrtc hint hstl htag hreader hupd hfree hout ?_
  assumption

theorem execCtr_keeps (hregs : Keep.regs P) (hlatches : Keep.latches P) (hstaged : Keep.staged P) (hmem : Keep.mem P) (htlm : Keep.tlm P) (htime : Keep.time P) (hpower : Keep.power P) (hboot : Keep.boot P) (hwdog : Keep.wdog P) (htrans : Keep.trans P) (hports : Keep.ports P) (hsheaves : Keep.sheaves P) (hsearches : Keep.searches P) (hgroups : Keep.groups P) (hsamplePhase : Keep.samplePhase P) (hdetq : Keep.detq P) (hspks : Keep.spks P) (hframes : Keep.frames P) (hnextFrame : Keep.nextFrame P) (hholds : Keep.holds P) (hwin : Keep.win P) (hlnk : Keep.lnk P) (hfuses : Keep.fuses P) (hses : Keep.ses P) (hpairs : Keep.pairs P) (hkey : Keep.key P) (hcores : Keep.cores P) (hfence : Keep.fence P) (hsage : Keep.sage P) (husl : Keep.usl P) (heth : Keep.eth P) (hxsp : Keep.xsp P) (hflash : Keep.flash P) (hflt : Keep.flt P) (htmrs : Keep.tmrs P) (hrtc : Keep.rtc P) (hint : Keep.int P) (hstl : Keep.stl P) (htag : Keep.tag P) (hreader : Keep.reader P) (hupd : Keep.upd P) (hfree : Keep.free P) (hout : Keep.out P) {s : State} (h : P s) {t : State} (e : execCtr s = .next t) : P t := by
  obtain rfl := Host.Outcome.next.inj e
  refine modesServe_keeps hregs hlatches hstaged hmem htlm htime hpower hboot hwdog htrans hports hsheaves hsearches hgroups hsamplePhase hdetq hspks hframes hnextFrame hholds hwin hlnk hfuses hses hpairs hkey hcores hfence hsage husl heth hxsp hflash hflt htmrs hrtc hint hstl htag hreader hupd hfree hout ?_
  assumption

theorem execCfbEnc_keeps (hregs : Keep.regs P) (hlatches : Keep.latches P) (hstaged : Keep.staged P) (hmem : Keep.mem P) (htlm : Keep.tlm P) (htime : Keep.time P) (hpower : Keep.power P) (hboot : Keep.boot P) (hwdog : Keep.wdog P) (htrans : Keep.trans P) (hports : Keep.ports P) (hsheaves : Keep.sheaves P) (hsearches : Keep.searches P) (hgroups : Keep.groups P) (hsamplePhase : Keep.samplePhase P) (hdetq : Keep.detq P) (hspks : Keep.spks P) (hframes : Keep.frames P) (hnextFrame : Keep.nextFrame P) (hholds : Keep.holds P) (hwin : Keep.win P) (hlnk : Keep.lnk P) (hfuses : Keep.fuses P) (hses : Keep.ses P) (hpairs : Keep.pairs P) (hkey : Keep.key P) (hcores : Keep.cores P) (hfence : Keep.fence P) (hsage : Keep.sage P) (husl : Keep.usl P) (heth : Keep.eth P) (hxsp : Keep.xsp P) (hflash : Keep.flash P) (hflt : Keep.flt P) (htmrs : Keep.tmrs P) (hrtc : Keep.rtc P) (hint : Keep.int P) (hstl : Keep.stl P) (htag : Keep.tag P) (hreader : Keep.reader P) (hupd : Keep.upd P) (hfree : Keep.free P) (hout : Keep.out P) {s : State} (h : P s) {t : State} (e : execCfbEnc s = .next t) : P t := by
  obtain rfl := Host.Outcome.next.inj e
  refine modesServe_keeps hregs hlatches hstaged hmem htlm htime hpower hboot hwdog htrans hports hsheaves hsearches hgroups hsamplePhase hdetq hspks hframes hnextFrame hholds hwin hlnk hfuses hses hpairs hkey hcores hfence hsage husl heth hxsp hflash hflt htmrs hrtc hint hstl htag hreader hupd hfree hout ?_
  assumption

theorem execCfbDec_keeps (hregs : Keep.regs P) (hlatches : Keep.latches P) (hstaged : Keep.staged P) (hmem : Keep.mem P) (htlm : Keep.tlm P) (htime : Keep.time P) (hpower : Keep.power P) (hboot : Keep.boot P) (hwdog : Keep.wdog P) (htrans : Keep.trans P) (hports : Keep.ports P) (hsheaves : Keep.sheaves P) (hsearches : Keep.searches P) (hgroups : Keep.groups P) (hsamplePhase : Keep.samplePhase P) (hdetq : Keep.detq P) (hspks : Keep.spks P) (hframes : Keep.frames P) (hnextFrame : Keep.nextFrame P) (hholds : Keep.holds P) (hwin : Keep.win P) (hlnk : Keep.lnk P) (hfuses : Keep.fuses P) (hses : Keep.ses P) (hpairs : Keep.pairs P) (hkey : Keep.key P) (hcores : Keep.cores P) (hfence : Keep.fence P) (hsage : Keep.sage P) (husl : Keep.usl P) (heth : Keep.eth P) (hxsp : Keep.xsp P) (hflash : Keep.flash P) (hflt : Keep.flt P) (htmrs : Keep.tmrs P) (hrtc : Keep.rtc P) (hint : Keep.int P) (hstl : Keep.stl P) (htag : Keep.tag P) (hreader : Keep.reader P) (hupd : Keep.upd P) (hfree : Keep.free P) (hout : Keep.out P) {s : State} (h : P s) {t : State} (e : execCfbDec s = .next t) : P t := by
  obtain rfl := Host.Outcome.next.inj e
  refine modesServe_keeps hregs hlatches hstaged hmem htlm htime hpower hboot hwdog htrans hports hsheaves hsearches hgroups hsamplePhase hdetq hspks hframes hnextFrame hholds hwin hlnk hfuses hses hpairs hkey hcores hfence hsage husl heth hxsp hflash hflt htmrs hrtc hint hstl htag hreader hupd hfree hout ?_
  assumption

theorem execCcmEnc_keeps (hregs : Keep.regs P) (hlatches : Keep.latches P) (hstaged : Keep.staged P) (hmem : Keep.mem P) (htlm : Keep.tlm P) (htime : Keep.time P) (hpower : Keep.power P) (hboot : Keep.boot P) (hwdog : Keep.wdog P) (htrans : Keep.trans P) (hports : Keep.ports P) (hsheaves : Keep.sheaves P) (hsearches : Keep.searches P) (hgroups : Keep.groups P) (hsamplePhase : Keep.samplePhase P) (hdetq : Keep.detq P) (hspks : Keep.spks P) (hframes : Keep.frames P) (hnextFrame : Keep.nextFrame P) (hholds : Keep.holds P) (hwin : Keep.win P) (hlnk : Keep.lnk P) (hfuses : Keep.fuses P) (hses : Keep.ses P) (hpairs : Keep.pairs P) (hkey : Keep.key P) (hcores : Keep.cores P) (hfence : Keep.fence P) (hsage : Keep.sage P) (husl : Keep.usl P) (heth : Keep.eth P) (hxsp : Keep.xsp P) (hflash : Keep.flash P) (hflt : Keep.flt P) (htmrs : Keep.tmrs P) (hrtc : Keep.rtc P) (hint : Keep.int P) (hstl : Keep.stl P) (htag : Keep.tag P) (hreader : Keep.reader P) (hupd : Keep.upd P) (hfree : Keep.free P) (hout : Keep.out P) {s : State} (h : P s) {t : State} (e : execCcmEnc s = .next t) : P t := by
  obtain rfl := Host.Outcome.next.inj e
  refine modesServe_keeps hregs hlatches hstaged hmem htlm htime hpower hboot hwdog htrans hports hsheaves hsearches hgroups hsamplePhase hdetq hspks hframes hnextFrame hholds hwin hlnk hfuses hses hpairs hkey hcores hfence hsage husl heth hxsp hflash hflt htmrs hrtc hint hstl htag hreader hupd hfree hout ?_
  assumption

theorem execCcmDec_keeps (hregs : Keep.regs P) (hlatches : Keep.latches P) (hstaged : Keep.staged P) (hmem : Keep.mem P) (htlm : Keep.tlm P) (htime : Keep.time P) (hpower : Keep.power P) (hboot : Keep.boot P) (hwdog : Keep.wdog P) (htrans : Keep.trans P) (hports : Keep.ports P) (hsheaves : Keep.sheaves P) (hsearches : Keep.searches P) (hgroups : Keep.groups P) (hsamplePhase : Keep.samplePhase P) (hdetq : Keep.detq P) (hspks : Keep.spks P) (hframes : Keep.frames P) (hnextFrame : Keep.nextFrame P) (hholds : Keep.holds P) (hwin : Keep.win P) (hlnk : Keep.lnk P) (hfuses : Keep.fuses P) (hses : Keep.ses P) (hpairs : Keep.pairs P) (hkey : Keep.key P) (hcores : Keep.cores P) (hfence : Keep.fence P) (hsage : Keep.sage P) (husl : Keep.usl P) (heth : Keep.eth P) (hxsp : Keep.xsp P) (hflash : Keep.flash P) (hflt : Keep.flt P) (htmrs : Keep.tmrs P) (hrtc : Keep.rtc P) (hint : Keep.int P) (hstl : Keep.stl P) (htag : Keep.tag P) (hreader : Keep.reader P) (hupd : Keep.upd P) (hfree : Keep.free P) (hout : Keep.out P) {s : State} (h : P s) {t : State} (e : execCcmDec s = .next t) : P t := by
  obtain rfl := Host.Outcome.next.inj e
  refine modesServe_keeps hregs hlatches hstaged hmem htlm htime hpower hboot hwdog htrans hports hsheaves hsearches hgroups hsamplePhase hdetq hspks hframes hnextFrame hholds hwin hlnk hfuses hses hpairs hkey hcores hfence hsage husl heth hxsp hflash hflt htmrs hrtc hint hstl htag hreader hupd hfree hout ?_
  assumption

end Sys2Proof.Machine
end

