-- ==== Sys2Proof/Laws/KeepCores.lean ====
section
/-!
SUPPORT. Which parts of the state the operations may change: the cores, the tag bus, idling and every command.
-/

namespace Sys2Proof.Machine

variable {P : State → Prop}

theorem localSet_keeps (hmem : Keep.mem P) (htlm : Keep.tlm P) {s : State} {k} {a} {v} (h : P s) : P (localSet s k a v) := by
  unfold localSet
  refine Keep.ite ?_ ?_
  · refine lset_keeps htlm ?_
    assumption
  · refine mset_keeps hmem ?_
    assumption

theorem localSets_keeps (hmem : Keep.mem P) (htlm : Keep.tlm P) (hflt : Keep.flt P) {s : State} {k} {a} {ws} (h : P s) : P (localSets s k a ws) := by
  unfold localSets
  extract_lets -underBinder -merge -useContext +onlyGivenNames x
  have hx : P x := by
    subst x
    refine Keep.foldl ?_ ?_
    · assumption
    · intro _ _ _
      refine localSet_keeps hmem htlm ?_
      assumption
  clear_value x
  refine Keep.ite ?_ ?_
  · refine Keep.set_flt hflt ?_
    assumption
  · refine healRange_keeps hflt ?_
    assumption

theorem ioRead_keeps (hregs : Keep.regs P) (heth : Keep.eth P) (hint : Keep.int P) (hout : Keep.out P) {s : State} {k} {a} (h : P s) : P (ioRead s k a).2 := by
  unfold ioRead
  extract_lets -underBinder -merge -useContext +onlyGivenNames x
  clear_value x
  split
  · dsimp -zeta only
    assumption
  · split
    · dsimp -zeta only
      assumption
    · split
      · refine intClaim_keeps hregs heth hint hout ?_
        assumption
      · split
        · refine intClaim_keeps hregs heth hint hout ?_
          assumption
        · dsimp -zeta only
          assumption

theorem ioWrite_keeps (hregs : Keep.regs P) (heth : Keep.eth P) (hint : Keep.int P) (hout : Keep.out P) {s : State} {k} {a} {v} (h : P s) : P (ioWrite s k a v) := by
  unfold ioWrite
  extract_lets -underBinder -merge -useContext +onlyGivenNames x
  clear_value x
  refine Keep.ite ?_ ?_
  · refine intComplete_keeps hregs heth hint hout ?_
    assumption
  · refine Keep.ite ?_ ?_
    · refine intComplete_keeps hregs heth hint hout ?_
      assumption
    · assumption

theorem fetchFence_keeps (hregs : Keep.regs P) (heth : Keep.eth P) (hint : Keep.int P) (hstl : Keep.stl P) (hout : Keep.out P) {s : State} {k} {a} (h : P s) : Keep.Some2 P (fetchFence s k a) := by
  unfold fetchFence
  split
  · exact Keep.none2
  · split
    · split
      · refine Keep.some2 ?_
        refine Keep.pat2 ?_ (by assumption)
        refine fenceCheck_keeps hregs heth hint hstl hout ?_
        assumption
      · exact Keep.none2
    · refine Keep.some2 ?_
      assumption

theorem fetchBar_keeps (hregs : Keep.regs P) (heth : Keep.eth P) (hflt : Keep.flt P) (hint : Keep.int P) (hstl : Keep.stl P) (hout : Keep.out P) {s : State} {k} {a} (h : P s) : Keep.Some2 P (fetchBar s k a) := by
  unfold fetchBar
  split
  · split
    · refine Keep.some2 ?_
      assumption
    · split
      · refine Keep.some2 ?_
        refine poisonMet_keeps hregs heth hflt hint hstl hout ?_
        assumption
      · exact Keep.none2
  · split
    · refine Keep.some2 ?_
      assumption
    · split
      · refine Keep.some2 ?_
        refine poisonMet_keeps hregs heth hflt hint hstl hout ?_
        assumption
      · exact Keep.none2

theorem fetchBundle_keeps (hregs : Keep.regs P) (heth : Keep.eth P) (hflt : Keep.flt P) (hint : Keep.int P) (hstl : Keep.stl P) (hout : Keep.out P) {s : State} {k} {pc} (h : P s) : Keep.Inl2 P (fetchBundle s k pc) := by
  unfold fetchBundle
  extract_lets -underBinder -merge -useContext +onlyGivenNames x
  clear_value x
  split
  · refine Keep.inl2 ?_
    refine Keep.patSome' ?_ (by assumption)
    refine Keep.findSomeAll fun _ => ?_
    refine fetchFence_keeps hregs heth hint hstl hout ?_
    assumption
  · split
    · refine Keep.inl2 ?_
      dsimp -zeta only
      assumption
    · split
      · refine Keep.inl2 ?_
        refine Keep.patSome' ?_ (by assumption)
        refine Keep.findSomeAll fun _ => ?_
        refine fetchBar_keeps hregs heth hflt hint hstl hout ?_
        assumption
      · exact Keep.inr2

theorem fenceBars_keeps (hregs : Keep.regs P) (heth : Keep.eth P) (hint : Keep.int P) (hstl : Keep.stl P) (hout : Keep.out P) {s : State} {k} {i} {a} (h : P s) : Keep.Some2 P (fenceBars s k i a) := by
  unfold fenceBars
  split
  · exact Keep.none2
  · split
    · refine Keep.some2 ?_
      refine Keep.pat2 ?_ (by assumption)
      split
      · refine fenceCheck_keeps hregs heth hint hstl hout ?_
        assumption
      · dsimp -zeta only
        assumption
    · split
      · refine Keep.some2 ?_
        refine Keep.pat2 ?_ (by assumption)
        split
        · refine fenceCheck_keeps hregs heth hint hstl hout ?_
          refine Keep.pat2 ?_ (by assumption)
          split
          · refine fenceCheck_keeps hregs heth hint hstl hout ?_
            assumption
          · dsimp -zeta only
            assumption
        · dsimp -zeta only
          refine Keep.pat2 ?_ (by assumption)
          split
          · refine fenceCheck_keeps hregs heth hint hstl hout ?_
            assumption
          · dsimp -zeta only
            assumption
      · exact Keep.none2

theorem poisonBars_keeps (hregs : Keep.regs P) (heth : Keep.eth P) (hflt : Keep.flt P) (hint : Keep.int P) (hstl : Keep.stl P) (hout : Keep.out P) {s : State} {k} {a} (h : P s) : Keep.Some2 P (poisonBars s k a) := by
  unfold poisonBars
  split
  · split
    · refine Keep.some2 ?_
      refine poisonMet_keeps hregs heth hflt hint hstl hout ?_
      assumption
    · exact Keep.none2
  · split
    · exact Keep.none2
    · split
      · split
        · extract_lets -underBinder -merge -useContext +onlyGivenNames x
          have hx : P x.2.2 := by
            subst x
            refine windowRead_keeps hregs heth hint hstl hout ?_
            assumption
          clear_value x
          split
          · refine Keep.some2 ?_
            refine poisonMet_keeps hregs heth hflt hint hstl hout ?_
            assumption
          · exact Keep.none2
        · exact Keep.none2
      · split
        · refine Keep.some2 ?_
          refine poisonMet_keeps hregs heth hflt hint hstl hout ?_
          assumption
        · exact Keep.none2

theorem insTrap_keeps (hregs : Keep.regs P) (heth : Keep.eth P) (hflt : Keep.flt P) (hint : Keep.int P) (hstl : Keep.stl P) (hout : Keep.out P) {s : State} {k} {i} (h : P s) : Keep.Some2 P (insTrap s k i) := by
  unfold insTrap
  extract_lets -underBinder -merge -useContext +onlyGivenNames x
  clear_value x
  split
  · refine Keep.some2 ?_
    assumption
  · split
    · refine Keep.some2 ?_
      assumption
    · split
      · refine Keep.some2 ?_
        assumption
      · split
        · refine Keep.some2 ?_
          assumption
        · split
          · refine Keep.some2 ?_
            assumption
          · extract_lets -underBinder -merge -useContext +onlyGivenNames x
            clear_value x
            split
            · refine Keep.some2' ?_
              refine Keep.patSome' ?_ (by assumption)
              refine Keep.findSomeAll fun _ => ?_
              refine fenceBars_keeps hregs heth hint hstl hout ?_
              assumption
            · extract_lets -underBinder -merge -useContext +onlyGivenNames x
              clear_value x
              split
              · refine Keep.some2 ?_
                assumption
              · refine Keep.findSomeAll fun _ => ?_
                refine poisonBars_keeps hregs heth hflt hint hstl hout ?_
                assumption

theorem flitMet_keeps (hregs : Keep.regs P) (heth : Keep.eth P) (hflt : Keep.flt P) (hint : Keep.int P) (hstl : Keep.stl P) (hout : Keep.out P) {s : State} {k} {fl} (h : P s) : P (flitMet s k fl).2 := by
  unfold flitMet
  refine Keep.foldl2 ?_ ?_
  · dsimp -zeta only
    assumption
  · intro _ _ _
    extract_lets -underBinder -merge -useContext +onlyGivenNames x
    clear_value x
    split
    · assumption
    · extract_lets -underBinder -merge -useContext +onlyGivenNames x
      have hx : P x := by
        subst x
        refine bump_keeps hregs ?_
        assumption
      clear_value x
      split
      · dsimp -zeta only
        refine fault_keeps hregs heth hflt hint hstl hout ?_
        assumption
      · dsimp -zeta only
        refine fault_keeps hregs heth hflt hint hstl hout ?_
        assumption

theorem runChecks_keeps (hregs : Keep.regs P) (heth : Keep.eth P) (hflt : Keep.flt P) (hint : Keep.int P) (hstl : Keep.stl P) (hout : Keep.out P) {k} {flits} {x3} {x4 : State} (h : P x4) : P (runChecks k flits x3 x4).2 := by
  induction x3 generalizing k flits x4 with
  | nil =>
    unfold runChecks
    dsimp -zeta only
    assumption
  | cons a r ih =>
    unfold runChecks
    split
    · dsimp -zeta only
      refine Keep.patSome2 ?_ (by assumption)
      refine insTrap_keeps hregs heth hflt hint hstl hout ?_
      assumption
    · split
      · refine ih ?_
        assumption
      · extract_lets -underBinder -merge -useContext +onlyGivenNames x
        have hx : P x.2 := by
          subst x
          refine flitMet_keeps hregs heth hflt hint hstl hout ?_
          assumption
        clear_value x
        split
        · dsimp -zeta only
          assumption
        · refine ih ?_
          assumption

theorem runTrap_keeps (hregs : Keep.regs P) (heth : Keep.eth P) (hflt : Keep.flt P) (hint : Keep.int P) (hstl : Keep.stl P) (hout : Keep.out P) {s : State} {k} {is} {flits} (h : P s) : P (runTrap s k is flits).2 := by
  unfold runTrap
  split
  · dsimp -zeta only
    refine Keep.pat2 ?_ (by assumption)
    refine runChecks_keeps hregs heth hflt hint hstl hout ?_
    assumption
  · split
    · dsimp -zeta only
      refine Keep.pat2 ?_ (by assumption)
      refine runChecks_keeps hregs heth hflt hint hstl hout ?_
      assumption
    · dsimp -zeta only
      refine Keep.pat2 ?_ (by assumption)
      refine runChecks_keeps hregs heth hflt hint hstl hout ?_
      assumption

theorem dropHead_keeps (hcores : Keep.cores P) {s : State} {k} {q} (h : P s) : P (dropHead s k q) := by
  unfold dropHead
  refine State.updCore_keeps hcores ?_
  assumption

theorem popEffect_keeps (hregs : Keep.regs P) (hholds : Keep.holds P) (hwin : Keep.win P) (hcores : Keep.cores P) (hsage : Keep.sage P) (hfree : Keep.free P) {s : State} {k} {q} {ws} (h : P s) : P (popEffect s k q ws) := by
  unfold popEffect
  refine Keep.ite ?_ ?_
  · refine sagePump_keeps hholds hwin hcores hsage ?_
    refine rxPopped_keeps hholds hcores hsage ?_
    assumption
  · refine Keep.ite ?_ ?_
    · refine deliverAll_keeps hregs hcores hfree ?_
      assumption
    · refine Keep.ite ?_ ?_
      · refine Keep.ite ?_ ?_
        · refine passHold_keeps hholds ?_
          assumption
        · assumption
      · assumption

theorem popEntry_keeps (hregs : Keep.regs P) (hmem : Keep.mem P) (htlm : Keep.tlm P) (hholds : Keep.holds P) (hwin : Keep.win P) (hcores : Keep.cores P) (hsage : Keep.sage P) (hflt : Keep.flt P) (hfree : Keep.free P) {s : State} {k} {q} {a} (h : P s) : P (popEntry s k q a) := by
  unfold popEntry
  split
  · assumption
  · refine popEffect_keeps hregs hholds hwin hcores hsage hfree ?_
    refine State.updCore_keeps hcores ?_
    refine localSets_keeps hmem htlm hflt ?_
    refine dropHead_keeps hcores ?_
    assumption

theorem reserveEntry_keeps (hcores : Keep.cores P) {s : State} {k} {q} (h : P s) : P (reserveEntry s k q) := by
  unfold reserveEntry
  split
  · refine State.updCore_keeps hcores ?_
    assumption
  · assumption

theorem pushOut_keeps (hcores : Keep.cores P) {s : State} {k} {q} {ws} (h : P s) : P (pushOut s k q ws) := by
  unfold pushOut
  refine State.updCore_keeps hcores ?_
  refine reserveEntry_keeps hcores ?_
  assumption

theorem giveUp_keeps (hholds : Keep.holds P) (hcores : Keep.cores P) {s : State} {k} {g} {owner} (h : P s) : P (giveUp s k g owner).2 := by
  unfold giveUp
  split
  · dsimp -zeta only
    refine State.updCore_keeps hcores ?_
    refine passHold_keeps hholds ?_
    assumption
  · dsimp -zeta only
    assumption

theorem aesPush_keeps (hregs : Keep.regs P) (hpairs : Keep.pairs P) (hkey : Keep.key P) (hcores : Keep.cores P) {s : State} {k} {kop} {ksrc} {sel} {block} (h : P s) : P (aesPush s k kop ksrc sel block) := by
  unfold aesPush
  refine aesServe_keeps hregs hpairs hkey hcores ?_
  refine reserveEntry_keeps hcores ?_
  assumption

theorem pushEntry_keeps (hregs : Keep.regs P) (hmem : Keep.mem P) (hholds : Keep.holds P) (hses : Keep.ses P) (hpairs : Keep.pairs P) (hkey : Keep.key P) (hcores : Keep.cores P) (hsage : Keep.sage P) (husl : Keep.usl P) (heth : Keep.eth P) (hint : Keep.int P) (hstl : Keep.stl P) (hfree : Keep.free P) (hout : Keep.out P) {s : State} {k} {q} {ws} (h : P s) : P (pushEntry s k q ws) := by
  unfold pushEntry
  extract_lets -underBinder -merge -useContext +onlyGivenNames x
  clear_value x
  extract_lets -underBinder -merge -useContext +onlyGivenNames x
  clear_value x
  refine Keep.ite ?_ ?_
  · refine pushOut_keeps hcores ?_
    refine giveUp_keeps hholds hcores ?_
    assumption
  · refine Keep.ite ?_ ?_
    · refine sesPull_keeps hregs hmem hses hcores hsage husl heth hint hstl hfree hout ?_
      refine pushOut_keeps hcores ?_
      assumption
    · refine Keep.ite ?_ ?_
      · refine modesPull_keeps hkey hcores ?_
        refine pushOut_keeps hcores ?_
        assumption
      · refine Keep.ite ?_ ?_
        · refine aesPush_keeps hregs hpairs hkey hcores ?_
          assumption
        · refine Keep.ite ?_ ?_
          · extract_lets -underBinder -merge -useContext +onlyGivenNames x
            have hx : P x.2 := by
              subst x
              refine giveUp_keeps hholds hcores ?_
              assumption
            clear_value x
            refine pushOut_keeps hcores ?_
            assumption
          · refine Keep.ite ?_ ?_
            · refine deliverAll_keeps hregs hcores hfree ?_
              refine pushOut_keeps hcores ?_
              assumption
            · refine Keep.ite ?_ ?_
              · extract_lets -underBinder -merge -useContext +onlyGivenNames x
                have hx : P x.2 := by
                  subst x
                  refine giveUp_keeps hholds hcores ?_
                  assumption
                clear_value x
                refine netService_keeps hregs hholds hcores heth hint hstl hout ?_
                refine pushOut_keeps hcores ?_
                assumption
              · refine pushOut_keeps hcores ?_
                assumption

theorem queueEffect_keeps (hregs : Keep.regs P) (hmem : Keep.mem P) (htlm : Keep.tlm P) (hholds : Keep.holds P) (hwin : Keep.win P) (hses : Keep.ses P) (hpairs : Keep.pairs P) (hkey : Keep.key P) (hcores : Keep.cores P) (hsage : Keep.sage P) (husl : Keep.usl P) (heth : Keep.eth P) (hflt : Keep.flt P) (hint : Keep.int P) (hstl : Keep.stl P) (hfree : Keep.free P) (hout : Keep.out P) {old : State} {s : State} {k} {i} (h : P old) (h2 : P s) : P (queueEffect old s k i) := by
  unfold queueEffect
  extract_lets -underBinder -merge -useContext +onlyGivenNames x
  clear_value x
  extract_lets -underBinder -merge -useContext +onlyGivenNames x
  clear_value x
  split
  · refine popEntry_keeps hregs hmem htlm hholds hwin hcores hsage hflt hfree ?_
    assumption
  · refine Keep.ite ?_ ?_
    · refine popEntry_keeps hregs hmem htlm hholds hwin hcores hsage hflt hfree ?_
      assumption
    · assumption
  · refine pushEntry_keeps hregs hmem hholds hses hpairs hkey hcores hsage husl heth hint hstl hfree hout ?_
    assumption
  · refine aesPush_keeps hregs hpairs hkey hcores ?_
    assumption
  · assumption

theorem popBars_keeps (hregs : Keep.regs P) (hmem : Keep.mem P) (htlm : Keep.tlm P) (hholds : Keep.holds P) (hwin : Keep.win P) (hcores : Keep.cores P) (hsage : Keep.sage P) (heth : Keep.eth P) (hflt : Keep.flt P) (hint : Keep.int P) (hstl : Keep.stl P) (hfree : Keep.free P) (hout : Keep.out P) {s : State} {k} {i} (h : P s) : Keep.Some2 P (popBars s k i) := by
  unfold popBars
  split
  · exact Keep.none2
  · extract_lets -underBinder -merge -useContext +onlyGivenNames x
    clear_value x
    split
    · refine Keep.some2 ?_
      refine popEffect_keeps hregs hholds hwin hcores hsage hfree ?_
      refine poisonMet_keeps hregs heth hflt hint hstl hout ?_
      refine dropHead_keeps hcores ?_
      assumption
    · split
      · refine Keep.some2 ?_
        refine localSets_keeps hmem htlm hflt ?_
        refine dropHead_keeps hcores ?_
        assumption
      · exact Keep.none2

theorem coreLoad_keeps (hregs : Keep.regs P) (hlatches : Keep.latches P) (hholds : Keep.holds P) (hcores : Keep.cores P) (heth : Keep.eth P) (hflt : Keep.flt P) (htmrs : Keep.tmrs P) (hint : Keep.int P) (hstl : Keep.stl P) (hout : Keep.out P) {s : State} {k} {a} (h : P s) : P (coreLoad s k a).2 := by
  unfold coreLoad
  split
  · dsimp -zeta only
    assumption
  · split
    · refine ioRead_keeps hregs heth hint hout ?_
      assumption
    · extract_lets -underBinder -merge -useContext +onlyGivenNames x
      have hx : P x.2.2 := by
        subst x
        refine fabricRead_keeps hregs hlatches hholds hcores heth hflt htmrs hint hstl hout ?_
        assumption
      clear_value x
      dsimp -zeta only
      assumption

theorem coreLoads_keeps (hregs : Keep.regs P) (hlatches : Keep.latches P) (hholds : Keep.holds P) (hcores : Keep.cores P) (heth : Keep.eth P) (hflt : Keep.flt P) (htmrs : Keep.tmrs P) (hint : Keep.int P) (hstl : Keep.stl P) (hout : Keep.out P) {k} {x2} {x3 : State} (h : P x3) : P (coreLoads k x2 x3).2 := by
  induction x2 generalizing k x3 with
  | nil =>
    unfold coreLoads
    dsimp -zeta only
    assumption
  | cons a r ih =>
    unfold coreLoads
    extract_lets -underBinder -merge -useContext +onlyGivenNames x
    have hx : P x.2 := by
      subst x
      refine coreLoad_keeps hregs hlatches hholds hcores heth hflt htmrs hint hstl hout ?_
      assumption
    clear_value x
    extract_lets -underBinder -merge -useContext +onlyGivenNames x
    have hx : P x.2 := by
      subst x
      refine ih ?_
      assumption
    clear_value x
    dsimp -zeta only
    assumption

theorem coreStore_keeps (hregs : Keep.regs P) (hlatches : Keep.latches P) (hstaged : Keep.staged P) (hmem : Keep.mem P) (htlm : Keep.tlm P) (htime : Keep.time P) (hpower : Keep.power P) (hboot : Keep.boot P) (hwdog : Keep.wdog P) (htrans : Keep.trans P) (hports : Keep.ports P) (hsheaves : Keep.sheaves P) (hsearches : Keep.searches P) (hgroups : Keep.groups P) (hsamplePhase : Keep.samplePhase P) (hdetq : Keep.detq P) (hspks : Keep.spks P) (hframes : Keep.frames P) (hnextFrame : Keep.nextFrame P) (hholds : Keep.holds P) (hwin : Keep.win P) (hlnk : Keep.lnk P) (hfuses : Keep.fuses P) (hses : Keep.ses P) (hpairs : Keep.pairs P) (hkey : Keep.key P) (hcores : Keep.cores P) (hfence : Keep.fence P) (hsage : Keep.sage P) (husl : Keep.usl P) (heth : Keep.eth P) (hxsp : Keep.xsp P) (hflash : Keep.flash P) (hflt : Keep.flt P) (htmrs : Keep.tmrs P) (hrtc : Keep.rtc P) (hint : Keep.int P) (hstl : Keep.stl P) (htag : Keep.tag P) (hreader : Keep.reader P) (hupd : Keep.upd P) (hfree : Keep.free P) (hout : Keep.out P) {s : State} {k} {lvl} {a} {v} (h : P s) : P (coreStore s k lvl a v) := by
  unfold coreStore
  refine Keep.ite ?_ ?_
  · refine localSet_keeps hmem htlm ?_
    assumption
  · refine Keep.ite ?_ ?_
    · refine ioWrite_keeps hregs heth hint hout ?_
      assumption
    · refine fabricWrite_keeps hregs hlatches hstaged hmem htlm htime hpower hboot hwdog htrans hports hsheaves hsearches hgroups hsamplePhase hdetq hspks hframes hnextFrame hholds hwin hlnk hfuses hses hpairs hkey hcores hfence hsage husl heth hxsp hflash hflt htmrs hrtc hint hstl htag hreader hupd hfree hout ?_
      assumption

theorem coreStores_keeps (hregs : Keep.regs P) (hlatches : Keep.latches P) (hstaged : Keep.staged P) (hmem : Keep.mem P) (htlm : Keep.tlm P) (htime : Keep.time P) (hpower : Keep.power P) (hboot : Keep.boot P) (hwdog : Keep.wdog P) (htrans : Keep.trans P) (hports : Keep.ports P) (hsheaves : Keep.sheaves P) (hsearches : Keep.searches P) (hgroups : Keep.groups P) (hsamplePhase : Keep.samplePhase P) (hdetq : Keep.detq P) (hspks : Keep.spks P) (hframes : Keep.frames P) (hnextFrame : Keep.nextFrame P) (hholds : Keep.holds P) (hwin : Keep.win P) (hlnk : Keep.lnk P) (hfuses : Keep.fuses P) (hses : Keep.ses P) (hpairs : Keep.pairs P) (hkey : Keep.key P) (hcores : Keep.cores P) (hfence : Keep.fence P) (hsage : Keep.sage P) (husl : Keep.usl P) (heth : Keep.eth P) (hxsp : Keep.xsp P) (hflash : Keep.flash P) (hflt : Keep.flt P) (htmrs : Keep.tmrs P) (hrtc : Keep.rtc P) (hint : Keep.int P) (hstl : Keep.stl P) (htag : Keep.tag P) (hreader : Keep.reader P) (hupd : Keep.upd P) (hfree : Keep.free P) (hout : Keep.out P) {k} {lvl} {reg} {l} {s : State} (h : P s) : P (coreStores k lvl reg l s) := by
  unfold coreStores
  refine Keep.foldl ?_ ?_
  · assumption
  · intro _ _ _
    refine Keep.ite ?_ ?_
    · refine coreStore_keeps hregs hlatches hstaged hmem htlm htime hpower hboot hwdog htrans hports hsheaves hsearches hgroups hsamplePhase hdetq hspks hframes hnextFrame hholds hwin hlnk hfuses hses hpairs hkey hcores hfence hsage husl heth hxsp hflash hflt htmrs hrtc hint hstl htag hreader hupd hfree hout ?_
      assumption
    · assumption

theorem ctlEffect_keeps (hcores : Keep.cores P) (htmrs : Keep.tmrs P) {s : State} {k} {i} {next} (h : P s) : P (ctlEffect s k i next) := by
  unfold ctlEffect
  extract_lets -underBinder -merge -useContext +onlyGivenNames x
  clear_value x
  split
  · refine State.updCore_keeps hcores ?_
    assumption
  · refine State.updCore_keeps hcores ?_
    assumption
  · refine crWrite_keeps hcores ?_
    assumption
  · refine State.updCore_keeps hcores ?_
    assumption
  · refine State.updCore_keeps hcores ?_
    assumption
  · refine State.updCore_keeps hcores ?_
    assumption
  · refine State.updCore_keeps hcores ?_
    assumption
  · refine Keep.ite ?_ ?_
    · refine State.updCore_keeps hcores ?_
      assumption
    · assumption
  · refine State.updCore_keeps hcores ?_
    refine Keep.ite ?_ ?_
    · refine lfLeave_keeps htmrs ?_
      assumption
    · assumption
  · assumption

theorem countCycles_keeps (hcores : Keep.cores P) (hfree : Keep.free P) {s : State} {k} {commit} (h : P s) : P (countCycles s k commit) := by
  unfold countCycles
  extract_lets -underBinder -merge -useContext +onlyGivenNames x
  clear_value x
  refine bumpFree_keeps hfree ?_
  refine State.updCore_keeps hcores ?_
  assumption

theorem mfcRead_keeps (hcores : Keep.cores P) (hfree : Keep.free P) {s : State} {k} {i} (h : P s) : P (mfcRead s k i).2 := by
  unfold mfcRead
  split
  · extract_lets -underBinder -merge -useContext +onlyGivenNames x
    have hx : P x.2 := by
      subst x
      refine crRead_keeps hcores hfree ?_
      assumption
    clear_value x
    dsimp -zeta only
    assumption
  · dsimp -zeta only
    assumption

theorem gather_keeps (hregs : Keep.regs P) (hlatches : Keep.latches P) (hholds : Keep.holds P) (hcores : Keep.cores P) (heth : Keep.eth P) (hflt : Keep.flt P) (htmrs : Keep.tmrs P) (hint : Keep.int P) (hstl : Keep.stl P) (hfree : Keep.free P) (hout : Keep.out P) {k} {x2} {x3 : State} (h : P x3) : P (gather k x2 x3).2 := by
  induction x2 generalizing k x3 with
  | nil =>
    unfold gather
    dsimp -zeta only
    assumption
  | cons a r ih =>
    unfold gather
    extract_lets -underBinder -merge -useContext +onlyGivenNames x
    clear_value x
    extract_lets -underBinder -merge -useContext +onlyGivenNames x
    clear_value x
    extract_lets -underBinder -merge -useContext +onlyGivenNames x
    have hx : P x.2 := by
      subst x
      refine coreLoads_keeps hregs hlatches hholds hcores heth hflt htmrs hint hstl hout ?_
      assumption
    clear_value x
    extract_lets -underBinder -merge -useContext +onlyGivenNames x
    have hx : P x.2 := by
      subst x
      refine mfcRead_keeps hcores hfree ?_
      assumption
    clear_value x
    extract_lets -underBinder -merge -useContext +onlyGivenNames x
    clear_value x
    extract_lets -underBinder -merge -useContext +onlyGivenNames x
    clear_value x
    extract_lets -underBinder -merge -useContext +onlyGivenNames x
    clear_value x
    extract_lets -underBinder -merge -useContext +onlyGivenNames x
    have hx : P x.2 := by
      subst x
      refine ih ?_
      assumption
    clear_value x
    dsimp -zeta only
    assumption

theorem commit_keeps (hregs : Keep.regs P) (hlatches : Keep.latches P) (hstaged : Keep.staged P) (hmem : Keep.mem P) (htlm : Keep.tlm P) (htime : Keep.time P) (hpower : Keep.power P) (hboot : Keep.boot P) (hwdog : Keep.wdog P) (htrans : Keep.trans P) (hports : Keep.ports P) (hsheaves : Keep.sheaves P) (hsearches : Keep.searches P) (hgroups : Keep.groups P) (hsamplePhase : Keep.samplePhase P) (hdetq : Keep.detq P) (hspks : Keep.spks P) (hframes : Keep.frames P) (hnextFrame : Keep.nextFrame P) (hholds : Keep.holds P) (hwin : Keep.win P) (hlnk : Keep.lnk P) (hfuses : Keep.fuses P) (hses : Keep.ses P) (hpairs : Keep.pairs P) (hkey : Keep.key P) (hcores : Keep.cores P) (hfence : Keep.fence P) (hsage : Keep.sage P) (husl : Keep.usl P) (heth : Keep.eth P) (hxsp : Keep.xsp P) (hflash : Keep.flash P) (hflt : Keep.flt P) (htmrs : Keep.tmrs P) (hrtc : Keep.rtc P) (hint : Keep.int P) (hstl : Keep.stl P) (htag : Keep.tag P) (hreader : Keep.reader P) (hupd : Keep.upd P) (hfree : Keep.free P) (hout : Keep.out P) {s : State} {k} {is} {len} (h : P s) : P (commit s k is len) := by
  unfold commit
  extract_lets -underBinder -merge -useContext +onlyGivenNames x
  have hx : P x := by
    subst x
    refine stallOver_keeps hregs ?_
    assumption
  clear_value x
  extract_lets -underBinder -merge -useContext +onlyGivenNames x
  clear_value x
  extract_lets -underBinder -merge -useContext +onlyGivenNames x
  clear_value x
  extract_lets -underBinder -merge -useContext +onlyGivenNames x
  clear_value x
  extract_lets -underBinder -merge -useContext +onlyGivenNames x
  have hx : P x.2 := by
    subst x
    refine gather_keeps hregs hlatches hholds hcores heth hflt htmrs hint hstl hfree hout ?_
    assumption
  clear_value x
  extract_lets -underBinder -merge -useContext +onlyGivenNames x
  have hx : P x := by
    subst x
    assumption
  clear_value x
  extract_lets -underBinder -merge -useContext +onlyGivenNames x
  have hx : P x := by
    subst x
    refine coreStores_keeps hregs hlatches hstaged hmem htlm htime hpower hboot hwdog htrans hports hsheaves hsearches hgroups hsamplePhase hdetq hspks hframes hnextFrame hholds hwin hlnk hfuses hses hpairs hkey hcores hfence hsage husl heth hxsp hflash hflt htmrs hrtc hint hstl htag hreader hupd hfree hout ?_
    assumption
  clear_value x
  extract_lets -underBinder -merge -useContext +onlyGivenNames x
  have hx : P x := by
    subst x
    refine Keep.foldl ?_ ?_
    · assumption
    · intro _ _ _
      refine queueEffect_keeps hregs hmem htlm hholds hwin hses hpairs hkey hcores hsage husl heth hflt hint hstl hfree hout ?_ ?_
      · assumption
      · assumption
  clear_value x
  extract_lets -underBinder -merge -useContext +onlyGivenNames x
  clear_value x
  extract_lets -underBinder -merge -useContext +onlyGivenNames x
  have hx : P x := by
    subst x
    refine Keep.foldl ?_ ?_
    · refine State.updCore_keeps hcores ?_
      assumption
    · intro _ _ _
      refine ctlEffect_keeps hcores htmrs ?_
      assumption
  clear_value x
  extract_lets -underBinder -merge -useContext +onlyGivenNames x
  have hx : P x := by
    subst x
    refine State.updCore_keeps hcores ?_
    assumption
  clear_value x
  refine coreStores_keeps hregs hlatches hstaged hmem htlm htime hpower hboot hwdog htrans hports hsheaves hsearches hgroups hsamplePhase hdetq hspks hframes hnextFrame hholds hwin hlnk hfuses hses hpairs hkey hcores hfence hsage husl heth hxsp hflash hflt htmrs hrtc hint hstl htag hreader hupd hfree hout ?_
  refine countCycles_keeps hcores hfree ?_
  assumption

theorem trapWith_keeps (hregs : Keep.regs P) (hlatches : Keep.latches P) (hstaged : Keep.staged P) (hmem : Keep.mem P) (htlm : Keep.tlm P) (htime : Keep.time P) (hpower : Keep.power P) (hboot : Keep.boot P) (hwdog : Keep.wdog P) (htrans : Keep.trans P) (hports : Keep.ports P) (hsheaves : Keep.sheaves P) (hsearches : Keep.searches P) (hgroups : Keep.groups P) (hsamplePhase : Keep.samplePhase P) (hdetq : Keep.detq P) (hspks : Keep.spks P) (hframes : Keep.frames P) (hnextFrame : Keep.nextFrame P) (hholds : Keep.holds P) (hwin : Keep.win P) (hlnk : Keep.lnk P) (hfuses : Keep.fuses P) (hses : Keep.ses P) (hpairs : Keep.pairs P) (hkey : Keep.key P) (hcores : Keep.cores P) (hfence : Keep.fence P) (hsage : Keep.sage P) (husl : Keep.usl P) (heth : Keep.eth P) (hxsp : Keep.xsp P) (hflash : Keep.flash P) (hflt : Keep.flt P) (htmrs : Keep.tmrs P) (hrtc : Keep.rtc P) (hint : Keep.int P) (hstl : Keep.stl P) (htag : Keep.tag P) (hreader : Keep.reader P) (hupd : Keep.upd P) (hfree : Keep.free P) (hout : Keep.out P) {s : State} {k} {t2} {tnpc} (h : P s) : P (trapWith s k t2 tnpc) := by
  unfold trapWith
  refine takeTrap_keeps hregs hlatches hstaged hmem htlm htime hpower hboot hwdog htrans hports hsheaves hsearches hgroups hsamplePhase hdetq hspks hframes hnextFrame hholds hwin hlnk hfuses hses hpairs hkey hcores hfence hsage husl heth hxsp hflash hflt htmrs hrtc hint hstl htag hreader hupd hfree hout ?_
  refine countCycles_keeps hcores hfree ?_
  assumption

theorem finishBundle_keeps (hregs : Keep.regs P) (hlatches : Keep.latches P) (hstaged : Keep.staged P) (hmem : Keep.mem P) (htlm : Keep.tlm P) (htime : Keep.time P) (hpower : Keep.power P) (hboot : Keep.boot P) (hwdog : Keep.wdog P) (htrans : Keep.trans P) (hports : Keep.ports P) (hsheaves : Keep.sheaves P) (hsearches : Keep.searches P) (hgroups : Keep.groups P) (hsamplePhase : Keep.samplePhase P) (hdetq : Keep.detq P) (hspks : Keep.spks P) (hframes : Keep.frames P) (hnextFrame : Keep.nextFrame P) (hholds : Keep.holds P) (hwin : Keep.win P) (hlnk : Keep.lnk P) (hfuses : Keep.fuses P) (hses : Keep.ses P) (hpairs : Keep.pairs P) (hkey : Keep.key P) (hcores : Keep.cores P) (hfence : Keep.fence P) (hsage : Keep.sage P) (husl : Keep.usl P) (heth : Keep.eth P) (hxsp : Keep.xsp P) (hflash : Keep.flash P) (hflt : Keep.flt P) (htmrs : Keep.tmrs P) (hrtc : Keep.rtc P) (hint : Keep.int P) (hstl : Keep.stl P) (htag : Keep.tag P) (hreader : Keep.reader P) (hupd : Keep.upd P) (hfree : Keep.free P) (hout : Keep.out P) {s : State} {k} {is} {len} (h : P s) : P (finishBundle s k is len) := by
  unfold finishBundle
  split
  · refine trapWith_keeps hregs hlatches hstaged hmem htlm htime hpower hboot hwdog htrans hports hsheaves hsearches hgroups hsamplePhase hdetq hspks hframes hnextFrame hholds hwin hlnk hfuses hses hpairs hkey hcores hfence hsage husl heth hxsp hflash hflt htmrs hrtc hint hstl htag hreader hupd hfree hout ?_
    refine Keep.patSome2 ?_ (by assumption)
    refine Keep.findSomeAll fun _ => ?_
    refine popBars_keeps hregs hmem htlm hholds hwin hcores hsage heth hflt hint hstl hfree hout ?_
    assumption
  · refine commit_keeps hregs hlatches hstaged hmem htlm htime hpower hboot hwdog htrans hports hsheaves hsearches hgroups hsamplePhase hdetq hspks hframes hnextFrame hholds hwin hlnk hfuses hses hpairs hkey hcores hfence hsage husl heth hxsp hflash hflt htmrs hrtc hint hstl htag hreader hupd hfree hout ?_
    assumption

theorem afterQueue_keeps (hregs : Keep.regs P) (hlatches : Keep.latches P) (hstaged : Keep.staged P) (hmem : Keep.mem P) (htlm : Keep.tlm P) (htime : Keep.time P) (hpower : Keep.power P) (hboot : Keep.boot P) (hwdog : Keep.wdog P) (htrans : Keep.trans P) (hports : Keep.ports P) (hsheaves : Keep.sheaves P) (hsearches : Keep.searches P) (hgroups : Keep.groups P) (hsamplePhase : Keep.samplePhase P) (hdetq : Keep.detq P) (hspks : Keep.spks P) (hframes : Keep.frames P) (hnextFrame : Keep.nextFrame P) (hholds : Keep.holds P) (hwin : Keep.win P) (hlnk : Keep.lnk P) (hfuses : Keep.fuses P) (hses : Keep.ses P) (hpairs : Keep.pairs P) (hkey : Keep.key P) (hcores : Keep.cores P) (hfence : Keep.fence P) (hsage : Keep.sage P) (husl : Keep.usl P) (heth : Keep.eth P) (hxsp : Keep.xsp P) (hflash : Keep.flash P) (hflt : Keep.flt P) (htmrs : Keep.tmrs P) (hrtc : Keep.rtc P) (hint : Keep.int P) (hstl : Keep.stl P) (htag : Keep.tag P) (hreader : Keep.reader P) (hupd : Keep.upd P) (hfree : Keep.free P) (hout : Keep.out P) {s : State} {k} {ws} {is} (h : P s) : P (afterQueue s k ws is) := by
  unfold afterQueue
  refine Keep.ite ?_ ?_
  · refine finishBundle_keeps hregs hlatches hstaged hmem htlm htime hpower hboot hwdog htrans hports hsheaves hsearches hgroups hsamplePhase hdetq hspks hframes hnextFrame hholds hwin hlnk hfuses hses hpairs hkey hcores hfence hsage husl heth hxsp hflash hflt htmrs hrtc hint hstl htag hreader hupd hfree hout ?_
    assumption
  · refine State.updCore_keeps hcores ?_
    refine stallOver_keeps hregs ?_
    assumption

theorem issueWords_keeps (hregs : Keep.regs P) (hlatches : Keep.latches P) (hstaged : Keep.staged P) (hmem : Keep.mem P) (htlm : Keep.tlm P) (htime : Keep.time P) (hpower : Keep.power P) (hboot : Keep.boot P) (hwdog : Keep.wdog P) (htrans : Keep.trans P) (hports : Keep.ports P) (hsheaves : Keep.sheaves P) (hsearches : Keep.searches P) (hgroups : Keep.groups P) (hsamplePhase : Keep.samplePhase P) (hdetq : Keep.detq P) (hspks : Keep.spks P) (hframes : Keep.frames P) (hnextFrame : Keep.nextFrame P) (hholds : Keep.holds P) (hwin : Keep.win P) (hlnk : Keep.lnk P) (hfuses : Keep.fuses P) (hses : Keep.ses P) (hpairs : Keep.pairs P) (hkey : Keep.key P) (hcores : Keep.cores P) (hfence : Keep.fence P) (hsage : Keep.sage P) (husl : Keep.usl P) (heth : Keep.eth P) (hxsp : Keep.xsp P) (hflash : Keep.flash P) (hflt : Keep.flt P) (htmrs : Keep.tmrs P) (hrtc : Keep.rtc P) (hint : Keep.int P) (hstl : Keep.stl P) (htag : Keep.tag P) (hreader : Keep.reader P) (hupd : Keep.upd P) (hfree : Keep.free P) (hout : Keep.out P) {s : State} {k} {ws} {flits} (h : P s) : P (issueWords s k ws flits) := by
  unfold issueWords
  extract_lets -underBinder -merge -useContext +onlyGivenNames x
  clear_value x
  extract_lets -underBinder -merge -useContext +onlyGivenNames x
  clear_value x
  extract_lets -underBinder -merge -useContext +onlyGivenNames x
  clear_value x
  refine Keep.ite ?_ ?_
  · refine trapWith_keeps hregs hlatches hstaged hmem htlm htime hpower hboot hwdog htrans hports hsheaves hsearches hgroups hsamplePhase hdetq hspks hframes hnextFrame hholds hwin hlnk hfuses hses hpairs hkey hcores hfence hsage husl heth hxsp hflash hflt htmrs hrtc hint hstl htag hreader hupd hfree hout ?_
    assumption
  · refine Keep.ite ?_ ?_
    · refine trapWith_keeps hregs hlatches hstaged hmem htlm htime hpower hboot hwdog htrans hports hsheaves hsearches hgroups hsamplePhase hdetq hspks hframes hnextFrame hholds hwin hlnk hfuses hses hpairs hkey hcores hfence hsage husl heth hxsp hflash hflt htmrs hrtc hint hstl htag hreader hupd hfree hout ?_
      assumption
    · extract_lets -underBinder -merge -useContext +onlyGivenNames x
      clear_value x
      split
      · refine trapWith_keeps hregs hlatches hstaged hmem htlm htime hpower hboot hwdog htrans hports hsheaves hsearches hgroups hsamplePhase hdetq hspks hframes hnextFrame hholds hwin hlnk hfuses hses hpairs hkey hcores hfence hsage husl heth hxsp hflash hflt htmrs hrtc hint hstl htag hreader hupd hfree hout ?_
        refine Keep.pat2 ?_ (by assumption)
        refine runTrap_keeps hregs heth hflt hint hstl hout ?_
        assumption
      · extract_lets -underBinder -merge -useContext +onlyGivenNames x
        have hx : P x := by
          subst x
          refine Keep.ite ?_ ?_
          · refine rxIssue_keeps hsage ?_
            refine Keep.pat2 ?_ (by assumption)
            refine runTrap_keeps hregs heth hflt hint hstl hout ?_
            assumption
          · refine Keep.pat2 ?_ (by assumption)
            refine runTrap_keeps hregs heth hflt hint hstl hout ?_
            assumption
        clear_value x
        split
        · refine State.updCore_keeps hcores ?_
          assumption
        · refine afterQueue_keeps hregs hlatches hstaged hmem htlm htime hpower hboot hwdog htrans hports hsheaves hsearches hgroups hsamplePhase hdetq hspks hframes hnextFrame hholds hwin hlnk hfuses hses hpairs hkey hcores hfence hsage husl heth hxsp hflash hflt htmrs hrtc hint hstl htag hreader hupd hfree hout ?_
          assumption

theorem issue_keeps (hregs : Keep.regs P) (hlatches : Keep.latches P) (hstaged : Keep.staged P) (hmem : Keep.mem P) (htlm : Keep.tlm P) (htime : Keep.time P) (hpower : Keep.power P) (hboot : Keep.boot P) (hwdog : Keep.wdog P) (htrans : Keep.trans P) (hports : Keep.ports P) (hsheaves : Keep.sheaves P) (hsearches : Keep.searches P) (hgroups : Keep.groups P) (hsamplePhase : Keep.samplePhase P) (hdetq : Keep.detq P) (hspks : Keep.spks P) (hframes : Keep.frames P) (hnextFrame : Keep.nextFrame P) (hholds : Keep.holds P) (hwin : Keep.win P) (hlnk : Keep.lnk P) (hfuses : Keep.fuses P) (hses : Keep.ses P) (hpairs : Keep.pairs P) (hkey : Keep.key P) (hcores : Keep.cores P) (hfence : Keep.fence P) (hsage : Keep.sage P) (husl : Keep.usl P) (heth : Keep.eth P) (hxsp : Keep.xsp P) (hflash : Keep.flash P) (hflt : Keep.flt P) (htmrs : Keep.tmrs P) (hrtc : Keep.rtc P) (hint : Keep.int P) (hstl : Keep.stl P) (htag : Keep.tag P) (hreader : Keep.reader P) (hupd : Keep.upd P) (hfree : Keep.free P) (hout : Keep.out P) {s : State} {k} {upsets} (h : P s) : P (issue s k upsets) := by
  unfold issue
  refine Keep.ite ?_ ?_
  · assumption
  · extract_lets -underBinder -merge -useContext +onlyGivenNames x
    have hx : P x := by
      subst x
      refine Keep.foldl ?_ ?_
      · assumption
      · intro _ _ _
        refine rowError_keeps hregs hmem htlm heth hflt hint hstl htag hout ?_
        assumption
    clear_value x
    extract_lets -underBinder -merge -useContext +onlyGivenNames x
    clear_value x
    extract_lets -underBinder -merge -useContext +onlyGivenNames x
    clear_value x
    split
    · refine trapWith_keeps hregs hlatches hstaged hmem htlm htime hpower hboot hwdog htrans hports hsheaves hsearches hgroups hsamplePhase hdetq hspks hframes hnextFrame hholds hwin hlnk hfuses hses hpairs hkey hcores hfence hsage husl heth hxsp hflash hflt htmrs hrtc hint hstl htag hreader hupd hfree hout ?_
      refine Keep.patInl2 ?_ (by assumption)
      refine fetchBundle_keeps hregs heth hflt hint hstl hout ?_
      assumption
    · refine Keep.ite ?_ ?_
      · extract_lets -underBinder -merge -useContext +onlyGivenNames x
        have hx : P x.2 := by
          subst x
          refine flitMet_keeps hregs heth hflt hint hstl hout ?_
          assumption
        clear_value x
        refine Keep.ite ?_ ?_
        · refine trapWith_keeps hregs hlatches hstaged hmem htlm htime hpower hboot hwdog htrans hports hsheaves hsearches hgroups hsamplePhase hdetq hspks hframes hnextFrame hholds hwin hlnk hfuses hses hpairs hkey hcores hfence hsage husl heth hxsp hflash hflt htmrs hrtc hint hstl htag hreader hupd hfree hout ?_
          assumption
        · refine issueWords_keeps hregs hlatches hstaged hmem htlm htime hpower hboot hwdog htrans hports hsheaves hsearches hgroups hsamplePhase hdetq hspks hframes hnextFrame hholds hwin hlnk hfuses hses hpairs hkey hcores hfence hsage husl heth hxsp hflash hflt htmrs hrtc hint hstl htag hreader hupd hfree hout ?_
          assumption
      · refine issueWords_keeps hregs hlatches hstaged hmem htlm htime hpower hboot hwdog htrans hports hsheaves hsearches hgroups hsamplePhase hdetq hspks hframes hnextFrame hholds hwin hlnk hfuses hses hpairs hkey hcores hfence hsage husl heth hxsp hflash hflt htmrs hrtc hint hstl htag hreader hupd hfree hout ?_
        assumption

theorem stallEnd_keeps (hregs : Keep.regs P) (hlatches : Keep.latches P) (hstaged : Keep.staged P) (hmem : Keep.mem P) (htlm : Keep.tlm P) (htime : Keep.time P) (hpower : Keep.power P) (hboot : Keep.boot P) (hwdog : Keep.wdog P) (htrans : Keep.trans P) (hports : Keep.ports P) (hsheaves : Keep.sheaves P) (hsearches : Keep.searches P) (hgroups : Keep.groups P) (hsamplePhase : Keep.samplePhase P) (hdetq : Keep.detq P) (hspks : Keep.spks P) (hframes : Keep.frames P) (hnextFrame : Keep.nextFrame P) (hholds : Keep.holds P) (hwin : Keep.win P) (hlnk : Keep.lnk P) (hfuses : Keep.fuses P) (hses : Keep.ses P) (hpairs : Keep.pairs P) (hkey : Keep.key P) (hcores : Keep.cores P) (hfence : Keep.fence P) (hsage : Keep.sage P) (husl : Keep.usl P) (heth : Keep.eth P) (hxsp : Keep.xsp P) (hflash : Keep.flash P) (hflt : Keep.flt P) (htmrs : Keep.tmrs P) (hrtc : Keep.rtc P) (hint : Keep.int P) (hstl : Keep.stl P) (htag : Keep.tag P) (hreader : Keep.reader P) (hupd : Keep.upd P) (hfree : Keep.free P) (hout : Keep.out P) {s : State} {k} (h : P s) : P (stallEnd s k) := by
  unfold stallEnd
  split
  · extract_lets -underBinder -merge -useContext +onlyGivenNames x
    clear_value x
    refine Keep.ite ?_ ?_
    · refine afterQueue_keeps hregs hlatches hstaged hmem htlm htime hpower hboot hwdog htrans hports hsheaves hsearches hgroups hsamplePhase hdetq hspks hframes hnextFrame hholds hwin hlnk hfuses hses hpairs hkey hcores hfence hsage husl heth hxsp hflash hflt htmrs hrtc hint hstl htag hreader hupd hfree hout ?_
      assumption
    · assumption
  · assumption

theorem loadsDone_keeps (hregs : Keep.regs P) (hlatches : Keep.latches P) (hstaged : Keep.staged P) (hmem : Keep.mem P) (htlm : Keep.tlm P) (htime : Keep.time P) (hpower : Keep.power P) (hboot : Keep.boot P) (hwdog : Keep.wdog P) (htrans : Keep.trans P) (hports : Keep.ports P) (hsheaves : Keep.sheaves P) (hsearches : Keep.searches P) (hgroups : Keep.groups P) (hsamplePhase : Keep.samplePhase P) (hdetq : Keep.detq P) (hspks : Keep.spks P) (hframes : Keep.frames P) (hnextFrame : Keep.nextFrame P) (hholds : Keep.holds P) (hwin : Keep.win P) (hlnk : Keep.lnk P) (hfuses : Keep.fuses P) (hses : Keep.ses P) (hpairs : Keep.pairs P) (hkey : Keep.key P) (hcores : Keep.cores P) (hfence : Keep.fence P) (hsage : Keep.sage P) (husl : Keep.usl P) (heth : Keep.eth P) (hxsp : Keep.xsp P) (hflash : Keep.flash P) (hflt : Keep.flt P) (htmrs : Keep.tmrs P) (hrtc : Keep.rtc P) (hint : Keep.int P) (hstl : Keep.stl P) (htag : Keep.tag P) (hreader : Keep.reader P) (hupd : Keep.upd P) (hfree : Keep.free P) (hout : Keep.out P) {s : State} {k} (h : P s) : P (loadsDone s k) := by
  unfold loadsDone
  extract_lets -underBinder -merge -useContext +onlyGivenNames x
  clear_value x
  extract_lets -underBinder -merge -useContext +onlyGivenNames x
  clear_value x
  split
  · refine trapWith_keeps hregs hlatches hstaged hmem htlm htime hpower hboot hwdog htrans hports hsheaves hsearches hgroups hsamplePhase hdetq hspks hframes hnextFrame hholds hwin hlnk hfuses hses hpairs hkey hcores hfence hsage husl heth hxsp hflash hflt htmrs hrtc hint hstl htag hreader hupd hfree hout ?_
    refine Keep.patSome2 ?_ (by assumption)
    refine Keep.findSomeAll fun _ => ?_
    refine poisonBars_keeps hregs heth hflt hint hstl hout ?_
    assumption
  · refine finishBundle_keeps hregs hlatches hstaged hmem htlm htime hpower hboot hwdog htrans hports hsheaves hsearches hgroups hsamplePhase hdetq hspks hframes hnextFrame hholds hwin hlnk hfuses hses hpairs hkey hcores hfence hsage husl heth hxsp hflash hflt htmrs hrtc hint hstl htag hreader hupd hfree hout ?_
    assumption

theorem loadsReturn_keeps (hregs : Keep.regs P) (hlatches : Keep.latches P) (hstaged : Keep.staged P) (hmem : Keep.mem P) (htlm : Keep.tlm P) (htime : Keep.time P) (hpower : Keep.power P) (hboot : Keep.boot P) (hwdog : Keep.wdog P) (htrans : Keep.trans P) (hports : Keep.ports P) (hsheaves : Keep.sheaves P) (hsearches : Keep.searches P) (hgroups : Keep.groups P) (hsamplePhase : Keep.samplePhase P) (hdetq : Keep.detq P) (hspks : Keep.spks P) (hframes : Keep.frames P) (hnextFrame : Keep.nextFrame P) (hholds : Keep.holds P) (hwin : Keep.win P) (hlnk : Keep.lnk P) (hfuses : Keep.fuses P) (hses : Keep.ses P) (hpairs : Keep.pairs P) (hkey : Keep.key P) (hcores : Keep.cores P) (hfence : Keep.fence P) (hsage : Keep.sage P) (husl : Keep.usl P) (heth : Keep.eth P) (hxsp : Keep.xsp P) (hflash : Keep.flash P) (hflt : Keep.flt P) (htmrs : Keep.tmrs P) (hrtc : Keep.rtc P) (hint : Keep.int P) (hstl : Keep.stl P) (htag : Keep.tag P) (hreader : Keep.reader P) (hupd : Keep.upd P) (hfree : Keep.free P) (hout : Keep.out P) {s : State} {k} (h : P s) : P (loadsReturn s k) := by
  unfold loadsReturn
  refine Keep.ite ?_ ?_
  · assumption
  · refine Keep.ite ?_ ?_
    · extract_lets -underBinder -merge -useContext +onlyGivenNames x
      have hx : P x := by
        subst x
        refine loadsDone_keeps hregs hlatches hstaged hmem htlm htime hpower hboot hwdog htrans hports hsheaves hsearches hgroups hsamplePhase hdetq hspks hframes hnextFrame hholds hwin hlnk hfuses hses hpairs hkey hcores hfence hsage husl heth hxsp hflash hflt htmrs hrtc hint hstl htag hreader hupd hfree hout ?_
        assumption
      clear_value x
      refine Keep.ite ?_ ?_
      · refine tilGone_keeps hregs hmem hholds hwin hlnk hses hkey hcores hsage heth hflt hint hstl hfree hout ?_
        assumption
      · assumption
    · refine Keep.ite ?_ ?_
      · extract_lets -underBinder -merge -useContext +onlyGivenNames x
        have hx : P x := by
          subst x
          refine loadsDone_keeps hregs hlatches hstaged hmem htlm htime hpower hboot hwdog htrans hports hsheaves hsearches hgroups hsamplePhase hdetq hspks hframes hnextFrame hholds hwin hlnk hfuses hses hpairs hkey hcores hfence hsage husl heth hxsp hflash hflt htmrs hrtc hint hstl htag hreader hupd hfree hout ?_
          assumption
        clear_value x
        refine Keep.ite ?_ ?_
        · refine tilGone_keeps hregs hmem hholds hwin hlnk hses hkey hcores hsage heth hflt hint hstl hfree hout ?_
          assumption
        · assumption
      · assumption

theorem stallTimeout_keeps (hregs : Keep.regs P) (htime : Keep.time P) (heth : Keep.eth P) (hint : Keep.int P) (hstl : Keep.stl P) (hout : Keep.out P) {s : State} {k} (h : P s) : P (stallTimeout s k) := by
  unfold stallTimeout
  extract_lets -underBinder -merge -useContext +onlyGivenNames x
  clear_value x
  split
  · refine Keep.ite ?_ ?_
    · assumption
    · extract_lets -underBinder -merge -useContext +onlyGivenNames x
      have hx : P x := by
        subst x
        refine reach_keeps htime ?_
        assumption
      clear_value x
      refine Keep.ite ?_ ?_
      · refine evt_keeps hregs heth hint hstl hout ?_
        assumption
      · refine rsetBit_keeps hregs ?_
        assumption
  · assumption

theorem debugResume_keeps (hcores : Keep.cores P) (htmrs : Keep.tmrs P) {s : State} (h : P s) : P (debugResume s) := by
  unfold debugResume
  extract_lets -underBinder -merge -useContext +onlyGivenNames x
  have hx : P x := by
    subst x
    refine Keep.set_cores hcores ?_
    assumption
  clear_value x
  refine Keep.ite ?_ ?_
  · refine lfLeave_keeps htmrs ?_
    assumption
  · assumption

theorem claimRow_keeps (hregs : Keep.regs P) (hlatches : Keep.latches P) (hstaged : Keep.staged P) (hmem : Keep.mem P) (htlm : Keep.tlm P) (htime : Keep.time P) (hpower : Keep.power P) (hboot : Keep.boot P) (hwdog : Keep.wdog P) (htrans : Keep.trans P) (hports : Keep.ports P) (hsheaves : Keep.sheaves P) (hsearches : Keep.searches P) (hgroups : Keep.groups P) (hsamplePhase : Keep.samplePhase P) (hdetq : Keep.detq P) (hspks : Keep.spks P) (hframes : Keep.frames P) (hnextFrame : Keep.nextFrame P) (hholds : Keep.holds P) (hwin : Keep.win P) (hlnk : Keep.lnk P) (hfuses : Keep.fuses P) (hses : Keep.ses P) (hpairs : Keep.pairs P) (hkey : Keep.key P) (hcores : Keep.cores P) (hfence : Keep.fence P) (hsage : Keep.sage P) (husl : Keep.usl P) (heth : Keep.eth P) (hxsp : Keep.xsp P) (hflash : Keep.flash P) (hflt : Keep.flt P) (htmrs : Keep.tmrs P) (hrtc : Keep.rtc P) (hint : Keep.int P) (hstl : Keep.stl P) (htag : Keep.tag P) (hreader : Keep.reader P) (hupd : Keep.upd P) (hfree : Keep.free P) (hout : Keep.out P) {s : State} {k} {fast} (h : P s) : P (claimRow s k fast) := by
  unfold claimRow
  refine Keep.ite ?_ ?_
  · assumption
  · refine Keep.ite ?_ ?_
    · refine takeTrap_keeps hregs hlatches hstaged hmem htlm htime hpower hboot hwdog htrans hports hsheaves hsearches hgroups hsamplePhase hdetq hspks hframes hnextFrame hholds hwin hlnk hfuses hses hpairs hkey hcores hfence hsage husl heth hxsp hflash hflt htmrs hrtc hint hstl htag hreader hupd hfree hout ?_
      assumption
    · refine showRead_keeps hout ?_
      refine intClaim_keeps hregs heth hint hout ?_
      assumption

theorem completeRow_keeps (hregs : Keep.regs P) (hlatches : Keep.latches P) (hstaged : Keep.staged P) (hmem : Keep.mem P) (htlm : Keep.tlm P) (htime : Keep.time P) (hpower : Keep.power P) (hboot : Keep.boot P) (hwdog : Keep.wdog P) (htrans : Keep.trans P) (hports : Keep.ports P) (hsheaves : Keep.sheaves P) (hsearches : Keep.searches P) (hgroups : Keep.groups P) (hsamplePhase : Keep.samplePhase P) (hdetq : Keep.detq P) (hspks : Keep.spks P) (hframes : Keep.frames P) (hnextFrame : Keep.nextFrame P) (hholds : Keep.holds P) (hwin : Keep.win P) (hlnk : Keep.lnk P) (hfuses : Keep.fuses P) (hses : Keep.ses P) (hpairs : Keep.pairs P) (hkey : Keep.key P) (hcores : Keep.cores P) (hfence : Keep.fence P) (hsage : Keep.sage P) (husl : Keep.usl P) (heth : Keep.eth P) (hxsp : Keep.xsp P) (hflash : Keep.flash P) (hflt : Keep.flt P) (htmrs : Keep.tmrs P) (hrtc : Keep.rtc P) (hint : Keep.int P) (hstl : Keep.stl P) (htag : Keep.tag P) (hreader : Keep.reader P) (hupd : Keep.upd P) (hfree : Keep.free P) (hout : Keep.out P) {s : State} {k} {fast} {v} (h : P s) : P (completeRow s k fast v) := by
  unfold completeRow
  refine Keep.ite ?_ ?_
  · assumption
  · refine Keep.ite ?_ ?_
    · refine takeTrap_keeps hregs hlatches hstaged hmem htlm htime hpower hboot hwdog htrans hports hsheaves hsearches hgroups hsamplePhase hdetq hspks hframes hnextFrame hholds hwin hlnk hfuses hses hpairs hkey hcores hfence hsage husl heth hxsp hflash hflt htmrs hrtc hint hstl htag hreader hupd hfree hout ?_
      assumption
    · refine intComplete_keeps hregs heth hint hout ?_
      assumption

theorem execBundle_keeps (hregs : Keep.regs P) (hlatches : Keep.latches P) (hstaged : Keep.staged P) (hmem : Keep.mem P) (htlm : Keep.tlm P) (htime : Keep.time P) (hpower : Keep.power P) (hboot : Keep.boot P) (hwdog : Keep.wdog P) (htrans : Keep.trans P) (hports : Keep.ports P) (hsheaves : Keep.sheaves P) (hsearches : Keep.searches P) (hgroups : Keep.groups P) (hsamplePhase : Keep.samplePhase P) (hdetq : Keep.detq P) (hspks : Keep.spks P) (hframes : Keep.frames P) (hnextFrame : Keep.nextFrame P) (hholds : Keep.holds P) (hwin : Keep.win P) (hlnk : Keep.lnk P) (hfuses : Keep.fuses P) (hses : Keep.ses P) (hpairs : Keep.pairs P) (hkey : Keep.key P) (hcores : Keep.cores P) (hfence : Keep.fence P) (hsage : Keep.sage P) (husl : Keep.usl P) (heth : Keep.eth P) (hxsp : Keep.xsp P) (hflash : Keep.flash P) (hflt : Keep.flt P) (htmrs : Keep.tmrs P) (hrtc : Keep.rtc P) (hint : Keep.int P) (hstl : Keep.stl P) (htag : Keep.tag P) (hreader : Keep.reader P) (hupd : Keep.upd P) (hfree : Keep.free P) (hout : Keep.out P) {core} {upsets} {s : State} (h : P s) {t : State} (e : execBundle core upsets s = .next t) : P t := by
  unfold execBundle at e
  split at e
  · obtain rfl := Host.Outcome.next.inj e
    refine issue_keeps hregs hlatches hstaged hmem htlm htime hpower hboot hwdog htrans hports hsheaves hsearches hgroups hsamplePhase hdetq hspks hframes hnextFrame hholds hwin hlnk hfuses hses hpairs hkey hcores hfence hsage husl heth hxsp hflash hflt htmrs hrtc hint hstl htag hreader hupd hfree hout ?_
    assumption
  · cases e

theorem execQueueStallEnd_keeps (hregs : Keep.regs P) (hlatches : Keep.latches P) (hstaged : Keep.staged P) (hmem : Keep.mem P) (htlm : Keep.tlm P) (htime : Keep.time P) (hpower : Keep.power P) (hboot : Keep.boot P) (hwdog : Keep.wdog P) (htrans : Keep.trans P) (hports : Keep.ports P) (hsheaves : Keep.sheaves P) (hsearches : Keep.searches P) (hgroups : Keep.groups P) (hsamplePhase : Keep.samplePhase P) (hdetq : Keep.detq P) (hspks : Keep.spks P) (hframes : Keep.frames P) (hnextFrame : Keep.nextFrame P) (hholds : Keep.holds P) (hwin : Keep.win P) (hlnk : Keep.lnk P) (hfuses : Keep.fuses P) (hses : Keep.ses P) (hpairs : Keep.pairs P) (hkey : Keep.key P) (hcores : Keep.cores P) (hfence : Keep.fence P) (hsage : Keep.sage P) (husl : Keep.usl P) (heth : Keep.eth P) (hxsp : Keep.xsp P) (hflash : Keep.flash P) (hflt : Keep.flt P) (htmrs : Keep.tmrs P) (hrtc : Keep.rtc P) (hint : Keep.int P) (hstl : Keep.stl P) (htag : Keep.tag P) (hreader : Keep.reader P) (hupd : Keep.upd P) (hfree : Keep.free P) (hout : Keep.out P) {core} {s : State} (h : P s) {t : State} (e : execQueueStallEnd core s = .next t) : P t := by
  obtain rfl := Host.Outcome.next.inj e
  refine stallEnd_keeps hregs hlatches hstaged hmem htlm htime hpower hboot hwdog htrans hports hsheaves hsearches hgroups hsamplePhase hdetq hspks hframes hnextFrame hholds hwin hlnk hfuses hses hpairs hkey hcores hfence hsage husl heth hxsp hflash hflt htmrs hrtc hint hstl htag hreader hupd hfree hout ?_
  assumption

theorem execFabricLoadReturn_keeps (hregs : Keep.regs P) (hlatches : Keep.latches P) (hstaged : Keep.staged P) (hmem : Keep.mem P) (htlm : Keep.tlm P) (htime : Keep.time P) (hpower : Keep.power P) (hboot : Keep.boot P) (hwdog : Keep.wdog P) (htrans : Keep.trans P) (hports : Keep.ports P) (hsheaves : Keep.sheaves P) (hsearches : Keep.searches P) (hgroups : Keep.groups P) (hsamplePhase : Keep.samplePhase P) (hdetq : Keep.detq P) (hspks : Keep.spks P) (hframes : Keep.frames P) (hnextFrame : Keep.nextFrame P) (hholds : Keep.holds P) (hwin : Keep.win P) (hlnk : Keep.lnk P) (hfuses : Keep.fuses P) (hses : Keep.ses P) (hpairs : Keep.pairs P) (hkey : Keep.key P) (hcores : Keep.cores P) (hfence : Keep.fence P) (hsage : Keep.sage P) (husl : Keep.usl P) (heth : Keep.eth P) (hxsp : Keep.xsp P) (hflash : Keep.flash P) (hflt : Keep.flt P) (htmrs : Keep.tmrs P) (hrtc : Keep.rtc P) (hint : Keep.int P) (hstl : Keep.stl P) (htag : Keep.tag P) (hreader : Keep.reader P) (hupd : Keep.upd P) (hfree : Keep.free P) (hout : Keep.out P) {core} {s : State} (h : P s) {t : State} (e : execFabricLoadReturn core s = .next t) : P t := by
  obtain rfl := Host.Outcome.next.inj e
  refine loadsReturn_keeps hregs hlatches hstaged hmem htlm htime hpower hboot hwdog htrans hports hsheaves hsearches hgroups hsamplePhase hdetq hspks hframes hnextFrame hholds hwin hlnk hfuses hses hpairs hkey hcores hfence hsage husl heth hxsp hflash hflt htmrs hrtc hint hstl htag hreader hupd hfree hout ?_
  assumption

theorem execInterruptEntry_keeps (hregs : Keep.regs P) (hcores : Keep.cores P) (hfree : Keep.free P) {core} {s : State} (h : P s) {t : State} (e : execInterruptEntry core s = .next t) : P t := by
  obtain rfl := Host.Outcome.next.inj e
  refine takeInterrupt_keeps hregs hcores hfree ?_
  assumption

theorem execStallTimeout_keeps (hregs : Keep.regs P) (htime : Keep.time P) (heth : Keep.eth P) (hint : Keep.int P) (hstl : Keep.stl P) (hout : Keep.out P) {core} {s : State} (h : P s) {t : State} (e : execStallTimeout core s = .next t) : P t := by
  obtain rfl := Host.Outcome.next.inj e
  refine stallTimeout_keeps hregs htime heth hint hstl hout ?_
  assumption

theorem execDebugResume_keeps (hcores : Keep.cores P) (htmrs : Keep.tmrs P) {s : State} (h : P s) {t : State} (e : execDebugResume s = .next t) : P t := by
  obtain rfl := Host.Outcome.next.inj e
  refine debugResume_keeps hcores htmrs ?_
  assumption

theorem execInterruptClaim_keeps (hregs : Keep.regs P) (hlatches : Keep.latches P) (hstaged : Keep.staged P) (hmem : Keep.mem P) (htlm : Keep.tlm P) (htime : Keep.time P) (hpower : Keep.power P) (hboot : Keep.boot P) (hwdog : Keep.wdog P) (htrans : Keep.trans P) (hports : Keep.ports P) (hsheaves : Keep.sheaves P) (hsearches : Keep.searches P) (hgroups : Keep.groups P) (hsamplePhase : Keep.samplePhase P) (hdetq : Keep.detq P) (hspks : Keep.spks P) (hframes : Keep.frames P) (hnextFrame : Keep.nextFrame P) (hholds : Keep.holds P) (hwin : Keep.win P) (hlnk : Keep.lnk P) (hfuses : Keep.fuses P) (hses : Keep.ses P) (hpairs : Keep.pairs P) (hkey : Keep.key P) (hcores : Keep.cores P) (hfence : Keep.fence P) (hsage : Keep.sage P) (husl : Keep.usl P) (heth : Keep.eth P) (hxsp : Keep.xsp P) (hflash : Keep.flash P) (hflt : Keep.flt P) (htmrs : Keep.tmrs P) (hrtc : Keep.rtc P) (hint : Keep.int P) (hstl : Keep.stl P) (htag : Keep.tag P) (hreader : Keep.reader P) (hupd : Keep.upd P) (hfree : Keep.free P) (hout : Keep.out P) {core} {fast} {s : State} (h : P s) {t : State} (e : execInterruptClaim core fast s = .next t) : P t := by
  obtain rfl := Host.Outcome.next.inj e
  refine claimRow_keeps hregs hlatches hstaged hmem htlm htime hpower hboot hwdog htrans hports hsheaves hsearches hgroups hsamplePhase hdetq hspks hframes hnextFrame hholds hwin hlnk hfuses hses hpairs hkey hcores hfence hsage husl heth hxsp hflash hflt htmrs hrtc hint hstl htag hreader hupd hfree hout ?_
  assumption

theorem execInterruptComplete_keeps (hregs : Keep.regs P) (hlatches : Keep.latches P) (hstaged : Keep.staged P) (hmem : Keep.mem P) (htlm : Keep.tlm P) (htime : Keep.time P) (hpower : Keep.power P) (hboot : Keep.boot P) (hwdog : Keep.wdog P) (htrans : Keep.trans P) (hports : Keep.ports P) (hsheaves : Keep.sheaves P) (hsearches : Keep.searches P) (hgroups : Keep.groups P) (hsamplePhase : Keep.samplePhase P) (hdetq : Keep.detq P) (hspks : Keep.spks P) (hframes : Keep.frames P) (hnextFrame : Keep.nextFrame P) (hholds : Keep.holds P) (hwin : Keep.win P) (hlnk : Keep.lnk P) (hfuses : Keep.fuses P) (hses : Keep.ses P) (hpairs : Keep.pairs P) (hkey : Keep.key P) (hcores : Keep.cores P) (hfence : Keep.fence P) (hsage : Keep.sage P) (husl : Keep.usl P) (heth : Keep.eth P) (hxsp : Keep.xsp P) (hflash : Keep.flash P) (hflt : Keep.flt P) (htmrs : Keep.tmrs P) (hrtc : Keep.rtc P) (hint : Keep.int P) (hstl : Keep.stl P) (htag : Keep.tag P) (hreader : Keep.reader P) (hupd : Keep.upd P) (hfree : Keep.free P) (hout : Keep.out P) {core} {fast} {v} {s : State} (h : P s) {t : State} (e : execInterruptComplete core fast v s = .next t) : P t := by
  obtain rfl := Host.Outcome.next.inj e
  refine completeRow_keeps hregs hlatches hstaged hmem htlm htime hpower hboot hwdog htrans hports hsheaves hsearches hgroups hsamplePhase hdetq hspks hframes hnextFrame hholds hwin hlnk hfuses hses hpairs hkey hcores hfence hsage husl heth hxsp hflash hflt htmrs hrtc hint hstl htag hreader hupd hfree hout ?_
  assumption

theorem tagReads_keeps (hregs : Keep.regs P) (hlatches : Keep.latches P) (hholds : Keep.holds P) (hcores : Keep.cores P) (heth : Keep.eth P) (hflt : Keep.flt P) (htmrs : Keep.tmrs P) (hint : Keep.int P) (hstl : Keep.stl P) (hout : Keep.out P) {x1} {x2} {x3 : State} (h : P x3) : P (tagReads x1 x2 x3).2 := by
  induction x2 generalizing x1 x3 with
  | zero =>
    unfold tagReads
    dsimp -zeta only
    assumption
  | succ n ih =>
    unfold tagReads
    split
    · dsimp -zeta only
      refine Keep.pat2 ?_ (by assumption)
      refine fenceCheck_keeps hregs heth hint hstl hout ?_
      assumption
    · extract_lets -underBinder -merge -useContext +onlyGivenNames x
      have hx : P x.2.2 := by
        subst x
        refine fabricRead_keeps hregs hlatches hholds hcores heth hflt htmrs hint hstl hout ?_
        refine Keep.pat2 ?_ (by assumption)
        refine fenceCheck_keeps hregs heth hint hstl hout ?_
        assumption
      clear_value x
      extract_lets -underBinder -merge -useContext +onlyGivenNames x
      clear_value x
      extract_lets -underBinder -merge -useContext +onlyGivenNames x
      have hx : P x := by
        subst x
        refine Keep.ite ?_ ?_
        · refine poisonMet_keeps hregs heth hflt hint hstl hout ?_
          assumption
        · assumption
      clear_value x
      extract_lets -underBinder -merge -useContext +onlyGivenNames x
      have hx : P x.2 := by
        subst x
        refine ih ?_
        assumption
      clear_value x
      dsimp -zeta only
      assumption

theorem tagWrites_keeps (hregs : Keep.regs P) (hlatches : Keep.latches P) (hstaged : Keep.staged P) (hmem : Keep.mem P) (htlm : Keep.tlm P) (htime : Keep.time P) (hpower : Keep.power P) (hboot : Keep.boot P) (hwdog : Keep.wdog P) (htrans : Keep.trans P) (hports : Keep.ports P) (hsheaves : Keep.sheaves P) (hsearches : Keep.searches P) (hgroups : Keep.groups P) (hsamplePhase : Keep.samplePhase P) (hdetq : Keep.detq P) (hspks : Keep.spks P) (hframes : Keep.frames P) (hnextFrame : Keep.nextFrame P) (hholds : Keep.holds P) (hwin : Keep.win P) (hlnk : Keep.lnk P) (hfuses : Keep.fuses P) (hses : Keep.ses P) (hpairs : Keep.pairs P) (hkey : Keep.key P) (hcores : Keep.cores P) (hfence : Keep.fence P) (hsage : Keep.sage P) (husl : Keep.usl P) (heth : Keep.eth P) (hxsp : Keep.xsp P) (hflash : Keep.flash P) (hflt : Keep.flt P) (htmrs : Keep.tmrs P) (hrtc : Keep.rtc P) (hint : Keep.int P) (hstl : Keep.stl P) (htag : Keep.tag P) (hreader : Keep.reader P) (hupd : Keep.upd P) (hfree : Keep.free P) (hout : Keep.out P) {x1} {x2} {x3 : State} (h : P x3) : P (tagWrites x1 x2 x3).2 := by
  induction x2 generalizing x1 x3 with
  | nil =>
    unfold tagWrites
    dsimp -zeta only
    assumption
  | cons a r ih =>
    unfold tagWrites
    split
    · dsimp -zeta only
      refine Keep.pat2 ?_ (by assumption)
      refine fenceCheck_keeps hregs heth hint hstl hout ?_
      assumption
    · refine ih ?_
      refine fabricWrite_keeps hregs hlatches hstaged hmem htlm htime hpower hboot hwdog htrans hports hsheaves hsearches hgroups hsamplePhase hdetq hspks hframes hnextFrame hholds hwin hlnk hfuses hses hpairs hkey hcores hfence hsage husl heth hxsp hflash hflt htmrs hrtc hint hstl htag hreader hupd hfree hout ?_
      refine Keep.pat2 ?_ (by assumption)
      refine fenceCheck_keeps hregs heth hint hstl hout ?_
      assumption

theorem tagReadWords_keeps (hregs : Keep.regs P) (hlatches : Keep.latches P) (hholds : Keep.holds P) (hcores : Keep.cores P) (heth : Keep.eth P) (hflt : Keep.flt P) (htmrs : Keep.tmrs P) (hint : Keep.int P) (hstl : Keep.stl P) (hout : Keep.out P) {a} {n} {s : State} (h : P s) : P (tagReadWords a n s) := by
  unfold tagReadWords
  split
  · refine answer_keeps hout ?_
    assumption
  · refine Keep.ite ?_ ?_
    · refine answer_keeps hout ?_
      assumption
    · extract_lets -underBinder -merge -useContext +onlyGivenNames x
      have hx : P x.2 := by
        subst x
        refine tagReads_keeps hregs hlatches hholds hcores heth hflt htmrs hint hstl hout ?_
        assumption
      clear_value x
      split
      · refine answer_keeps hout ?_
        assumption
      · refine answer_keeps hout ?_
        assumption

theorem tagWriteWords_keeps (hregs : Keep.regs P) (hlatches : Keep.latches P) (hstaged : Keep.staged P) (hmem : Keep.mem P) (htlm : Keep.tlm P) (htime : Keep.time P) (hpower : Keep.power P) (hboot : Keep.boot P) (hwdog : Keep.wdog P) (htrans : Keep.trans P) (hports : Keep.ports P) (hsheaves : Keep.sheaves P) (hsearches : Keep.searches P) (hgroups : Keep.groups P) (hsamplePhase : Keep.samplePhase P) (hdetq : Keep.detq P) (hspks : Keep.spks P) (hframes : Keep.frames P) (hnextFrame : Keep.nextFrame P) (hholds : Keep.holds P) (hwin : Keep.win P) (hlnk : Keep.lnk P) (hfuses : Keep.fuses P) (hses : Keep.ses P) (hpairs : Keep.pairs P) (hkey : Keep.key P) (hcores : Keep.cores P) (hfence : Keep.fence P) (hsage : Keep.sage P) (husl : Keep.usl P) (heth : Keep.eth P) (hxsp : Keep.xsp P) (hflash : Keep.flash P) (hflt : Keep.flt P) (htmrs : Keep.tmrs P) (hrtc : Keep.rtc P) (hint : Keep.int P) (hstl : Keep.stl P) (htag : Keep.tag P) (hreader : Keep.reader P) (hupd : Keep.upd P) (hfree : Keep.free P) (hout : Keep.out P) {a} {data} {s : State} (h : P s) : P (tagWriteWords a data s) := by
  unfold tagWriteWords
  split
  · refine answer_keeps hout ?_
    assumption
  · refine Keep.ite ?_ ?_
    · refine answer_keeps hout ?_
      assumption
    · extract_lets -underBinder -merge -useContext +onlyGivenNames x
      have hx : P x.2 := by
        subst x
        refine tagWrites_keeps hregs hlatches hstaged hmem htlm htime hpower hboot hwdog htrans hports hsheaves hsearches hgroups hsamplePhase hdetq hspks hframes hnextFrame hholds hwin hlnk hfuses hses hpairs hkey hcores hfence hsage husl heth hxsp hflash hflt htmrs hrtc hint hstl htag hreader hupd hfree hout ?_
        assumption
      clear_value x
      refine answer_keeps hout ?_
      assumption

theorem serveHeld_keeps (hregs : Keep.regs P) (hlatches : Keep.latches P) (hstaged : Keep.staged P) (hmem : Keep.mem P) (htlm : Keep.tlm P) (htime : Keep.time P) (hpower : Keep.power P) (hboot : Keep.boot P) (hwdog : Keep.wdog P) (htrans : Keep.trans P) (hports : Keep.ports P) (hsheaves : Keep.sheaves P) (hsearches : Keep.searches P) (hgroups : Keep.groups P) (hsamplePhase : Keep.samplePhase P) (hdetq : Keep.detq P) (hspks : Keep.spks P) (hframes : Keep.frames P) (hnextFrame : Keep.nextFrame P) (hholds : Keep.holds P) (hwin : Keep.win P) (hlnk : Keep.lnk P) (hfuses : Keep.fuses P) (hses : Keep.ses P) (hpairs : Keep.pairs P) (hkey : Keep.key P) (hcores : Keep.cores P) (hfence : Keep.fence P) (hsage : Keep.sage P) (husl : Keep.usl P) (heth : Keep.eth P) (hxsp : Keep.xsp P) (hflash : Keep.flash P) (hflt : Keep.flt P) (htmrs : Keep.tmrs P) (hrtc : Keep.rtc P) (hint : Keep.int P) (hstl : Keep.stl P) (htag : Keep.tag P) (hreader : Keep.reader P) (hupd : Keep.upd P) (hfree : Keep.free P) (hout : Keep.out P) {s : State} (h : P s) : P (serveHeld s) := by
  unfold serveHeld
  refine Keep.ite ?_ ?_
  · assumption
  · split
    · refine tagReadWords_keeps hregs hlatches hholds hcores heth hflt htmrs hint hstl hout ?_
      refine updTag_keeps htag ?_ ?_
      · assumption
      · rfl
    · refine tagWriteWords_keeps hregs hlatches hstaged hmem htlm htime hpower hboot hwdog htrans hports hsheaves hsearches hgroups hsamplePhase hdetq hspks hframes hnextFrame hholds hwin hlnk hfuses hses hpairs hkey hcores hfence hsage husl heth hxsp hflash hflt htmrs hrtc hint hstl htag hreader hupd hfree hout ?_
      refine updTag_keeps htag ?_ ?_
      · assumption
      · rfl
    · refine serveWaiting_keeps hregs heth hint hstl htag hout ?_
      assumption

theorem execReadWords_keeps (hregs : Keep.regs P) (hlatches : Keep.latches P) (hholds : Keep.holds P) (hcores : Keep.cores P) (heth : Keep.eth P) (hflt : Keep.flt P) (htmrs : Keep.tmrs P) (hint : Keep.int P) (hstl : Keep.stl P) (htag : Keep.tag P) (hout : Keep.out P) {a} {n} {s : State} (h : P s) {t : State} (e : execReadWords a n s = .next t) : P t := by
  obtain rfl := Host.Outcome.next.inj e
  refine tagServe_keeps htag ?_ ?_
  · intro _ _
    refine tagReadWords_keeps hregs hlatches hholds hcores heth hflt htmrs hint hstl hout ?_
    assumption
  · assumption

theorem execWriteWords_keeps (hregs : Keep.regs P) (hlatches : Keep.latches P) (hstaged : Keep.staged P) (hmem : Keep.mem P) (htlm : Keep.tlm P) (htime : Keep.time P) (hpower : Keep.power P) (hboot : Keep.boot P) (hwdog : Keep.wdog P) (htrans : Keep.trans P) (hports : Keep.ports P) (hsheaves : Keep.sheaves P) (hsearches : Keep.searches P) (hgroups : Keep.groups P) (hsamplePhase : Keep.samplePhase P) (hdetq : Keep.detq P) (hspks : Keep.spks P) (hframes : Keep.frames P) (hnextFrame : Keep.nextFrame P) (hholds : Keep.holds P) (hwin : Keep.win P) (hlnk : Keep.lnk P) (hfuses : Keep.fuses P) (hses : Keep.ses P) (hpairs : Keep.pairs P) (hkey : Keep.key P) (hcores : Keep.cores P) (hfence : Keep.fence P) (hsage : Keep.sage P) (husl : Keep.usl P) (heth : Keep.eth P) (hxsp : Keep.xsp P) (hflash : Keep.flash P) (hflt : Keep.flt P) (htmrs : Keep.tmrs P) (hrtc : Keep.rtc P) (hint : Keep.int P) (hstl : Keep.stl P) (htag : Keep.tag P) (hreader : Keep.reader P) (hupd : Keep.upd P) (hfree : Keep.free P) (hout : Keep.out P) {a} {data} {s : State} (h : P s) {t : State} (e : execWriteWords a data s = .next t) : P t := by
  obtain rfl := Host.Outcome.next.inj e
  refine tagServe_keeps htag ?_ ?_
  · intro _ _
    refine tagWriteWords_keeps hregs hlatches hstaged hmem htlm htime hpower hboot hwdog htrans hports hsheaves hsearches hgroups hsamplePhase hdetq hspks hframes hnextFrame hholds hwin hlnk hfuses hses hpairs hkey hcores hfence hsage husl heth hxsp hflash hflt htmrs hrtc hint hstl htag hreader hupd hfree hout ?_
    assumption
  · assumption

theorem execPageCommitComplete_keeps (hregs : Keep.regs P) (hlatches : Keep.latches P) (hstaged : Keep.staged P) (hmem : Keep.mem P) (htlm : Keep.tlm P) (htime : Keep.time P) (hpower : Keep.power P) (hboot : Keep.boot P) (hwdog : Keep.wdog P) (htrans : Keep.trans P) (hports : Keep.ports P) (hsheaves : Keep.sheaves P) (hsearches : Keep.searches P) (hgroups : Keep.groups P) (hsamplePhase : Keep.samplePhase P) (hdetq : Keep.detq P) (hspks : Keep.spks P) (hframes : Keep.frames P) (hnextFrame : Keep.nextFrame P) (hholds : Keep.holds P) (hwin : Keep.win P) (hlnk : Keep.lnk P) (hfuses : Keep.fuses P) (hses : Keep.ses P) (hpairs : Keep.pairs P) (hkey : Keep.key P) (hcores : Keep.cores P) (hfence : Keep.fence P) (hsage : Keep.sage P) (husl : Keep.usl P) (heth : Keep.eth P) (hxsp : Keep.xsp P) (hflash : Keep.flash P) (hflt : Keep.flt P) (htmrs : Keep.tmrs P) (hrtc : Keep.rtc P) (hint : Keep.int P) (hstl : Keep.stl P) (htag : Keep.tag P) (hstore : Keep.store P) (hreader : Keep.reader P) (hupd : Keep.upd P) (hfree : Keep.free P) (hout : Keep.out P) {ok} {s : State} (h : P s) {t : State} (e : execPageCommitComplete ok s = .next t) : P t := by
  obtain rfl := Host.Outcome.next.inj e
  refine serveHeld_keeps hregs hlatches hstaged hmem htlm htime hpower hboot hwdog htrans hports hsheaves hsearches hgroups hsamplePhase hdetq hspks hframes hnextFrame hholds hwin hlnk hfuses hses hpairs hkey hcores hfence hsage husl heth hxsp hflash hflt htmrs hrtc hint hstl htag hreader hupd hfree hout ?_
  refine commitDone_keeps hregs heth hint hstl htag hstore hout ?_
  assumption

theorem execReread_keeps (hregs : Keep.regs P) (heth : Keep.eth P) (hint : Keep.int P) (hstl : Keep.stl P) (hreader : Keep.reader P) (hout : Keep.out P) {x1} {v} {s : State} (h : P s) {t : State} (e : execReread x1 v s = .next t) : P t := by
  obtain rfl := Host.Outcome.next.inj e
  refine nfrCtlWrite_keeps hregs heth hint hstl hreader hout ?_
  assumption

theorem fabCells_keeps (hint : Keep.int P) (hstl : Keep.stl P) {s : State} (h : P s) : P (fabCells s) := by
  unfold fabCells
  refine Keep.foldl ?_ ?_
  · assumption
  · intro _ _ _
    refine stlCycle_keeps hint hstl ?_
    assumption

theorem idle_keeps (htime : Keep.time P) (hcores : Keep.cores P) (hint : Keep.int P) (hstl : Keep.stl P) {s : State} (h : P s) : P (idle s) := by
  unfold idle
  refine Keep.ite ?_ ?_
  · extract_lets -underBinder -merge -useContext +onlyGivenNames x
    have hx : P x := by
      subst x
      refine fabCells_keeps hint hstl ?_
      refine reach_keeps htime ?_
      assumption
    clear_value x
    refine Keep.set_cores hcores ?_
    assumption
  · assumption

theorem State.withFetchWord_keeps (hpending : Keep.pending P) {s : State} {nbits} {w} (h : P s) : P (State.withFetchWord s nbits w) := by
  unfold State.withFetchWord
  split
  · refine Keep.set_pending hpending ?_
    assumption
  · assumption

/-- `P` survives a change of every part but the queue, which no command touches. -/
structure Keep.Every (P : State → Prop) : Prop where
  regs : Keep.regs P
  latches : Keep.latches P
  staged : Keep.staged P
  mem : Keep.mem P
  tlm : Keep.tlm P
  time : Keep.time P
  power : Keep.power P
  boot : Keep.boot P
  wdog : Keep.wdog P
  trans : Keep.trans P
  ports : Keep.ports P
  sheaves : Keep.sheaves P
  searches : Keep.searches P
  groups : Keep.groups P
  samplePhase : Keep.samplePhase P
  detq : Keep.detq P
  spks : Keep.spks P
  frames : Keep.frames P
  nextFrame : Keep.nextFrame P
  holds : Keep.holds P
  win : Keep.win P
  lnk : Keep.lnk P
  fuses : Keep.fuses P
  ses : Keep.ses P
  pairs : Keep.pairs P
  key : Keep.key P
  cores : Keep.cores P
  fence : Keep.fence P
  sage : Keep.sage P
  usl : Keep.usl P
  eth : Keep.eth P
  xsp : Keep.xsp P
  flash : Keep.flash P
  flt : Keep.flt P
  tmrs : Keep.tmrs P
  rtc : Keep.rtc P
  int : Keep.int P
  stl : Keep.stl P
  tag : Keep.tag P
  store : Keep.store P
  reader : Keep.reader P
  upd : Keep.upd P
  free : Keep.free P
  out : Keep.out P

/-- What every part's change keeps, every command keeps. -/
theorem exec_keeps (K : Keep.Every P) {c : Instr} {s t : State} (h : P s) (e : exec c s = .next t) : P t := by
  cases c with
  | registerWrite _ _ _ => exact execRegisterWrite_keeps K.regs K.latches K.staged K.mem K.tlm K.time K.power K.boot K.wdog K.trans K.ports K.sheaves K.searches K.groups K.samplePhase K.detq K.spks K.frames K.nextFrame K.holds K.win K.lnk K.fuses K.ses K.pairs K.key K.cores K.fence K.sage K.usl K.eth K.xsp K.flash K.flt K.tmrs K.rtc K.int K.stl K.tag K.reader K.upd K.free K.out h e
  | groupLatchRead _ _ => exact execGroupLatchRead_keeps K.regs K.latches K.holds K.cores K.eth K.flt K.tmrs K.int K.stl K.out h e
  | bridgeTimeout _ _ _ => exact execBridgeTimeout_keeps K.regs K.eth K.flt K.int K.stl K.out h e
  | refclkLoss => exact execRefclkLoss_keeps K.regs K.power K.ports K.sheaves K.holds K.lnk K.cores K.eth K.flt K.int K.stl K.free K.out h e
  | vioWarning => exact execVioWarning_keeps K.regs K.latches K.staged K.mem K.tlm K.time K.power K.boot K.wdog K.trans K.ports K.sheaves K.searches K.groups K.samplePhase K.detq K.spks K.frames K.nextFrame K.holds K.win K.lnk K.fuses K.ses K.pairs K.key K.cores K.fence K.sage K.usl K.eth K.xsp K.flash K.flt K.tmrs K.rtc K.int K.stl K.tag K.reader K.upd K.free K.out h e
  | supplyWindowExit => exact execSupplyWindowExit_keeps K.regs K.latches K.staged K.mem K.tlm K.time K.power K.boot K.wdog K.trans K.ports K.sheaves K.searches K.groups K.samplePhase K.detq K.spks K.frames K.nextFrame K.holds K.win K.lnk K.fuses K.ses K.pairs K.key K.cores K.fence K.sage K.usl K.eth K.xsp K.flash K.flt K.tmrs K.rtc K.int K.stl K.tag K.reader K.upd K.free K.out h e
  | marginLow => exact execMarginLow_keeps K.regs K.power K.eth K.flash K.int K.stl K.upd K.free K.out h e
  | vrfDrop => exact execVrfDrop_keeps K.regs K.power K.ports K.sheaves K.searches K.groups K.holds K.lnk K.cores K.eth K.flt K.int K.stl K.free K.out h e
  | powerOnReset => exact execPowerOnReset_keeps K.regs K.latches K.staged K.mem K.tlm K.time K.power K.boot K.wdog K.trans K.ports K.sheaves K.searches K.groups K.samplePhase K.detq K.spks K.frames K.nextFrame K.holds K.win K.lnk K.fuses K.ses K.pairs K.key K.cores K.fence K.sage K.usl K.eth K.xsp K.flash K.flt K.tmrs K.rtc K.int K.stl K.tag K.reader K.upd K.free K.out h e
  | externalReset => exact execExternalReset_keeps K.regs K.latches K.staged K.mem K.tlm K.time K.power K.boot K.wdog K.trans K.ports K.sheaves K.searches K.groups K.samplePhase K.detq K.spks K.frames K.nextFrame K.holds K.win K.lnk K.fuses K.ses K.pairs K.key K.cores K.fence K.sage K.usl K.eth K.xsp K.flash K.flt K.tmrs K.rtc K.int K.stl K.tag K.reader K.upd K.free K.out h e
  | watchdogReset => exact execWatchdogReset_keeps K.regs K.latches K.staged K.mem K.tlm K.time K.power K.boot K.wdog K.trans K.ports K.sheaves K.searches K.groups K.samplePhase K.detq K.spks K.frames K.nextFrame K.holds K.win K.lnk K.fuses K.ses K.pairs K.key K.cores K.fence K.sage K.usl K.eth K.xsp K.flash K.flt K.tmrs K.rtc K.int K.stl K.tag K.reader K.upd K.free K.out h e
  | softwareReset _ _ => exact execSoftwareReset_keeps K.regs K.latches K.staged K.mem K.tlm K.time K.power K.boot K.wdog K.trans K.ports K.sheaves K.searches K.groups K.samplePhase K.detq K.spks K.frames K.nextFrame K.holds K.win K.lnk K.fuses K.ses K.pairs K.key K.cores K.fence K.sage K.usl K.eth K.xsp K.flash K.flt K.tmrs K.rtc K.int K.stl K.tag K.reader K.upd K.free K.out h e
  | debugReset => exact execDebugReset_keeps K.regs K.latches K.staged K.mem K.tlm K.time K.power K.boot K.wdog K.trans K.ports K.sheaves K.searches K.groups K.samplePhase K.detq K.spks K.frames K.nextFrame K.holds K.win K.lnk K.fuses K.ses K.pairs K.key K.cores K.fence K.sage K.usl K.eth K.xsp K.flash K.flt K.tmrs K.rtc K.int K.stl K.tag K.reader K.upd K.free K.out h e
  | watchdogEnable _ _ => exact execWatchdogEnable_keeps K.regs K.latches K.staged K.mem K.tlm K.time K.power K.boot K.wdog K.trans K.ports K.sheaves K.searches K.groups K.samplePhase K.detq K.spks K.frames K.nextFrame K.holds K.win K.lnk K.fuses K.ses K.pairs K.key K.cores K.fence K.sage K.usl K.eth K.xsp K.flash K.flt K.tmrs K.rtc K.int K.stl K.tag K.reader K.upd K.free K.out h e
  | watchdogKick _ _ => exact execWatchdogKick_keeps K.regs K.latches K.staged K.mem K.tlm K.time K.power K.boot K.wdog K.trans K.ports K.sheaves K.searches K.groups K.samplePhase K.detq K.spks K.frames K.nextFrame K.holds K.win K.lnk K.fuses K.ses K.pairs K.key K.cores K.fence K.sage K.usl K.eth K.xsp K.flash K.flt K.tmrs K.rtc K.int K.stl K.tag K.reader K.upd K.free K.out h e
  | modeRequest _ => exact execModeRequest_keeps K.regs K.mem K.trans K.ports K.sheaves K.searches K.groups K.holds K.win K.lnk K.ses K.key K.cores K.sage K.usl K.eth K.flt K.int K.stl K.free K.out h e
  | modeTransitionComplete => exact execModeTransitionComplete_keeps K.regs K.trans K.holds K.win K.cores K.sage h e
  | serviceReady _ _ => exact execServiceReady_keeps K.regs K.latches K.staged K.mem K.tlm K.time K.power K.boot K.wdog K.trans K.ports K.sheaves K.searches K.groups K.samplePhase K.detq K.spks K.frames K.nextFrame K.holds K.win K.lnk K.fuses K.ses K.pairs K.key K.cores K.fence K.sage K.usl K.eth K.xsp K.flash K.flt K.tmrs K.rtc K.int K.stl K.tag K.reader K.upd K.free K.out h e
  | bootPllLock => exact execBootPllLock_keeps K.time K.boot K.samplePhase K.cores K.free h e
  | bootMemoryZeroise => exact execBootMemoryZeroise_keeps K.mem K.tlm K.boot K.flt h e
  | bootFuseRead => exact execBootFuseRead_keeps K.regs K.boot K.win K.ses K.fence K.eth K.int K.stl K.tag K.free K.out h e
  | bootImageLoad => exact execBootImageLoad_keeps K.regs K.mem K.tlm K.boot K.fence K.eth K.flash K.flt K.int K.stl K.out h e
  | holdPointRelease _ _ => exact execHoldPointRelease_keeps K.regs K.latches K.staged K.mem K.tlm K.time K.power K.boot K.wdog K.trans K.ports K.sheaves K.searches K.groups K.samplePhase K.detq K.spks K.frames K.nextFrame K.holds K.win K.lnk K.fuses K.ses K.pairs K.key K.cores K.fence K.sage K.usl K.eth K.xsp K.flash K.flt K.tmrs K.rtc K.int K.stl K.tag K.reader K.upd K.free K.out h e
  | bootGateArm => exact execBootGateArm_keeps K.regs K.power K.boot h e
  | bootRadioStart => exact execBootRadioStart_keeps K.regs K.boot K.ports K.sheaves K.searches K.groups K.holds K.win K.lnk K.cores K.eth K.int K.stl K.free K.out h e
  | startupCalibration _ => exact execStartupCalibration_keeps K.regs K.boot K.ports K.lnk K.eth K.int K.stl K.out h e
  | bootTargetEntry => exact execBootTargetEntry_keeps K.regs K.mem K.boot K.holds K.win K.lnk K.ses K.key K.cores K.fence K.sage K.eth K.flt K.int K.stl K.free K.out h e
  | blockEnable i _ _ => exact execBlockEnable_keeps K.regs K.mem K.ports K.sheaves K.searches K.groups K.frames K.holds K.win K.lnk K.ses K.key K.cores K.sage K.usl K.eth K.flt K.tmrs K.rtc K.int K.stl K.reader K.free K.out (x1 := i) h e
  | blockDisable i _ _ => exact execBlockDisable_keeps K.regs K.mem K.ports K.sheaves K.searches K.groups K.frames K.holds K.win K.lnk K.ses K.key K.cores K.sage K.usl K.eth K.flt K.tmrs K.rtc K.int K.stl K.reader K.free K.out (x1 := i) h e
  | blockStartComplete _ _ => exact execBlockStartComplete_keeps K.regs K.time K.trans K.ports K.sheaves K.searches K.holds K.win K.lnk K.cores K.sage K.usl K.eth K.flt K.int K.stl K.reader K.free K.out h e
  | blockDrainComplete _ => exact execBlockDrainComplete_keeps K.regs K.time K.ports K.sheaves K.searches K.holds K.lnk K.cores K.usl K.eth K.tmrs K.int K.stl K.free K.out h e
  | sampleCapture _ _ _ => exact execSampleCapture_keeps K.regs K.mem K.tlm K.time K.ports K.sheaves K.groups K.spks K.holds K.win K.eth K.flt K.int K.stl K.tag K.free K.out h e
  | gainStepUp _ => exact execGainStepUp_keeps K.regs K.time K.ports h e
  | synthUnlock _ => exact execSynthUnlock_keeps K.regs K.ports K.sheaves K.spks K.holds K.lnk K.cores K.eth K.flt K.int K.stl K.free K.out h e
  | synthRelock _ => exact execSynthRelock_keeps K.regs K.power K.sheaves K.flt h e
  | captureResume _ => exact execCaptureResume_keeps K.regs K.time K.ports K.sheaves K.lnk K.eth K.flt K.int K.stl K.out h e
  | txCommand _ => exact execTxCommand_keeps K.regs K.sheaves K.holds K.lnk K.cores K.eth K.int K.stl K.out h e
  | blankingStart _ => exact execBlankingStart_keeps K.regs K.time K.ports K.sheaves K.spks K.holds K.eth K.flt K.int K.stl K.free K.out h e
  | txStart _ => exact execTxStart_keeps K.regs K.time K.ports K.sheaves K.eth K.int K.stl K.out h e
  | txEnd _ _ => exact execTxEnd_keeps K.regs K.time K.ports K.sheaves K.holds K.lnk K.cores K.eth K.int K.stl K.out h e
  | receiveResume _ => exact execReceiveResume_keeps K.regs K.time K.ports K.sheaves K.lnk K.eth K.flt K.int K.stl K.out h e
  | tuneWrite i _ _ => exact execTuneWrite_keeps K.regs K.ports (x1 := i) h e
  | portDcMeasureDone _ _ _ => exact execPortDcMeasureDone_keeps K.regs K.ports K.sheaves h e
  | gateRequest _ => exact execGateRequest_keeps K.regs K.sheaves K.win K.lnk K.eth K.int K.stl K.out h e
  | panelGainApply => exact execPanelGainApply_keeps K.regs K.time K.reader h e
  | iq i _ _ => exact execIq_keeps K.regs K.time K.sheaves K.eth K.int K.stl K.out (x1 := i) h e
  | fbw i _ _ => exact execFbw_keeps K.regs K.time K.sheaves K.eth K.int K.stl K.out (x1 := i) h e
  | dcstat i _ _ => exact execDcstat_keeps K.regs K.time K.sheaves K.eth K.int K.stl K.out (x1 := i) h e
  | loleak i _ _ => exact execLoleak_keeps K.regs K.time K.sheaves K.eth K.int K.stl K.out (x1 := i) h e
  | recip i _ _ => exact execRecip_keeps K.regs K.time K.sheaves K.eth K.int K.stl K.out (x1 := i) h e
  | vcob i _ _ => exact execVcob_keeps K.regs K.time K.sheaves K.eth K.int K.stl K.out (x1 := i) h e
  | refosc i => exact execRefosc_keeps K.regs K.time K.eth K.int K.stl K.out (x1 := i) h e
  | calibrationBegin _ => exact execCalibrationBegin_keeps K.regs K.time K.ports K.sheaves K.spks K.holds K.lnk K.eth K.flt K.int K.stl K.free K.out h e
  | calibrationComplete _ _ => exact execCalibrationComplete_keeps K.regs K.ports K.sheaves K.lnk K.eth K.flt K.int K.stl K.out h e
  | refoscComplete _ => exact execRefoscComplete_keeps K.regs K.time K.eth K.int K.stl K.out h e
  | calResultWrite _ _ _ _ => exact execCalResultWrite_keeps K.regs h e
  | ballDcFault _ _ => exact execBallDcFault_keeps K.regs K.ports K.eth K.int K.stl K.out h e
  | ballDcClear _ _ => exact execBallDcClear_keeps K.regs K.ports K.eth K.int K.stl K.out h e
  | afclr i _ _ => exact execAfclr_keeps K.regs K.ports K.eth K.int K.stl K.out (x1 := i) h e
  | headCurrentLimit _ => exact execHeadCurrentLimit_keeps K.regs h e
  | headShort _ => exact execHeadShort_keeps K.regs K.eth K.int K.stl K.out h e
  | headOverload _ => exact execHeadOverload_keeps K.regs K.eth K.int K.stl K.out h e
  | headOpen _ => exact execHeadOpen_keeps K.regs K.eth K.int K.stl K.out h e
  | headOpenClear _ => exact execHeadOpenClear_keeps K.regs h e
  | headBackdrive _ => exact execHeadBackdrive_keeps K.regs K.eth K.int K.stl K.out h e
  | vheadReversed _ => exact execVheadReversed_keeps K.regs h e
  | searchStart _ => exact execSearchStart_keeps K.regs K.time K.searches h e
  | searchStop _ => exact execSearchStop_keeps K.regs K.time K.searches h e
  | groupClose => exact execGroupClose_keeps K.regs K.time K.ports K.searches K.groups K.detq K.eth K.int K.stl K.out h e
  | spikeletAllocation => exact execSpikeletAllocation_keeps K.regs K.detq K.spks K.holds K.win K.eth K.int K.stl K.free K.out h e
  | channelEstimate _ => exact execChannelEstimate_keeps K.regs K.spks K.holds K.win K.eth K.flt K.int K.stl K.free K.out h e
  | headerDecision _ _ => exact execHeaderDecision_keeps K.regs K.time K.spks K.holds K.win K.usl K.eth K.int K.stl K.free K.out h e
  | frameCheck _ _ _ _ _ => exact execFrameCheck_keeps K.regs K.mem K.tlm K.time K.spks K.frames K.nextFrame K.holds K.win K.usl K.eth K.flt K.int K.stl K.tag K.free K.out h e
  | decoderDeadlineMiss _ => exact execDecoderDeadlineMiss_keeps K.regs K.time K.spks K.win K.eth K.int K.stl K.out h e
  | ringOverrun _ => exact execRingOverrun_keeps K.regs K.spks K.holds K.win K.eth K.flt K.int K.stl K.free K.out h e
  | reservationWrite i _ _ => exact execReservationWrite_keeps K.regs K.eth K.int K.stl K.out (x1 := i) h e
  | summaryReceive _ => exact execSummaryReceive_keeps K.regs K.time K.spks K.win K.usl K.eth K.int K.stl K.free K.out h e
  | softReceive _ => exact execSoftReceive_keeps K.spks K.usl h e
  | mergeBound _ => exact execMergeBound_keeps K.regs K.time K.spks K.eth K.int K.stl K.out h e
  | usethResend _ _ => exact execUsethResend_keeps K.regs h e
  | usethLaneFault _ _ => exact execUsethLaneFault_keeps K.regs K.usl K.eth K.flt K.rtc K.int K.stl K.out h e
  | clusterFormation _ _ => exact execClusterFormation_keeps K.regs K.usl K.eth K.int K.stl K.free K.out h e
  | timingMessage _ _ _ => exact execTimingMessage_keeps K.regs K.time K.rtc h e
  | dirReceive _ => exact execDirReceive_keeps K.regs K.sage K.eth K.int K.stl K.out h e
  | handoverEffect => exact execHandoverEffect_keeps K.regs K.mem K.time K.holds K.win K.ses K.cores K.sage K.eth K.int K.stl K.free K.out h e
  | handSend _ => exact execHandSend_keeps K.regs K.mem K.time K.holds K.win K.ses K.cores K.sage K.usl K.free K.out h e
  | handReceive _ => exact execHandReceive_keeps K.regs K.mem K.frames K.holds K.win K.lnk K.pairs K.cores K.sage K.eth K.flt K.int K.stl K.out h e
  | recordAccept => exact execRecordAccept_keeps K.regs K.mem K.boot K.holds K.win K.cores K.sage K.eth K.flt K.int K.stl K.free K.out h e
  | winnowRelease => exact execWinnowRelease_keeps K.regs K.mem K.time K.boot K.holds K.win K.cores K.sage K.eth K.flt K.int K.stl K.out h e
  | horizonArm i _ => exact execHorizonArm_keeps K.regs K.mem K.boot K.holds K.win K.cores K.sage K.eth K.flt K.int K.stl K.out (x1 := i) h e
  | horizonApply => exact execHorizonApply_keeps K.regs K.mem K.time K.boot K.holds K.win K.cores K.sage K.eth K.flt K.int K.stl K.out h e
  | slotBoundary => exact execSlotBoundary_keeps K.regs K.time K.eth K.int K.stl K.out h e
  | reanchorArm _ _ => exact execReanchorArm_keeps K.regs K.staged K.lnk K.eth K.int K.stl K.out h e
  | reanchorApply => exact execReanchorApply_keeps K.regs K.time K.lnk h e
  | bankSwitchArm i _ => exact execBankSwitchArm_keeps K.regs K.lnk K.eth K.int K.stl K.out (x1 := i) h e
  | bankSwitch => exact execBankSwitch_keeps K.regs K.time K.lnk K.eth K.int K.stl K.out h e
  | txRequest _ => exact execTxRequest_keeps K.regs K.holds K.lnk K.cores K.eth K.int K.stl K.out h e
  | claimDecision => exact execClaimDecision_keeps K.regs K.time K.sheaves K.frames K.holds K.win K.lnk K.cores K.sage K.eth K.flt K.int K.stl K.out h e
  | expectedAckTimeout => exact execExpectedAckTimeout_keeps K.regs K.time K.holds K.lnk K.cores K.eth K.int K.stl K.out h e
  | linkStart => exact execLinkStart_keeps K.regs K.time K.lnk K.eth K.int K.stl K.free K.out h e
  | linkStop => exact execLinkStop_keeps K.regs K.time K.frames K.holds K.win K.lnk K.cores K.sage K.eth K.flt K.int K.stl K.out h e
  | admitSession => exact execAdmitSession_keeps K.regs K.mem K.time K.frames K.holds K.win K.lnk K.ses K.pairs K.cores K.sage K.usl K.eth K.flt K.int K.stl K.free K.out h e
  | rehashComplete => exact execRehashComplete_keeps K.regs K.ses K.eth K.int K.stl K.out h e
  | remove => exact execRemove_keeps K.regs K.mem K.time K.frames K.holds K.win K.lnk K.ses K.pairs K.cores K.sage K.usl K.eth K.flt K.int K.stl K.free K.out h e
  | setpol => exact execSetpol_keeps K.regs K.mem K.time K.frames K.holds K.win K.lnk K.ses K.pairs K.cores K.sage K.usl K.eth K.flt K.int K.stl K.free K.out h e
  | setfresh => exact execSetfresh_keeps K.regs K.mem K.time K.frames K.holds K.win K.lnk K.ses K.pairs K.cores K.sage K.usl K.eth K.flt K.int K.stl K.free K.out h e
  | fcres => exact execFcres_keeps K.regs K.mem K.time K.frames K.holds K.win K.lnk K.ses K.pairs K.cores K.sage K.usl K.eth K.flt K.int K.stl K.free K.out h e
  | keyderive => exact execKeyderive_keeps K.regs K.mem K.time K.frames K.holds K.win K.lnk K.ses K.pairs K.cores K.sage K.usl K.eth K.flt K.int K.stl K.free K.out h e
  | keyinstall => exact execKeyinstall_keeps K.regs K.mem K.time K.frames K.holds K.win K.lnk K.ses K.pairs K.cores K.sage K.usl K.eth K.flt K.int K.stl K.free K.out h e
  | keyclear => exact execKeyclear_keeps K.regs K.mem K.time K.frames K.holds K.win K.lnk K.ses K.pairs K.cores K.sage K.usl K.eth K.flt K.int K.stl K.free K.out h e
  | clrcnt => exact execClrcnt_keeps K.regs K.mem K.time K.frames K.holds K.win K.lnk K.ses K.pairs K.cores K.sage K.usl K.eth K.flt K.int K.stl K.free K.out h e
  | sessionLookup => exact execSessionLookup_keeps K.regs K.mem K.time K.frames K.holds K.win K.lnk K.ses K.pairs K.cores K.sage K.usl K.eth K.flt K.int K.stl K.free K.out h e
  | frameJudgement => exact execFrameJudgement_keeps K.regs K.mem K.time K.frames K.holds K.win K.lnk K.ses K.pairs K.cores K.sage K.usl K.eth K.flt K.int K.stl K.free K.out h e
  | aesMismatch _ => exact execAesMismatch_keeps K.regs K.frames K.pairs K.eth K.int K.stl K.out h e
  | knownAnswerTest _ _ => exact execKnownAnswerTest_keeps K.regs K.pairs K.key K.cores K.eth K.flt K.int K.stl K.out h e
  | modesSelfCheckFail => exact execModesSelfCheckFail_keeps K.regs K.latches K.staged K.mem K.tlm K.time K.power K.boot K.wdog K.trans K.ports K.sheaves K.searches K.groups K.samplePhase K.detq K.spks K.frames K.nextFrame K.holds K.win K.lnk K.fuses K.ses K.pairs K.key K.cores K.fence K.sage K.usl K.eth K.xsp K.flash K.flt K.tmrs K.rtc K.int K.stl K.tag K.reader K.upd K.free K.out h e
  | cbcEnc => exact execCbcEnc_keeps K.regs K.latches K.staged K.mem K.tlm K.time K.power K.boot K.wdog K.trans K.ports K.sheaves K.searches K.groups K.samplePhase K.detq K.spks K.frames K.nextFrame K.holds K.win K.lnk K.fuses K.ses K.pairs K.key K.cores K.fence K.sage K.usl K.eth K.xsp K.flash K.flt K.tmrs K.rtc K.int K.stl K.tag K.reader K.upd K.free K.out h e
  | cbcDec => exact execCbcDec_keeps K.regs K.latches K.staged K.mem K.tlm K.time K.power K.boot K.wdog K.trans K.ports K.sheaves K.searches K.groups K.samplePhase K.detq K.spks K.frames K.nextFrame K.holds K.win K.lnk K.fuses K.ses K.pairs K.key K.cores K.fence K.sage K.usl K.eth K.xsp K.flash K.flt K.tmrs K.rtc K.int K.stl K.tag K.reader K.upd K.free K.out h e
  | ctr => exact execCtr_keeps K.regs K.latches K.staged K.mem K.tlm K.time K.power K.boot K.wdog K.trans K.ports K.sheaves K.searches K.groups K.samplePhase K.detq K.spks K.frames K.nextFrame K.holds K.win K.lnk K.fuses K.ses K.pairs K.key K.cores K.fence K.sage K.usl K.eth K.xsp K.flash K.flt K.tmrs K.rtc K.int K.stl K.tag K.reader K.upd K.free K.out h e
  | cfbEnc => exact execCfbEnc_keeps K.regs K.latches K.staged K.mem K.tlm K.time K.power K.boot K.wdog K.trans K.ports K.sheaves K.searches K.groups K.samplePhase K.detq K.spks K.frames K.nextFrame K.holds K.win K.lnk K.fuses K.ses K.pairs K.key K.cores K.fence K.sage K.usl K.eth K.xsp K.flash K.flt K.tmrs K.rtc K.int K.stl K.tag K.reader K.upd K.free K.out h e
  | cfbDec => exact execCfbDec_keeps K.regs K.latches K.staged K.mem K.tlm K.time K.power K.boot K.wdog K.trans K.ports K.sheaves K.searches K.groups K.samplePhase K.detq K.spks K.frames K.nextFrame K.holds K.win K.lnk K.fuses K.ses K.pairs K.key K.cores K.fence K.sage K.usl K.eth K.xsp K.flash K.flt K.tmrs K.rtc K.int K.stl K.tag K.reader K.upd K.free K.out h e
  | ccmEnc => exact execCcmEnc_keeps K.regs K.latches K.staged K.mem K.tlm K.time K.power K.boot K.wdog K.trans K.ports K.sheaves K.searches K.groups K.samplePhase K.detq K.spks K.frames K.nextFrame K.holds K.win K.lnk K.fuses K.ses K.pairs K.key K.cores K.fence K.sage K.usl K.eth K.xsp K.flash K.flt K.tmrs K.rtc K.int K.stl K.tag K.reader K.upd K.free K.out h e
  | ccmDec => exact execCcmDec_keeps K.regs K.latches K.staged K.mem K.tlm K.time K.power K.boot K.wdog K.trans K.ports K.sheaves K.searches K.groups K.samplePhase K.detq K.spks K.frames K.nextFrame K.holds K.win K.lnk K.fuses K.ses K.pairs K.key K.cores K.fence K.sage K.usl K.eth K.xsp K.flash K.flt K.tmrs K.rtc K.int K.stl K.tag K.reader K.upd K.free K.out h e
  | derivation _ _ => exact execDerivation_keeps K.regs K.staged K.key K.eth K.int K.stl K.out h e
  | handleFree _ _ => exact execHandleFree_keeps K.regs K.staged K.key K.eth K.int K.stl K.out h e
  | sesskey _ _ => exact execSesskey_keeps K.regs K.latches K.holds K.key K.cores K.eth K.flt K.tmrs K.int K.stl K.out h e
  | ownerkey _ _ => exact execOwnerkey_keeps K.regs K.latches K.holds K.key K.cores K.eth K.flt K.tmrs K.int K.stl K.out h e
  | ownerlock _ _ => exact execOwnerlock_keeps K.regs K.latches K.holds K.key K.cores K.eth K.flt K.tmrs K.int K.stl K.out h e
  | profile _ _ => exact execProfile_keeps K.regs K.latches K.holds K.key K.cores K.eth K.flt K.tmrs K.int K.stl K.out h e
  | messageComplete => exact execMessageComplete_keeps K.regs K.latches K.holds K.fuses K.key K.cores K.eth K.flt K.tmrs K.int K.stl K.out h e
  | attestationRequest _ _ => exact execAttestationRequest_keeps K.regs K.staged K.key K.eth K.int K.stl K.out h e
  | attestationComplete => exact execAttestationComplete_keeps K.regs K.latches K.staged K.mem K.tlm K.time K.power K.boot K.wdog K.trans K.ports K.sheaves K.searches K.groups K.samplePhase K.detq K.spks K.frames K.nextFrame K.holds K.win K.lnk K.fuses K.ses K.pairs K.key K.cores K.fence K.sage K.usl K.eth K.xsp K.flash K.flt K.tmrs K.rtc K.int K.stl K.tag K.reader K.upd K.free K.out h e
  | localMemoryAccess i _ _ => exact execLocalMemoryAccess_keeps K.regs K.tlm K.eth K.int K.stl K.out (x1 := i) h e
  | bundle _ _ => exact execBundle_keeps K.regs K.latches K.staged K.mem K.tlm K.time K.power K.boot K.wdog K.trans K.ports K.sheaves K.searches K.groups K.samplePhase K.detq K.spks K.frames K.nextFrame K.holds K.win K.lnk K.fuses K.ses K.pairs K.key K.cores K.fence K.sage K.usl K.eth K.xsp K.flash K.flt K.tmrs K.rtc K.int K.stl K.tag K.reader K.upd K.free K.out h e
  | queueStallEnd _ => exact execQueueStallEnd_keeps K.regs K.latches K.staged K.mem K.tlm K.time K.power K.boot K.wdog K.trans K.ports K.sheaves K.searches K.groups K.samplePhase K.detq K.spks K.frames K.nextFrame K.holds K.win K.lnk K.fuses K.ses K.pairs K.key K.cores K.fence K.sage K.usl K.eth K.xsp K.flash K.flt K.tmrs K.rtc K.int K.stl K.tag K.reader K.upd K.free K.out h e
  | fabricLoadReturn _ => exact execFabricLoadReturn_keeps K.regs K.latches K.staged K.mem K.tlm K.time K.power K.boot K.wdog K.trans K.ports K.sheaves K.searches K.groups K.samplePhase K.detq K.spks K.frames K.nextFrame K.holds K.win K.lnk K.fuses K.ses K.pairs K.key K.cores K.fence K.sage K.usl K.eth K.xsp K.flash K.flt K.tmrs K.rtc K.int K.stl K.tag K.reader K.upd K.free K.out h e
  | interruptEntry _ => exact execInterruptEntry_keeps K.regs K.cores K.free h e
  | stallTimeout _ => exact execStallTimeout_keeps K.regs K.time K.eth K.int K.stl K.out h e
  | fenceCommit _ _ => exact execFenceCommit_keeps K.regs K.fence K.eth K.int K.stl K.out h e
  | granuleReservation _ => exact execGranuleReservation_keeps K.regs K.mem K.holds K.win K.cores K.flt K.free h e
  | recordReturn _ => exact execRecordReturn_keeps K.regs K.holds K.win K.cores K.sage K.eth K.int K.stl K.out h e
  | epochBoundary => exact execEpochBoundary_keeps K.regs K.time K.holds K.win K.cores K.sage K.usl K.eth K.int K.stl K.free K.out h e
  | moveComplete _ => exact execMoveComplete_keeps K.regs K.holds K.win K.cores K.sage h e
  | ethFrameReceive _ _ _ _ => exact execEthFrameReceive_keeps K.regs K.mem K.holds K.cores K.eth K.flt K.free h e
  | ethLinkChange _ _ => exact execEthLinkChange_keeps K.regs K.holds K.eth K.out h e
  | datagramSent _ _ _ => exact execDatagramSent_keeps K.regs K.mem K.holds K.cores K.eth K.out h e
  | flowload i _ => exact execFlowload_keeps K.regs K.eth (x1 := i) h e
  | mgmtRead => exact execMgmtRead_keeps K.regs K.latches K.staged K.mem K.tlm K.time K.power K.boot K.wdog K.trans K.ports K.sheaves K.searches K.groups K.samplePhase K.detq K.spks K.frames K.nextFrame K.holds K.win K.lnk K.fuses K.ses K.pairs K.key K.cores K.fence K.sage K.usl K.eth K.xsp K.flash K.flt K.tmrs K.rtc K.int K.stl K.tag K.reader K.upd K.free K.out h e
  | mgmtWrite => exact execMgmtWrite_keeps K.regs K.latches K.staged K.mem K.tlm K.time K.power K.boot K.wdog K.trans K.ports K.sheaves K.searches K.groups K.samplePhase K.detq K.spks K.frames K.nextFrame K.holds K.win K.lnk K.fuses K.ses K.pairs K.key K.cores K.fence K.sage K.usl K.eth K.xsp K.flash K.flt K.tmrs K.rtc K.int K.stl K.tag K.reader K.upd K.free K.out h e
  | rateCommit _ _ => exact execRateCommit_keeps K.regs K.staged K.time K.eth K.int K.stl K.out h e
  | rateApply => exact execRateApply_keeps K.regs K.time h e
  | stepCommit _ _ => exact execStepCommit_keeps K.regs K.staged K.time h e
  | stepApply => exact execStepApply_keeps K.regs K.time K.eth K.int K.stl K.out h e
  | ppsInEdge _ => exact execPpsInEdge_keeps K.regs K.time K.eth K.int K.stl K.out h e
  | ppsLoopUpdate => exact execPpsLoopUpdate_keeps K.regs K.time K.free h e
  | ppsLoss => exact execPpsLoss_keeps K.regs K.time K.eth K.rtc K.int K.stl K.out h e
  | ppsOutEdge => exact execPpsOutEdge_keeps K.time h e
  | hostRead _ _ => exact execHostRead_keeps K.regs K.latches K.holds K.cores K.eth K.flt K.tmrs K.int K.stl K.out h e
  | hostWrite _ _ => exact execHostWrite_keeps K.regs K.latches K.staged K.mem K.tlm K.time K.power K.boot K.wdog K.trans K.ports K.sheaves K.searches K.groups K.samplePhase K.detq K.spks K.frames K.nextFrame K.holds K.win K.lnk K.fuses K.ses K.pairs K.key K.cores K.fence K.sage K.usl K.eth K.xsp K.flash K.flt K.tmrs K.rtc K.int K.stl K.tag K.reader K.upd K.free K.out h e
  | hostStatus => exact execHostStatus_keeps K.eth K.out h e
  | hostAbort _ _ _ => exact execHostAbort_keeps K.regs K.latches K.staged K.mem K.tlm K.time K.power K.boot K.wdog K.trans K.ports K.sheaves K.searches K.groups K.samplePhase K.detq K.spks K.frames K.nextFrame K.holds K.win K.lnk K.fuses K.ses K.pairs K.key K.cores K.fence K.sage K.usl K.eth K.xsp K.flash K.flt K.tmrs K.rtc K.int K.stl K.tag K.reader K.upd K.free K.out h e
  | hostBadCommand _ => exact execHostBadCommand_keeps K.regs K.eth K.int K.stl K.out h e
  | rxpop _ => exact execRxpop_keeps K.regs K.latches K.holds K.cores K.eth K.int K.stl K.out h e
  | rxret i _ => exact execRxret_keeps K.regs K.mem K.holds K.cores K.eth K.flt K.int K.stl K.free K.out (x1 := i) h e
  | hresv i _ => exact execHresv_keeps K.regs K.mem K.holds K.cores K.eth K.flt K.int K.stl K.free K.out (x1 := i) h e
  | hsend i _ => exact execHsend_keeps K.regs K.mem K.holds K.cores K.eth K.flt K.int K.stl K.free K.out (x1 := i) h e
  | flashRead _ => exact execFlashRead_keeps K.regs K.eth K.xsp K.int K.stl K.out h e
  | program _ => exact execProgram_keeps K.regs K.eth K.xsp K.int K.stl K.out h e
  | erase4k _ => exact execErase4k_keeps K.regs K.eth K.xsp K.int K.stl K.out h e
  | erase64k _ => exact execErase64k_keeps K.regs K.eth K.xsp K.int K.stl K.out h e
  | flashOpComplete _ => exact execFlashOpComplete_keeps K.regs K.latches K.staged K.mem K.tlm K.time K.power K.boot K.wdog K.trans K.ports K.sheaves K.searches K.groups K.samplePhase K.detq K.spks K.frames K.nextFrame K.holds K.win K.lnk K.fuses K.ses K.pairs K.key K.cores K.fence K.sage K.usl K.eth K.xsp K.flash K.flt K.tmrs K.rtc K.int K.stl K.tag K.reader K.upd K.free K.out h e
  | patrolScrub _ => exact execPatrolScrub_keeps K.regs K.mem K.tlm K.eth K.flt K.int K.stl K.tag K.out h e
  | marchTestComplete _ _ => exact execMarchTestComplete_keeps K.regs K.eth K.flt K.int K.stl K.out h e
  | faultPop i _ => exact execFaultPop_keeps K.flt (x1 := i) h e
  | fullSelftest i _ => exact execFullSelftest_keeps K.regs K.flt (x1 := i) h e
  | fullSelftestDone _ => exact execFullSelftestDone_keeps K.regs K.mem K.sheaves K.ses K.pairs K.eth K.flt K.int K.stl K.out h e
  | portLoopSelftestStart _ => exact execPortLoopSelftestStart_keeps K.regs K.ports K.lnk K.eth K.flt K.int K.stl K.out h e
  | portLoopSelftestDone _ _ _ => exact execPortLoopSelftestDone_keeps K.regs K.ports K.sheaves K.lnk K.eth K.flt K.int K.stl K.out h e
  | pbadClear i _ _ => exact execPbadClear_keeps K.regs K.ports K.lnk K.eth K.flt K.int K.stl K.out (x1 := i) h e
  | counterClear _ _ _ => exact execCounterClear_keeps K.regs K.latches K.staged K.mem K.tlm K.time K.power K.boot K.wdog K.trans K.ports K.sheaves K.searches K.groups K.samplePhase K.detq K.spks K.frames K.nextFrame K.holds K.win K.lnk K.fuses K.ses K.pairs K.key K.cores K.fence K.sage K.usl K.eth K.xsp K.flash K.flt K.tmrs K.rtc K.int K.stl K.tag K.reader K.upd K.free K.out h e
  | peakClear i _ => exact execPeakClear_keeps K.regs (x1 := i) h e
  | minClear i _ => exact execMinClear_keeps K.regs (x1 := i) h e
  | counterUpdate _ => exact execCounterUpdate_keeps K.regs K.eth K.tmrs K.int K.stl K.out h e
  | counterStartAt _ => exact execCounterStartAt_keeps K.regs K.time K.eth K.tmrs K.int K.stl K.out h e
  | lfStep => exact execLfStep_keeps K.regs K.wdog K.eth K.tmrs K.rtc K.int K.stl K.free K.out h e
  | capture _ => exact execCapture_keeps K.regs K.eth K.tmrs K.int K.stl K.out h e
  | captureRead _ _ => exact execCaptureRead_keeps K.latches K.tmrs K.out h e
  | mainSupplyReturn => exact execMainSupplyReturn_keeps K.rtc h e
  | rtcUnlock _ _ => exact execRtcUnlock_keeps K.regs K.staged K.rtc h e
  | brownOut => exact execBrownOut_keeps K.regs K.latches K.staged K.eth K.rtc K.int K.stl K.out h e
  | subAdvance => exact execSubAdvance_keeps K.regs K.eth K.rtc K.int K.stl K.free K.out h e
  | calendarCommit _ _ => exact execCalendarCommit_keeps K.regs K.staged K.rtc h e
  | weekdayWrite _ _ => exact execWeekdayWrite_keeps K.regs K.staged K.rtc h e
  | periodicWake => exact execPeriodicWake_keeps K.regs K.eth K.rtc K.int K.stl K.out h e
  | trimMeasureStart _ _ => exact execTrimMeasureStart_keeps K.regs K.staged K.rtc h e
  | trimMeasureEnd _ => exact execTrimMeasureEnd_keeps K.regs K.eth K.rtc K.int K.stl K.out h e
  | tamper _ => exact execTamper_keeps K.regs K.eth K.int K.stl K.out h e
  | interruptClaim _ _ => exact execInterruptClaim_keeps K.regs K.latches K.staged K.mem K.tlm K.time K.power K.boot K.wdog K.trans K.ports K.sheaves K.searches K.groups K.samplePhase K.detq K.spks K.frames K.nextFrame K.holds K.win K.lnk K.fuses K.ses K.pairs K.key K.cores K.fence K.sage K.usl K.eth K.xsp K.flash K.flt K.tmrs K.rtc K.int K.stl K.tag K.reader K.upd K.free K.out h e
  | interruptComplete _ _ _ => exact execInterruptComplete_keeps K.regs K.latches K.staged K.mem K.tlm K.time K.power K.boot K.wdog K.trans K.ports K.sheaves K.searches K.groups K.samplePhase K.detq K.spks K.frames K.nextFrame K.holds K.win K.lnk K.fuses K.ses K.pairs K.key K.cores K.fence K.sage K.usl K.eth K.xsp K.flash K.flt K.tmrs K.rtc K.int K.stl K.tag K.reader K.upd K.free K.out h e
  | externalClaim i _ => exact execExternalClaim_keeps K.regs K.eth K.int K.out (x1 := i) h e
  | externalComplete i _ _ => exact execExternalComplete_keeps K.regs K.eth K.int K.out (x1 := i) h e
  | stolonFire i _ => exact execStolonFire_keeps K.regs K.eth K.int K.stl K.out (x1 := i) h e
  | fieldOn => exact execFieldOn_keeps K.regs K.eth K.int K.stl K.tag K.free K.out h e
  | selectByName => exact execSelectByName_keeps K.tag K.out h e
  | selectByFileId _ => exact execSelectByFileId_keeps K.tag K.out h e
  | readBinary _ _ => exact execReadBinary_keeps K.regs K.eth K.int K.stl K.tag K.out h e
  | updateBinary _ _ => exact execUpdateBinary_keeps K.tag K.out h e
  | readWords _ _ => exact execReadWords_keeps K.regs K.latches K.holds K.cores K.eth K.flt K.tmrs K.int K.stl K.tag K.out h e
  | writeWords _ _ => exact execWriteWords_keeps K.regs K.latches K.staged K.mem K.tlm K.time K.power K.boot K.wdog K.trans K.ports K.sheaves K.searches K.groups K.samplePhase K.detq K.spks K.frames K.nextFrame K.holds K.win K.lnk K.fuses K.ses K.pairs K.key K.cores K.fence K.sage K.usl K.eth K.xsp K.flash K.flt K.tmrs K.rtc K.int K.stl K.tag K.reader K.upd K.free K.out h e
  | deselect => exact execDeselect_keeps K.regs K.latches K.staged K.eth K.int K.stl K.tag K.out h e
  | fieldLoss => exact execFieldLoss_keeps K.regs K.latches K.staged K.eth K.int K.stl K.tag K.out h e
  | waitingTimeExtension _ => exact execWaitingTimeExtension_keeps K.tag K.out h e
  | pageCommitComplete _ => exact execPageCommitComplete_keeps K.regs K.latches K.staged K.mem K.tlm K.time K.power K.boot K.wdog K.trans K.ports K.sheaves K.searches K.groups K.samplePhase K.detq K.spks K.frames K.nextFrame K.holds K.win K.lnk K.fuses K.ses K.pairs K.key K.cores K.fence K.sage K.usl K.eth K.xsp K.flash K.flt K.tmrs K.rtc K.int K.stl K.tag K.store K.reader K.upd K.free K.out h e
  | backgroundErase => exact execBackgroundErase_keeps K.tag h e
  | windowWrite _ _ => exact execWindowWrite_keeps K.regs K.eth K.int K.stl K.tag K.out h e
  | hostPageCommit _ _ => exact execHostPageCommit_keeps K.regs K.eth K.int K.stl K.tag K.out h e
  | pageBufferDrop _ _ => exact execPageBufferDrop_keeps K.regs K.eth K.int K.stl K.tag K.out h e
  | harvestOn => exact execHarvestOn_keeps K.tag h e
  | detuningPing _ => exact execDetuningPing_keeps K.regs K.time K.eth K.int K.stl K.reader K.out h e
  | reread i _ => exact execReread_keeps K.regs K.eth K.int K.stl K.reader K.out (x1 := i) h e
  | panelFullRead => exact execPanelFullRead_keeps K.time K.reader h e
  | panelReadComplete _ => exact execPanelReadComplete_keeps K.regs K.eth K.int K.stl K.reader K.out h e
  | start _ _ => exact execStart_keeps K.regs K.mem K.holds K.win K.lnk K.ses K.key K.cores K.sage K.eth K.flash K.flt K.int K.stl K.upd K.free K.out h e
  | feed _ _ => exact execFeed_keeps K.regs K.mem K.holds K.win K.lnk K.ses K.key K.cores K.sage K.eth K.flash K.flt K.int K.stl K.upd K.free K.out h e
  | chunkConsumed => exact execChunkConsumed_keeps K.regs K.latches K.holds K.cores K.eth K.flash K.flt K.tmrs K.int K.stl K.upd K.out h e
  | applyComplete => exact execApplyComplete_keeps K.regs K.eth K.int K.stl K.upd K.out h e
  | abort _ _ => exact execAbort_keeps K.regs K.mem K.holds K.win K.lnk K.ses K.key K.cores K.sage K.eth K.flash K.flt K.int K.stl K.upd K.free K.out h e
  | activate _ _ => exact execActivate_keeps K.regs K.mem K.holds K.win K.lnk K.ses K.key K.cores K.sage K.eth K.flash K.flt K.int K.stl K.upd K.free K.out h e
  | activationComplete => exact execActivationComplete_keeps K.regs K.mem K.tlm K.boot K.holds K.win K.cores K.fence K.sage K.eth K.flash K.flt K.int K.stl K.upd K.out h e
  | confirm _ _ => exact execConfirm_keeps K.regs K.staged K.mem K.holds K.win K.lnk K.fuses K.ses K.key K.cores K.sage K.eth K.flash K.flt K.int K.stl K.upd K.free K.out h e
  | trialDeadline => exact execTrialDeadline_keeps K.regs K.mem K.time K.holds K.win K.lnk K.ses K.key K.cores K.sage K.eth K.flash K.flt K.int K.stl K.upd K.free K.out h e
  | fallbackComplete => exact execFallbackComplete_keeps K.regs K.mem K.tlm K.boot K.holds K.win K.cores K.fence K.sage K.eth K.flt K.int K.stl K.out h e
  | refclkReturn => exact execRefclkReturn_keeps K.power h e
  | resetRelease => exact execResetRelease_keeps K.power K.boot h e
  | vrfReturn => exact execVrfReturn_keeps K.power h e
  | marginClear => exact execMarginClear_keeps K.power h e
  | vbakLowOnMain => exact execVbakLowOnMain_keeps K.regs h e
  | headLimitRelease _ => exact execHeadLimitRelease_keeps K.regs h e
  | vheadReversalEnd => exact execVheadReversalEnd_keeps K.regs K.free h e
  | usethRetrainComplete _ => exact execUsethRetrainComplete_keeps K.regs K.eth K.int K.stl K.out h e
  | debugResume => exact execDebugResume_keeps K.cores K.tmrs h e
  | heldFrameJudgement _ => exact execHeldFrameJudgement_keeps K.regs K.mem K.time K.frames K.holds K.win K.lnk K.ses K.pairs K.cores K.sage K.usl K.eth K.flt K.int K.stl K.free K.out h e
  | reqa => exact execReqa_keeps K.tag K.out h e
  | anticollision => exact execAnticollision_keeps K.tag K.out h e
  | rats => exact execRats_keeps K.tag K.out h e
  | tagUnlistedCommand _ _ => exact execTagUnlistedCommand_keeps K.out h e

/-- What every part's change keeps, every step keeps. -/
theorem step_keeps (hpending : Keep.pending P) (K : Keep.Every P) {s t : State} (h : P s) (e : step s = .next t) : P t := by
  unfold step at e
  split at e
  · obtain rfl := Host.Outcome.next.inj e
    exact idle_keeps K.time K.cores K.int K.stl h
  · exact exec_keeps K (hpending s _ h) e

end Sys2Proof.Machine
end

