-- ==== Sys2Proof/Tests/Slice0.lean ====
section
/-!
SUPPORT. Tests: for each obligation with hypotheses, states and operands that meet them, clause by clause, and small steps whose
results are read off the spec's rules; ill-formed terms that the checks refuse.
-/

open Sys2Proof.Machine

namespace Sys2Proof.Tests

set_option Elab.async false

/-- The command completes, and the check holds of the state it leaves. -/
def ends (c : Instr) (s : State) (p : State → Bool) : Bool :=
  match exec c s with
  | .next t => p t
  | _ => false

/-- The command leaves the state as it is. -/
def same (c : Instr) (s : State) : Bool := ends c s fun t => t == s

/-- Every check of a list holds. -/
def all (l : List Bool) : Bool := l.all id

/-- Registers outside a list, and every word of every memory, are as before. -/
def only (l : List Nat) (s t : State) : Bool :=
  (t.regs.filter fun e => !l.contains e.1) == (s.regs.filter fun e => !l.contains e.1) && t.mem == s.mem && t.tlm == s.tlm &&
    t.xsp.flash == s.xsp.flash && t.tag.store == s.tag.store

/-- Registers outside the blocks of a list, and every word of every memory, are as before. -/
def onlyIn (ws : List Nat) (s t : State) : Bool :=
  only ((s.regs ++ t.regs).filterMap fun e => if ws.contains (e.1 / 0x10000) then some e.1 else none) s t

/-- A state with registers set. -/
def put (s : State) (l : List (Nat × Word)) : State := l.foldl (fun s e => rset s e.1 e.2) s

/-- A memory with words set. -/
def mem (s : State) (l : List (Nat × Word)) : State := l.foldl (fun s e => mset s e.1 e.2) s

/-- A chip in mode `m` whose boot is over, with some image's entry. -/
def on (m : Nat) : State :=
  put { State.reset with time := { running := true }, power := { State.reset.power with quiet := false }, boot := { step := 10, target := m, entry := 0x01000000 } } [(Reg.sysMode, w16 m)]

/-- HOSTED, the mode in which the tests run unless they say otherwise. -/
def s0 : State := on 2


/-- A fence that lets L2 read and write every window. -/
def openFence (s : State) : State := { s with fence := { force := some [⟨0, 0xFFFFFFFF, 0x1FF, 0x8000⟩] } }

/-- The command stops as ill formed. -/
def ill (c : Instr) (s : State) : Bool :=
  !c.wf && match exec c s with
    | .fault (.illFormed _) => true
    | _ => false

/-- A candidate of sheaf 0's profile 0 that reaches its threshold. -/
def cand0 : Candidate := {
  chan := 0, beam := 0, prof := 0, coded := false, synct := 80, subt := 0, foff := 0, m := 40,
  sig := List.replicate 8 0, noise := List.replicate 8 0 }

/-- A frame's measurements. -/
def fm0 : FrameMeas := { snrc := 40, ffin := 0, tdrift := 0, ncorr := 0, chips := 1, h := List.replicate 16 0 }

/-- A gate request. -/
def gr0 : GateReq := {
  sheaf := 0, streams := [⟨868000000, 0⟩], wave := .profile 1 1, t5 := 500000, e5 := 600000,
  power := List.replicate 8 none, session := 0 }

/-- Eight ports' mismatch measurements. -/
def meas0 : List PortMeas := List.replicate 8 ⟨0, -100, true⟩

/-- Eight ports' samples, with a credit of the sample queue. -/
def samples0 : SampleSet := ⟨List.replicate 8 ⟨0, 0, .low⟩, true, []⟩

/-- For each check of `WellFormed`, a term it refuses and the command that stops on it (`WellFormedCompletes`). -/
theorem test_wellformed_refuses : all [
    ill (.gateRequest { gr0 with power := [none] }) s0,
    ill (.sampleCapture 0 ⟨[], true, []⟩ []) s0,
    ill (.sampleCapture 0 ⟨samples0.ports, true, [⟨205, 0, []⟩]⟩ []) s0,
    ill (.sampleCapture 0 samples0 [{ cand0 with sig := [1] }]) s0,
    ill (.sampleCapture 0 samples0 [{ cand0 with noise := List.replicate 9 0 }]) s0,
    ill (.frameCheck 0 0 0 0 [⟨0, 0, [137]⟩]) s0,
    ill (.txEnd 0 (List.replicate 7 ⟨0, 0, true⟩)) s0,
    ill (.bundle 0 [⟨205, 0, []⟩]) s0,
    ill (.patrolScrub [⟨0, 0, [137]⟩]) s0,
    ill (.hostWrite 0 []) s0,
    ill (.hostWrite 0 (List.replicate 257 0)) s0,
    ill (.hostAbort 0 (List.replicate 257 0) 0) s0] = true := by decide +kernel

/-- The same commands at the ends of their ranges are well formed and complete. -/
theorem test_wellformed_admits : all [
    ends (.gateRequest gr0) s0 fun _ => true,
    ends (.sampleCapture 0 samples0 [cand0]) s0 fun _ => true,
    ends (.frameCheck 0 0 0 0 [⟨204, 0, [0]⟩]) s0 fun _ => true,
    ends (.txEnd 0 meas0) s0 fun _ => true,
    ends (.bundle 0 [⟨203, 0, [136]⟩]) s0 fun _ => true,
    ends (.hostAbort 0 (List.replicate 256 0) 0) State.reset fun _ => true,
    (Instr.hostWrite 0 (List.replicate 256 0)).wf && (Instr.hostWrite 0 [0]).wf] = true := by decide +kernel

/-- `StepRunsFront`, `WellFormedCompletes`: a step takes the front command and leaves the rest. -/
theorem test_steps_run_front : all [
    match step { State.reset with pending := [.headLimitRelease 0, .rateApply] } with
      | .next t => t.pending == [.rateApply]
      | _ => false] = true := by decide +kernel

/-- `IdleTick`: a running timebase advances by a tick and every core that is not stopped counts; one that stands still does nothing. -/
theorem test_idle_tick : all [
    match step (s0.updCore 3 fun c => { c with hold := .wait, cycle := 2 ^ 64 - 8, scnt := 2 ^ 32 - 8 }) with
      | .next t => t.time.now = 1 && (t.core 3).cycle = 0 && (t.core 3).scnt = 0 && (t.core 4).cycle = 0
      | _ => false,
    match step { s0 with power := { s0.power with lost := true } } with
      | .next t => t == { s0 with power := { s0.power with lost := true } }
      | _ => false,
    match step State.reset with
      | .next t => t == State.reset
      | _ => false] = true := by decide +kernel

/-- `CanonicalKept`: the reset state has the canonical form, and the state a write of a memory word leaves has it too. -/
theorem test_canonical_form : all [
    Memory.wf State.reset && Memory.wf (mem s0 [(0x01000000, 1)]),
    match step { mem s0 [(0x01000000, 1)] with pending := [.localMemoryAccess .crown 0 (some 7)] } with
      | .next t => Memory.wf t && lget t 0 0 = 7
      | _ => false] = true := by decide +kernel

/-- `FrameMemory`, `FrameCoresAndSecrets`, `FrameRadioAndTime`: a command of each kind that the frames leave alone, and its completion. -/
theorem test_frames : all [
    !(Instr.headLimitRelease 0).writesMemory && !(Instr.headLimitRelease 0).actsOnCores && !(Instr.headLimitRelease 0).blowsFuses,
    !(Instr.headLimitRelease 0).commitsFence && !(Instr.headLimitRelease 0).actsOnRadio && !(Instr.headLimitRelease 0).actsOnTime,
    ends (.headLimitRelease 0) (put s0 [(Reg.hedStat 0, 0x0008)]) fun t => rget t (Reg.hedStat 0) = 0 && t.cores == s0.cores] = true := by decide +kernel

/-- A chip reset has started the chip afresh at boot step `k`. -/
def fresh (k : Nat) (s t : State) : Bool :=
  t.pending == s.pending && modeOf t == 0 && t.boot.step == k && t.power.quiet && t.regs.all (fun e => keptByReset e.1) &&
    (t.regs.filter fun e => e.1 / 0x10000 == 0x1005) == (s.regs.filter fun e => e.1 / 0x10000 == 0x1005) && t.mem == [] && t.tlm == [] &&
    t.cores == State.reset.cores && t.holds == [] && t.time == {} && t.trans == none && t.fence == {}

/-- A chip that a reset has to clear: registers, memories, a core, a page buffer. -/
def dirty : State :=
  let s := put s0 [(Reg.sysRstcause, 0x0010), (Reg.rtcTrim, 5), (Reg.nftWaddr, 0x0010), (Reg.sysWdctl, 1), (Reg.sysWdper, 2)]
  let s := lset (mem s [(0x01000000, 7)]) 3 9 1
  { s.updCore 2 fun c => { c with pc := 4, hold := .none } with wdog := { s.wdog with count := 2 }, tag := { s.tag with buf := some (0, []) } }

/-- `ChipResets`: each reset starts afresh, keeps Rosemary, and names its cause. -/
theorem test_chip_resets : all [
    ends .powerOnReset dirty fun t => fresh 1 dirty t && t.boot.armed && rget t Reg.sysRstcause = 1,
    ends .powerOnReset { dirty with power := { dirty.power with resetLow := true } } fun t => t.boot.step = 0,
    ends .externalReset dirty fun t => fresh 0 dirty t && t.power.resetLow && rget t Reg.sysRstcause = 0x0016 && !xrstN t && xrstN s0,
    ends .watchdogReset dirty fun t => fresh 1 dirty t && rget t Reg.sysRstcause = 0x0014,
    same .watchdogReset { dirty with wdog := { dirty.wdog with count := 1 } },
    levelOf dirty .host = 2 && ends (.softwareReset .host 0x5A3C) dirty fun t => fresh 1 dirty t && rget t Reg.sysRstcause = 0x001C,
    levelOf dirty .crown = 0 && ends (.softwareReset .crown 0x5A3C) dirty fun t => fresh 1 dirty t,
    same (.softwareReset (.tiller 0) 0x5A3C) dirty && same (.softwareReset .host 0x5A3D) dirty,
    ends .debugReset dirty fun t => fresh 1 dirty t && rget t Reg.sysRstcause = 0x0014,
    ends .debugReset { dirty with wdog := { dirty.wdog with count := 1 } } fun t => rget t Reg.sysRstcause = 0x0010,
    ends .resetRelease { State.reset with power := { State.reset.power with resetLow := true }, boot := { State.reset.boot with step := 0 } } fun t => t == State.reset,
    (let s := { dirty with power := { dirty.power with lost := true } };
      same .externalReset s && same .debugReset s && same .vioWarning s)] = true := by decide +kernel

/-- `SysRegisters`: watchdog, READY and the hold point. -/
theorem test_sys_registers : all [
    ends (.watchdogEnable .host 3) s0 fun t => rget t Reg.sysWdctl = 3 && t.wdog.restart && only [Reg.sysWdctl] s0 t,
    same (.watchdogEnable .host 0) (put s0 [(Reg.sysWdctl, 1)]),
    ends (.watchdogKick .crown 0xB00C) (put s0 [(Reg.sysWdctl, 1)]) fun t => t.wdog.restart && t.wdog.count = 0,
    same (.watchdogKick .host 0xB00C) (put s0 [(Reg.sysWdctl, 1)]) && same (.watchdogKick .crown 0xB00D) (put s0 [(Reg.sysWdctl, 1)]),
    (let s := { s0 with boot := { s0.boot with step := 9 } };
      ends (.serviceReady (.tiller 0) 1) s fun t => rget t Reg.sysSvcready = 1 && t.boot.step = 10 && only [Reg.sysSvcready] s t),
    ends (.serviceReady .crown 1) s0 fun t => t.boot.step = 10 && rget t Reg.sysSvcready = 1,
    (let s := put State.reset [(Reg.sysBootstat, 0x0020), (Reg.sysBootcfg, 0x000E)];
      ends (.holdPointRelease .host 0x60D0) s fun t => rbit t Reg.sysBootstat 5 = false && t.boot.target = 6 && t.boot.startcal &&
        only [Reg.sysBootstat] s t),
    (let s := put State.reset [(Reg.sysBootstat, 0x0020), (Reg.sysBootcfg, 0x0001)];
      ends (.holdPointRelease .crown 0x60D0) s fun t => t.boot.target = 1 && !t.boot.startcal)] = true := by decide +kernel

/-- `SupplyLosses`: RETAIN, the margin monitor, VRF, REFCLK, VBAK. -/
theorem test_supply_losses : all [
    [Instr.vioWarning, .supplyWindowExit].all fun c => ends c dirty fun t => t.power.lost && t.power.quiet && rget t Reg.sysMode = 0x0727 &&
      rbit t Reg.rtcStat 15 && t.rtc.onVbak && !t.rtc.running && t.mem == [] && t.tlm == [] && t.cores == State.reset.cores && t.holds == [] &&
      t.tag.store == dirty.tag.store && t.regs.all fun e => e.1 / 0x10000 == 0x1000 || e.1 / 0x10000 == 0x1005,
    updState s0 = 0 && ends .marginLow s0 fun t => t == { s0 with power := { s0.power with marginLow := true } },
    (let s := { put s0 [(Reg.updStat, 1)] with upd := { s0.upd with chunk := some (0, 2, 32, 0) } };
      updState s = 1),
    ends .marginClear { s0 with power := { s0.power with marginLow := true } } fun t => t == s0,
    (List.range 8).all (fun n => shfState s0 n ≠ 2) && ends .vrfDrop s0 fun t => t == { s0 with power := { s0.power with vrfLow := true } },
    (let s := put s0 [(Reg.shfStat 7, 6), (Reg.shfCtl 7, 1)];
      shfState s 7 = 2),
    ends .vrfReturn { s0 with power := { s0.power with vrfLow := true } } fun t => t == s0,
    ends .refclkLoss s0 fun t => t.power.refLost && t.power.pllHold && rbit t Reg.fltEvt 1,
    (let s := { s0 with power := { s0.power with refLost := true, pllHold := true } };
      ends .refclkReturn s fun t => !t.power.refLost && !t.power.pllHold && only [] s t && t.power.relock == someUnlocked s),
    ends .mainSupplyReturn { s0 with rtc := { s0.rtc with onVbak := true, stopped := true } } fun t => t == s0,
    ends .vbakLowOnMain s0 fun t => rbit t Reg.rtcStat 13 && only [Reg.rtcStat] s0 t] = true := by decide +kernel

/-- `BackupLosses`: a brown-out on VBAK, and a tamper pin. -/
theorem test_backup_losses : all [
    (let s := put { s0 with rtc := { s0.rtc with onVbak := true } } [(Reg.rtcCal + 2, 0x0203), (Reg.rtcWday, 3), (Reg.rtcTrim, 7), (Reg.rtcBkup 15, 9)];
      ends .brownOut s fun t => rget t Reg.rtcCal = 0 && rget t (Reg.rtcCal + 1) = 0 && rget t (Reg.rtcCal + 2) = 0x0101 &&
        rget t (Reg.rtcCal + 3) = 0 && t.rtc.stopped && rbit t Reg.rtcStat 3 && rbit t Reg.rtcStat 15 && rget t Reg.rtcWday = 0 &&
        rget t Reg.rtcTrim = 0 && rgroup t Reg.rtcWake 2 = 0 && rgroup t Reg.rtcNsw 2 = 0 && rbit t Reg.rtcTamp 2 &&
        rget t (Reg.rtcBkup 15) = 0 && rbit t Reg.rtcEvt 2),
    (let s := put s0 [(Reg.rtcBkup 0, 1), (Reg.rtcBkup 15, 9)];
      ends (.tamper true) s fun t => rget t Reg.rtcTamp = setBit (rget s Reg.rtcTamp) 1 true && rget t (Reg.rtcBkup 0) = 0 &&
        rget t (Reg.rtcBkup 15) = 0 && rget t Reg.rtcEvt = 4 && only (Reg.rtcTamp :: Reg.rtcEvt :: (List.range 16).map Reg.rtcBkup) s t)] = true := by decide +kernel

/-- `BootSteps`: each step runs from the state after the one before. -/
theorem test_boot_steps : all [
    bootAt State.reset 1 && ends .bootPllLock State.reset fun t => t.boot.step = 2 && t.time.running && t.time.now = 0 && (t.core 32).hold == .none &&
      (t.core 32).pc = 0x04000000 && (t.core 32).sr = 0x8000 && only [] State.reset t,
    (let s := mem { State.reset with boot := { State.reset.boot with step := 2 } } [(0x01000000, 5)];
      bootAt s 2 && ends .bootMemoryZeroise s fun t => t.boot.step = 3 && t.mem == [] && t.tlm == [] && t.regs == s.regs && t.cores == s.cores),
    (let s := { State.reset with boot := { State.reset.boot with step := 3 }, fuses := { State.reset.fuses with intact := false } };
      bootAt s 3),
    (let s := { State.reset with boot := { State.reset.boot with step := 3 } };
      bootAt s 3 && s.fuses.intact && profilesOk s.fuses.profiles),
    (let s := put { State.reset with boot := { State.reset.boot with step := 4 } } [(Reg.sysBootstat, 0x0300)];
      bootAt s 4),
    (let s := { State.reset with boot := { State.reset.boot with step := 4 } };
      bootAt s 4 && rfld s Reg.sysBootstat 11 8 ≠ 3),
    (let s := { State.reset with boot := { State.reset.boot with step := 6 } };
      bootAt s 6 && ends .bootGateArm s fun t => t.boot.step = 7 && !t.power.quiet && rbit t Reg.rglStat 0 && only [Reg.rglStat] s t),
    (let s := { State.reset with boot := { State.reset.boot with step := 7, target := 6 } };
      bootAt s 7 && same .bootRadioStart s && ends (.startupCalibration []) s fun t => t.boot.step = 8 && rbit t Reg.sysBootstat 6 &&
        only [Reg.sysBootstat] s t),
    (let s := { State.reset with boot := { State.reset.boot with step := 7, target := 2 }, time := { running := true } };
      bootAt s 7 && rxOn s.boot.target),
    (let s := { State.reset with boot := { State.reset.boot with step := 7, target := 2, startcal := true } };
      bootAt s 7 && !radioReady s && same (.startupCalibration []) s),
    (let s := { State.reset with boot := { State.reset.boot with step := 7, target := 2, startcal := true, radio := true } };
      bootAt s 7 && radioReady s && same .bootRadioStart s && ends (.startupCalibration []) s fun t => t.boot.step = 8 && rbit t Reg.sysBootstat 6 && t.mem == s.mem),
    (let s := { State.reset with boot := { State.reset.boot with step := 8, target := 1 } };
      bootAt s 8),
    [2, 6].all fun m => (let s := { State.reset with boot := { State.reset.boot with step := 8, target := m, entry := 0x01000010 } };
      bootAt s 8 && ends .bootTargetEntry s fun t => t.boot.step = 9 && (t.core 32).pc = 0x01000010 && (t.core 32).hold == .none)] = true := by decide +kernel

/-- `ModeRequests`: each cause of refusal, an acceptance, and its completion. -/
theorem test_mode_requests : all [
    [(Initiator.tiller 0, (0xC503 : Word), 3), (.host, 0xC403, 5), (.host, 0xC502, 4), (.host, 0xC507, 4), (.host, 0xC504, 6)].all fun e =>
      modeRefusal s0 (levelOf s0 e.1) e.2.1 == some e.2.2 && ends (.modeRequest [(e.1, e.2.1)]) s0 fun t =>
        rfld t Reg.sysModestat 3 0 = e.2.2 && rbit t Reg.sysModestat 15 && rfld t Reg.sysModestat 12 10 = modeInit e.1 && t.trans == none &&
          only [Reg.sysModestat] s0 t,
    (let s := put s0 [(Reg.sysMode, 0x000A)];
      modeRefusal s 2 0xC503 == some 2 && ends (.modeRequest [(.host, 0xC503)]) s fun t => rfld t Reg.sysModestat 3 0 = 2),
    modeRefusal (put s0 [(Reg.updStat, 5)]) 2 0xC503 == some 2,
    modeRefusal s0 2 0xC503 == none && ends (.modeRequest [(.host, 0xC503)]) s0 fun t => rbit t Reg.sysMode 3 &&
      t.trans == some { target := 3, restart := false, cores := true, init := 1 } && rfld t Reg.sysModestat 12 10 = 1,
    (let s := { put s0 [(Reg.sysMode, 0x000A)] with trans := some { target := 3, restart := false, cores := true, init := 1 } };
      transitionReady s { target := 3, restart := false, cores := true, init := 1 } && ends .modeTransitionComplete s fun t => modeOf t = 3 &&
        t.trans == none && !rbit t Reg.sysMode 3 && rfld t Reg.sysModestat 3 0 = 1 && (t.core 32).pc = 0x01000000 && (t.core 32).hold == .none),
    same .modeTransitionComplete s0] = true := by decide +kernel

/-- HOSTED with sheaf 0 and its port 0 ON and receiving. -/
def radio : State :=
  (put s0 [(Reg.shfCtl 0, 1), (Reg.shfStat 0, 6), (Reg.prtCtl 0, 1), (Reg.prtStat 0, 2)]).updSheaf 0 fun h =>
    { h with capture := some 0, lo := 0x5A000000, div := 4 }

/-- A transmission command of sheaf 0. -/
def tx0 : TxCmd := { t5 := 500000, e5 := 600000, streams := [(864000000 * hz, 0)], power := List.replicate 8 none, for_ := .other, octets := [] }

/-- `BlockStarts`: a block of each kind that is OFF starts; a failed check drains it. -/
theorem test_block_starts : all [
    [(0 : Fin 2), 1].all fun n => unitOn s0 ethernetIn && stateOf s0 (.eth n) = 0 && ends (.blockEnable .host (.eth n) 1) s0 fun t =>
      stateOf t (.eth n) = 1 && enOf t (.eth n) && only [Reg.ethnCtl n, Reg.ethnStat n] s0 t,
    unitOn s0 usethIn && ends (.blockEnable .host (.usl 1) 1) s0 fun t => stateOf t (.usl 1) = 1 && enOf t (.usl 1) && t.usl.trained.nth 1 0 = 0 &&
      only [Reg.uslnCtl 1, Reg.uslnStat 1] s0 t,
    unitOn s0 tillersIn && ends (.blockEnable .crown (.til 31) 3) (put s0 [(Reg.tilEntry 31, 0x10), (Reg.tilTrap 31, 1)]) fun t =>
      stateOf t (.til 31) = 1 && (t.core 31).sr = 0x3000 && (t.core 31).pc = 0x01000010 && rget t (Reg.tilTrap 31) = 0 && onlyIn [0x1019] s0 t,
    ends (.blockEnable .crown (.tmr 31) 1) s0 fun t => stateOf t (.tmr 31) = 1 && (t.tmr 31).pre = 0 && onlyIn [0x1004] s0 t,
    ends (.blockEnable .crown .nfr 1) s0 fun t => stateOf t .nfr = 1 && enOf t .nfr && only [Reg.nfrCtl, Reg.nfrStat] s0 t,
    (let s := put s0 [(Reg.shfDiv 7, 1), (Reg.shfLo 7, 0), (Reg.shfLo 7 + 1, 0x5A00)];
      loOk false (rfld s (Reg.shfDiv 7) 1 0) (rgroup s (Reg.shfLo 7) 2) && ends (.blockEnable .host (.shf 7) 1) s fun t =>
        stateOf t (.shf 7) = 1 && (t.sheaf 7).lo = rgroup s (Reg.shfLo 7) 2 && (t.sheaf 7).div = divOf (rfld s (Reg.shfDiv 7) 1 0) &&
          only [Reg.shfCtl 7, Reg.shfStat 7] s t),
    (let s := put s0 [(Reg.shfLo 0, 0), (Reg.shfLo 0 + 1, 0)];
      !loOk false (rfld s (Reg.shfDiv 0) 1 0) (rgroup s (Reg.shfLo 0) 2)),
    shfState s0 (sheafOf 63) = 0 && ends (.blockEnable .host (.prt 63) 1) s0 fun t => stateOf t (.prt 63) = 1 &&
      only [Reg.prtCtl 63, Reg.prtStat 63, Reg.prtClips 63] s0 t,
    !rxSealed s0 && !rbit s0 (Reg.awnStat 7) 2,
    stateOf s0 (.hed 0) = 0,
    (let s := put s0 [(Reg.lnkTslen, 0xFFFF)];
      !tplOk (tplWritten s)),
    tplOk (tplWritten s0)] = true := by decide +kernel

/-- `BlockStops`: a block that is STARTING or ON drains. -/
theorem test_block_stops : all [
    [(BlockId.prt 5, 1), (.prt 5, 2), (.shf 0, 2), (.awn 3, 1), (.hed 0, 2), (.lnk, 2), (.til 0, 2), (.eth 1, 2), (.usl 0, 1), (.tmr 4, 2), (.nfr, 2)].all fun e =>
      (let s := put s0 [(ctlReg e.1, 1), (statReg e.1, w16 e.2)];
      stateOf s e.1 = e.2 && enOf s e.1 && ends (.blockDisable .host e.1 0) s fun t => stateOf t e.1 = 3 && !enOf t e.1)] = true := by decide +kernel

/-- `BlockStartCompletes`: each kind of block becomes ON, a Useth port without a lane drains. -/
theorem test_block_start_completes : all [
    same (.blockStartComplete (.prt 0) 0) s0,
    [BlockId.eth 0, .tmr 31, .hed 7].all fun b => (let s := put s0 [(statReg b, 1)];
      ends (.blockStartComplete b 0) s fun t => t == setState s b 2),
    (let s := put s0 [(Reg.nfrStat, 1)];
      ends (.blockStartComplete .nfr 0) s fun t => stateOf t .nfr = 2 && t.reader.due),
    (let s := put s0 [(Reg.tilStat 0, 1)];
      ends (.blockStartComplete (.til 0) 0) s fun t => stateOf t (.til 0) = 2 && (t.core 0).hold == .none),
    (let s := put radio [(Reg.prtStat 7, 1), (Reg.prtCtl 7, 1)];
      shfState s (sheafOf 7) = 2 && ends (.blockStartComplete (.prt 7) 0) s fun t => t == setState s (.prt 7) 2),
    (let s := put s0 [(Reg.shfStat 2, 1), (Reg.shfCtl 2, 1)];
      ends (.blockStartComplete (.shf 2) 0) s fun t => shfState t 2 = 2 && rbit t (Reg.shfStat 2) 2 && (t.sheaf 2).capture = some (sampleAt s 0)),
    (let s := (put radio [(Reg.awnStat 0, 1), (Reg.awnCtl 0, 1)]).updSearch 0 fun h => { h with startAt := some 81, seq := 4 };
      rxRuns s && shfState s 0 = 2 && ends (.blockStartComplete (.awn 0) 0) s fun t => stateOf t (.awn 0) = 2 && (t.search 0).startAt == none &&
        (t.search 0).began = 88 && (t.search 0).seq = 0 && only [Reg.awnStat 0] s t),
    (let s := put s0 [(Reg.lnkStat, 1), (Reg.lnkCtl, 1)];
      stateOf s .lnk = 1 && ends (.blockStartComplete .lnk 0) s fun t => stateOf t .lnk = 2 && t.lnk.anchors.length = 1),
    (let s := put s0 [(Reg.uslnStat 0, 1), (Reg.uslnCtl 0, 0x001F)];
      ends (.blockStartComplete (.usl 0) 0) s fun t => stateOf t (.usl 0) = 3 && !enOf t (.usl 0) && rbit t (Reg.uslnEvt 0) 1 &&
        only (Reg.uslnCtl 0 :: Reg.uslnStat 0 :: Reg.uslnEvt 0 :: ntxRegs) s t),
    (let s := put s0 [(Reg.uslnStat 1, 1), (Reg.uslnCtl 1, 0x000F)];
      stateOf s (.usl 1) = 1 && s.usl.laneOff == [])] = true := by decide +kernel

/-- `BlockDrainCompletes`: a drained block becomes OFF, or STARTING where EN reads 1; one that is not drained waits. -/
theorem test_block_drain_completes : all [
    [BlockId.prt 0, .shf 0, .awn 0, .hed 0, .lnk, .til 0, .eth 0, .usl 0, .tmr 0, .nfr].all fun b => (let s := put s0 [(statReg b, 3), (ctlReg b, 0)];
      drained s b && ends (.blockDrainComplete b) s fun t => stateOf t b = 0 && !enOf t b),
    [BlockId.eth 0, .til 0, .usl 0].all fun b => (let s := put s0 [(statReg b, 3), (ctlReg b, 1)];
      drained s b && ends (.blockDrainComplete b) s fun t => stateOf t b = 1 && enOf t b),
    same (.blockDrainComplete (.prt 0)) s0,
    (let s := put s0 [(Reg.prtStat 0, 3), (Reg.shfStat 0, 8)];
      !drained s (.prt 0) && same (.blockDrainComplete (.prt 0)) s)] = true := by decide +kernel

/-- `RegisterWrites`: RW bits, W1C bits, an unlisted address, and a group. -/
theorem test_register_writes : all [
    ends (.registerWrite .host (Reg.awnPthr 7) 0xABCD) s0 fun t => rget t (Reg.awnPthr 7) = 0x00CD && only [Reg.awnPthr 7] s0 t,
    ends (.registerWrite .host Reg.calEvt 0x0003) (put s0 [(Reg.calEvt, 0x0105)]) fun t => rget t Reg.calEvt = 0x0104,
    same (.registerWrite .host 0x100B00FF 1) s0,
    ends (.registerWrite .host Reg.awnAt 0x1234) s0 fun t => t.regs == s0.regs && rget t Reg.awnAt = 0 && !t.staged.isEmpty,
    match exec (.registerWrite .host Reg.awnAt 0x1234) s0 with
      | .next s => ends (.registerWrite .host (Reg.awnAt + 3) 1) s fun t => rgroup t Reg.awnAt 4 = 0x1000000001234
      | _ => false] = true := by decide +kernel

/-- `RegisterWrites`: the debug port's accesses, let through, refused, and without core power. -/
theorem test_debug_accesses : all [
    (let s := openFence s0;
      fabRuns s && (fenceJudge s false 2 accWrite Reg.calEvt).isNone && ends (.registerWrite .debug (Reg.spkCap 0) 7) s fun t =>
        rget t (Reg.spkCap 0) = 7 && t.out.dbgSt = 1 && only [Reg.spkCap 0] s t),
    ends (.registerWrite .debug (Reg.spkCap 0) 7) s0 fun t => rget t (Reg.spkCap 0) = rget s0 (Reg.spkCap 0) && t.out.dbgSt = 0x0201 && rget t Reg.fenNref = 1 &&
      rget t Reg.fenEvt = 1 && rgroup t Reg.fenFaddr 2 = Reg.spkCap 0,
    ends (.groupLatchRead .debug (Reg.spkCap 0)) s0 fun t => t.out.read = 0 && t.out.dbgSt = 0x0201 && rget t Reg.fenNref = 1,
    (let s := { s0 with power := { s0.power with resetLow := true } };
      !fabRuns s && same (.registerWrite .debug (Reg.spkCap 0) 7) s && same (.groupLatchRead .debug (Reg.spkCap 0)) s)] = true := by decide +kernel

/-- `GroupLatches`: the lowest word latches the higher ones, which the initiator then reads, whatever they hold by then. -/
theorem test_group_latches : all [
    (let s := put s0 [(Reg.awnAt, 1), (Reg.awnAt + 1, 2), (Reg.awnAt + 3, 4)];
      ends (.groupLatchRead .host Reg.awnAt) s fun t => t.out.read = 1 && latched t .host (Reg.awnAt + 1) = some 2 &&
        latched t .host (Reg.awnAt + 3) = some 4 && latched t .crown (Reg.awnAt + 3) == none),
    (let s := { put s0 [(Reg.awnAt + 1, 9)] with latches := [((initIndex .host, Reg.awnAt + 1), 2)] };
      latched s .host (Reg.awnAt + 1) = some 2 && ends (.groupLatchRead .host (Reg.awnAt + 1)) s fun t => t.out.read = 2 && t.latches == s.latches),
    (let s := put s0 [(Reg.awnAt + 1, 9)];
      latched s .host (Reg.awnAt + 1) == none && ends (.groupLatchRead .host (Reg.awnAt + 1)) s fun t => t.out.read = 9),
    (List.range 4).all fun k => groupAt s0 (Reg.awnAt + k) = (Reg.awnAt, 4) && liveWord s0 (Reg.awnAt + k) == none &&
      liveGroup s0 (Reg.awnAt + k) == none && !readActs (Reg.awnAt + k),
    (let s := (s0.updTmr 0 fun c => { c with width := 2, caps := [0x50003] }).updTmr 1 fun c => { c with member := true };
      tmrWidth s 0 = 2 && tmrHead s 0 = 0 && tmrHead s 1 = 0 && ends (.groupLatchRead .host (Reg.tmrnCap 0)) s fun t => t.out.read = 3 &&
        latched t .host (Reg.tmrnCap 1) = some 5)] = true := by decide +kernel

/-- `ActingAccesses`: a bridge's time-out, local memory, and the clears. -/
theorem test_acting_accesses : all [
    bridged 0x01F,
    stateOf s0 (.til 31) = 0 && ends (.localMemoryAccess .crown 31 (some 9)) (put s0 [(Reg.tilLmaddr 31, 0xFFFF)]) fun t => lget t 31 0xFFFF = 9 &&
      rget t (Reg.tilLmaddr 31) = 0 && t.tlm.length = 1 && t.mem == [],
    ends (.localMemoryAccess .crown 0 none) (lset s0 0 0 7) fun t => t.out.read = 7 && rget t (Reg.tilLmaddr 0) = 1 && only [Reg.tilLmaddr 0] (lset s0 0 0 7) t,
    (let s := put s0 [(Reg.tilStat 0, 2)];
      ends (.localMemoryAccess .crown 0 (some 1)) s fun t => rget t (Reg.tilEvt 0) = 0x10 && only (Reg.tilEvt 0 :: ntxRegs) s t),
    (let s := put s0 [(Reg.aesNmis 0, 3), (Reg.aesNmis 4, 3)];
      ends (.counterClear .host Reg.aesCtl 1) s fun t => rget t (Reg.aesNmis 0) = 0 && rget t (Reg.aesNmis 4) = 0 && only ((List.range 5).map Reg.aesNmis) s t),
    ends (.peakClear .host 1) (put s0 [(Reg.spkPeak, 9)]) fun t => rget t Reg.spkPeak = 0,
    ends (.minClear .host 1) (put { s0 with win := { s0.win with parts := [(0, 64)] } } [(Reg.winMin 0, 3)]) fun t => rget t (Reg.winMin 0) = 64 &&
      rget t (Reg.winMin 15) = 0] = true := by decide +kernel

/-- `PortCommands`: a gain step, the tuner code, the DC estimates, sample instants. -/
theorem test_port_commands : all [
    (let s := put radio [(Reg.prtGain 0, 0x002B), (Reg.prtStat 0, 0x0082)];
      rbit s (Reg.prtGain 0) 3 && rfld s (Reg.prtGain 0) 2 0 < gainOf s 0 && ends (.gainStepUp 0) s fun t => gainOf t 0 = 3 &&
        rfld t (Reg.prtGain 0) 7 5 = 3 && rfld t (Reg.prtGain 0) 3 0 = 0xB && (t.port 0).midSince = 6144000 && t.time.now = 6144000 &&
        only [Reg.prtStat 0, Reg.prtGain 0] s t),
    (let s := put radio [(Reg.prtGain 0, 0x000C), (Reg.prtStat 0, 0x0082)];
      rfld s (Reg.prtGain 0) 2 0 ≥ gainOf s 0 && same (.gainStepUp 0) s),
    ends (.tuneWrite .host 0 0x1234) radio fun t => rget t (Reg.prtTune 0) = 0x1234 && (t.port 0).tuneAct = 0x1234 && only [Reg.prtTune 0] radio t,
    ends (.tuneWrite .host 63 0xFFFF) s0 fun t => rget t (Reg.prtTune 63) = 0x3F3F && (t.port 63).tuneAct = 0x2020,
    (let s := put (radio.updSheaf 0 fun h => { h with job := some { kind := 3, port := 7, start := 0, running := true, own := true } }) [(Reg.prtCtl 7, 1), (Reg.prtStat 7, 1)];
      ends (.portDcMeasureDone 7 5 6) s fun t => rget t (Reg.prtDci 7) = 5 && rget t (Reg.prtDcq 7) = 6 && prtState t 7 = 2),
    !capturing s0 0 && same (.sampleCapture 0 samples0 []) s0,
    capturing radio 0 && !blankDue radio 0 (sampleTick radio 0) && prtState radio 0 ≠ 0 && !portHeld radio 0,
    (let s := put radio [(Reg.prtStat 0, 0)];
      ends (.sampleCapture 0 samples0 []) s fun t => (t.sheaf 0).ring == [⟨0, List.replicate 8 false, List.replicate 8 (0, 0)⟩] && only [] s t),
    (let s := put (radio.updSheaf 0 fun h => { h with lost := [⟨0, 0, 9⟩] }) [(Reg.prtStat 0, 0)];
      let s := { s with time := { s.time with now := 16 } }
      ends (.sampleCapture 0 { samples0 with credit := false } []) s fun t => (t.sheaf 0).ring == [] && t.flt.seq = 1 &&
        (t.sheaf 0).lost == [⟨16, 16, 0⟩, ⟨0, 0, 9⟩]),
    (let s := radio.updSheaf 0 fun h => { h with accepted := [{ tx0 with t5 := 24576 }] };
      blankDue s 0 (sampleTick s 0) && same (.sampleCapture 0 samples0 []) s),
    (let s := put radio [(Reg.shfStat 0, 0x0016)];
      !capturing s 0 && transmitting s 0 = false && ends (.tuneWrite .host 0 0x1234) s fun t => (t.port 0).tuneAct = 0x2020)] = true := by decide +kernel

/-- `TransmitCommands`: accepted, refused with every bit that applies, or not taken. -/
theorem test_transmit_commands : all [
    (let s := radio.updSheaf 0 fun h => { h with cmds := [tx0], accepted := [{ tx0 with t5 := 300000, e5 := 500000 }] };
      takesTx s 0 tx0 && txCases s 0 tx0 = 0 && !secLate s tx0 && ends (.txCommand 0) s fun t => (t.sheaf 0).cmds == [] &&
        (t.sheaf 0).accepted == [{ tx0 with t5 := 300000, e5 := 500000 }, tx0] && only [] s t),
    (let s := radio.updSheaf 0 fun h => { h with cmds := [{ tx0 with t5 := 24575, streams := [(0, 0)] }], accepted := [tx0] };
      takesTx s 0 { tx0 with t5 := 24575, streams := [(0, 0)] } && txCases s 0 { tx0 with t5 := 24575, streams := [(0, 0)] } = 0x0038),
    txCases radio 0 { tx0 with t5 := 24576 } = 0,
    (let s := s0.updSheaf 0 fun h => { h with cmds := [tx0] };
      !takesTx s 0 tx0 && ends (.txCommand 0) s fun t => (t.sheaf 0).cmds == [] && (t.sheaf 0).accepted == [] && only [] s t)] = true := by decide +kernel

/-- `TransmitInstants`: blanking, start, end and return of reception. -/
theorem test_transmit_instants : all [
    (let s := radio.updSheaf 0 fun h => { h with accepted := [tx0] };
      ends (.blankingStart 0) s fun t => blanked t 0 && (t.sheaf 0).ready && (t.sheaf 0).capture == none && (t.sheaf 0).accepted == [tx0] &&
        t.time.now = 95085),
    (let s := radio.updSheaf 0 fun h => { h with accepted := [tx0], ready := true };
      ends (.txStart 0) s fun t => transmitting t 0 && (t.sheaf 0).accepted == [] && (t.sheaf 0).onAir.isSome && !(t.sheaf 0).ready &&
        rget t (Reg.shfTxcnt 0) = 1 && t.time.now = 100000),
    (let s := put (radio.updSheaf 0 fun h => { h with onAir := some tx0, nudge := 3, nudged := true }) [(Reg.shfStat 0, 0x003E)];
      measWf meas0),
    (let s := put (radio.updSheaf 0 fun h => { h with resume5 := 624576, capture := none }) [(Reg.shfStat 0, 0x0016)];
      blanked s 0 && shfState s 0 = 2 && ends (.receiveResume 0) s fun t => !blanked t 0 && (t.sheaf 0).capture == some 124920)] = true := by decide +kernel

/-- `SynthLock`: LOCK lost, returned, and capture resumed. -/
theorem test_synth_lock : all [
    ends (.synthUnlock 0) radio fun t => !rbit t (Reg.shfStat 0) 2 && rbit t (Reg.shfEvt 0) 1 && blanked t 0 && (t.sheaf 0).capture == none,
    (let s := put radio [(Reg.shfStat 0, 0x0012)];
      vcobUntil s 0 == none && ends (.synthRelock 0) s fun t => rbit t (Reg.shfStat 0) 2 && (t.sheaf 0).relockAt == some 0 && only [Reg.shfStat 0] s t),
    (let s := put (radio.updSheaf 0 fun h => { h with relockAt := some 0, capture := none }) [(Reg.shfStat 0, 0x0016)];
      ends (.captureResume 0) s fun t => (t.sheaf 0).capture == some 4920 && (t.sheaf 0).relockAt == none && !blanked t 0 && t.time.now = 4920)] = true := by decide +kernel

/-- `CalibrationRequests`: accepted, BUSY, NOTREADY, and REFOSC. -/
theorem test_calibration_requests : all [
    [(1, Instr.iq .host 0 false), (2, .fbw .host 0 false), (3, .dcstat .host 0 false), (4, .loleak .host 0 false)].all fun e =>
      !calBusy radio 0 && ends e.2 radio fun t => rbit t (Reg.calSstat 0) 15 && rfld t (Reg.calSstat 0) 13 11 = e.1 &&
        rfld t (Reg.calSstat 0) 10 5 = 0 && (t.sheaf 0).job.map CalJob.kind == some e.1 && only [Reg.calSstat 0] radio t,
    (let s := radio.updPort 5 fun q => { q with dcPend := true };
      calBusy s 0),
    !calBusy s0 7 && prtState s0 63 ≠ 2,
    (let s := put radio [(Reg.prtCtl 1, 1)];
      2 ≤ (enPorts s 0).length && ends (.recip .host 0 false) s fun t => rfld t (Reg.calSstat 0) 15 11 = 21 && (t.sheaf 0).job.map CalJob.kind == some 5),
    ends (.vcob .host 0 false) radio fun t => rfld t (Reg.calSstat 0) 15 11 = 22 && only [Reg.calSstat 0] radio t,
    same (.refosc .host) (put s0 [(Reg.calRefstat, 1)]),
    (let s := put s0 [(Reg.tbsCtl, 0x0009)];
      disciplined s && ends (.refosc .host) s fun t => rget t Reg.calRefstat = 1 && only [Reg.calRefstat] s t),
    !disciplined s0] = true := by decide +kernel

/-- `CalibrationRuns`: DCSTAT and VCOB begin, IQ ends, REFOSC ends, a result is written. -/
theorem test_calibration_runs : all [
    (let j := ({ kind := 3, port := 0, start := 9 } : CalJob);
      let s := radio.updSheaf 0 fun h => { h with job := some j };
      ends (.calibrationBegin 0) s fun t => portHeld t 0 && rfld t (Reg.calSstat 0) 10 8 = 1 && t.time.now = 16 &&
        (t.sheaf 0).job == some { j with running := true, begun := 1, ends := 61456 } && only [Reg.calSstat 0, Reg.prtStat 0] s t),
    (let s := radio.updSheaf 0 fun h => { h with job := some { kind := 6, port := 0, start := 0 } };
      ends (.calibrationBegin 0) s fun t => blanked t 0 && !rbit t (Reg.shfStat 0) 2 && (t.sheaf 0).capture == none &&
        only [Reg.calSstat 0, Reg.shfStat 0] s t),
    (let s := radio.updSheaf 0 fun h => { h with job := some { kind := 1, port := 7, start := 0, running := true, begun := 1 } };
      ends (.calibrationComplete 0 ⟨[5, 6]⟩) s fun t => rget t (Reg.calIqg 7) = 5 && rget t (Reg.calIqp 7) = 6 && rbit t (Reg.calValid 7) 0 &&
        rfld t (Reg.calSstat 0) 2 0 = 1 && !rbit t (Reg.calSstat 0) 15 && rbit t Reg.calEvt 0),
    ends (.refoscComplete 0xFFF0) (put s0 [(Reg.calRefstat, 1)]) fun t => rget t Reg.calReferr = 0xFFF0 && rfld t Reg.calRefstat 1 0 = 2 && rbit t Reg.calEvt 8,
    levelOf s0 (.tiller 0) = 1 && ends (.calResultWrite (.tiller 0) 63 1 7) s0 fun t => t == rset s0 (Reg.calIqg 63 + 1) 7,
    same (.calResultWrite .host 0 0 7) s0] = true := by decide +kernel

/-- `AerialFaultsAndHeads`: ball DC at 1.00 V and below 0.50 V, a software clear. -/
theorem test_aerial_faults : all [
    [(100 : Word), 0xFF9C].all fun v => v.toInt.natAbs = 100,
    (let s := put s0 [(Reg.hedAflt 63, 0x000E)];
      ends (.ballDcClear 63 49) s fun t => rget t (Reg.hedBalldc 63) = 49 && rget t (Reg.hedAflt 63) = 3 && onlyIn [0x1010, 0x1020] s t),
    [(6 : Word), 0x000A].all fun v => ends (.afclr .host 5 1) (put s0 [(Reg.hedAflt 5, v)]) fun t => rget t (Reg.hedAflt 5) = 3,
    same (.afclr .host 5 1) s0 && same (.afclr .host 5 3) (put s0 [(Reg.hedAflt 5, 6)]) && same (.afclr .host 5 1) (put s0 [(Reg.hedAflt 5, 0x000E)])] = true := by decide +kernel

/-- `AerialFaultsAndHeads`: the limit, a short, an overload, a back-driven and an open output, VHEAD reversed. -/
theorem test_head_outputs : all [
    (let s := put s0 [(Reg.hedStat 7, 1)];
      hedDriven s 7 && ends (.headCurrentLimit 7) s fun t => rget t (Reg.hedStat 7) = 9),
    ends (.headLimitRelease 7) (put s0 [(Reg.hedStat 7, 9)]) fun t => rget t (Reg.hedStat 7) = 1,
    [(Instr.headShort 0, 0), (.headOverload 0, 4), (.headBackdrive 0, 2)].all fun e => (let s := put s0 [(Reg.hedStat 0, 0x000A), (Reg.hedCtl 0, 1)];
      hedState s 0 = 2),
    (let s := put s0 [(Reg.hedStat 0, 2)];
      hedState s 0 = 2),
    ends (.headOpenClear 0) (put s0 [(Reg.hedStat 0, 6)]) fun t => rget t (Reg.hedStat 0) = 2,
    (let s := put s0 [(Reg.hedStat 0, 2), (Reg.hedStat 3, 1), (Reg.hedStat 4, 3)];
      ends (.vheadReversed 0xFFCD) s fun t => rget t Reg.hedVhead = 0xFFCD && rbit t Reg.hedGstat 1 && hedState t 0 = 3 && hedState t 3 = 3 &&
        hedState t 1 = 0 && hedState t 4 = 3 && onlyIn [0x1020] s t),
    (let s := put s0 [(Reg.hedGstat, 2)];
      rbit s Reg.hedGstat 1)] = true := by decide +kernel

/-- A detection record. -/
def det0 : Det := {
  synct := 1000, subt := 0, prof := 0, beam := 0, sheaf := 0, cls := 1, coded := false, ports := 1, chan := 0, foff := 0,
  rss := List.replicate 8 0, rssc := 0, snr := 40, noise := 0, seq := 0 }

/-- A SUN-FSK profile slot. -/
def slot0 : SlotCopy := { kind := 1, rate := 1, thr := 0, sync := 0, legal := true, fec := 0 }

/-- Spikelet 5 in use, with its channel estimated. -/
def spike5 : Spikelet := { id := 5, det := det0, slot := slot0 }

/-- A state with one spikelet in use. -/
def spiked (x : Spikelet) : State := { s0 with spks := [x] }

/-- A holding of two granules. -/
def hold0 : Holding := { gmeta := 3, data := [4], part := 0, owner := 34 }

/-- A duplicate-suppression group with one candidate. -/
def group0 : DupGroup := {
  prof := 0, centre := 0, a := 80, w := 100,
  cands := [{ sheaf := 0, cand := cand0, ports := [true, false, false, false, false, false, false, false], cls := 1 }] }

/-- HOSTED with the link timing unit ON from tick 0. -/
def link : State := { put s0 [(Reg.lnkCtl, 1), (Reg.lnkStat, 2)] with lnk := { s0.lnk with anchors := [⟨0, 0, 0⟩] } }

/-- `SearchInstants`: a start, a held stop, the group that ends first. -/
theorem test_search_instants : all [
    (let s := (put radio [(Reg.awnStat 0, 1), (Reg.awnCtl 0, 1)]).updSearch 0 fun h => { h with startAt := some 81, seq := 3 };
      ends (.searchStart 0) s fun t => stateOf t (.awn 0) = 2 && (t.search 0).began = 88 && (t.search 0).seq = 0 && t.time.now = 88 && only [Reg.awnStat 0] s t),
    (let s := (put radio [(Reg.awnStat 0, 6), (Reg.awnCtl 0, 1)]).updSearch 0 fun h => { h with heldStop := some 80 };
      stateOf s (.awn 0) = 2 && ends (.searchStop 0) s fun t => stateOf t (.awn 0) = 3 && !enOf t (.awn 0) && !rbit t (Reg.awnStat 0) 2 &&
        (t.search 0).stopAt == some 80 && t.time.now = 80 && only [Reg.awnCtl 0, Reg.awnStat 0] s t),
    same .groupClose s0,
    (let s := { radio with groups := [{ group0 with w := 200 }, group0] };
      (winner group0).isSome),
    (let g := { group0 with cands := [] };
      winner g == none && ends .groupClose { radio with groups := [g] } fun t => t.groups == [] && t.detq == [] && t.regs == radio.regs)] = true := by decide +kernel

/-- `SpikeletPool`: a spikelet taken, a POOL verdict, reservations. -/
theorem test_spikelet_pool : all [
    (let s := { s0 with detq := [det0], spks := [{ spike5 with id := 0 }] };
      mayAllocate s 0 && ends .spikeletAllocation s fun t => t.detq == [] && t.spks.map Spikelet.id == [1, 0] && rget t Reg.spkNalloc = 1 &&
        only [Reg.spkNalloc, Reg.spkPeak] s t),
    (let s := put { s0 with detq := [det0] } [(Reg.spkCap 0, 0)];
      !mayAllocate s 0),
    same .spikeletAllocation s0,
    (let s := put s0 ((List.range 8).map fun n => (Reg.spkRes n, 0));
      ends (.reservationWrite .host 0 0x8400) s fun t => rget t (Reg.spkRes 0) = 0x0400 && only [Reg.spkRes 0] s t),
    (let s := put s0 ((Reg.spkRes 1, 1) :: ((List.range 7).map fun n => (Reg.spkRes (if n = 0 then 0 else n + 1), 0)));
      ends (.reservationWrite .host 0 0x0400) s fun t => rbit t Reg.spkEvt 7 && only (Reg.spkEvt :: ntxRegs) s t)] = true := by decide +kernel

/-- Soft values that decide some bits. -/
def softs (l : List Bool) : List Int := l.map fun b => if b then -5 else 5

/-- A frame of five octets, with its FCS of two. -/
def psdu5 : List Octet := [1, 2, 3] ++ fcsOf true [1, 2, 3]

/-- Spikelet 5, known from another chip's announced contribution, which decides a whitened uncoded frame of five octets. -/
def told5 : Spikelet :=
  { spike5 with own := false, len := 5, endt := 5000, lam := softs (fskInfo 5 true true psdu5) }

/-- `SpikeletLife`: the header decided from soft values, its reservation, a failure; the frame with its FCS, with a bit turned, and late. -/
theorem test_spikelet_life : all [
    same (.channelEstimate 5) (spiked told5) && same (.headerDecision 5 7) (spiked spike5),
    (let s := spiked { spike5 with det := { det0 with synct := 30000 } };
      lostOf s spike5 == none && ringPoison s 0 [] == none && ends (.channelEstimate 5) s fun t => t.regs == s.regs),
    (let s := { spiked spike5 with time := { s0.time with now := 250000 } };
      firstSample spike5 + 24576000 < 100 * s.time.now && ends (.channelEstimate 5) s fun t => t.spks == [] && rget t Reg.spkNinteg = 1),
    (let s := { spiked told5 with win := { s0.win with parts := [(0, 64)] } };
      headerDue s told5 && (decidedHead told5).isSome && 2 ≤ freeCount s 0 && 2 ≤ (freeGranules s 0).length),
    (let s := { spiked told5 with win := { s0.win with stopped := true } };
      ends (.headerDecision 5 7) s fun t => t.spks == [] && rget t Reg.spkNgran = 1 && t.time.now = 7),
    (let x := { told5 with lam := softs (fskPhr 6 true true) };
      decidedHead x |>.isNone) && ends (.headerDecision 5 7) (spiked { told5 with lam := softs (fskPhr 6 true true) }) fun t =>
        t.spks == [] && rget t Reg.spkNhdr = 1,
    (let x := { told5 with header := some (.sunFsk 5 true true), fcst := true, dw := true, hold := some hold0 };
      let s := spiked x
      frameDue s x && (decodedOf x).phr && fcsGood x && ends (.frameCheck 5 5000 0 0 []) s fun t => t.spks == [] && t.regs == s.regs &&
        t.nextFrame = 1 && match t.frames with
        | [f] => f.good && f.psdu == psdu5 && f.hold == hold0 && f.det == det0
        | _ => false),
    (let x := { told5 with header := some (.sunFsk 5 true false), fcst := true, dw := false, hold := some hold0 };
      let s := spiked x
      !fcsGood x && ends (.frameCheck 5 5000 0 0 []) s fun t => t.spks == [] && t.frames == [] && rget t Reg.spkNfcs = 1 && rbit t Reg.spkEvt 5),
    (let x := { told5 with header := some (.sunFsk 5 true true) };
      let s := spiked x
      s.spks.all (fun x => !x.late) && !memberOnly s && ends (.decoderDeadlineMiss 5) s fun t => rget t Reg.spkNlate = 1 && t.time.now = 5000 + 3072),
    spike5.own && ends (.ringOverrun 5) (spiked spike5) fun t => t.spks == [] && rget t Reg.spkNinteg = 1 && t.flt.seq = 1] = true := by decide +kernel

/-- Longfield on air (06 R158, R159): the HCRC of a header with bit 0 set, the remainder of x²³, the code's first symbols and their
decision, the interleaver's rows. -/
theorem test_longfield : all [
    lfHeader 0 false = 0 && hcrc 1 = 0x6D && (headInfo { slot0 with kind := 4 } (.longfield (lfHeader 5 true))).isSome,
    encode lfTrellis [true, false, false] == [true, true, true, false, true, true, true, true, true],
    viterbi lfTrellis 64 3 42 false 1 (softs [true, true, true]) == [true],
    [lfPlace 0, lfPlace 1, lfPlace 10, lfPlace 90, lfPlace 91, lfPlace 114] == [0, 9, 1, 90, 106, 91]] = true := by decide +kernel

/-- `SlotGrid`: boundaries, re-anchoring, bank switch, start and stop. -/
theorem test_slot_grid : all [
    same .slotBoundary s0,
    lnkOn link,
    (let s := put link [(Reg.lnkAt, 500)];
      lnkOn s && s.time.now ≤ rgroup s Reg.lnkAt 4),
    (let s := put { link with lnk := { link.lnk with reanchor := some ⟨500, 500, 7⟩ } } [(Reg.lnkStat, 0x0012)];
      ends .reanchorApply s fun t => t.lnk.anchors == [⟨500, 500, 7⟩, ⟨0, 0, 0⟩] && t.lnk.reanchor == none && !rbit t Reg.lnkStat 4 && t.time.now = 500 &&
        only [Reg.lnkStat] s t),
    (let s := put link [(Reg.lnkSwasn, 9)];
      lnkOn s && !rbit s Reg.lnkSwctl 1),
    (let s := put { link with lnk := { link.lnk with switch := some 9 } } [(Reg.lnkSwctl, 2)];
      lnkOn s),
    (let s := put { s0 with lnk := { s0.lnk with startAt := some 77 } } [(Reg.lnkStat, 1), (Reg.lnkCtl, 1)];
      ends .linkStart s fun t => stateOf t .lnk = 2 && t.lnk.since = 77 && t.lnk.anchors == [⟨77, 77, 0⟩] && t.time.now = 77),
    (let s := { link with lnk := { link.lnk with heldStop := some 90, reanchor := some ⟨500, 500, 7⟩ } };
      stateOf s .lnk = 2 && ends .linkStop s fun t => stateOf t .lnk = 3 && !enOf t .lnk && t.lnk.heldStop == none && t.lnk.reanchor == none &&
        t.time.now = 90),
    (let s := put { link with time := { link.time with now := 504 } } [(Reg.lnkAt, 500)];
      lnkOn s && rgroup s Reg.lnkAt 4 + 3 < s.time.now),
    (let s := put s0 [(Reg.lnkStat, 1), (Reg.lnkCtl, 1)];
      stateOf s .lnk = 1 && s.lnk.startAt == none)] = true := by decide +kernel

/-- `CounterCommands`: prescaler and count, a start, captures, the LF clock. -/
theorem test_counters : all [
    (let s := put s0 [(Reg.tmrnCtl 0, 1), (Reg.tmrnStat 0, 2), (Reg.tmrnPre 0, 2)];
      tmrCounting s 0 && !lfRunning s && ends (.counterUpdate 0) s fun t => (t.tmr 0).pre = 1 && only [] s t),
    (let s := (put s0 [(Reg.tmrnCtl 31, 1), (Reg.tmrnStat 31, 2), (Reg.tmrnPre 31, 2), (Reg.tmrnCnt 31, 0xFFFF)]).updTmr 31 fun c => { c with pre := 2 };
      tmrCounting s 31 && ends (.counterUpdate 31) s fun t => (t.tmr 31).pre = 0 && rget t (Reg.tmrnCnt 31) = 0 && only (Reg.tmrnCnt 31 :: Reg.tmrnEvt 31 :: ntxRegs) s t),
    !tmrCounting s0 0 && same (.counterUpdate 0) s0,
    (let s := (put s0 [(Reg.tmrnCtl 0, 1), (Reg.tmrnStat 0, 2)]).updTmr 0 fun c => { c with startAt := some 40 };
      ends (.counterStartAt 0) s fun t => (t.tmr 0).startAt == none && t.time.now = 40 && onlyIn [0x1004] s t),
    (let s := (put { s0 with stl := { s0.stl with caps := [0] } } [(Reg.tmrnCtl 0, 1), (Reg.tmrnStat 0, 2), (Reg.tmrnCnt 0, 9)]).updTmr 0 fun c => { c with caps := [1] };
      ends (.capture 0) s fun t => (t.tmr 0).caps == [1, 9] && rbit t (Reg.tmrnEvt 0) 4),
    (let s := (put { s0 with stl := { s0.stl with caps := [0] } } [(Reg.tmrnCtl 0, 1), (Reg.tmrnStat 0, 2), (Reg.tmrnCnt 0, 9)]).updTmr 0 fun c => { c with caps := [1, 2] };
      ends (.capture 0) s fun t => (t.tmr 0).caps == [1, 2] && rbit t (Reg.tmrnEvt 0) 5),
    (let s := s0.updTmr 31 fun c => { c with caps := [5, 6] };
      tmrWidth s 31 = 1 && ends (.captureRead .host 31) s fun t => t.out.read = 5 && (t.tmr 31).caps == [6] && (t.tmr 31).capLast = 5 && only [] s t),
    (let s := { put s0 [(Reg.sysWdctl, 1)] with wdog := { div := 31, count := 4 } };
      ends .lfStep s fun t => t.wdog.div = 0 && t.wdog.count = 5 && t.rtc.half && t.time == s.time),
    (let s := { put s0 [(Reg.sysWdctl, 1)] with wdog := { div := 3, count := 4, restart := true } };
      ends .lfStep s fun t => t.wdog == {})] = true := by decide +kernel

/-- `RosemaryCommands`: the lock, the calendar, the wake-up, the trim measurement. -/
theorem test_rosemary : all [
    levelOf s0 .crown = 0 && ends (.rtcUnlock .crown 0x52D1) (put s0 [(Reg.rtcStat, 0x8000)]) fun t => rget t Reg.rtcStat = 0,
    same (.rtcUnlock .host 0x52D1) (put s0 [(Reg.rtcStat, 0x8000)]) && same (.rtcUnlock .crown 0x52D0) (put s0 [(Reg.rtcStat, 0x8000)]),
    (let s := put s0 [(Reg.rtcStat, 0x8000)];
      rtcLocked s && same (.calendarCommit .host 0) s && same (.weekdayWrite .host 1) s && same (.trimMeasureStart .host 0x8000) s),
    !rtcLocked (put s0 [(Reg.rtcStat, 0x0008)]) && !(calOf [0, 0, 0, 0]).ok && ends (.calendarCommit .host 0) { put s0 [(Reg.rtcStat, 0)] with
      staged := [((33, Reg.rtcCal), 0), ((33, Reg.rtcCal + 1), 0), ((33, Reg.rtcCal + 2), 0)] } fun t => rget t Reg.rtcStat = 2,
    (let s := put { s0 with staged := [((33, Reg.rtcCal), 0), ((33, Reg.rtcCal + 1), 0), ((33, Reg.rtcCal + 2), 0x1D02)] } [(Reg.rtcStat, 0x0008)];
      (calOf (commitWords s .host Reg.rtcCal 4 24)).ok && ends (.calendarCommit .host 24) s fun t => calNow t = calOf (commitWords s .host Reg.rtcCal 4 24) &&
        !rbit t Reg.rtcStat 3 && t.rtc.div = 0),
    (let s := put s0 [(Reg.rtcStat, 0)];
      ends (.weekdayWrite .host 0xFFFD) s fun t => rget t Reg.rtcWday = 5 && only [Reg.rtcWday] s t),
    (let s := put s0 [(Reg.rtcCal, 0xFE3B)];
      (calNow s).sub = 254 && ends .subAdvance s fun t => (calNow t).sub = 255 && rget t Reg.rtcCal = 0xFF3B),
    (let s := put s0 [(Reg.rtcCal, 0xFF3B), (Reg.rtcCal + 1, 0x3B17), (Reg.rtcCal + 2, 0x1F0C), (Reg.rtcCal + 3, 99)];
      (calNow s).sub = 255 && (calNow s).ok),
    same .subAdvance { s0 with rtc := { s0.rtc with stopped := true } },
    (let s := put { s0 with rtc := { s0.rtc with wakeCnt := 1 } } [(Reg.rtcWake, 1), (Reg.rtcWake + 1, 0)];
      rgroup s Reg.rtcWake 2 = 1),
    ends (.trimMeasureStart .host 0x8000) (put s0 [(Reg.rtcStat, 0)]) fun t => t.rtc.running && rfld t Reg.rtcMstat 15 14 = 1,
    (let s := put { s0 with rtc := { s0.rtc with running := true } } [(Reg.rtcMctl, 0x6000)];
      ends (.trimMeasureEnd (some 240000)) s fun t => !t.rtc.running && rfld t Reg.rtcMstat 15 14 = 2 &&
        rget t Reg.rtcMerr = i16 (trimError (trimLen s) 240000) && rget t Reg.rtcTrim = rget t Reg.rtcMerr && rbit t Reg.rtcEvt 3),
    (let s := { s0 with rtc := { s0.rtc with running := true } };
      ends (.trimMeasureEnd none) s fun t => !t.rtc.running && rfld t Reg.rtcMstat 15 14 = 3 && rbit t Reg.rtcEvt 3)] = true := by decide +kernel

/-- `Timebase`: rate, step, PPS. -/
theorem test_timebase : all [
    same (.rateCommit .host 1) (put s0 [(Reg.tbsCtl, 2)]) && same (.stepCommit .host 1) (put s0 [(Reg.tbsCtl, 0)]),
    (let s := put s0 [(Reg.tbsCtl, 1), (Reg.tbsRateat, 500)];
      rfld s Reg.tbsCtl 1 0 = 1 && s.time.now ≤ rgroup s Reg.tbsRateat 4),
    (let s := put { s0 with time := { s0.time with now := 504 } } [(Reg.tbsCtl, 1), (Reg.tbsRateat, 500)];
      rfld s Reg.tbsCtl 1 0 = 1 && rgroup s Reg.tbsRateat 4 + 3 < s.time.now),
    (let s := put { s0 with time := { s0.time with rateAt := some 7, rateNew := 3 } } [(Reg.tbsStat, 2)];
      ends .rateApply s fun t => t.time.rate = 3 && t.time.rateAt == none && t.time.now = 7 && rget t Reg.tbsStat = 0),
    (let s := put s0 [(Reg.tbsCtl, 1), (Reg.tbsStepat, 77)];
      rfld s Reg.tbsCtl 1 0 = 1),
    (let s := put { s0 with time := { s0.time with now := 10, stepAt := some 7, stepBy := 100 } } [(Reg.tbsStat, 4)];
      stepFree s),
    (let s := { radio with time := { radio.time with stepAt := some 7 } };
      !stepFree s && same .stepApply s),
    (let s := { put s0 [(Reg.tbsPpssub, 0x8000)] with time := { s0.time with now := 5 } };
      ends (.ppsInEdge 15) s fun t => rgroup t Reg.tbsPpscap 4 = 5 && rget t Reg.tbsPpssub = 0xC00F && rbit t Reg.tbsEvt 0),
    (let s := { s0 with time := { s0.time with ppsErr := some (50, 16) } };
      s.time.ppsErr == some (50, 16) && ends .ppsLoopUpdate s fun t => t.time.now = 1074 && t.time.ppsErr == none && t.time.rate = trimOf (rsigned s Reg.tbsRate 2 - ppsStep s 16)),
    (let s := { put s0 [(Reg.tbsStat, 1)] with time := { s0.time with ppsPrev := some 32 } };
      ends .ppsLoss s fun t => t.time.now = 135168002 && t.time.ppsPrev == none && t.time.ppsGood = 0 && !rbit t Reg.tbsStat 0 && rbit t Reg.tbsEvt 2),
    (let s := put { s0 with time := { s0.time with now := 5 }, power := { s0.power with quiet := false } } [(Reg.tbsCtl, 4), (Reg.tbsPpsoat, 9)];
      ppsDriven s && ends .ppsOutEdge s fun t => t.time.ppsOut.isSome && only [] s t)] = true := by decide +kernel

/-- A state whose gate passes: band 0 of 863 to 870 MHz is in force, and port 0 transmits. -/
def gated : State :=
  put (radio.updPort 0 fun q => { q with faultFrom := [(1, 0)] })
    ([(Reg.rglStat, 1), (Reg.prtCtl 0, 3), (Reg.rglProf 0, 1), (Reg.rglProf 4, 1), (Reg.rglProf 8, 1), (Reg.rglProf 9, 8032), (Reg.rglProf 10, 13),
      (Reg.rglProf 11, 18032), (Reg.rglProf 12, 13), (Reg.rglProf 13, 0x9800), (Reg.rglProf 14, 0x337F), (Reg.rglProf 15, 1000), (Reg.rglProf 16, 128),
      (Reg.rglProf 17, 3), (Reg.rglProf 25, 40), (Reg.rglProf 26, 40), (Reg.rglProf 27, 0), (Reg.rglProf 28, 0xFFFF), (Reg.rglProf 29, 0xFFFF),
      (Reg.rglProf 30, 1)] : List (Nat × Word))

/-- A request for port 0 at 0 dBm on channel 0. -/
def gr1 : GateReq := { gr0 with streams := [⟨864000000, 0⟩], power := some 0 :: List.replicate 7 none }

/-- What the gate sees of a request. -/
def argsOf (r : GateReq) : GateArgs :=
  { sheaf := r.sheaf, streams := r.streams.map fun x => (x.centre * hz, x.df * hz), wave := r.wave, t5 := r.t5, us := airUs (r.e5 - r.t5),
    tick := r.t5 / 5, power := r.power }

/-- HOSTED with Tiller 0 ON. -/
def tilled : State := (put s0 [(Reg.tilCtl 0, 1), (Reg.tilStat 0, 2)]).updCore 0 fun c => { c with hold := .none, svc := true, resv := .rep 8 1 }

/-- An entry in an outbound queue of a core. -/
def sent (s : State) (k q : Nat) (ws : List Word) : State := s.updCore k fun c => { c with qout := c.qout.put (q - 8) [ws] }

/-- A frame record that ends at `e`. -/
def rec0 (e : Nat) : Rec := {
  words := wordsOf 4 e ++ [0, 0, 0, 0, 1] ++ List.replicate 23 0, hold := none, h := List.replicate 16 0 }

/-- Granules for cores. -/
def granary (s : State) : State := { s with win := { s.win with parts := (0, 64) :: List.replicate 15 (0, 0) } }

/-- `ExternalInterrupts`: claim, repeat, complete, and software pulses. -/
theorem test_external_interrupts : all [
    (let s := put { s0 with int := { s0.int with edge := [128] } } [(Reg.intCfg 128, 0x8021)];
      pendingFor s 33 == [128]),
    pendingFor s0 34 == [],
    (let s := { s0 with int := { s0.int with active := [(143, 33)] } };
      ends (.externalClaim .host 0) s fun t => t.out.read = 0x808F && t.int == s.int),
    [(0 : Nat), 143].all fun n => ends (.externalComplete .host 0 (w16 n)) { s0 with int := { s0.int with active := [(n, 33)] } } fun t => t.int.active == [],
    ends (.externalComplete .host 0 3) s0 fun t => t == rsetBit s0 Reg.intErr 0 true,
    !chEnabled s0 127 && same (.stolonFire .crown 127) s0,
    (let s := put s0 [(Reg.stlSrc 5, 0x8000)];
      chEnabled s 5)] = true := by decide +kernel

/-- `FenceCommits`: a legal set, an illegal one, another key, another level. -/
theorem test_fence_commits : all [
    levelOf s0 .crown = 0 && (firstBad (stagedSet s0)).isNone,
    (let s := put s0 [(Reg.fenAttr 63, 0x8000), (Reg.fenBase 63, 1)];
      firstBad (stagedSet s) == some 63),
    same (.fenceCommit .crown 0xFE4D) s0,
    levelOf s0 .host = 2 && !rbit s0 Reg.fenEvt 0] = true := by decide +kernel

/-- `GateRequests`: a request that passes, one at an unarmed gate, the panel's gains. -/
theorem test_gate_requests : all [
    (gateJudge gated (argsOf gr1)).1.power == some (some 0 :: List.replicate 7 none) && gr1.wf && ends (.gateRequest gr1) gated fun t => match (t.sheaf 0).cmds with
      | [c] => c.t5 = 500000 && c.e5 = 600000 && c.power == some 0 :: List.replicate 7 none && c.streams == [(864000000 * hz, 0)]
      | _ => false,
    (gateJudge gated (argsOf { gr1 with power := some 100 :: List.replicate 7 none })).1.power == some (some (min 40 (portCap gated 0 500000)) :: List.replicate 7 none),
    !rbit s0 Reg.rglStat 0,
    same .panelGainApply s0,
    (let s := { gated with reader := { gated.reader with pend := [(7, []), (9, [1])] } };
      !lnkOn s && ends .panelGainApply s fun t => t.reader.pend == [(9, [1])] && t.time.now = 122887)] = true := by decide +kernel

/-- HOSTED with the link timing unit, sheaf 0 and its gate serving, and profile slot 0 an O-QPSK one. -/
def linked : State := { put gated [(Reg.lnkCtl, 1), (Reg.lnkStat, 2), (Reg.awnPkind 0, 3), (Reg.lnkCh0, 0x9800), (Reg.lnkCh0 + 1, 0x337F)] with lnk := link.lnk }

/-- A request held by the unit. -/
def req0 : Req := {
  id := 7, core := 0, nb := 100000, mode := 1, session := 5, ar := true, prof := 0, attempts := 2, chv := true, chan := 0, gran := 3, pwr := 0,
  slot := { kind := 3, rate := 0, thr := 0, sync := 0, legal := true, fec := 0 }, coded := false, fcst := true, rmode := 0, psdu := List.replicate 20 1 }

/-- A request's eight words: NB, mode and session, attempts, granule, power. -/
def reqWords (w4 : Word) : List Word := [0, 0, 0, 0, w4, 0x0100, 3, 0]

/-- A state whose core 0 has a request queued, with its granules described. -/
def asking (w4 : Word) : State :=
  let s := sent { linked with time := { linked.time with now := 2 } } 0 8 (reqWords w4)
  mem (put (s.updCore 0 fun c => { c with hold := .none, resv := .rep 8 1 }) [(Reg.tilCtl 0, 1), (Reg.tilStat 0, 2)]) [(granAddr 3 + 5, 0x080A)]

/-- `RequestsAndClaims`: a request refused, a claim granted or kept, an acknowledgement missed. -/
theorem test_requests_and_claims : all [
    (let s := asking 0xC005;
      coreOn s 0 && s.lnk.reqs == [] && (let r := reqFrom s 0 (reqWords 0xC005); reqRefusal s r.1 r.2 == some 9) && ends (.txRequest 0) s fun t =>
        t.lnk.reqs == [] && outbound t 0 8 == [] && inbound t 0 1 == [([0, 0, 0, 0, 0, 0, 0, 9], false, 0)]),
    (nextClaim link).isNone && same .claimDecision link,
    (let s := { linked with lnk := { linked.lnk with reqs := [req0] } };
      lnkOn s && (match nextClaim s with
        | some c => c.cls = 2 && c.d = 100000 && reqOf s c.id == some req0 && c.t5 = 536865 &&
          (planNo (prunePlan (reach s c.d) c.d) (sageSelect s 5 c.d 0).1 c.t5 ((2000 * c.t5 + reqTime s req0 + 1999) / 2000) false).isNone
        | none => false)),
    (let s := { linked with lnk := { linked.lnk with reqs := [req0], plan := [⟨0, 536800, 536866⟩] } };
      (match nextClaim s with
        | some c => (match planNo (prunePlan (reach s c.d) c.d) (sageSelect s 5 c.d 0).1 c.t5 ((2000 * c.t5 + reqTime s req0 + 1999) / 2000) false with
          | some .busy => true
          | _ => false)
        | none => false) && ends .claimDecision s fun t => t.time.now = 100000 && t.lnk.reqs == [{ req0 with after := 222880 }] && t.lnk.plan == s.lnk.plan),
    same .expectedAckTimeout s0,
    (let s := { linked with lnk := { linked.lnk with reqs := [{ req0 with made := 1, granted := true }], expected := [⟨7, 0, 10001⟩] } };
      lnkOn s),
    (let s := { linked with lnk := { linked.lnk with reqs := [{ req0 with made := 2, granted := true }], expected := [⟨7, 0, 10001⟩] } };
      ends .expectedAckTimeout s fun t => t.lnk.expected == [] && t.lnk.reqs == [] && rget t Reg.lnkNmiss = 1)] = true := by decide +kernel

/-- `WinnowRecords`: accepted and held, late, released; the horizon. -/
theorem test_winnow_records : all [
    same .recordAccept s0,
    (let s := { put s0 [(Reg.winStat, 2)] with win := { s0.win with inbox := [rec0 10] } };
      winState s = 2 && recKind (rec0 10) = 1 && recEndt (rec0 10) = 10 && s.time.now < 10 + horizon s),
    (let s := { put s0 [(Reg.winStat, 2)] with win := { s0.win with inbox := [rec0 10] }, time := { s0.time with now := 3000000 } };
      winState s = 2 && recEndt (rec0 10) + horizon s + 3 ≤ s.time.now),
    (let s := put s0 [(Reg.winHorat, 99)];
      s.time.now ≤ rgroup s Reg.winHorat 4),
    (let s := put { s0 with time := { s0.time with now := 103 } } [(Reg.winHorat, 99)];
      rgroup s Reg.winHorat 4 + 3 < s.time.now),
    same .horizonApply s0,
    (let s := put { s0 with win := { s0.win with horAt := some (99, 40) } } [(Reg.winHor, 0x9328)];
      s.win.horAt == some (99, 40))] = true := by decide +kernel

/-- `SagePlacement`: reservations, returns, an epoch, a move. -/
theorem test_sage_placement : all [
    same (.granuleReservation 32) s0,
    [(0 : Word), 2046].all fun n => (let s := sent tilled 0 12 [n];
      coreOn s 0 && 0 < (s.core 0).resv.nth 5 0 && ends (.granuleReservation 0) s fun t => inbound t 0 5 == [([0xFFFF, 2], false, 0)] && outbound t 0 12 == [] && only [] s t),
    (let s := sent (granary tilled) 0 12 [2045];
      freeCount s (txPart s 0) = 64 && !s.win.stopped && (freeGranules s (txPart s 0)).length = 64),
    (let s := sent tilled 0 12 [1];
      (reserve s (txPart s 0) ((1 + 4 + 127) / 128) 0).isNone && ends (.granuleReservation 0) s fun t => inbound t 0 5 == [([0xFFFF, 1], false, 0)] && t.holds == [] &&
        t.win.inbox.map recKind == [2]),
    (let s := { sent tilled 0 13 [3, 1] with holds := [{ hold0 with owner := 38 }] };
      holdOf s 3 38 == some { hold0 with owner := 38 } && s.sage.moves == [] && ends (.recordReturn 0) s fun t => outbound t 0 13 == [] && t.holds == [] && only [] s t),
    (let s := sent tilled 0 13 [3, 0];
      ends (.recordReturn 0) s fun t => outbound t 0 13 == [] && rbit t (Reg.tilEvt 0) 2),
    (let s := { s0 with sage := { s0.sage with load := .rep 33 9 } };
      !inCluster s),
    (let s := { tilled with sage := { tilled.sage with moves := [{ session := 5, from_ := 1, dest := 0, carry := 0xFFFF, e := 0, stage := 4 }] } };
      eligible s 0),
    (let s := { tilled with sage := { tilled.sage with moves := [{ session := 5, from_ := 0, dest := 0, carry := 0xFFFF, e := 0, stage := 3 }] } };
      coreOn s 0 && same (.moveComplete 5) s)] = true := by decide +kernel

/-- A session command's 32 words: AT 0, its OP and session 5, and further words. -/
def sesWords (op : Nat) (l : List (Nat × Word)) : List Word :=
  (List.range 32).map fun k => if k = 4 then w16 op else if k = 5 then 5 else ((l.find? fun e => e.1 = k).map Prod.snd).getD 0

/-- A command at L0 from core 0. -/
def ses0 (op : Nat) (l : List (Nat × Word) := []) : SesCmd := ⟨0, 0, sesWords op l, false⟩

/-- Session 5 admitted with extended address 0x77 and a stash entry; session 6 beside it. -/
def seated : State :=
  { mem tilled [(sesAddr 5 0, 0xA000), (sesAddr 5 3, 0x77), (sesAddr 6 0, 0x8001), (sesAddr 5 8, 10), (sesAddr 5 10, 10), (sesAddr 5 13, 0x8000),
      (sesAddr 5 14, 3), (sesAddr 5 15, 4)] with
    ses := { s0.ses with stash := [(⟨1, 0, 0x77⟩, 5)] } }

/-- The state with a command as the next held one. -/
def due (c : SesCmd) : State := { seated with ses := { seated.ses with held := [c] } }

/-- The next command is `c`, and none of the checks refuses it. -/
def next (s : State) (c : SesCmd) : Bool :=
  rxRuns s && s.ses.held == [c] && nextEvent s == some (c.at_, 0) && s.ses.mail.isNone && (List.range 33).all (fun k => outbound s k 9 == []) && sesRefusal s c = 0 && s.ses.gen ≤ 1 && !inCluster s

/-- Words of session 6 are as before. -/
def others (s t : State) : Bool := (List.range 16).all fun w => sesWord t 6 w = sesWord s 6 w

/-- A data frame to every node of a PAN from short address 5, less its FCS; `sec` with a security header of level 1. -/
def body0 (fc : Option Nat) : List Octet :=
  match fc with
  | none => [0x41, 0x98, 1, 0xFF, 0xFF, 0xFF, 0xFF, 5, 0, 0xAA]
  | some v => [0x49, 0x98, 1, 0xFF, 0xFF, 0xFF, 0xFF, 5, 0, 0x01] ++ octetsLE 4 v ++ [0xAA, 0, 0, 0, 0]

/-- A key. -/
def key0 : List Octet := List.replicate 16 7

/-- A frame with a body and an FCS of two octets. -/
def frame0 (b : List Octet) : Frame := {
  id := 9, det := det0, slot := slot0, endt := 5000, good := true, fcst := true, psdu := b ++ fcsOf true b, hold := { hold0 with owner := 36 },
  fm := fm0, lo := 0, div := 4, off := 0, late := false, origin := 0 }

/-- A state with one frame on its way, and a session found for it. -/
def framed (f : Frame) : State := { seated with frames := [f], holds := [f.hold], ses := { seated.ses with stash := [(⟨0, 0xFFFF, 5⟩, 5)] } }

/-- The frame looked up, of session 5 with the policy word `w`. -/
def looked0 (b : List Octet) (w : Word) : Frame := { frame0 b with looked := true, session := 5, snap := w :: List.replicate 7 0, key := key0 }

/-- A frame of level 1 with its MIC of counter 9 or 11. -/
def secured0 (v : Nat) : List Octet := (body0 (some v)).take 15 ++ (if v = 9 then [0xF1, 0xFC, 0x57, 0x1A] else [0xA5, 0xFC, 0xAF, 0x31])

/-- `SessionCommands`: each command at its AT. -/
theorem test_session_commands : all [
    next (due (ses0 2)) (ses0 2),
    (let c := ses0 3 [(6, 0xFFEF), (13, 0xFFFF)];
      next (due c) c && ends .setpol (due c) fun t => sesWord t 5 0 = 0xA8EF && sesWord t 5 7 = 0xFF03 && others seated t),
    (let c := ses0 4 [(14, 0xC000), (15, 7), (16, 8), (17, 9), (27, 3), (28, 4)];
      next (due c) c && ends .setfresh (due c) fun t => sesFresh t 5 = 0x80007 && bit (sesWord t 5 13) 15 && sesWord t 5 8 = 3 && sesWord t 5 9 = 4 && others seated t),
    (let c := ses0 5 [(18, 0xFFFF)];
      next (due c) c && sesNum seated 5 8 2 + 0xFFFF - 1 < 0xFFFFFFFF && ends .fcres (due c) fun t => sesNum t 5 8 2 = 0x10009 &&
        inbound t 0 2 == [([0x50, 5, 10, 0], false, 0)] && others seated t),
    (let c := ses0 7 [(18, 0x0041)];
      let s := { put (due c) [(Reg.keyHgen 1, 1), (Reg.keyHinfo 1, 0xC200)] with key := { s0.key with handles := [⟨1, key0⟩] } };
      next s c && installKey s (c.w 18) == some key0 && ends .keyinstall s fun t => (List.range 8).all (fun j => sesWord t 5 (24 + j) = 0x0707) && bit (sesWord t 5 0) 12),
    (let c := ses0 6 [(18, 0x0041), (19, 0x6161)];
      let s := { put (due c) [(Reg.keyHgen 1, 1), (Reg.keyHinfo 1, 0x8200)] with key := { s0.key with handles := [⟨1, key0 ++ key0⟩] } };
      next s c && (derivedKey s c).isSome),
    (let c := ses0 8;
      next (due c) c && ends .keyclear (mem (due c) [(sesAddr 5 24, 1), (sesAddr 5 31, 1), (sesAddr 5 0, 0xB000)]) fun t => sesWord t 5 24 = 0 && sesWord t 5 31 = 0 &&
        !bit (sesWord t 5 0) 12),
    (let c := ses0 9;
      next (due c) c && ends .clrcnt (due c) fun t => sesWord t 5 14 = 0 && sesWord t 5 15 = 0 && sesWord t 5 13 = 0x8000),
    same .rehashComplete s0,
    (let s := { s0 with ses := { s0.ses with rehash := true, build := some (7, [(⟨1, 0, 0x77⟩, 5)]) } };
      ends .rehashComplete s fun t => !t.ses.rehash && t.ses.gen = 1 && t.ses.seedNo = 7 && t.ses.stash == [(⟨1, 0, 0x77⟩, 5)] && t.ses.build.isNone &&
        rget t Reg.sesRhseq = 1 && rbit t Reg.sesEvt 4),
    (let s := { s0 with ses := { s0.ses with rehash := true } };
      ends .rehashComplete s fun t => !t.ses.rehash && t.ses.gen = 0 && rget t Reg.sesRhseq = 0 && rbit t Reg.sesEvt 5)] = true := by decide +kernel

/-- `FrameJudgements`: a frame that the filter drops, and one whose session is found. -/
theorem test_frame_lookup : all [
    (let b := [0x41, 0x98, 1, 0x34, 0x12, 2, 0, 5, 0, 0xAA];
      let s := framed (frame0 b);
      (match frameHdr (frame0 b) with
        | some h => h.ftype = 1 && !filterPass s h && !s.lnk.promisc
        | none => false)),
    (let f := frame0 (body0 none);
      let s := framed f;
      (match frameHdr f with
        | some h => filterPass s h && (frameLook s h).bind (sesFind s) == some 5
        | none => false) && ends .sessionLookup s fun t => rget t Reg.sesNlook = 1 && t.time.now = lookTick s f && match t.frames with
          | [g] => g.session = 5 && g.looked && g.snap == mgets s (sesAddr 5 0) 8 && g.psdu == f.psdu
          | _ => false)] = true := by decide +kernel

/-- `FrameJudgements`: an unsecured frame recorded, a replay withheld, a new counter accepted, a held frame judged at Th. -/
theorem test_frame_judgement : all [
    (let f := looked0 (body0 none) 0x8001;
      let s := framed f;
      (match frameHdr f with
        | some h => !h.ar && !h.sec && sesValid s 5 && !heldFrame s f
        | none => false) && ends .frameJudgement s fun t => t.frames == [] && rget t Reg.sesNaccept = 1 && t.win.inbox.map recKind == [1] &&
          t.win.inbox.map recEndt == [5000] && t.time.now = judgeTick s f),
    (let f := looked0 (secured0 9) 0x8002;
      let s := framed f;
      (match frameHdr f with
        | some h => h.sec && h.ver = 1 && h.level = 1 && h.fc == some 9 && h.kidm = 0 && (openFrame f h 9).1 && 9 < sesFresh s 5
        | none => false)),
    (let f := looked0 (secured0 11) 0x8002;
      let s := framed f;
      (match frameHdr f with
        | some h => (openFrame f h 11).1 && sesFresh s 5 < 11
        | none => false)),
    (let f := looked0 (body0 none) 0x8001;
      let x := ({ session := 5, peer := 2, e := 0, th := judgeTick s0 f + 1, out := false, key := ⟨1, 0, 0x77⟩, eff := true, arrived := true } : Handover);
      let s := mem { framed f with sage := { s0.sage with hands := [x] } } [(sesAddr 5 0, 0xA001)];
      judgeTick s f < x.th && sesValid s 5 && bit (sesWord s 5 0) 0 && ends (.heldFrameJudgement 5) s fun t => t.frames == [] &&
        t.win.inbox.map recKind == [1] && t.sage.hands == [{ x with done := true }] && t.time.now = x.th)] = true := by decide +kernel

/-- Octets of a key as the words of session 5's key column. -/
def keyed : State := mem seated ((sesAddr 5 0, 0xB000) :: (List.range 8).map fun j => (sesAddr 5 (24 + j), 0x0707))

/-- A descriptor for session 5, data at 0x01000100, result at 0x01000200. -/
def desc0 (op len : Nat) (alen : Nat := 0) : ModesDesc :=
  ⟨0, 0, [w16 op, 5, 0, 0, 0, 0, 0, 0, 0, 0, 0x0100, 0x0100, 0x0200, 0x0100, w16 len, w16 alen]⟩

/-- The modes engine with descriptors waiting; core 0's completion queue has a place reserved. -/
def modes0 (l : List ModesDesc) : State :=
  { keyed.updCore 0 (fun c => { c with resv := c.resv.put 3 1 }) with key := { s0.key with modes := l } }

/-- A cipher engine with a state. -/
def paired (s : State) (k svc : Nat) (fails : List Nat := []) : State := { s with pairs := s.pairs.put k { host := k, svc := svc, fails := fails } }

/-- `CipherEngines`: mismatches, known answers, the modes engine's own check. -/
theorem test_engine_checks : all [
    [(0 : Fin 5), 4].all fun k => (pairOf s0 k).svc = 0,
    [1, 2].all fun v => same (.aesMismatch 4) (paired s0 4 v) && same .modesSelfCheckFail (paired s0 5 v),
    [(0 : Fin 6), 5].all fun e => [0, 2].all fun v => [true, false].all fun p => same (.knownAnswerTest e p) (paired s0 e v),
    [(0 : Fin 6), 4, 5].all fun e => ends (.knownAnswerTest e false) (paired s0 e 1) fun t => (pairOf t e).svc = 2 && t.flt.seq = 1 &&
      rget t Reg.fltNkat = 1 && rbit t Reg.fltEvt 1,
    [(0 : Fin 6), 4].all fun e => ends (.knownAnswerTest e true) (put (paired s0 e 1 [5]) [(Reg.fltAesmax, 2)]) fun t => (pairOf t e).svc = 0 && t.flt.seq = 1 &&
      rget t Reg.fltNkat = 1,
    ends (.knownAnswerTest 5 true) (paired s0 5 1 [1, 2, 3, 4, 5]) fun t => (pairOf t 5).svc = 0 && t.flt.seq = 1 && rget t Reg.fltNkat = 1,
    ends .modesSelfCheckFail s0 fun t => (pairOf t 5).svc = 1 && rbit t Reg.aesEvt 10 && t.key == s0.key,
    (let s := modes0 [desc0 1 15];
      (desc0 1 15).bad && ends .modesSelfCheckFail s fun t => (pairOf t 5).svc = 1 && t.key.modes == [] && inbound t 0 3 == [([5, 0, 0, 0], false, 0)]),
    (let s := modes0 [desc0 1 0];
      let u := modesNext (evt s Reg.aesEvt 10);
      let r := engineReads 36 0 0 0x01000100 0 (loadKey u 5 key0);
      ModesDesc.key u (desc0 1 0) == some key0 && r.1 == [] && r.2.1 && !r.2.2.1 && ends .modesSelfCheckFail s fun t => inbound t 0 3 == [([5, 0, 0, 0], false, 0)]),
    (let s := paired (modes0 [desc0 1 15]) 5 2;
      ends .cbcEnc s fun t => t.key.modes == [] && inbound t 0 3 == [([5, 0, 0, 0], false, 0)])] = true := by decide +kernel

/-- `CipherEngines`: descriptors that wait, are refused and are carried out. -/
theorem test_modes_engine : all [
    [Instr.cbcEnc, .cbcDec, .ctr, .cfbEnc, .cfbDec, .ccmEnc, .ccmDec].all fun c => same c s0 && same c (paired (modes0 [desc0 1 0]) 5 1),
    same .cbcEnc (modes0 [desc0 7 0]) && same .ccmDec (modes0 [desc0 1 0]),
    (let d := desc0 1 15;
      let s := modes0 [d];
      !d.unlisted && d.bad && ends .cbcEnc s fun t => t == modesEnd (modesNext s) d 4 && t.key.modes == [] && inbound t 0 3 == [([4, 0, 0, 0], false, 0)]),
    (let d := desc0 3 16;
      let s := mset (modes0 [d]) (sesAddr 5 0) 0xA000;
      !d.bad && (ModesDesc.key (modesNext s) d).isNone && ends .ctr s fun t => t == modesEnd (modesNext s) d 2 && inbound t 0 3 == [([2, 0, 0, 0], false, 0)]),
    [(Instr.cbcEnc, 1), (.cbcDec, 2), (.ctr, 3), (.cfbEnc, 4), (.cfbDec, 5)].all fun e => (let d := desc0 e.2 0;
      let s := modes0 [d];
      let r := engineReads 36 d.core d.level d.src 0 (modesNext s);
      !d.bad && ModesDesc.key (modesNext s) d == some key0 && r.1 == [] && r.2.1 && !r.2.2.1 && (pairOf r.2.2.2 5).svc = 0 && !ModesDesc.keyBad r.2.2.2 d &&
        ends e.1 s fun t => t.key.modes == [] && inbound t 0 3 == [([0, 0, 0, 0], false, 0)])] = true := by decide +kernel

/-- `KeyTree`: derivations and frees. -/
theorem test_key_tree : all [
    (let s := s0.updCore 32 fun c => { c with sr := 0 };
      [(Initiator.crown, (0x4B44 : Word)), (.host, 0x4B44), (.tag, 0x4B44), (.debug, 0)].all fun e => levelOf s e.1 ≠ 0 && same (.derivation e.1 e.2) s),
    (let s := s0.updCore 32 fun c => { c with sr := 0x8000 };
      same (.derivation .crown 0x4B45) s && levelOf s .crown = 0 && (handleSlot (put s [(Reg.keyDparent, 65)]) 65).isNone &&
        ends (.derivation .crown 0x4B44) (put s [(Reg.keyDparent, 65)]) fun t => rget t Reg.keyDres = 2 && t.key == s.key && rbit t Reg.keyEvt 0 &&
          only [Reg.keyDres, Reg.keyEvt, Reg.keyDparent] s t),
    (let s := put (s0.updCore 32 fun c => { c with sr := 0x8000 }) [(Reg.keyDuse, 1)];
      handleSlot s (rget s Reg.keyDparent) == some 0 && !bit (rget s (Reg.keyHinfo 0)) 14 && field (rget s (Reg.keyHinfo 0)) 13 11 = 0 &&
        1 &&& field (rget s (Reg.keyHinfo 0)) 9 4 = 1 && freeSlot s == some 1),
    (let s := put { s0.updCore 32 (fun c => { c with sr := 0x8000 }) with key := { s0.key with handles := [⟨63, key0 ++ key0⟩] } } [(Reg.keyHgen 63, 1023), (Reg.keyHinfo 63, 0x9BF0), (Reg.keyDparent, 0xFFFF), (Reg.keyDuse, 0x3F)];
      handleSlot s 0xFFFF == some 63 && field (rget s (Reg.keyHinfo 63)) 13 11 = 3 && freeSlot s == some 1),
    (let s := put (s0.updCore 32 fun c => { c with sr := 0x8000 }) [(Reg.keyHgen 5, 1), (Reg.keyHinfo 5, 0xC000), (Reg.keyDparent, 69)];
      handleSlot s 69 == some 5),
    same (.handleFree .crown 64) s0 && same (.handleFree .crown 0) (s0.updCore 32 fun c => { c with sr := 0x8000 }) &&
      same (.handleFree .crown 65) (s0.updCore 32 fun c => { c with sr := 0x8000 }),
    (let s := put { s0.updCore 32 (fun c => { c with sr := 0x8000 }) with key := { s0.key with handles := [⟨63, key0⟩] } } [(Reg.keyHgen 63, 1023), (Reg.keyHinfo 63, 0xC000)];
      handleSlot s 0xFFFF == some 63 && ends (.handleFree .crown 0xFFFF) s fun t => rget t (Reg.keyHinfo 63) = 0 && (handleSlot t 0xFFFF).isNone &&
        t.key.handles == [] && only [Reg.keyHinfo 63] s t)] = true := by decide +kernel

/-- The base point of P-256 as a public key: the key of the private key 1. -/
def pub1 : List Octet := octetsBE 32 ecG.x ++ octetsBE 32 ecG.y

/-- An OWNERLOCK message for device 0 with CTR 1 and value `v`, signed by `pub1` where `v` is 0. -/
def lockMsg (v : Octet) : List Octet :=
  [0x51, 0x42, 0x55, 0x4D, 0x01, 3, 4, 0, 0, 0, 0, 0, 0, 0, 0, 0, 1, 0, 0, 0, 0, 0, 0, 0, v, 0, 0, 0] ++
    octetsBE 64 3850342549767465002419193506014684954005717340568630062280908802482414677720344207066063896698709342178501651981121897548658375619234934396135108903978883

/-- The message in memory at 0x01000100, pointed to by the KEY registers, and an owner key. -/
def posted (m : List Octet) : State :=
  let s := put s0 [(Reg.keyMsgaddr, 0x0100), (Reg.keyMsgaddr + 1, 0x0100), (Reg.keyMsglen, w16 m.length)]
  mem { s with fuses := { s.fuses with owner := pub1 } } ((packOctets m).zipIdx.map fun e => (0x01000100 + e.2, e.1))

/-- The message has passed and takes effect at the completion. -/
def judged (m : List Octet) : State := { posted m with key := { s0.key with msg := some ⟨0x01000100, m.length, 32, 0, some m⟩ } }

/-- The words that the message's engine reads for an initiator. -/
def read37 (s : State) (i : Initiator) : List Word × Bool × Bool × State :=
  let j : MsgJob := { addr := rlong s Reg.keyMsgaddr, len := (rget s Reg.keyMsglen).toNat, init := initIndex i, level := levelOf s i }
  engineReads 37 j.init j.level j.addr ((j.len + 1) / 2) { s with key := { s.key with msg := some j } }

/-- `MessagesAndStatements`: a level that may not, a key tree that is busy, a message that passes and one that does not. -/
theorem test_message_go : all [
    [Instr.sesskey .tag 0x4D53, .ownerkey (.tiller 0) 0x4D53, .ownerlock .tag 0x4D53, .profile (.tiller 31) 0x4D53].all fun c => ends c s0 fun t =>
      rfld t (Reg.keyMsgres 0) 3 0 = 1 && rbit t Reg.keyEvt 1 && t.key.msg.isNone && t.fuses == s0.fuses,
    [Instr.sesskey .crown 0x4D53, .ownerkey .host 0x4D53, .ownerlock .debug 0x4D53, .profile .mgmt 0x4D53].all fun c => same c (judged (lockMsg 0)),
    (let s := posted (lockMsg 0);
      let r := read37 s .crown;
      rlong s Reg.keyMsgaddr = 0x01000100 && modeOf s = 2 && r.2.1 && !r.2.2.1 && msgJudge r.2.2.2 ((unpackOctets r.1).take 92) 92 = 0),
    (let s := posted (lockMsg 0 ++ [0, 0]);
      let r := read37 s .crown;
      r.2.1 && !r.2.2.1 && msgJudge r.2.2.2 ((unpackOctets r.1).take 94) 94 = 4),
    same .messageComplete s0,
    (let s := judged ([0x51, 0x42, 0x55, 0x4D, 0x01, 2, 64, 0, 0, 0, 0, 0, 0, 0, 0, 0, 0xFF, 3, 0, 0, 0, 0, 0, 0] ++ pub1 ++ List.replicate 64 0);
      ends .messageComplete { s with fuses := { s.fuses with owner := [] } } fun t => t.key.msg.isNone && t.fuses.msg = 1023 && rget t Reg.keyCtrmsg = 1023 &&
        rget t (Reg.keyMsgres 0) = 0x0200 && t.fuses.owner == pub1),
    [((0 : Nat), (1 : Octet)), (63, 0)].all fun e => (let s := judged (lockMsg e.2);
      let s := { s with fuses := { s.fuses with lock := e.1 } };
      ends .messageComplete s fun t => rget t (Reg.keyMsgres 0) = 0x0300 && (ownerLocked t == decide (e.2 = 1))),
    (let s := judged ([0x51, 0x42, 0x55, 0x4D, 0x01, 4, 0x94, 1, 0, 0, 0, 0, 0, 0, 0, 0, 1, 0, 0, 0, 0, 0, 0, 0] ++ List.replicate 404 3 ++ List.replicate 64 0);
      emptySlot s == some 1),
    (let s := judged ([0x51, 0x42, 0x55, 0x4D, 0x01, 1] ++ List.replicate 10 0 ++ [9] ++ List.replicate 60 0);
      let s := put s ((List.range 64).map fun k => (Reg.keyHinfo k, 0x8000));
      (freeSlot s).isNone && ends .messageComplete s fun t => t.key.msg.isNone && t.fuses.msg = 9 && rget t (Reg.keyMsgres 0) = 0x10A)] = true := by decide +kernel

/-- `MessagesAndStatements`: statements. -/
theorem test_attestation : all [
    same (.attestationRequest .crown 0x4155) s0,
    (let s := put s0 [(Reg.keyAttaddr, 0xFFFF)];
      [Initiator.crown, .tiller 3, .host, .debug].all fun i => levelOf s i ≤ 2 && s.key.att.isNone && modeOf s ≠ 0),
    (let s := { s0 with key := { s0.key with att := some ⟨[], 0, 32, 0⟩ } };
      same (.attestationRequest .tag 0x4154) s && same (.attestationRequest .crown 0x4154) s),
    levelOf s0 .tag = 3 && ends (.attestationRequest .tag 0x4154) s0 fun t => rget t Reg.keyAttres = 1 && t.key == s0.key] = true := by decide +kernel

/-- Core `k` works, at PC 0 of its local memory or its alias, with a bundle there and further words of local memory. -/
def cored (k : Nat) (ws : List Word) (l : List (Nat × Word) := []) : State :=
  let s := if k < 32 then put s0 [(Reg.tilCtl k, 1), (Reg.tilStat k, 2)] else s0
  (ws.zipIdx.map (fun e => (e.2, e.1)) ++ l).foldl (fun s e => localSet s k e.1 e.2) (s.updCore k fun c => { c with hold := .none, tvec := 0x40 })

/-- The bundle at core `k` is `ws`, and it can be fetched. -/
def fetches (s : State) (k : Nat) (ws : List Word) : Bool :=
  coreOn s k && (s.core k).hold = .none && (s.core k).pc.toNat % 2 = 0 && isLocal (s.core k).pc.toNat &&
    match fetchBundle s k (s.core k).pc.toNat with
    | .inr x => x == ws
    | .inl _ => false

/-- Nothing bars or holds the bundle. -/
def unhindered (s : State) (k : Nat) (ws : List Word) : Bool :=
  bundleLegal (sylsOf ws) && !(sylsOf ws).any (illegal s k) && runTrap s k (insAt s k ws) [] == (none, s) && (fabricLoads (s.core k) (insAt s k ws)).isEmpty &&
    (firstTrap (stallsOn s k) (insAt s k ws)).isNone && (firstTrap (popBars s k) (insAt s k ws)).isNone &&
    !(insAt s k ws).any fun i => decide ((i.m = .qpop ∨ i.m = .qtry) ∧ oQn i.o = 0)

/-- The bundle is the one syllable `y` of instruction `m`. -/
def one (s : State) (k : Nat) (y : Syl) (m : Mnem) : Bool :=
  fetches s k [y.w0, y.w1] && y.stop && !y.isExt && y.mnem == some m && legalFields m y.o && (s.core k).runs y

/-- Registers of the core's instructions other than `w` are as before. -/
def sameBanks (c d : CoreSt) : Bool := c.p == d.p && c.x == d.x && c.a == d.a && c.sr == d.sr && c.qin == d.qin && c.qout == d.qout

/-- The Tiller took a trap. -/
def trapped (s t : State) (n : Nat) (cause : Word) : Bool :=
  let c := s.core n
  let d := t.core n
  d.tpc == evenAddr c.pc.toNat && d.tsr == c.sr && d.tcause == cause && d.sr == setBit c.sr 11 true && d.pc == c.tvec && d.w == c.w &&
    d.p == c.p && d.x == c.x && d.a == c.a && rget t (Reg.tilTrap n) == w16 (0x8000 + cause.toNat % 256) && onlyIn [0x1019] s t

/-- `Bundles`: what commits, and what each kind of syllable leaves. -/
theorem test_bundles : all [
    [0, 31, 32].all fun k => (let ws := [(0x0008 : Word), 0x8422, 0x2100, 0x0C22, 0xE000, 0];
      let s := cored k ws;
      fetches s k ws && unhindered s k ws),
    same (.bundle 0 []) s0 && same (.bundle 32 []) s0 && same (.bundle 0 []) ((cored 0 [0xE000, 0]).updCore 0 fun c => { c with hold := .fabric }),
    [(0 : Word), 1, 6, 9, 15].all fun fn => [0, 31].all fun d => (let o := fn.toNat * 0x8000 + d * 1024 + 31 * 32 + 2;
      let y : Syl := ⟨w16 (0x8008 + o / 65536), w16 o⟩
      let s := (cored 3 [y.w0, y.w1]).updCore 3 fun c => { c with w := (c.w.put 31 0x8001).put 2 0x0007 };
      let m := mnemArith.getD fn.toNat .nop;
      one s 3 y m),
    [(Mnem.mull, 0), (.mulhs, 1), (.mulhu, 2), (.mulq, 3)].all fun e => (let o := e.2 * 0x8000 + 5 * 1024 + 31 * 32 + 2;
      let y : Syl := ⟨w16 (0xA100 + o / 65536), w16 o⟩
      let s := (cored 32 [y.w0, y.w1]).updCore 32 fun c => { c with w := (c.w.put 31 0x8001).put 2 0x8007 };
      one s 32 y e.1),
    (let y : Syl := ⟨0x9C08, 0x8422⟩
      let s := cored 0 [y.w0, y.w1];
      fetches s 0 [y.w0, y.w1] && y.stop && !y.isExt && !illegal s 0 y && !(s.core 0).runs y),
    [(0 : Nat), 0x1FF].all fun im => (let y : Syl := ⟨0xC010 + 1, w16 (0x4000 + 3 * 2048 + im)⟩
      let s := (cored 5 [y.w0, y.w1]).updCore 5 fun c => { c with w := c.w.put 5 0xBEEF, x := c.x.put 3 0x8000 };
      one s 5 y .st && oAm y.o = 0 && oDi y.o = 5),
    [(0 : Nat), 5].all fun d => (let y : Syl := ⟨w16 (0xC008 + d / 4), w16 (d * 0x4000 + 3 * 2048)⟩
      let s := (cored 31 [y.w0, y.w1] [(0xFFFF, 0xBEEF)]).updCore 31 fun c => { c with x := c.x.put 3 0xFFFF };
      one s 31 y .ld && oAm y.o = 0 && oDi y.o = d && !badLocal s 31 0xFFFF),
    [(0x0003, (6 : DWord)), (0x0000, 0), (0xFFFF, 0x1FFFE)].all fun e => (let y : Syl := ⟨0xE008, e.1⟩
      let s := cored 32 [y.w0, y.w1];
      one s 32 y .br),
    ends (.bundle 32 []) (cored 32 [0xE00F, 0xFFFF]) fun t => (t.core 32).pc == 0xFFFFFFFE] = true := by decide +kernel

/-- `Bundles`: an illegal bundle, an illegal syllable, `TRAP`, and the ends of a hold. -/
theorem test_bundle_traps : all [
    [[(0x0008 : Word), 0, 0x8008, 0], [0x0000, 0, 0x4000, 0, 0x6000, 0, 0x4000, 0]].all fun ws => (let s := cored 0 ws;
      fetches s 0 ws && !bundleLegal (sylsOf ws) && (s.core 0).tvec ≠ 0 && !bit (s.core 0).sr 11),
    [[(0x81F0 : Word), 0], [0x8000, 1], [0xE090, 0]].all fun ws => (let s := cored 31 ws;
      fetches s 31 ws && bundleLegal (sylsOf ws) && (sylsOf ws).any (illegal s 31)),
    [(0 : Word), 255].all fun v => (let y : Syl := ⟨0xE0B0, v⟩
      let s := cored 0 [y.w0, y.w1];
      one s 0 y .trap),
    same (.queueStallEnd 0) (cored 0 []) && same (.fabricLoadReturn 32) (cored 32 []) && same .debugResume s0,
    (let ws : List Word := [0xE040, 0x8000]
      let s := (cored 0 ws).updCore 0 fun c => { c with hold := .queue 1, bundle := ws };
      let is := insAt s 0 ws;
      is.map Ins.m == [Mnem.qpop] && (firstTrap (stallsOn s 0) is).isSome && same (.queueStallEnd 0) s),
    (let ws : List Word := [0xE040, 0x8000]
      let s := (cored 0 ws).updCore 0 fun c => { c with hold := .queue 1, bundle := ws, qin := c.qin.put 1 [(List.replicate 8 7, false, 0)] };
      let is := insAt s 0 ws;
      (firstTrap (stallsOn s 0) is).isNone && (fabricLoads (s.core 0) is).isEmpty && (firstTrap (popBars s 0) is).isNone),
    (let ws : List Word := [0x4008, 0x5800, 0xE040, 0x8000]
      let s := (cored 0 ws).updCore 0 fun c => { c with hold := .queue 1, bundle := ws, x := c.x.put 3 0x01000000, qin := c.qin.put 1 [(List.replicate 8 7, false, 0)] };
      let is := insAt s 0 ws;
      (firstTrap (stallsOn s 0) is).isNone && fabricLoads (s.core 0) is == [0x01000000] && ends (.queueStallEnd 0) s fun t => (t.core 0).hold == .fabric && (t.core 0).pc == 0),
    (let ws : List Word := [0xC008, 0x5800]
      let s := mset ((cored 0 ws).updCore 0 fun c => { c with hold := .fabric, bundle := ws, x := c.x.put 3 0x01000000 }) 0x01000000 9;
      let is := insAt s 0 ws;
      (firstTrap (poisonBars s 0) (fabricLoads (s.core 0) is)).isNone && (firstTrap (popBars s 0) is).isNone),
    (let ws : List Word := [0xC008, 0x5800]
      let s := mset ((cored 0 ws).updCore 0 fun c => { c with hold := .fabric, bundle := ws, x := c.x.put 3 0x01000000 }) 0x01000000 9;
      let s := put s [(Reg.tilStat 0, 3)];
      !coreOn s 0 && rfld s (Reg.tilStat 0) 1 0 = 3 && ends (.fabricLoadReturn 0) s fun t => (t.core 0).hold == .stopped),
    ends .debugResume ((s0.updCore 32 fun c => { c with hold := .halted, pc := 6 }).updCore 0 fun c => { c with hold := .halted }) fun t =>
      (t.core 32).hold == .none && (t.core 32).pc == 6 && (t.core 0).hold == .none] = true := by decide +kernel

/-- Core `k` works, with source 130 enabled for it and pending; `w` adds its class, and status `sr`. -/
def called (k : Nat) (w sr : Word) : State :=
  let s := put (cored k []) [(Reg.intCfg 130, 0x8000 ||| w ||| w16 k)]
  { s.updCore k (fun c => { c with sr := sr, pc := 6, ivecn := 0x100, ivecf := 0x200, sivecn := 0x300, sivecf := 0x400 }) with int := { s.int with edge := [130] } }

/-- `DeterministicInterrupts`: deterministic mode. -/
theorem test_det_queue : all [
    [(0 : Fin 33), 31, 32].all fun k => (let s := called k 0 0x1080;
      coreOn s k && detNow s k),
    [(0 : Fin 32), 31].all fun n => (let s := called n 0 0x1080;
      (s.core n).tvec ≠ 0 && !bit (s.core n).sr 11 && trapDetq.cause = 0x10),
    same (.interruptEntry 0) (called 0 0 0x1180) && same (.interruptEntry 32) (called 32 0x6000 0x1180),
    [0, 32].all fun k => (let s := called k 0 0x1000;
      [0x10020, 0x10022].all (fun a => detLoad s k accRead a == some trapDetq) && [0x10021, 0x10023].all fun a => detStore s k a == some trapDetq)] = true := by decide +kernel

/-- `DeterministicInterrupts`: entries, claims, completions and stalls. -/
theorem test_interrupt_entry : all [
    (nextInterrupt (called 0 0 0) 0).isNone && same (.interruptEntry 0) (called 0 0 0) && same (.interruptEntry 0) (called 0 0 0x0280),
    [CoreHold.none, .wait, .queue 7].all fun h => (let s := (called 31 0 0x0180).updCore 31 fun c => { c with hold := h };
      coreOn s 31 && nextInterrupt s 31 == some (false, false)),
    (let s := called 0 0x2000 0x0380;
      nextInterrupt s 0 == some (true, false)),
    (let s := called 32 0x4000 0x0080;
      nextInterrupt s 32 == some (false, true)),
    (let s := called 32 0x6000 0x8180;
      nextInterrupt s 32 == some (true, true)),
    (let s := put ((called 31 0 0).updCore 31 fun c => { c with hold := .queue 7, stallAt := 10 }) [(Reg.tilStallmax, 1)];
      coreOn s 31),
    (let s := put ((called 32 0 0).updCore 32 fun c => { c with hold := .queue 0 }) [(Reg.tilStallmax, 0xFFFF)];
      coreOn s 32 && ends (.stallTimeout 32) s fun t => rbit t Reg.tilCstat 2 && t.cores == s.cores && only [Reg.tilCstat] s t),
    same (.stallTimeout 0) ((called 0 0 0).updCore 0 fun c => { c with hold := .queue 7 }) && same (.stallTimeout 32) (put (called 32 0 0) [(Reg.tilStallmax, 1)]),
    [(false, (0 : Word)), (true, 0x2000)].all fun e => (let s := called 31 e.2 0;
      activeClass s 31 e.1 == none && selectFor s 31 e.1 false == some 130 && activeClass s 31 (!e.1) == none && selectFor s 31 (!e.1) false == none &&
        ends (.interruptClaim 31 e.1) s (fun t => t.out.read == 130 && t.int.active == [(130, 31)] && t.int.edge == []) &&
        ends (.interruptClaim 31 (!e.1)) s (fun t => t.out.read == 0xFFFF && t.int == s.int && only [] s t) &&
        ends (.interruptComplete 31 e.1 130) s fun t => rbit t Reg.intErr 0 && t.int == s.int && only [Reg.intErr] s t),
    (let s := { called 32 0x4000 0x8000 with int := { s0.int with active := [(130, 32)] } };
      activeClass s 32 false == some 130)] = true := by decide +kernel

/-- A ring of chips 5, 9 and this chip, number 0, which Useth port 0 reaches. -/
def ringed : State := put s0 [(Reg.uslCtl, 1), (Reg.uslnStat 0, 0x00F6)]

/-- A census in clockwise order. -/
def census0 : List CensusChip := [⟨5, 2, 0, 0⟩, ⟨0, 2, 0, 0⟩, ⟨9, 4, 0, 0⟩]

/-- A formed cluster of chips 0 (this one, position 0), 9 and 5. -/
def clustered : State := { put ringed [(Reg.uslStat, 0xC002), (Reg.uslLmact, 100)] with usl := { s0.usl with chips := [(0, true), (9, true), (5, true)] } }

/-- A summary of chip 9. -/
def sum0 : Summary := {
  src := 9, sheaf := 0, synct := 1000, subt := 0, prof := 0, beam := 0, chan := 0, coded := false, freq := 864000000, snr := 40, endt := 5000, len := 20,
  first := 0, count := 512, addr := 0, arrive := 5100 }

/-- A spikelet with its header decided and an announced contribution of chip 9. -/
def joined : Spikelet := {
  spike5 with header := some (.sunFsk 20 true true), len := 20, endt := 5000, ann := [{ chip := 9, synct := 1000, snr := 40, first := 0, count := 4 }], lam := [1, 2] }

/-- A directory frame. -/
def dir0 : DirFrame := { src := 9, owner := 5, mode := 1, pan := 0, addr := 0x77, remove := false, at_ := 4096 }

/-- A handover given or received, of session 5 with chip 9, at tick 8192. -/
def hand0 (out : Bool) : Handover := { session := if out then 5 else 0, peer := 9, e := 8192, out := out, key := ⟨1, 0, 0x77⟩ }

/-- The cluster with session 5, a key for its handovers, and one handover. -/
def handing (h : Handover) : State :=
  let s := put clustered [(Reg.uslCkey, 0x0041), (Reg.keyHgen 1, 1), (Reg.keyHinfo 1, 0xC000), (Reg.sagStat, 0x8000)]
  mem { s with sage := { s.sage with hands := [h] }, key := { s.key with handles := [⟨1, key0⟩] } } [(sesAddr 5 0, 0xA000), (sesAddr 5 3, 0x77)]

/-- `ClusterCommands`: formation and timing messages. -/
theorem test_formation : all [
    same (.clusterFormation census0 true) s0 && same (.clusterFormation census0 true) (put s0 [(Reg.uslCtl, 1)]),
    duplicates ((ringFrom (⟨0, 1, 0, 0⟩ :: census0)).map CensusChip.chip),
    rbit ringed Reg.uslCtl 0 && anyPortOn ringed && !duplicates ((ringFrom census0).map CensusChip.chip) &&
      ((ringFrom census0).findIdx? fun c => c.chip = chipNum ringed) == some 0 && (ringFrom census0).findIdx? censusDecodes == some 0,
    (let s := { ringed with fuses := { s0.fuses with chipnum := 16 } };
      let l := (List.range 16).map fun k => (⟨k + 1, 1, 0, 0⟩ : CensusChip);
      ((ringFrom l).findIdx? fun c => c.chip = chipNum s) == some 15),
    same (.timingMessage 5 5 5) s0,
    [(56 : Int), -56].all fun v => ends (.timingMessage v 7 7) clustered fun t => rget t Reg.uslToff = i16 v && rbit t Reg.uslStat 13 && t.time == s0.time &&
      only [Reg.uslToff, Reg.uslStat] clustered t,
    [(57 : Int), -57].all fun v => ends (.timingMessage v 7 7) (put clustered [(Reg.tbsCtl, 3)]) fun t => !rbit t Reg.uslStat 13 && t.time == s0.time,
    [((5000001 : Int), (5000000 : Int)), (-5000000, -5000000)].all fun e => (let s := put clustered [(Reg.tbsCtl, 3), (Reg.uslStat, 0xC102)];
      !isDefault s && ends (.timingMessage 0 e.1 0) s fun t => t.time.rate = e.2 && t.time.stepAt == none)] = true := by decide +kernel

/-- `ClusterCommands`: resends, lane faults and retraining. -/
theorem test_lanes : all [
    same (.usethResend 1 true) clustered && (ends (.usethResend 0 true) clustered fun t => rget t (Reg.uslnNcrc 0) = 1) &&
      ends (.usethResend 0 false) clustered fun t => rget t (Reg.uslnNretry 0) = 1 && rget t (Reg.uslnNcrc 0) = 0,
    same (.usethLaneFault 1 0) clustered && same (.usethLaneFault 0 3) (put clustered [(Reg.uslnStat 0, 0x0076)]),
    ends (.usethLaneFault 0 3) clustered fun t => !rbit t (Reg.uslnStat 0) 7 && !rbit t (Reg.uslnStat 0) 2 && t.flt.seq = 1 && !inCluster t && t.usl.chips == [] && rbit t Reg.uslEvt 1,
    (let s := { put clustered [(Reg.uslnStat 1, 0x00F6)] with usl := { clustered.usl with faults := [(0, 0, 0), (0, 0, 0)] }, time := { s0.time with now := 1228799999 } };
      (s.usl.faults.filter fun f => decide (f.1 = 0 ∧ f.2.1 = 0 ∧ s.time.now < f.2.2 + 1228800000)).length = 2 && otherUp s 0),
    same (.usethRetrainComplete 1) clustered && same (.usethRetrainComplete 0) clustered && same (.usethRetrainComplete 0) (put clustered [(Reg.uslnStat 0, 0x00F2)]),
    (let s := { put clustered [(Reg.uslnStat 0, 0x0072)] with usl := { clustered.usl with faults := [(0, 3, 0)], laneOff := [(0, 0)], trained := clustered.usl.trained.put 0 15 } };
      lastFault s 0 == some 3)] = true := by decide +kernel

/-- `ClusterCommands`: summaries, SOFT frames, the merge bound. -/
theorem test_contributions : all [
    same (.summaryReceive sum0) s0 && same (.summaryReceive { sum0 with src := 0 }) clustered && same (.summaryReceive { sum0 with src := 7 }) clustered &&
      same (.summaryReceive sum0) (put clustered [(Reg.sysMode, 4)]),
    ends (.summaryReceive { sum0 with arrive := 5101 }) clustered fun t => t.spks == [] && rget t Reg.uslNlatesum = 1 && rbit t Reg.uslEvt 4 && t.win.inbox.map recKind == [2] &&
      only [Reg.uslNlatesum, Reg.uslEvt] clustered t,
    ends (.summaryReceive { sum0 with count := 0 }) clustered fun t => t == reach clustered 5100,
    (let s := put clustered [(Reg.spkCap 0, 1), (Reg.spkRes 0, 1)];
      mayAllocate s 0 && ends (.summaryReceive sum0) s fun t => (match t.spks with
        | [x] => !x.own && x.endt = 5000 && x.len = 20 && x.origin = 9 && x.det.synct = 1000
        | _ => false) && only [Reg.spkNalloc, Reg.spkPeak] s t),
    same (.softReceive ⟨9, 1000, 0, 0, [1]⟩) (spiked spike5) && same (.softReceive ⟨9, 1000, 0, 0, [1]⟩) (spiked { joined with bound := true }),
    ends (.softReceive ⟨9, 1000, 0, 1, [5, 6, 7]⟩) (spiked joined) fun t => match t.spks with
      | [y] => y.lam == [1, 7, 6, 7] && y.ann.map Ann.got == [3] && y.header == joined.header
      | _ => false,
    (let s := { clustered with usl := { clustered.usl with sums := [sum0] } };
      (s.spks.find? (softFor ⟨9, 1000, 0, 0, [1]⟩)).isNone && ends (.softReceive ⟨9, 1000, 0, 0, [1]⟩) s fun t => t.usl.softs == [⟨9, 1000, 0, 0, [1]⟩]),
    same (.mergeBound 5) (spiked joined) && same (.mergeBound 5) { clustered with spks := [{ joined with bound := true }] } && same (.mergeBound 5) { clustered with spks := [spike5] },
    ends (.mergeBound 5) { clustered with spks := [joined] } fun t => t.time.now = 5100 && t.spks == [{ joined with bound := true }] && rget t Reg.uslNcontrib = 1 && rbit t Reg.uslEvt 3,
    ends (.mergeBound 5) { clustered with spks := [{ joined with ann := [] }] } fun t => t.time.now = 5100 && t.regs == clustered.regs] = true := by decide +kernel

/-- `ClusterCommands`: directory frames and handovers. -/
theorem test_handovers : all [
    same (.dirReceive dir0) s0 && same (.dirReceive dir0) (put clustered [(Reg.sysMode, 4)]) && same .handoverEffect clustered && same (.handSend 5) clustered,
    [dir0, { dir0 with remove := true, owner := 0 }].all fun f => f.remove || f.owner ≠ chipNum clustered,
    [dir0, { dir0 with remove := true }].all fun f => inCluster clustered && decodes clustered,
    (let h := hand0 true;
      let s := handing h;
      s.sage.waiting == [] && s.win.released == [] && s.sage.markers == [] && s.sage.places == [] && s.sage.moves == [] && s.sage.dirPend == [] &&
        ends .handoverEffect s fun t => t.sage.hands == [{ h with eff := true }] && rget t Reg.sagNhout = 1 && !rbit t Reg.sagStat 15 && rbit t Reg.sagEvt 0 &&
          t.time.now = 8192 && only [Reg.sagNhout, Reg.sagStat, Reg.sagEvt] s t),
    (let h := hand0 false;
      let s := mem (handing h) [(sesAddr 5 0, 0)];
      s.sage.markers == [] && freeIndex s == some 1 && s.ses.gen = 0),
    (let h := { hand0 true with eff := true };
      let s := { handing h with spks := [{ spike5 with det := { det0 with synct := 8191 } }] };
      clusterKey s == some key0 && !oldFramesDone s h.e && same (.handSend 5) s),
    (let h := { hand0 true with eff := true };
      let s := { handing h with spks := [{ spike5 with det := { det0 with synct := 8192 } }] };
      clusterKey s == some key0 && oldFramesDone s h.e && posOf s 9 == some 1),
    (let s := mem (put (handing (hand0 false)) [(Reg.sysMode, 4)]) [(sesAddr 5 0, 0)];
      !decodes s && ends .handoverEffect s fun t => t.mem == s.mem && t.sage.hands == [{ hand0 false with eff := true, done := true }] && t.time.now = 8192),
    same (.handReceive ⟨9, 5000, []⟩) (handing (hand0 false))] = true := by decide +kernel

/-- Both lanes ON with link, core 0 for received frames. -/
def laned : State := put (granary tilled) [(Reg.ethnStat 0, 6), (Reg.ethnStat 1, 6), (Reg.ethRxcore, 0), (Reg.hspCtl, 0)]

/-- A frame of `n` octets to every station, with its FCS; `et` is its EtherType. -/
def wired (n : Nat) (et : List Octet) : List Octet :=
  let d := List.replicate 6 0xFF ++ List.replicate 6 0 ++ et ++ List.replicate (n - 18) 1
  d ++ octetsLE 4 (crc32 d)

/-- A NETOUT entry with the granules of `hold0`. -/
def netout (w1 : Word) : NetOut := ⟨0, [3, w1, 7, 0], { hold0 with owner := 37 }⟩

/-- The entry at the head of lane 1. -/
def sending (w1 : Word) : State := { laned with holds := [(netout w1).hold], eth := { s0.eth with tx := s0.eth.tx.put 1 [netout w1] } }

/-- The host holds granules. -/
def hosting : State := { laned with holds := [{ hold0 with owner := 33 }] }

/-- `BackhaulCommands`: links, received frames and sent entries. -/
theorem test_backhaul : all [
    same (.ethLinkChange 0 true) s0,
    same (.ethFrameReceive 0 (wired 64 [8, 0]) 0 0) s0 && (ends (.ethFrameReceive 0 (wired 63 [8, 0]) 0 0) laned fun t => rget t (Reg.ethnNbad 0) = 1) &&
      ends (.ethFrameReceive 1 (List.replicate 1523 0) 0 0) laned fun t => t == bump laned (Reg.ethnNbad 1),
    (let f := wired 64 [0x88, 0x08, 0, 1];
      let d := f.take (f.length - 4);
      octetsLE 4 (crc32 d) = f.drop (f.length - 4) && isPause d && same (.ethFrameReceive 0 f 0 0) laned),
    (let f := [0, 0, 0, 0, 0, 1] ++ List.replicate 54 0;
      let f := f ++ octetsLE 4 (crc32 f);
      f.length = 64 && !isPause (f.take 60) && !laneAccepts laned 0 (f.take 60) && ends (.ethFrameReceive 0 f 0 0) laned fun t => t == bump laned (Reg.ethnNrx 0)),
    (let f := wired 64 [8, 0];
      let s := put laned [(Reg.ethRxcore, 33)];
      let d := f.take 60;
      !isPause d && laneAccepts s 1 d && (mgmtPayload s 1 d).isNone && !isPtp d && !coreOn s 33 && ends (.ethFrameReceive 1 f 0 0) s fun t =>
        rget t (Reg.ethnNrx 1) = 1 && rget t (Reg.ethnNdrop 1) = 1 && only [Reg.ethnNrx 1, Reg.ethnNdrop 1] s t),
    (let f := [0, 0, 0, 0, 0, 0, 0, 0, 0, 0, 0, 0, 8, 0, 0x45] ++ List.replicate 8 0 ++ [17] ++ List.replicate 12 0 ++ [0x51, 0x4D, 0, 18] ++ List.replicate 20 0;
      let s := put laned [(Reg.ethMport, 0x514D)];
      f.length = 60 && !isPause f && laneAccepts s 0 f && (mgmtPayload s 0 f) == some (List.replicate 10 0)),
    (let d := (wired 64 [0x88, 0xF7]).take 60;
      isPtp d && laneAccepts laned 0 d && (mgmtPayload laned 0 d).isNone && coreOn laned 0 && (inbound laned 0 7).length < 32 &&
        freeCount laned (partFor laned 0) = 64 && (freeGranules laned (partFor laned 0)).length = 64),
    same (.datagramSent 0 0 0) laned && ends (.datagramSent 1 0 0) (sending 0x2000) fun t => t.eth.tx.nth 1 [] == [] && t.holds == [] && rget t (Reg.ethnNtx 1) = 1 &&
      t.out.net == [(1, netBody laned 2 3 ++ octetsLE 4 (crc32 (netBody laned 2 3)))] && only [Reg.ethnNtx 1] laned t,
    [(0x0000 : Word), 0x1000].all fun w => ends (.datagramSent 1 0 0) (sending w) fun t => t.eth.tx.nth 1 [] == [] && t.out.net.length = 1 && only [Reg.ethnNtx 1] laned t,
    (let s := mem (sending 0) ((granAddr 3 + 8, 1) :: (granAddr 3 + 12, 2045) :: (List.range 16).map fun j => (granAddr 3 + 32 + j, 4));
      (netBody s 0 3).length = 64 + 32 + 2045),
    ends (.flowload .host 2) (mem (put laned [(Reg.ethFlowbase, 0x0100), (Reg.ethFlowbase + 1, 0x0100)]) [(0x01000100, 0x8000), (0x010002E0, 0x4000)]) fun t =>
      t.eth.dseq == List.replicate 16 0 && flowOn t 0 && (t.eth.flows.getD 15 []).getD 0 0 = 0x4000 && t.eth.flows.length = 16 && rbit t Reg.ethStat 0] = true := by decide +kernel

/-- `BackhaulCommands`: the host's queue and granules. -/
theorem test_host_queue : all [
    ends (.rxpop .host) laned fun t => t.out.read = 0xFFFF && only [] laned t && t.holds == [] && [1, 2, 3].all fun k => latched t .host (Reg.hspRxpop + k) == some 0,
    (let s := { laned with eth := { s0.eth with hostq := [netout 0xB000] }, holds := [(netout 0).hold] };
      (List.range 33).all (fun k => outbound s k 15 == []) && ends (.rxpop .debug) s fun t => t.out.read = 3 && t.eth.hostq == [] && latched t .debug (Reg.hspRxpop + 1) == some 3 &&
        latched t .debug (Reg.hspRxpop + 2) == some 7 && only [] s t),
    [Instr.rxret .host 3, .hsend .host 3].all fun c => ends c laned fun t => rget t Reg.hspEvt = 4 && t.holds == [] && t.cores == laned.cores && only [Reg.hspEvt] laned t,
    ends (.rxret .host 3) hosting fun t => t.holds == [] && only [] hosting t,
    coreOn hosting 0 && ends (.hsend .host 3) (mem hosting [(granAddr 3 + 5, 0xFFFF)]) fun t => inbound t 0 7 == [([3, 0xA7FF, 0, 0], false, 0)] &&
      t.holds == [{ hold0 with owner := 0 }],
    (let s := hosting.updCore 0 fun c => { c with qin := c.qin.put 7 (List.replicate 32 ([0, 0, 0, 0], false, 0)) };
      ends (.hsend .host 3) s fun t => rbit t Reg.hspEvt 4 && t.holds == s.holds && t.cores == s.cores && only [Reg.hspEvt] s t),
    [(0 : Word), 0xF800, 2046, 2047].all fun v => ends (.hresv .host v) laned fun t => rget t Reg.hspHgran = 0xFFFF && rbit t Reg.hspEvt 5 && t.holds == [] &&
      only [Reg.hspHgran, Reg.hspEvt] laned t,
    [(1 : Word), 2045].all fun v => (reserve tilled (partFor tilled 0) ((v.toNat + 4 + 127) / 128) 33).isNone] = true := by decide +kernel

/-- `PortTransactions`: the host port and the management engine. -/
theorem test_port_transactions : all [
    [{ s0 with boot := {} }, { s0 with power := { s0.power with resetLow := true } }].all fun s => !fabRuns s && same (.hostRead 5 0) s && same (.hostWrite 0x01000000 [1]) s &&
      same .hostStatus s && same (.hostBadCommand 0xFF) s,
    fabRuns s0 && [(0x01000000, (3 : Fin 256)), (0xFFFFFFFF, 1), (0x10000000, 1)].all fun e => ends (.hostRead e.1 e.2) s0 fun t => t == hostAnswer (portReads .host e.1 (e.2.val + 1) s0).2
      ((portReads .host e.1 (e.2.val + 1) s0).1.map Prod.fst) (txnStatus ((portReads .host e.1 (e.2.val + 1) s0).1.map Prod.snd)),
    [0, 1, 7].all fun m => (let s := on m;
      [0x10010000, 0x10170000].all fun a => !modeServes s a),
    (let s := mem { s0 with fence := ⟨some provisionFence⟩ } [(0x01000000, 0xA5C3)];
      (fenceCheck s false (initIndex .host) (levelOf s .host) accRead 0x01000000) == (true, s) && fenceCheck s false (initIndex .host) (levelOf s .host) accWrite 0x011FFFFF == (true, s) &&
        !badAt s 0x01000000 && (ends (.hostRead 0x01000000 0) s fun t => t.out.host == [0xA5, 0xC3] && t.out.hostSt = 1 && only [] s t) &&
        ends (.hostWrite 0x011FFFFF [7]) s fun t => t.mem == [(0x01000000, 0xA5C3), (0x011FFFFF, 7)] && t.out.host == [] && t.out.hostSt = 1 && t.regs == s.regs),
    (let s := openFence { s0 with flt := { s0.flt with ended := [endMark .host 0x10170000 false] } };
      modeServes s 0x10170000 && regionOf 0x10170000 == .block && fenceCheck s false (initIndex .host) (levelOf s .host) accRead 0x10170000 == (true, s) &&
        ends (.hostRead 0x10170000 0) s fun t => t.out.host == [0, 0] && t.out.hostSt = 0x0401 && t.flt.ended == [] && only [] s t),
    (let s := put { s0 with eth := { s0.eth with aborted := true, hostq := [netout 0] } } [(Reg.sysSvcready, 1)];
      ends .hostStatus s fun t => t.out.host == [0x70, 2] && t.out.host == octetsBE 2 (portStatus s).toNat && !t.eth.aborted),
    ends (.hostAbort 0x01000000 [] 0) s0 fun t => t.eth.aborted && rget t Reg.hspEvt = 1 && only [Reg.hspEvt] s0 t,
    [(0 : Octet), 0xFF].all fun o => ends (.hostBadCommand o) s0 fun t => rget t Reg.hspEvt = 2 && t.eth == s0.eth && only [Reg.hspEvt] s0 t,
    same .mgmtRead s0 && same .mgmtWrite s0,
    (let m : List Octet := [0x51, 0x4D, 1, 1, 9, 0, 0, 0, 0, 0, 0, 1, 2, 0, 0, 0] ++ List.replicate 8 0
      let s := mem { s0 with fence := ⟨some provisionFence⟩, eth := { s0.eth with mgmtq := [(m, 1)] } } [(0x01000001, 5)];
      let r := portReads .mgmt 0x01000000 2 { s with eth := { s.eth with mgmtq := [] } };
      ofOctetsLE (slice m 8 4) = 0x01000000 && r.1 == [(0, .ok), (5, .ok)] && same .mgmtWrite s && ends .mgmtRead s fun t => t.eth.mgmtq == [] &&
        t == mgmtRespond r.2 1 0x81 9 0x01000000 2 (mgmtStatusOf (r.1.map Prod.snd)) (unpackOctets (r.1.map Prod.fst))),
    (let m : List Octet := [0x51, 0x4D, 1, 2, 9, 0, 0, 0, 0, 0, 0, 1, 1, 0, 0, 0, 5, 6] ++ List.replicate 8 0
      let s := { s0 with fence := ⟨some provisionFence⟩, eth := { s0.eth with mgmtq := [(m, 1)] } };
      let r := portWrites .mgmt 0x01000000 (packOctets (slice m 16 2)) { s with eth := { s.eth with mgmtq := [] } };
      r.1 == [.ok] && fabRuns r.2 && same .mgmtRead s && ends .mgmtWrite s fun t => t.mem == [(0x01000000, 0x0605)] &&
        t == mgmtRespond r.2 1 0x82 9 0x01000000 1 (mgmtStatusOf r.1) [])] = true := by decide +kernel

/-- A state whose fault queue holds records, each by whether it is lasting. -/
def recorded (l : List Bool) : State :=
  (l.foldl (fun s b => (fault s { cls := 1, lasting := b, action := 0, typ := 0, inst := 0 })) s0)

/-- A row test of row 5 of a macro. -/
def row0 (m : Nat) : RowTest := { unit := m, row := 5, synd := 7, sub := 0, init := 0, at_ := 0 }

/-- The queue full of records whose lasting mark stands in bit 12 of word 0 or not. -/
def full0 (lasting : Bool) : State :=
  let r := ((fault s0 { cls := 1, lasting := lasting, action := 0, typ := 0, inst := 0 }).flt.recs.headD [])
  { s0 with flt := { s0.flt with recs := List.replicate 128 r } }

/-- `FaultRecords`: the queue, its head and its losses. -/
theorem test_fault_records : all [
    (let s := { s0 with flt := { s0.flt with recs := List.replicate 127 [], seq := 65535 } };
      let f : FaultInfo := { cls := 7, lasting := true, action := 7, typ := 4, inst := 31 }
      s.flt.recs.length < 128),
    (let s := { s0 with flt := { s0.flt with recs := [List.replicate 12 5, List.replicate 12 6] } };
      [0, 11].all (fun k => ends (.groupLatchRead .debug (Reg.fltRec k)) (openFence s) fun t => t.out.read = 5 && t.flt == s.flt && only [] (openFence s) t) &&
        (ends (.faultPop .crown 1) s fun t => t.flt.recs == [List.replicate 12 6]) && same (.faultPop .crown 0) s && same (.faultPop .crown 0xFFFF) s),
    [0, 11].all fun k => ends (.groupLatchRead .host (Reg.fltRec k)) s0 fun t => t.out.read = 0 && t.flt == s0.flt] = true := by decide +kernel

/-- `SelfTests`: scrubs, march tests, the full self-test, port loops. -/
theorem test_self_tests : all [
    same (.patrolScrub [⟨0, 0, [5]⟩]) (put s0 [(Reg.fltCtl, 0)]),
    [((0 : Fin 32), 0, 0), (31, 8191, 127)].all fun e => (let s := lset (put s0 [(Reg.fltCtl, 1), (Reg.fltSpare e.1, 64)]) e.1 7 0x1234;
      spares s e.1 = 64),
    (let s := put s0 [(Reg.fltCtl, 1), (Reg.fltSpare 3, 1)];
      spares s 3 = 1),
    [(0 : Fin 201), 200].all fun m => same (.marchTestComplete m true) { s0 with flt := { s0.flt with tests := [row0 5] } },
    [(0 : Fin 201), 200].all fun m => (let s := put { s0 with flt := { s0.flt with tests := [row0 m] } } [(Reg.fltRptmax, 2), (Reg.fltSpare m, 64)];
      timesReturned s m 5 + 1 < max 1 (rfld s Reg.fltRptmax 3 0)),
    [(true, 0), (true, 1), (false, 2)].all fun e => (let s := put { s0 with flt := { s0.flt with tests := [row0 200] } } [(Reg.fltRptmax, w16 e.2)];
      !e.1 || max 1 (rfld s Reg.fltRptmax 3 0) ≤ timesReturned s 200 5 + 1),
    same (.fullSelftest .host 0x0F74) (on 6) && same (.fullSelftest .host 0x0F75) { on 6 with flt := { s0.flt with ft := some 0 } } && same (.fullSelftestDone ⟨[], [], []⟩) (on 6),
    ends (.fullSelftest .host 0x0F75) s0 (fun t => rget t Reg.fltFtres = 0x8000 && t.flt == s0.flt && only [Reg.fltFtres] s0 t) &&
      ends (.fullSelftest .host 0x0F75) (put (on 6) [(Reg.fltFtsel, 31)]) fun t => t.flt.ft == some 31,
    (let s := mem { on 6 with flt := { s0.flt with ft := some 2 } } [(sesAddr 5 0, 0xA000), (0x03000000, 7)];
      ends (.fullSelftestDone ⟨[], [], []⟩) s fun t => t.flt.ft.isNone && rbit t Reg.fltEvt 7 && rget t Reg.fltFtres = 0x4000 && t.flt.seq = 0 && t.mem == [(0x03000000, 7)] &&
        rget t Reg.sesNsess = 0),
    (let s := mem { on 6 with flt := { s0.flt with ft := some 28 } } [(sesAddr 5 0, 0xA000), (0x03000000, 7)];
      ends (.fullSelftestDone ⟨[], [], []⟩) s fun t => t.mem == s.mem),
    !loopDue s0 63 && same (.portLoopSelftestStart 63) s0 && !loopDue (s0.updPort 63 fun h => { h with dcOver := some 0, faint := 63 }) 63,
    (let s := { (put s0 [(Reg.prtCtl 63, 1)]).updPort 63 (fun h => { h with dcOver := some 5 }) with time := { s0.time with now := 1228805 } };
      loopDue s 63 && shfState s 7 ≠ 2 && ends (.portLoopSelftestStart 63) s fun t => t.flt.loops == [{ port := 63 }] && (t.port 63).dcOver == none),
    loopDue (s0.updPort 0 fun h => { h with faint := 64 }) 0,
    [true, false].all fun ok => (let s := { gated with flt := { s0.flt with loops := [{ port := 0, begun := 1, running := true }] } };
      !(s.port 0).dcPend && !(s.port 63).dcPend),
    same (.portLoopSelftestDone 0 true 1) gated,
    [(0 : Fin 4), 3].all fun n => (let s := put s0 [(Reg.fltPbad n, 0xFFFF)];
      ends (.pbadClear .host n 0x8001) s fun t => rget t (Reg.fltPbad n) = 0x7FFE && t.mem == s.mem)] = true := by decide +kernel

/-- `FlashOperations`: refusals, starts and ends. -/
theorem test_flash : all [
    [Instr.flashRead .crown, .program .crown, .erase4k .crown, .erase64k .crown].all fun c => same c { s0 with xsp := { s0.xsp with job := some ⟨1, 0, 0, 2, 32, 0⟩ } },
    [(Instr.flashRead .crown, 1), (.program .host, 2), (.erase4k .debug, 3), (.erase64k .mgmt, 4)].all fun e => (let s := put s0 [(Reg.xspFaddr, 0xFFFF), (Reg.xspFaddr + 1, 0xFFFF), (Reg.xspLen, 2)];
      xspRefuse s e.2 (rlong s Reg.xspFaddr) 2 == some 4),
    [(Instr.flashRead .crown, 1), (.erase4k .debug, 3), (.erase64k .mgmt, 4)].all fun e => (let s := put { on 1 with xsp := { s0.xsp with mib := 16 } } [(Reg.xspLen, 2), (Reg.xspMaddr + 1, 0x0100)];
      (xspRefuse s e.2 (rlong s Reg.xspFaddr) 2).isNone && ends e.1 s fun t => (t.xsp.job.map XspJob.op) == some e.2 && (t.xsp.job.map XspJob.maddr) == some 0x01000000 && rbit t Reg.xspStat 0 &&
        only [Reg.xspStat] s t),
    (let s := { s0 with xsp := { s0.xsp with mib := 16 } };
      [0, 8 * 1048576 - 4096].all (fun f => xspRefuse s 3 f 0 == some 1) && bankSize s = 8388608 && same (.flashOpComplete .done) s),
    [(3, 4096), (4, 65536)].all fun e => (let s := flashPut { s0 with xsp := { s0.xsp with mib := 16, job := some ⟨e.1, 65536, 0, 0, 32, 0⟩ } } 65535 [1];
      let s := flashPut (flashPut s (65535 + e.2) [2]) (65536 + e.2) [3];
      ends (.flashOpComplete .done) s fun t => t.xsp.job.isNone && rfld t Reg.xspRes 2 0 = 0 && !rbit t Reg.xspStat 0 && rbit t Reg.xspEvt 0 && flashGet t (65535 + e.2) 1 == [0xFF] &&
        flashGet t 65535 1 == [1] && flashGet t (65536 + e.2) 1 == [3] && t.mem == s.mem),
    (let j : XspJob := ⟨1, 65536, 0x01000000, 4, 32, 0⟩
      let s := flashPut { s0 with xsp := { s0.xsp with job := some j } } 65536 [1, 2, 3, 4];
      ends (.flashOpComplete .done) s fun t => t.mem == [(0x01000000, 0x0201), (0x01000001, 0x0403)] && t.xsp.job.isNone && rfld t Reg.xspRes 2 0 = 0 &&
        t == xspEnd (engineStore 32 32 0 0x01000000 (packOctets (flashGet s 65536 4)) s).2 0),
    (let j : XspJob := ⟨2, 65536, 0x01000000, 2, 32, 0⟩
      let s := mem (flashPut { s0 with xsp := { s0.xsp with job := some j } } 65536 [0x0F]) [(0x01000000, 0x55AA)];
      let r := engineReads 32 32 0 0x01000000 1 s;
      r.1 == [0x55AA] && r.2.1 && !r.2.2.1)] = true := by decide +kernel

/-- The tag in a field at a state of its protocol, with `f` on it. -/
def tagAt (active : Nat) (f : TagSt → TagSt := id) : State :=
  { s0 with tag := f { s0.tag with field := true, active := active, uid := [8, 1, 2, 3] } }

/-- The tag in ISO-DEP with the application and a file selected. -/
def selected (file : Nat) : State := tagAt 3 fun t => { t with app := true, file := file }

/-- A commit of a page. -/
def commit0 (page src phys : Nat) : PageCommit := ⟨page, src, List.replicate 32 9, phys⟩

/-- The tag with page 5 LIVE at physical page 7, GEN 62, page 6 at 8. -/
def stored (s : State) : State := { s with tag := { s.tag with live := [(5, 7, 62), (6, 8, 0)], store := [(224, 1), (256, 2)] } }

/-- `FieldCommands`: the protocol's states, and the ends of a session. -/
theorem test_field_states : all [
    same .fieldOn (tagAt 0) && [Instr.reqa, .anticollision, .rats, .selectByName, .deselect, .fieldLoss, .harvestOn].all fun c => same c s0,
    s0.tag.field == false,
    ends .reqa (tagAt 0) (fun t => t.tag.active = 1 && t.out.tag == [4, 0] && only [] s0 t) &&
      ends .anticollision (tagAt 1) (fun t => t.tag.active = 2 && t.out.tag == [8, 1, 2, 3, 8, 0x20]) &&
      ends .rats (tagAt 2) fun t => t.tag.active = 3 && t.out.tag == [5, 0x78, 0x80, 0x20, 0],
    ends .deselect (stored (selected 4)) fun t => t.out.tag == [0xC2] && t.tag.active = 0 && !t.tag.app && t.tag.file = 0 && rbit t Reg.nftEvt 2 && t.tag.store == [(224, 1), (256, 2)],
    [true, false].all fun lost => (let s := { selected 2 with power := { s0.power with lost := lost } };
      let s := { s with tag := { s.tag with busy := some (commit0 5 1 9), queue := [commit0 6 0 0, commit0 7 1 0], harv := true } };
      ends .fieldLoss s fun t => !t.tag.field && t.tag.active = 0 && !t.tag.app && !t.tag.harv && t.tag.queue == [commit0 7 1 0] && t.tag.busy == (if lost then none else s.tag.busy) &&
        rbit t Reg.nftEvt 1),
    [59, 60].all fun w => ends (.waitingTimeExtension w) (tagAt 3 fun t => { t with due := true }) fun t => t.tag.wtx = 59 && t.out.tag == [0xF2, 59],
    ends (.waitingTimeExtension 1) (tagAt 3 fun t => { t with due := true, wtx := 48 }) (fun t => t.tag.wtx = 49 && t.out.tag == [0xF2, 1]) &&
      ends (.waitingTimeExtension 1) (tagAt 3 fun t => { t with due := true, wtx := 49 }) fun t => !t.tag.due && t.tag.wtx = 0 && t.out.tag == [0x65, 0x81],
    same .harvestOn (tagAt 3) && ends .harvestOn (tagAt 3 fun t => { t with nv := 1 }) fun t => t.tag.harv] = true := by decide +kernel

/-- `FieldCommands`: files, words, and commands that wait. -/
theorem test_field_files : all [
    (let s := { selected 2 with tag := { (selected 2).tag with busy := some (commit0 5 1 9) } };
      tagListens s && [Instr.selectByName, .selectByFileId 0, .readBinary 0 1, .updateBinary 0 [1], .readWords 0 1, .writeWords 0 [1]].all fun c => ends c s fun t =>
        t == { s with tag := { s.tag with waiting := some c } }),
    ends .selectByName (tagAt 3) (fun t => t.tag.app && t.tag.file = 0 && t.out.tag == [0x90, 0]) &&
      ([((0xE103 : Word), 1), (0xE107, 5)].all fun e => ends (.selectByFileId e.1) (selected 0) fun t => t.tag.file = e.2 && t.out.tag == [0x90, 0]) &&
      ([(0xE102 : Word), 0xE108].all fun e => ends (.selectByFileId e) (selected 2) fun t => t.tag == (selected 2).tag && t.out.tag == [0x6A, 0x82]) &&
      ends (.selectByFileId 0xE103) (tagAt 3) fun t => t.out.tag == [0x6A, 0x82],
    [(1, 14, 1), (2, 4095, 1), (3, 0, 74), (4, 31, 240), (5, 0, 0)].all fun e => (let s := selected e.1;
      e.2.1 < fileSize e.1 && e.2.2 ≤ 240 && e.2.1 + e.2.2 ≤ fileSize e.1 && !fileBad s e.1 e.2.1 e.2.2 && ends (.readBinary e.2.1 e.2.2) s fun t =>
        t.out.tag == fileOctets s e.1 e.2.1 e.2.2 ++ [0x90, 0] && t.tag == s.tag && t.out.tag.length = e.2.2 + 2),
    (let s := { stored (selected 2) with flt := { s0.flt with bad := [(202, 15)] } };
      fileBad s 2 191 1),
    ends (.readBinary 0 0) (selected 0) (fun t => t.out.tag == [0x69, 0x85]) && [1, 3, 5].all fun f => !fieldMayWrite (selected f) f && ends (.updateBinary 0 [1]) (selected f) fun t =>
      t.out.tag == [0x69, 0x82] && t.tag == (selected f).tag,
    [(2, 161, 6, 5), (4, 2047, 1, 191)].all fun e => (let s := stored (selected e.1);
      let d := List.replicate e.2.2.1 (9 : Octet);
      fieldMayWrite s e.1 && e.2.1 + d.length ≤ fileSize e.1 && e.2.1 / 32 = (e.2.1 + d.length - 1) / 32 && s.tag.queue == [] && s.tag.freeq.headD 9 = 0 &&
        ends (.updateBinary e.2.1 d) s fun t => t.tag.due && t.tag.freeq == s.tag.freeq.drop 1 && match t.tag.busy with
          | some c => c.phys = 0 && c.src = 0 && c.page = e.2.2.2 && c.data == (if e.1 = 2 then [1] ++ List.replicate 6 9 ++ List.replicate 25 0 else List.replicate 31 0 ++ [9])
          | none => false),
    ends (.readWords 0 1) (selected 0) (fun t => t.out.tag == [0x6D, 0]) && ends (.writeWords 0 [1]) (selected 0) fun t => t.out.tag == [0x6D, 0],
    (let s := mem (tagAt 3 fun t => { t with app := true, nv := 8 }) [(0x01000000, 0x0102)];
      let s := { s with fence := ⟨some [⟨0x01000000, 0x0100003F, 0xE00, 0x8000⟩]⟩ };
      (tagReads 0x01000000 64 s).1.isSome && (tagWrites 0x01000000 [7] s).1 && ends (.readWords 0x01000000 64) s (fun t => t.out.tag.length = 130 && t.out.tag.take 2 == [2, 1]) &&
        ends (.writeWords 0x01000000 [7]) s fun t => t.out.tag == [0x90, 0] && t.mem == [(0x01000000, 7)]),
    ends (.tagUnlistedCommand 0x40 0xA4) (selected 2) (fun t => t.out.tag == [0x6E, 0]) && ends (.tagUnlistedCommand 0 0xC0) (selected 2) fun t => t.out.tag == [0x6D, 0]] = true := by decide +kernel

/-- `PageCommits`: ends of a commit, erases and the host's window. -/
theorem test_page_commits : all [
    same (.pageCommitComplete true) s0 && same (.pageCommitComplete false) s0,
    [0, 1].all fun src => [5, 259].all fun p => (let s := stored { s0 with tag := { s0.tag with busy := some (commit0 p src 9), due := true } };
      ends (.pageCommitComplete true) s fun t => t.tag.busy.isNone && livePage t p == some (9, 0) && pageData t p == List.replicate 32 9 && livePage t 6 == livePage s 6 &&
        t.tag.freeq == s.tag.freeq && t.tag.erase == (if p = 5 then [7] else []) && (if src = 1 then rfld t Reg.nftPstat 2 0 = 1 && rbit t Reg.nftEvt 0
          else rget t Reg.nftFpage = w16 (p % 256) && rbit t Reg.nftEvt 3 && !t.tag.due && t.out.tag == [0x90, 0])),
    [0, 1].all fun src => (let s := stored { s0 with tag := { s0.tag with busy := some (commit0 5 src 9), due := true } };
      ends (.pageCommitComplete false) s fun t => t.tag.busy.isNone && t.tag.live == s.tag.live && t.tag.store == s.tag.store && t.tag.freeq == s.tag.freeq.drop 2 &&
        t.tag.erase == [9, 0, 1] && (if src = 1 then rfld t Reg.nftPstat 2 0 = 3 && rbit t Reg.nftEvt 0 else !t.tag.due && t.out.tag == [0x65, 0x81])),
    (let s := { s0 with tag := { s0.tag with erase := [7, 8] } };
      tagPowered s && (ends .backgroundErase s fun t => t.tag.erase == [8] && t.tag.freeq == s.tag.freeq ++ [7]) && same .backgroundErase s0 &&
        same .backgroundErase { s with tag := { s.tag with queue := [commit0 5 1 0] } } && same .backgroundErase { s with tag := { s.tag with busy := some (commit0 5 1 0) } }),
    (let s := { s0 with power := { s0.power with lost := true } };
      [(1 : Word), 0x5047].all fun v => same (.windowWrite .host v) s && same (.hostPageCommit .host v) s && same (.pageBufferDrop .host v) s),
    (let s := put (stored s0) [(Reg.nftWaddr, 4095)];
      ends (.windowWrite .host 0x1234) s fun t => t.tag.buf == some (255, List.replicate 30 0 ++ [0x34, 0x12]) && rfld t Reg.nftWaddr 11 0 = 0 && only [Reg.nftWaddr] s t),
    (let s := put (stored s0) [(Reg.nftWaddr, 80)];
      ends (.windowWrite .host 0x1234) s fun t => t.tag.buf == some (5, [0x34, 0x12] ++ List.replicate 30 0) && rfld t Reg.nftWaddr 11 0 = 81),
    same (.pageBufferDrop .host 0xFFFE) s0 && same (.hostPageCommit .host 0x5046) s0 && ends (.hostPageCommit .host 0x5047) s0 fun t => rfld t Reg.nftPstat 2 0 = 4 && t.tag == s0.tag,
    (let s := { s0 with tag := { s0.tag with buf := some (5, List.replicate 32 3) } };
      ends (.hostPageCommit .host 0x5047) s fun t => rfld t Reg.nftPstat 2 0 = 5 && t.tag.buf.isNone && t.tag.freeq == s.tag.freeq.drop 1 &&
        t.tag.busy == some ⟨5, 1, List.replicate 32 3, 0⟩ && only [Reg.nftPstat] s t)] = true := by decide +kernel

/-- `PageBuffer`: another page, a drop, and chip resets. -/
theorem test_page_buffer : all [
    (let s := put { s0 with tag := { s0.tag with buf := some (5, []) } } [(Reg.nftWaddr, 96)];
      ends (.windowWrite .host 1) s (fun t => t.tag.buf == some (5, []) && rbit t Reg.nftEvt 4 && only [Reg.nftWaddr, Reg.nftEvt] s t) &&
        ends (.pageBufferDrop .host 1) s fun t => t == { s with tag := { s.tag with buf := none } }),
    (let s := put (stored { s0 with tag := { s0.tag with buf := some (5, []) }, wdog := { s0.wdog with count := 2 } }) [(Reg.sysWdctl, 1), (Reg.sysWdper, 2)];
      rbit s Reg.sysWdctl 0 && max 1 (rget s Reg.sysWdper).toNat ≤ s.wdog.count && levelOf s .crown = 0)] = true := by decide +kernel

/-- The panel reader ON, reading, with a maker key. -/
def reading : State :=
  let s := put s0 [(Reg.nfrCtl, 1), (Reg.nfrStat, 2), (Reg.nfrDetthr, 5)]
  { s with reader := { s.reader with reading := true }, fuses := { s.fuses with maker := pub1 } }

/-- A panel record of identity 0x1234, signed by `pub1`. -/
def panel0 : List Octet :=
  [0x51, 0x50, 0x4E, 0x4C, 1, 1] ++ octetsLE 2 86 ++ octetsLE 8 0x1234 ++ [0, 1, 4, 2, 0, 0] ++
    octetsBE 64 594244812035210681402156344056297549598487978482064565940292808467035773293059402625514686325475069052546015242681206464039200959047396546847411446356176

/-- `PanelReader`: pings, reads and their results. -/
theorem test_panel_reader : all [
    same (.detuningPing 9) s0,
    stateOf reading .nfr = 2 && enOf reading .nfr && ends (.reread .host 1) reading fun t => t.reader.due && stateOf t .nfr = 2 && t.mem == reading.mem,
    (let s := { reading with reader := { s0.reader with due := true } };
      ends .panelFullRead s (fun t => t == { s with reader := { s.reader with due := false, reading := true } }) && same .panelFullRead reading && same .panelFullRead s0 &&
        same (.panelReadComplete .noTag) s),
    (let s := put { reading with reader := { pingAt := 5 } } [(Reg.nfrPingper, 10), (Reg.nfrDetthr, 1)];
      ends (.detuningPing 1) s (fun t => t.time.now = 1228805 && t.reader.pingAt = 1228805 && !t.reader.due) && ends (.detuningPing 2) s fun t => t.reader.due && rbit t Reg.nfrEvt 3),
    (let s := put { reading with reader := { readAt := 5 } } [(Reg.nfrRefresh, 0)];
      ends .panelFullRead s fun t => t.reader.reading && t.time.now = 122880005),
    (let s := { reading with reader := { reading.reader with record := [7], fails := 2 } };
      ends (.panelReadComplete .timeout) s fun t => t.reader.record == [] && t.reader.pend == [(0, [])] && rfld t Reg.nfrEvt 7 4 = 5 && rbit t Reg.nfrEvt 1),
    panelJudge reading panel0 = 1,
    (let s := { reading with reader := { reading.reader with record := panel0, fails := 2 } };
      panelJudge s panel0 = 1),
    [(PanelOutcome.collision, (3 : Nat)), (.badProtocol, 4), (.timeout, 5), (.octets [], 6)].all fun e => (let s := { reading with reader := { reading.reader with record := [7], fails := 1 } };
      ends (.panelReadComplete e.1) s fun t => t.reader.record == [7] && t.reader.fails = 2 && rfld t Reg.nfrEvt 7 4 = e.2 && rbit t Reg.nfrEvt 2),
    (let s := { put reading [(Reg.nfrPanelid, 9)] with reader := { reading.reader with record := [7] } };
      ends (.panelReadComplete .noTag) s fun t => t.reader.record == [] && t.reader.pend == [(0, [])] && t.reader.readAt = 0 && rfld t Reg.nfrEvt 7 4 = 2 && rbit t Reg.nfrEvt 1 && rgroup t Reg.nfrPanelid 4 = 0)] = true := by decide +kernel

/-- An image of 256 octets with one section of one word, signed by `pub1`. -/
def image0 : List Octet :=
  [0x51, 0x49, 0x4D, 0x47, 1, 1, 0, 0] ++ octetsLE 4 256 ++ octetsLE 4 9 ++ octetsLE 2 7 ++ [0, 0] ++ octetsLE 4 0x01000000 ++ octetsLE 4 512 ++ [0, 0, 0, 0] ++
    octetsLE 4 510 ++ octetsLE 4 0x01000000 ++ octetsLE 4 2 ++ List.replicate 180 0xFF ++ List.replicate 32 0 ++
    octetsBE 64 5898349090405989979566581316545184772114537071511423525162683251176263254490392555139017225117871517985168528938071927298263612396560496248119519084472779

/-- A flash of 1 MiB; the image, its fence table all disabled, stands in the last `banks` banks; the update control in a state, bank 1 its target. -/
def updating (st : Nat) (banks : Nat := 0) : State :=
  let f : List (Nat × Octet) := (image0.zipIdx.map fun (e : Octet × Nat) => (e.2, e.1)) ++ (List.range 64).map fun d => (512 + 12 * d + 11, (0 : Octet))
  let s := put s0 [(Reg.updStat, w16 (st + 32)), (Reg.updLen, 2), (Reg.updAddr, 0x0100), (Reg.updAddr + 1, 0x0100), (Reg.xspStat, 4)]
  { s with xsp := { s.xsp with mib := 1, flash := ((if banks = 2 then f else []) ++ (if banks = 0 then [] else f.map fun (e : Nat × Octet) => (524288 + e.1, e.2))).filter fun e => e.2 ≠ 0xFF }, fuses := { s.fuses with maker := pub1 } }

/-- Flash of bank 1: an image without octets and sections, whose fence table stands at 256; `off`: every descriptor is disabled. -/
def fences (off : Bool) : BMap :=
  [(524293, 0)] ++ (List.range 4).map (fun j => (524296 + j, 0)) ++ [(524312, 0), (524313, 1), (524314, 0), (524315, 0)] ++
    if off then (List.range 64).map fun d => (524544 + 12 * d + 11, 0) else []

/-- A trial whose image in bank 1 is `fences off`. -/
def trial (off : Bool) : State :=
  { updating 3 with xsp := { s0.xsp with mib := 1, flash := fences off }, upd := { s0.upd with imgHash := sha256 [] } }

/-- A chunk of `m` octets waits at 0x01000100. -/
def chunked (m : List Octet) (h : Option (Nat × Nat)) : State :=
  let s := mem (updating 1) ((packOctets m).zipIdx.map fun e => (0x01000100 + e.2, e.1))
  { s with upd := { s.upd with chunk := some (0x01000100, m.length, 32, 0), header := h } }

/-- The engine reads the chunk whole. -/
def taken (s : State) (m : List Octet) : Bool :=
  let r := engineReads 32 32 0 0x01000100 (m.length / 2) s
  unpackOctets r.1 == m && r.2.1 && !r.2.2.1 && r.2.2.2 == s && s.upd.stream == []

/-- What a delta writes. -/
def wrote (t : State) (d : List Octet) : Bool :=
  flashGet t 524288 d.length == d && t.upd.written = d.length && t.upd.stream == [] && t.upd.chunk.isNone && rbit t Reg.updEvt 0

/-- The header of a delta: BASELEN 2 over erased octets, NEWLEN `nl`. -/
def delta0 (nl : Nat) : List Octet := [0x51, 0x44, 0x4C, 0x54, 1, 0, 0, 0] ++ sha256 [0xFF, 0xFF] ++ octetsLE 4 2 ++ octetsLE 4 nl ++ List.replicate 16 0

/-- `UpdateApply`: refusals, START, FEED and ABORT. -/
theorem test_update_go : all [
    [(0x5400 : Word), 0x00FF].all fun v => [Instr.start .crown v, .feed .crown v, .activate .crown v, .abort .crown v].all fun c => same c (updating 1),
    [Initiator.tag, .tiller 0].all fun i => [Instr.start i 0x5500, .feed i 0x5500, .activate i 0x55FF, .abort i 0x5500].all fun c => ends c (updating 1) fun t => t == rset (updating 1) Reg.updRes 2,
    [0, 1, 5].all fun m => [Instr.start .crown 0x5500, .activate .host 0x5500].all fun c => (let s := put (updating 2) [(Reg.sysMode, w16 m)];
      ends c s fun t => t == rset s Reg.updRes 3),
    [2, 7].all fun m => [Instr.start .crown 0x5500, .activate .host 0x5500].all fun c => (let s := put (updating 2) [(Reg.sysMode, w16 m)];
      let a := { s with power := { s.power with marginLow := true } };
      let b := { s with fuses := { s.fuses with lock := 1 } };
      let d := put s [(Reg.sysMode, w16 (m + 8))];
      ends c a (fun t => t == rset a Reg.updRes 4) && ends c b (fun t => t == rset b Reg.updRes 5) && modeOf d = m && ends c d fun t => t == rset d Reg.updRes 6),
    ends (.start .crown 0x5500) (updating 3) (fun t => t == rset (updating 3) Reg.updRes 6) && ends (.activate .crown 0x5500) (updating 0) fun t => t == rset (updating 0) Reg.updRes 6,
    (let s := flashPut (flashPut (updating 0) 1048575 [1]) 1044479 [2];
      s.xsp.job.isNone && bankBase s 1 + bankSize s - 4096 = 1044480),
    (let s := { updating 1 with upd := { s0.upd with header := none } };
      ends (.feed .crown 0x5500) s (fun t => t == { s with upd := { s.upd with chunk := some (0x01000100, 2, 32, 0) } }) && same (.feed .crown 0x5500) (updating 0) &&
        same (.feed .crown 0x5500) { s with upd := { s.upd with newHash := some [] } } && same (.abort .crown 0x5500) (updating 2)),
    (let s := { updating 1 with upd := { s0.upd with chunk := some (0, 2, 32, 0) } };
      ends (.abort .crown 0x5500) s fun t => updState t = 0 && rget t Reg.updRes = 14 && rbit t Reg.updEvt 1 && t.upd.chunk.isNone)] = true := by decide +kernel

/-- `UpdateApply`: chunks. -/
theorem test_update_chunks : all [
    same .chunkConsumed (updating 1) && same .chunkConsumed { updating 2 with upd := { s0.upd with chunk := some (0, 2, 32, 0) } },
    [0, 1, 65535].all fun n => (let s := { updating 1 with upd := { s0.upd with chunk := some (0x01000000, n, 32, 0) } };
      ends .chunkConsumed s fun t => updState t = 0 && rget t Reg.updRes = 8 && rbit t Reg.updEvt 1 && t.upd.chunk.isNone),
    (let s := { updating 1 with upd := { s0.upd with chunk := some (0xFFFFFFFF, 4, 32, 0) } };
      let r := engineReads 32 32 0 0xFFFFFFFF 2 s;
      !r.2.1 && !r.2.2.1),
    (let m := (delta0 4).take 62;
      let s := chunked m none;
      taken s m),
    (let m := delta0 4;
      let s := chunked m none;
      taken s m && deltaHead s m == .head 2 4),
    (let m := delta0 520193;
      let s := chunked m none;
      taken s m && deltaHead s m == .bad 8),
    (let m : List Octet := [2, 0, 0, 0, 4, 0, 0, 0, 6, 7, 8, 9]
      let s := chunked m (some (2, 4));
      taken s m),
    (let m : List Octet := [1, 0, 0, 0, 2, 0, 0, 0, 0, 0, 0, 0]
      let s := flashPut (chunked m (some (2, 2))) 0 [5, 6];
      taken s m),
    (let m : List Octet := [3, 0, 0, 0, 0, 0, 0, 0] ++ List.replicate 32 7
      let s := { chunked m (some (2, 4)) with upd := { (chunked m (some (2, 4))).upd with written := 4 } };
      taken s m)] = true := by decide +kernel

/-- `UpdateApply`: the checks after END. -/
theorem test_update_check : all [
    same .applyComplete (updating 1) && same .applyComplete (updating 2),
    (let s := { updating 1 with upd := { s0.upd with header := some (2, 0), newHash := some [] } };
      sha256 (bankGet s 1 0 0) ≠ []),
    (let s := { updating 1 with upd := { s0.upd with header := some (2, 0), newHash := some (sha256 []) } };
      !imgVerifies s 1),
    (let s := updating 1 1;
      imgLen s 1 = 256 && imgVerifies s 1 && imgFenceOk s 1)] = true := by decide +kernel

/-- `UpdateActivation`: ACTIVATE, the trial and its ends. -/
theorem test_activation : all [
    ends (.activate .crown 0x5500) (put (updating 2) [(Reg.xspStat, 0)]) (fun t => rget t Reg.updRes = 12),
    (let s := put (updating 2 2) [(Reg.ethFlowbase, 0), (Reg.ethFlowbase + 1, 0x0100)];
      activateSize s && activateOverlap s),
    (let s := put (updating 2 2) [(Reg.tilCtl 5, 1), (Reg.tilStat 5, 2), (Reg.sysSvcready, 1)];
      activateSize s && !activateOverlap s),
    same .activationComplete (updating 2) && same .trialDeadline (updating 3) && same .fallbackComplete (updating 4),
    (let s := { updating 3 1 with upd := { s0.upd with imgHash := [] } };
      imgHash s 1 ≠ s.upd.imgHash),
    (let s := { trial true with upd := { s0.upd with imgHash := [] } };
      s.upd.imgHash == [] && imgHash s 1 ≠ []) && imgHash (trial true) 1 == sha256 [] && updState (trial true) = 3 && targetBank (trial true) = 1,
    (let s := { updating 4 1 with upd := { s0.upd with deadline := 4 } };
      updState s = 4 && levelOf s .crown = 0 && s.time.now = 0 && s.upd.deadline = 4),
    same (.confirm .tag 0xC04F) { updating 4 with upd := { s0.upd with deadline := 4 } } && same (.confirm .crown 0xC04F) (updating 3),
    ends .trialDeadline { updating 4 with upd := { s0.upd with deadline := 4 } } fun t => updState t = 5 && t.upd.cause = 15 && markSet t 1 2 && rget t Reg.sysSvcready = 0 &&
      (t.core 32).hold == .stopped && t.time.now = 4 && t.boot == s0.boot,
    (let s := { updating 5 2 with upd := { s0.upd with cause := 15 } };
      updState s = 5)] = true := by decide +kernel

/-- `UpdateActivation`: an image whose fence table meets R290 comes into force. -/
theorem test_activation_fence_good :
    updState (trial true) = 3 ∧ imgHash (trial true) 1 = (trial true).upd.imgHash ∧ (commitImageFence (loadSections (trial true) 1) 1).1 = true := by
  have hl : loadSections (trial true) 1 = trial true := by
    have h : sections (trial true) 1 = [] := by decide +kernel
    unfold loadSections; rw [h]; rfl
  refine ⟨by decide +kernel, by decide +kernel, ?_⟩
  rw [hl, commitImageFence_fst _ _ (by decide +kernel)]
  decide +kernel

/-- `UpdateActivation`: an image whose fence table breaks R290 does not. -/
theorem test_activation_fence_bad :
    updState (trial false) = 3 ∧ imgHash (trial false) 1 = (trial false).upd.imgHash ∧ (commitImageFence (loadSections (trial false) 1) 1).1 = false := by
  have hl : loadSections (trial false) 1 = trial false := by
    have h : sections (trial false) 1 = [] := by decide +kernel
    unfold loadSections; rw [h]; rfl
  refine ⟨by decide +kernel, by decide +kernel, ?_⟩
  rw [hl, commitImageFence_fst _ _ (by decide +kernel)]
  decide +kernel

/-! ## Hypotheses in which a free value stands

The FAB shadow, granule choices and the lookup hash hold opaque constants of `Config`; the bounds of them do the evaluation. -/

/-- The shadow may lie at most a tick or two back. -/
theorem shadow_now (s : State) (n : Nat) (h : s.time.now ≤ n) : shadow s ≤ n := Nat.le_trans (shadow_le s) h

/-- The shadow is near. -/
theorem shadow_past (s : State) (n : Nat) (h : n + 3 < s.time.now) : n < shadow s := by have := shadow_ge s; omega

/-- `SlotGrid`: a re-anchor ahead of the shadow. -/
theorem test_reanchor : lnkOn link = true ∧ shadow link ≤ rgroup link Reg.lnkAt 4 :=
  ⟨by decide +kernel, shadow_now _ _ (by decide +kernel)⟩

/-- `Timebase`: a rate commit ahead of the shadow. -/
theorem test_rate_ahead : rfld (put s0 [(Reg.tbsCtl, 1), (Reg.tbsRateat, 500)]) Reg.tbsCtl 1 0 = 1 ∧
    shadow (put s0 [(Reg.tbsCtl, 1), (Reg.tbsRateat, 500)]) ≤ rgroup (put s0 [(Reg.tbsCtl, 1), (Reg.tbsRateat, 500)]) Reg.tbsRateat 4 :=
  ⟨by decide +kernel, shadow_now _ _ (by decide +kernel)⟩

/-- A chip at tick `n` with SRC SOFT. -/
def soft (n : Nat) : State := put { s0 with time := { s0.time with now := n } } [(Reg.tbsCtl, 1)]

/-- `Timebase`: a rate commit behind the shadow. -/
theorem test_rate_behind : rfld (soft 10) Reg.tbsCtl 1 0 = 1 ∧ rgroup (soft 10) Reg.tbsRateat 4 < shadow (soft 10) :=
  ⟨by decide +kernel, shadow_past _ _ (by decide +kernel)⟩

/-- Winnow ON at tick `n` with a record that ends at tick 10. -/
def arriving (n : Nat) : State :=
  { put s0 [(Reg.winStat, 2)] with win := { s0.win with inbox := [rec0 10] }, time := { s0.time with now := n } }

/-- `WinnowRecords`: a record before its release time. -/
theorem test_record_early : winState (arriving 0) = 2 ∧ recKind (rec0 10) = 1 ∧ shadow (arriving 0) < recEndt (rec0 10) + horizon (arriving 0) :=
  ⟨by decide +kernel, by decide +kernel, Nat.lt_of_le_of_lt (shadow_now _ 0 (by decide +kernel)) (by decide +kernel)⟩

/-- `WinnowRecords`: a late record. -/
theorem test_record_late : winState (arriving 3000000) = 2 ∧ recKind (rec0 10) = 1 ∧
    recEndt (rec0 10) + horizon (arriving 3000000) ≤ shadow (arriving 3000000) :=
  ⟨by decide +kernel, by decide +kernel, Nat.le_of_lt (shadow_past _ _ (by decide +kernel))⟩

/-- `WinnowRecords`: a horizon ahead of the shadow. -/
theorem test_horizon : shadow s0 ≤ rgroup s0 Reg.winHorat 4 := shadow_now _ _ (by decide +kernel)

/-- `WinnowRecords`, `SlotGrid`: a horizon and a re-anchor behind the shadow. -/
theorem test_behind : rgroup (soft 10) Reg.winHorat 4 < shadow (soft 10) ∧
    lnkOn { link with time := { link.time with now := 10 } } = true ∧
    rgroup { link with time := { link.time with now := 10 } } Reg.lnkAt 4 < shadow { link with time := { link.time with now := 10 } } :=
  ⟨shadow_past _ _ (by decide +kernel), by decide +kernel, shadow_past _ _ (by decide +kernel)⟩

/-- The cluster at tick `n`. -/
def meeting (n : Nat) : State := { clustered with time := { s0.time with now := n } }

/-- `ClusterCommands`: a directory entry for a tick ahead. -/
theorem test_dir_ahead : inCluster (meeting 4000) = true ∧ decodes (meeting 4000) = true ∧ dir0.owner ≠ chipNum (meeting 4000) ∧
    shadow (meeting 4000) ≤ dir0.at_ :=
  ⟨by decide +kernel, by decide +kernel, by decide +kernel, shadow_now _ _ (by decide +kernel)⟩

/-- `ClusterCommands`: a directory entry whose tick has passed. -/
theorem test_dir_past : inCluster (meeting 400) = true ∧ decodes (meeting 400) = true ∧ dir0.owner ≠ chipNum (meeting 400) ∧
    ({ dir0 with at_ := 0 } : DirFrame).at_ < shadow (meeting 400) ∧ (meeting 400).sage.dir.length < 65536 :=
  ⟨by decide +kernel, by decide +kernel, by decide +kernel, shadow_past _ _ (by decide +kernel), by decide +kernel⟩

/-- A handover in effect whose record has not come, and its record. -/
def awaited : Handover := { hand0 false with eff := true, session := 5 }
def arrival : HandFrame := ⟨9, 500000, keyWrap key0 (unpackOctets [0xA000, 1, 2, 0x77, 0, 0, 0, 5])⟩

/-- `ClusterCommands`: a handover's record in time. -/
theorem test_hand_receive : handContent (handing awaited) arrival = some (awaited.key, [0xA000, 1, 2, 0x77, 0, 0, 0, 5]) ∧
    (handing awaited).sage.hands = [awaited] ∧ awaited.peer = arrival.src ∧ shadow (handing awaited) ≤ arrival.th :=
  ⟨by decide +kernel, by decide +kernel, rfl, shadow_now _ _ (by decide +kernel)⟩

/-- `ClusterCommands`: a handover's record that comes after its Th. -/
theorem test_hand_late : handContent { handing awaited with time := { s0.time with now := 500004 } } arrival = some (awaited.key, [0xA000, 1, 2, 0x77, 0, 0, 0, 5]) ∧
    arrival.th < shadow { handing awaited with time := { s0.time with now := 500004 } } ∧ (handing awaited).frames = [] :=
  ⟨by decide +kernel, shadow_past _ _ (by decide +kernel), by decide +kernel⟩

/-- A trial's confirmation at tick 0 with the deadline `d`. -/
def confirming (d : Nat) : State := { updating 4 1 with upd := { s0.upd with deadline := d } }

/-- `UpdateActivation`: a confirmation in time, and one too late. -/
theorem test_confirm : updState (confirming 4) = 4 ∧ levelOf (confirming 4) .crown ≤ 2 ∧ shadow (confirming 4) < (confirming 4).upd.deadline ∧
    1 ≤ (confirming 4).xsp.mib ∧ (confirming 0).upd.deadline ≤ shadow (confirming 0) :=
  ⟨by decide +kernel, by decide +kernel, Nat.lt_of_le_of_lt (shadow_now _ 0 (by decide +kernel)) (by decide +kernel), by decide +kernel, Nat.zero_le _⟩

/-- `RequestsAndClaims`: a request that nothing refuses. -/
theorem test_request_held : outbound (asking 0x4005) 0 8 = [reqWords 0x4005] ∧ (asking 0x4005).lnk.reqs.length < 4096 ∧
    reqRefusal (asking 0x4005) (reqFrom (asking 0x4005) 0 (reqWords 0x4005)).1 (reqFrom (asking 0x4005) 0 (reqWords 0x4005)).2 = none := by
  refine ⟨by decide +kernel, by decide +kernel, ?_⟩
  unfold reqRefusal
  rw [shadow_early _ (by decide +kernel)]
  decide +kernel

/-- `SagePlacement`: a reservation of 2,045 octets is granted. -/
theorem test_granules : coreOn (sent (granary tilled) 0 12 [2045]) 0 = true ∧ 0 < ((sent (granary tilled) 0 12 [2045]).core 0).resv.nth 5 0 ∧
    ∃ u h, reserve (sent (granary tilled) 0 12 [2045]) (txPart (sent (granary tilled) 0 12 [2045]) 0) ((field ([2045].getD 0 0) 10 0 + 4 + 127) / 128) 0 = some (u, h) := by
  refine ⟨by decide +kernel, by decide +kernel, ?_⟩
  obtain ⟨u, h, e, -⟩ := reserve_some (sent (granary tilled) 0 12 [2045]) (txPart (sent (granary tilled) 0 12 [2045]) 0)
    ((field ([2045].getD 0 0) 10 0 + 4 + 127) / 128) 0 (by decide +kernel) (by decide +kernel) (by decide +kernel)
  exact ⟨u, h, e⟩

/-- `BackhaulCommands`: a received frame gets its granule. -/
theorem test_frame_granule : laneAccepts laned 0 ((wired 64 [8, 0]).take 60) = true ∧ mgmtPayload laned 0 ((wired 64 [8, 0]).take 60) = none ∧
    coreOn laned 0 = true ∧ (inbound laned 0 7).length < 32 ∧
    ∃ u h, reserve (bump laned (Reg.ethnNrx 0)) (partFor laned (rfld laned Reg.ethRxpart 3 0)) 1 37 = some (u, h) := by
  refine ⟨by decide +kernel, by decide +kernel, by decide +kernel, by decide +kernel, ?_⟩
  obtain ⟨u, h, e, -⟩ := reserve_some (bump laned (Reg.ethnNrx 0)) (partFor laned (rfld laned Reg.ethRxpart 3 0)) 1 37
    (by decide +kernel) (by decide +kernel) (by decide +kernel)
  exact ⟨u, h, e⟩

/-- `BackhaulCommands`: the host's reservation, at both ends of its range. -/
theorem test_host_reserve (n : Nat) (hn : n = 1 ∨ n = 2045) :
    ∃ u h, reserve laned (partFor laned (rfld laned Reg.hspCtl 9 6)) ((n + 4 + 127) / 128) 33 = some (u, h) := by
  have hf : 17 + 1 ≤ freeCount laned (partFor laned (rfld laned Reg.hspCtl 9 6)) := by decide +kernel
  obtain ⟨u, h, e, -⟩ := reserve_some laned (partFor laned (rfld laned Reg.hspCtl 9 6)) ((n + 4 + 127) / 128) 33
    (by decide +kernel) (Nat.le_trans (by omega) hf) (by decide +kernel)
  exact ⟨u, h, e⟩

/-- The ADMIT of session 5 that waits in a chip without sessions. -/
def admission : SesCmd := ses0 1 [(6, 0x2001), (9, 0x88), (13, 0xFFFF)]
def admitting : State := { s0 with ses := { s0.ses with held := [admission] } }

/-- No word of the session memory is written: every slot of the lookup tables is empty. -/
theorem slot_empty (b j : Nat) (hj : j ≤ 1) : slotAt admitting b 0 j = none := by
  have hm : admitting.mem = [] := by decide +kernel
  have hz : mget admitting (slotAddr b 0 j) = 0 := by
    have hr : b % 16384 < 16384 := Nat.mod_lt _ (by decide)
    have h : regionOf (slotAddr b 0 j) = .session := by
      unfold regionOf slotAddr sesAddr
      rw [if_neg (by omega), if_neg (by omega), if_pos (by omega)]
    unfold mget
    rw [hm, h]; rfl
  unfold slotAt
  rw [hz]; rfl

/-- `SessionCommands`: an admission that no check refuses. -/
theorem test_admit : NextCommand admitting admission [] ∧ admitting.ses.gen ≤ 1 ∧ inCluster admitting = false := by
  have hh : ∀ b tag alt, tableHits admitting b 0 tag alt = [] := fun b tag alt => by
    simp [tableHits, slot_empty]
  have hf : sesFind admitting admission.key = none := by
    have hs : admitting.ses.stash = [] := by decide +kernel
    have hg : admitting.ses.gen = 0 := by decide +kernel
    unfold sesFind
    rw [hs, hg]
    simp [hh]
  refine ⟨⟨by decide +kernel, by decide +kernel, by decide +kernel, ?_⟩, by decide +kernel, by decide +kernel⟩
  unfold sesRefusal
  rw [hf]
  decide +kernel

/-- `SelfTests`: a loop burst on port 0 that the gate passes. -/
theorem test_loop_burst : rbit gated (Reg.prtCtl 0) 0 = true ∧ shfState gated (sheafOf 0) = 2 ∧ (gated.sheaf (sheafOf 0)).job = none ∧ blanked gated (sheafOf 0) = false ∧
    (gateLoop (holdPort { gated with flt := { s0.flt with loops := [{ port := 0, begun := 1, running := true }] } } 0 true) 0 600).1 = true := by
  refine ⟨by decide +kernel, by decide +kernel, by decide +kernel, by decide +kernel, by decide +kernel⟩

/-- `SessionCommands`: a rehash in progress. -/
theorem test_rehash : ({ seated with ses := { seated.ses with rehash := true } } : State).ses.rehash = true ∧ seated.ses.gen ≤ 1 :=
  ⟨by decide +kernel, by decide +kernel⟩

/-- `FaultRecords`: a full queue, of lasting records and of others. -/
theorem test_full_queue : [true, false].all (fun b => (full0 b).flt.recs.length = 128 && (full0 b).flt.recs.all (recLasting · == b)) = true := by
  decide +kernel

/-- `CipherEngines`: CCM descriptors of 16 octets whose input is read and whose output is written. -/
theorem test_ccm : [6, 7].all (fun op =>
    let d := desc0 op 16 3
    let s := modesNext (modes0 [d])
    let r := engineReads 36 d.core d.level d.src ((d.inLen + 1) / 2) s
    let o := ModesDesc.run key0 d ((unpackOctets r.1).take d.inLen)
    let q := engineWrites 36 d.core d.level d.dst (packOctets o.2) r.2.2.2
    !d.bad && !d.unlisted && ModesDesc.key s d == some key0 && r.2.1 && !r.2.2.1 && (pairOf r.2.2.2 5).svc = 0 && (pairOf s 5).svc = 0 &&
      !ModesDesc.keyBad r.2.2.2 d && q.2.1) = true := by decide +kernel

end Sys2Proof.Tests
end

namespace Sys2Proof.Machine

/-! ## Latches by initiator and address (00 R5, R6, R9) -/

theorem latched_eq_of_latches_eq {s t : State} (h : t.latches = s.latches) (i : Initiator) (a : Nat) : latched t i a = latched s i a := by
  unfold latched
  rw [h]

/-- One entry holds the word of its initiator and address: it is the word that reads as latched. -/
theorem latched_eq_some_of_unique {s : State} {i : Initiator} {a : Nat} {w : Word} (hmem : ((initIndex i, a), w) ∈ s.latches)
    (huniq : ∀ e ∈ s.latches, e.1 = (initIndex i, a) → e.2 = w) : latched s i a = some w := by
  unfold latched
  cases hf : s.latches.find? fun e => e.1 = (initIndex i, a) with
  | none => exact absurd (List.find?_eq_none.mp hf _ hmem) (by simp)
  | some e =>
    have hkey : e.1 = (initIndex i, a) := by simpa using List.find?_some hf
    rw [Option.map_some, huniq e (List.mem_of_find?_eq_some hf) hkey]

/-- The entries that a read of the lowest word of the group at `b` adds: one for each higher word. -/
def newLatches (i b : Nat) (ws : List Word) : List ((Nat × Nat) × Word) := ((ws.zipIdx).drop 1).map fun e => ((i, b + e.2), e.1)

theorem mem_newLatches_iff {i b : Nat} {ws : List Word} {e : (Nat × Nat) × Word} :
    e ∈ newLatches i b ws ↔ ∃ k, 1 ≤ k ∧ ws[k]? = some e.2 ∧ e.1 = (i, b + k) := by
  unfold newLatches
  cases ws with
  | nil => simp
  | cons v vs =>
    obtain ⟨⟨j, a⟩, w⟩ := e
    simp only [List.zipIdx_cons, List.drop_succ_cons, List.drop_zero, List.mem_map, Prod.exists, List.mk_mem_zipIdx_iff_le_and_getElem?_sub]
    constructor
    · rintro ⟨x, k, ⟨hk, hx⟩, he⟩
      obtain ⟨k, rfl⟩ := Nat.exists_eq_add_of_le' hk
      simp only [Prod.mk.injEq] at he
      obtain ⟨⟨rfl, rfl⟩, rfl⟩ := he
      exact ⟨k + 1, hk, by simpa using hx, rfl⟩
    · rintro ⟨k, hk, hx, he⟩
      obtain ⟨k, rfl⟩ := Nat.exists_eq_add_of_le' hk
      exact ⟨w, k + 1, ⟨hk, by simpa using hx⟩, by rw [he]⟩

section
variable (s : State) (i : Initiator) (b : Nat) (ws : List Word)

theorem latchWords_latches : (latchWords s i b ws).latches = newLatches (initIndex i) b ws ++
    s.latches.filter fun e => !(decide (e.1.1 = initIndex i) && decide (b < e.1.2) && decide (e.1.2 < b + ws.length)) := rfl

/-- A latching read latches each higher word of its group for its initiator (R5). -/
theorem latched_latchWords_higher {k : Nat} (hk : 1 ≤ k) (hlen : k < ws.length) :
    latched (latchWords s i b ws) i (b + k) = some (ws.getD k 0) := by
  have hget : ws[k]? = some (ws.getD k 0) := by simp [List.getD_eq_getElem?_getD, hlen]
  apply latched_eq_some_of_unique
  · rw [latchWords_latches]
    exact List.mem_append_left _ (mem_newLatches_iff.mpr ⟨k, hk, hget, rfl⟩)
  · intro e he hkey
    rw [latchWords_latches] at he
    rcases List.mem_append.mp he with hnew | hkept
    · obtain ⟨j, -, hj, hjkey⟩ := mem_newLatches_iff.mp hnew
      obtain rfl : j = k := by simpa [hkey] using hjkey.symm
      exact Option.some.inj (hj.symm.trans hget)
    · have hout : k = 0 ∨ ws.length ≤ k := by simpa [hkey] using (List.mem_filter.mp hkept).2
      omega

/-- A latching read leaves what is latched of other initiators' and other groups' words (R9). -/
theorem latched_latchWords_of_not_higher {j : Initiator} {a : Nat}
    (h : ¬ (initIndex j = initIndex i ∧ b < a ∧ a < b + ws.length)) : latched (latchWords s i b ws) j a = latched s j a := by
  have hnew : (newLatches (initIndex i) b ws).find? (fun e => e.1 = (initIndex j, a)) = none := by
    refine List.find?_eq_none.mpr fun e he hkey => h ?_
    obtain ⟨k, hk, hget, hekey⟩ := mem_newLatches_iff.mp he
    obtain ⟨hlen, -⟩ := List.getElem?_eq_some_iff.mp hget
    have hsame : (initIndex j, a) = (initIndex i, b + k) := by rw [← hekey]; exact (of_decide_eq_true hkey).symm
    obtain ⟨hij, rfl⟩ := Prod.mk.inj hsame
    exact ⟨hij, by omega, by omega⟩
  unfold latched
  rw [latchWords_latches, List.find?_append, hnew, Option.none_or, List.find?_filter]
  congr 2
  funext e
  by_cases hkey : e.1 = (initIndex j, a)
  · have hkept : (initIndex j ≠ initIndex i ∨ a ≤ b) ∨ b + ws.length ≤ a := by omega
    simpa [hkey] using hkept
  · simp [hkey]

end

/-! ## A register read as a command -/

/-- A read that is carried out shows the register's value and leaves the latches that the register's read leaves: the debug port's
whole access as another initiator's read at the register (11 R292). -/
theorem groupLatchRead_of_served {s : State} {i : Initiator} {a : Nat} (h : readServed s i a = true) :
    Ends (.groupLatchRead i a) s fun t => t.out.read = (regRead i a s).1 ∧ t.latches = (regRead i a s).2.latches := by
  refine ⟨_, rfl, ?_⟩
  by_cases hi : i = .debug
  · subst hi
    obtain ⟨⟨hfab, hblock, hdata, hjudge⟩, hended⟩ : (fabRuns s = true ∧ regionOf a = .block ∧ a ≠ Reg.nftWdata ∧
        fenceJudge s false 2 accRead a = none) ∧ ¬ endMark .debug a false ∈ s.flt.ended := by
      simpa [readServed] using h
    have hcheck : fenceCheck s false (initIndex .debug) (levelOf s .debug) accRead a = (true, s) := by
      unfold fenceCheck
      rw [show levelOf s .debug = 2 from rfl, hjudge]
    have hend : accessEnded s .debug a false = none := by simp [accessEnded, hended]
    have hread : fabricRead .debug a s = ((regRead .debug a s).1, false, (regRead .debug a s).2) := by
      simp [fabricRead, hblock, hend, hdata]
    simp [debugRead, hfab, outRead, hcheck, hread, debugAnswer, showRead]
  · simp [hi, showRead]

/-! ## Reads of a group (R5, R6) -/

section
variable {s : State} {i : Initiator} {b k : Nat} {ws : List Word}

theorem groupRead_higher (hk : 1 ≤ k) : groupRead s i b k ws = ((latched s i (b + k)).getD (ws.getD k 0), s) := by
  unfold groupRead
  rw [if_neg (by omega)]

/-- A read of the lowest word returns it and latches the higher words for its initiator alone. -/
theorem ReadsGroup.read_lowest (h : ReadsGroup s b ws) (hs : readServed s i b = true) :
    Ends (.groupLatchRead i b) s fun t => t.out.read = ws.getD 0 0 ∧
      (∀ k, 1 ≤ k → k < ws.length → latched t i (b + k) = some (ws.getD k 0)) ∧
      (∀ a, a ≤ b ∨ b + ws.length ≤ a → latched t i a = latched s i a) ∧
      ∀ j a, initIndex j ≠ initIndex i → latched t j a = latched s j a := by
  obtain ⟨hlen, hread⟩ := h
  obtain ⟨hval, hlat⟩ : (regRead i b s).1 = ws.getD 0 0 ∧ (regRead i b s).2.latches = (latchWords s i b ws).latches :=
    hread i 0 (by omega)
  obtain ⟨t, ht, htval, htlat⟩ := groupLatchRead_of_served hs
  have hlatched := latched_eq_of_latches_eq (htlat.trans hlat)
  refine ⟨t, ht, htval.trans hval, fun k hk hkl => ?_, fun a ha => ?_, fun j a hj => ?_⟩
  · rw [hlatched, latched_latchWords_higher s i b ws hk hkl]
  · rw [hlatched, latched_latchWords_of_not_higher s i b ws (by omega)]
  · rw [hlatched, latched_latchWords_of_not_higher s i b ws (fun hc => hj hc.1)]

/-- A read of a higher word returns the latched word, or the live one before the first latching read, and latches nothing. -/
theorem ReadsGroup.read_higher (h : ReadsGroup s b ws) (hs : readServed s i (b + k) = true) (hk : 1 ≤ k) (hkl : k < ws.length) :
    Ends (.groupLatchRead i (b + k)) s fun t => t.out.read = (latched s i (b + k)).getD (ws.getD k 0) ∧ t.latches = s.latches := by
  obtain ⟨-, hread⟩ := h
  obtain ⟨hval, hlat⟩ := hread i k hkl
  rw [groupRead_higher hk] at hval hlat
  obtain ⟨t, ht, htval, htlat⟩ := groupLatchRead_of_served hs
  exact ⟨t, ht, htval.trans hval, htlat.trans hlat⟩

end

/-! ## The groups that show registers or other state -/

theorem length_wordsOf (n x : Nat) : (wordsOf n x).length = n := by simp [wordsOf]

/-- A register whose read does not act reads plainly. -/
theorem regRead_eq_plainRead {a : Nat} (h : readActs a = false) (i : Initiator) (s : State) : regRead i a s = plainRead i a s := by
  simp only [readActs, decide_eq_false_iff_not, not_or] at h
  obtain ⟨hx0, hx1, hcap, hpps, hlm, hpop, hdata⟩ := h
  have hpop0 : a ≠ Reg.hspRxpop := by omega
  have hpop' : ¬ (Reg.hspRxpop < a ∧ a ≤ Reg.hspRxpop + 3) := by omega
  unfold regRead
  simp only [hx0, hx1, hcap, hpps, hlm, hpop0, hpop', hdata, if_false]

section
variable {s : State} {b n : Nat}

/-- A word of a register group that shows no other state reads through the group's latches. -/
theorem plainRead_eq_groupRead {k : Nat} (hn : 1 < n) (hg : groupAt s (b + k) = (b, n)) (hw : liveWord s (b + k) = none)
    (hl : liveGroup s (b + k) = none) (i : Initiator) :
    plainRead i (b + k) s = groupRead s i b k ((List.range n).map fun j => rget s (b + j)) := by
  simp only [plainRead, hw, hl, hg]
  rw [if_pos hn, Nat.add_sub_cancel_left]

/-- The registers of a group whose reads do not act read through its latches. -/
theorem readsGroup_registers (hn : 1 < n) (h : ∀ k, k < n → groupAt s (b + k) = (b, n) ∧ liveWord s (b + k) = none ∧
    liveGroup s (b + k) = none ∧ readActs (b + k) = false) : ReadsGroup s b ((List.range n).map fun k => rget s (b + k)) := by
  refine ⟨by simpa using hn, fun i k hk => ?_⟩
  obtain ⟨hg, hw, hl, ha⟩ := h k (by simpa using hk)
  rw [regRead_eq_plainRead ha, plainRead_eq_groupRead hn hg hw hl]
  exact ⟨rfl, rfl⟩

/-- A group that shows a number taken from other state reads its words through its latches. -/
theorem readsGroup_liveGroup {x : Nat} (hn : 1 < n) (h : ∀ k, k < n → liveWord s (b + k) = none ∧
    liveGroup s (b + k) = some (b, wordsOf n x) ∧ readActs (b + k) = false) : ReadsGroup s b (wordsOf n x) := by
  refine ⟨by rwa [length_wordsOf], fun i k hk => ?_⟩
  rw [length_wordsOf] at hk
  obtain ⟨hw, hl, ha⟩ := h k hk
  have hread : regRead i (b + k) s = groupRead s i b k (wordsOf n x) := by
    simp only [regRead_eq_plainRead ha, plainRead, hw, hl]
    rw [Nat.add_sub_cancel_left]
  rw [hread]
  exact ⟨rfl, rfl⟩

end

/-- Away from the counters a group is the one of the register map. -/
theorem groupAt_of_map {b n : Nat} (h : ∀ k, k < n → tmrWordAt (b + k) = none ∧ groupOf (b + k) = (b, n)) (s : State) (k : Nat) (hk : k < n) :
    groupAt s (b + k) = (b, n) := by
  obtain ⟨hnone, hof⟩ := h k hk
  unfold groupAt
  rw [hnone, hof]

theorem forall_lt_two {P : Nat → Prop} (h0 : P 0) (h1 : P 1) : ∀ k, k < 2 → P k
  | 0, _ => h0
  | 1, _ => h1

theorem forall_lt_four {P : Nat → Prop} (h0 : P 0) (h1 : P 1) (h2 : P 2) (h3 : P 3) : ∀ k, k < 4 → P k
  | 0, _ => h0
  | 1, _ => h1
  | 2, _ => h2
  | 3, _ => h3

section
variable (s : State)

theorem readsGroup_awnAt : ReadsGroup s Reg.awnAt ((List.range 4).map fun k => rget s (Reg.awnAt + k)) :=
  readsGroup_registers (by decide) fun k hk => ⟨groupAt_of_map (by decide) s k hk,
    forall_lt_four (P := fun k => liveWord s (Reg.awnAt + k) = none ∧ liveGroup s (Reg.awnAt + k) = none ∧ readActs (Reg.awnAt + k) = false)
      ⟨rfl, rfl, rfl⟩ ⟨rfl, rfl, rfl⟩ ⟨rfl, rfl, rfl⟩ ⟨rfl, rfl, rfl⟩ k hk⟩

theorem readsGroup_tbsNow : ReadsGroup s Reg.tbsNow (wordsOf 4 (shadow s)) :=
  readsGroup_liveGroup (by decide) (forall_lt_four ⟨rfl, rfl, rfl⟩ ⟨rfl, rfl, rfl⟩ ⟨rfl, rfl, rfl⟩ ⟨rfl, rfl, rfl⟩)

theorem readsGroup_sagEpoch : ReadsGroup s Reg.sagEpoch (wordsOf 2 (epochAt s (shadow s))) :=
  readsGroup_liveGroup (by decide) (forall_lt_two ⟨rfl, rfl, rfl⟩ ⟨rfl, rfl, rfl⟩)

theorem readsGroup_lnkAsn : ReadsGroup s Reg.lnkAsn (wordsOf 4 (if lnkOn s then asnAt s (shadow s) else 0)) :=
  readsGroup_liveGroup (by decide) (forall_lt_four ⟨rfl, rfl, rfl⟩ ⟨rfl, rfl, rfl⟩ ⟨rfl, rfl, rfl⟩ ⟨rfl, rfl, rfl⟩)

theorem winOf_lnkAirUsed {b k : Nat} (hb : b < 8) (hk : k < 2) : winOf (Reg.lnkAirUsed b + k) = 0x1016 := by
  simp only [winOf, Reg.lnkAirUsed]
  omega

theorem offOf_lnkAirUsed {b k : Nat} (hb : b < 8) (hk : k < 2) : offOf (Reg.lnkAirUsed b + k) = 0x200 + 4 * b + k := by
  simp only [offOf, Reg.lnkAirUsed]
  omega

/-- The words of `LNK_AIRUSEDb` show the airtime bucket of band `b` (08 R218). -/
theorem liveGroup_lnkAirUsed {b k : Nat} (hb : b < 8) (hk : k < 2) :
    liveGroup s (Reg.lnkAirUsed b + k) = some (Reg.lnkAirUsed b, wordsOf 2 (airShown s b)) := by
  have hband : (0x200 + 4 * b + k - 0x200) / 4 = b := by omega
  unfold liveGroup
  simp only [winOf_lnkAirUsed hb hk, offOf_lnkAirUsed hb hk]
  rw [if_neg (by omega), if_pos (by omega), hband]

theorem liveWord_lnkAirUsed {b k : Nat} (hb : b < 8) (hk : k < 2) : liveWord s (Reg.lnkAirUsed b + k) = none := by
  have htxq : Reg.lnkAirUsed b + k ≠ Reg.lnkTxq := by simp only [Reg.lnkAirUsed, Reg.lnkTxq]; omega
  unfold liveWord
  simp only [winOf_lnkAirUsed hb hk]
  exact if_neg htxq

theorem readActs_lnkAirUsed {b k : Nat} (hb : b < 8) (hk : k < 2) : readActs (Reg.lnkAirUsed b + k) = false := by
  simp only [readActs, winOf_lnkAirUsed hb hk, Reg.lnkAirUsed, Reg.hspRxpop, Reg.tmrnCap, Reg.tbsPpscap, Reg.nftWdata, Reg.intXclaim0,
    Reg.intXclaim1, decide_eq_false_iff_not]
  omega

theorem readsGroup_lnkAirUsed (b : Fin 8) : ReadsGroup s (Reg.lnkAirUsed b) (wordsOf 2 (airShown s b)) :=
  readsGroup_liveGroup (by decide) fun _ hk =>
    ⟨liveWord_lnkAirUsed s b.isLt hk, liveGroup_lnkAirUsed s b.isLt hk, readActs_lnkAirUsed b.isLt hk⟩

/-! ## The groups whose reads act -/

/-- `TBS_PPSCAP`: the read of its lowest word clears a field of another register and nothing that is latched. -/
theorem readsGroup_tbsPpscap : ReadsGroup s Reg.tbsPpscap ((List.range 4).map fun k => rget s (Reg.tbsPpscap + k)) := by
  refine ⟨by simp, fun i k hk => ?_⟩
  rw [List.length_map, List.length_range] at hk
  obtain ⟨hw, hl⟩ : liveWord s (Reg.tbsPpscap + k) = none ∧ liveGroup s (Reg.tbsPpscap + k) = none :=
    forall_lt_four (P := fun k => liveWord s (Reg.tbsPpscap + k) = none ∧ liveGroup s (Reg.tbsPpscap + k) = none)
      ⟨rfl, rfl⟩ ⟨rfl, rfl⟩ ⟨rfl, rfl⟩ ⟨rfl, rfl⟩ k hk
  have hplain := plainRead_eq_groupRead (by decide) (groupAt_of_map (by decide) s k hk) hw hl i
  rcases Nat.eq_zero_or_pos k with rfl | hpos
  · rw [← hplain]
    exact ⟨rfl, rfl⟩
  · have hacts : ∀ k, k < 4 → 0 < k → readActs (Reg.tbsPpscap + k) = false := by decide
    rw [regRead_eq_plainRead (hacts k hk hpos), hplain]
    exact ⟨rfl, rfl⟩

/-- The words of `HSP_RXPOP`: of the head entry of the host port's queue, or of the empty queue (14 R376). -/
def rxHead : List Word :=
  match s.eth.hostq with
  | e :: _ => [w16 e.hold.gmeta, w16 (e.fld 1 13 12), e.words.getD 2 0, 0]
  | [] => [0xFFFF, 0, 0, 0]

theorem length_rxHead : (rxHead s).length = 4 := by
  unfold rxHead
  split <;> rfl

/-- Service of the queues leaves the latches. -/
@[simp] theorem netAll_latches : (netAll s).latches = s.latches :=
  netAll_keeps (P := fun t => t.latches = s.latches) (fun _ _ _ h => h) (fun _ _ h => h) (fun _ _ h => h) (fun _ _ h => h) (fun _ _ h => h)
    (fun _ _ h => h) (fun _ _ h => h) rfl

/-- A read of `HSP_RXPOP` word 0 gives the head's word and latches its others. -/
theorem rxPop_read (i : Initiator) : (rxPop i s).1 = (rxHead s).getD 0 0 ∧
    (rxPop i s).2.latches = (latchWords s i Reg.hspRxpop (rxHead s)).latches := by
  unfold rxPop rxHead
  cases s.eth.hostq with
  | nil => exact ⟨rfl, rfl⟩
  | cons e rest => exact ⟨rfl, by rw [netAll_latches]; rfl⟩

/-- `HSP_RXPOP`: the read of its lowest word removes the head entry. -/
theorem readsGroup_hspRxpop : ReadsGroup s Reg.hspRxpop (rxHead s) := by
  refine ⟨by simp [length_rxHead], fun i k hk => ?_⟩
  rw [length_rxHead] at hk
  exact forall_lt_four (P := fun k =>
      (regRead i (Reg.hspRxpop + k) s).1 = (groupRead s i Reg.hspRxpop k (rxHead s)).1 ∧
        (regRead i (Reg.hspRxpop + k) s).2.latches = (groupRead s i Reg.hspRxpop k (rxHead s)).2.latches)
    (rxPop_read s i) ⟨rfl, rfl⟩ ⟨rfl, rfl⟩ ⟨rfl, rfl⟩ k hk

/-- The words of `TMRn_CAP` of the group that counter `h` heads: the oldest capture, or the last one read (16 R410). -/
def capWords (h : Nat) : List Word := wordsOf (tmrWidth s h) ((s.tmr h).caps.headD (s.tmr h).capLast)

/-- A read of counter `n`'s capture word goes through the latches of the group that it belongs to. -/
theorem capRead_read (i : Initiator) {n h : Nat} (hh : tmrHead s n = h) :
    (capRead i n s).1 = (groupRead s i (Reg.tmrnCap h) (n - h) (capWords s h)).1 ∧
      (capRead i n s).2.latches = (groupRead s i (Reg.tmrnCap h) (n - h) (capWords s h)).2.latches := by
  subst hh
  unfold capRead capWords
  dsimp only
  split <;> exact ⟨rfl, rfl⟩

/-- The capture word of counter `n` reads as its capture buffer. -/
theorem regRead_tmrnCap (i : Initiator) {n : Nat} (hn : n < 32) : regRead i (Reg.tmrnCap n) s = capRead i n s := by
  have hx0 : Reg.tmrnCap n ≠ Reg.intXclaim0 := by simp only [Reg.tmrnCap, Reg.intXclaim0]; omega
  have hx1 : Reg.tmrnCap n ≠ Reg.intXclaim1 := by simp only [Reg.tmrnCap, Reg.intXclaim1]; omega
  have hrange : Reg.tmrnCap 0 ≤ Reg.tmrnCap n ∧ Reg.tmrnCap n ≤ Reg.tmrnCap 31 := by simp only [Reg.tmrnCap]; omega
  have hoff : Reg.tmrnCap n - Reg.tmrnCap 0 = n := by simp only [Reg.tmrnCap]; omega
  unfold regRead
  rw [if_neg hx0, if_neg hx1, if_pos hrange, hoff]

/-- `TMRn_CAP` of a group of counters: the read of its lowest word removes the buffer's head entry (16 R403, R410). -/
theorem readsGroup_tmrnCap {h : Nat} (hw : 1 < tmrWidth s h) (hm : ∀ k, k < tmrWidth s h → h + k < 32 ∧ tmrHead s (h + k) = h) :
    ReadsGroup s (Reg.tmrnCap h) (capWords s h) := by
  have hlen : (capWords s h).length = tmrWidth s h := length_wordsOf ..
  refine ⟨by rwa [hlen], fun i k hk => ?_⟩
  rw [hlen] at hk
  obtain ⟨hlt, hhead⟩ := hm k hk
  have hread := capRead_read s i hhead
  rw [Nat.add_sub_cancel_left, ← regRead_tmrnCap s i hlt, show Reg.tmrnCap (h + k) = Reg.tmrnCap h + k from (Nat.add_assoc ..).symm] at hread
  exact hread

end

/-! ## Group latches -/

/-- Settles O20: a group's reads go through the latches of their initiator, and each kind of register group is read so. -/
theorem groupLatches : Obligations.GroupLatches := by
  intro s i
  refine ⟨fun b ws h => ⟨h.read_lowest, fun k w hs hk hkl hw => ?_, fun k hs hk hkl hnone => ?_⟩, fun b n => readsGroup_registers,
    readsGroup_awnAt s, readsGroup_tbsNow s, readsGroup_sagEpoch s, readsGroup_lnkAsn s, readsGroup_lnkAirUsed s, readsGroup_tbsPpscap s,
    ⟨rxHead s, length_rxHead s, readsGroup_hspRxpop s⟩, fun _ => readsGroup_tmrnCap s⟩
  · simpa [hw] using h.read_higher hs hk hkl
  · simpa [hnone] using h.read_higher hs hk hkl

end Sys2Proof.Machine

namespace Sys2Proof.Machine

/-! ## A record's words (15 R398) -/

/-- The record that reporting `f` offers to the queue. -/
def offeredRecord (s : State) (f : FaultInfo) : List Word :=
  let old := ((s.flt.counts.find? fun e => e.1 = (f.typ * 4096 + f.inst, f.addr)).map Prod.snd).getD 0
  recWords (f.time.getD (shadow s)) s.flt.seq (old + 1) f

/-- What the queue makes of it: the records held then, and whether one is lost. -/
def offeredQueue (s : State) (f : FaultInfo) : List (List Word) × Bool := recPush s.flt.recs (offeredRecord s f) f.lasting

theorem length_recWords (t seq n : Nat) (f : FaultInfo) : (recWords t seq n f).length = 12 := by
  rw [recWords, List.length_append, length_wordsOf]
  rfl

/-- LASTING is bit 11 of word 5: SUB and ACTION lie below it and CLASS above it. -/
theorem recLasting_recWords (t seq n : Nat) (f : FaultInfo) : recLasting (recWords t seq n f) = f.lasting := by
  have hword : recLasting (recWords t seq n f) =
      (f.cls * 4096 + f.lasting.toNat * 2048 + f.sub % 16 * 16 + f.action % 16).testBit 11 := by
    unfold recLasting bit
    exact (getLsbD_w16 _ _).trans (Bool.true_and _)
  rw [hword, Nat.testBit_eq_decide_div_mod_eq]
  cases f.lasting
  · rw [Bool.toNat_false, decide_eq_false_iff_not]
    omega
  · rw [Bool.toNat_true, decide_eq_true_eq]
    omega

/-! ## The queue of 128 records (R399) -/

section
variable {recs : List (List Word)} (r : List Word)

theorem recPush_of_room (lasting : Bool) (h : recs.length < 128) : recPush recs r lasting = (recs ++ [r], false) := if_pos h

/-- A full queue loses a record, whichever that is. -/
theorem recPush_loses (lasting : Bool) (h : 128 ≤ recs.length) : (recPush recs r lasting).2 = true := by
  unfold recPush
  rw [if_neg (by omega)]
  cases lasting
  · rfl
  · rw [if_pos rfl]
    split <;> rfl

theorem recPush_transient (h : 128 ≤ recs.length) : recPush recs r false = (recs, true) := by
  unfold recPush
  rw [if_neg (by omega)]
  rfl

theorem recPush_all_lasting (h : 128 ≤ recs.length) (hall : ∀ q ∈ recs, recLasting q = true) : recPush recs r true = (recs, true) := by
  have hnone : (recs.findIdx? fun q => !recLasting q) = none :=
    List.findIdx?_eq_none_iff.mpr fun q hq => by rw [hall q hq, Bool.not_true]
  unfold recPush
  rw [if_neg (by omega), if_pos rfl, hnone]

/-- The oldest transient record, `q`, gives way to the lasting one, which joins at the end. -/
theorem recPush_replaces {a b : List (List Word)} {q : List Word} (h : 128 ≤ (a ++ q :: b).length)
    (ha : ∀ x ∈ a, recLasting x = true) (hq : recLasting q = false) : recPush (a ++ q :: b) r true = (a ++ b ++ [r], true) := by
  have hidx : ((a ++ q :: b).findIdx? fun x => !recLasting x) = some a.length := by
    have hnone : (a.findIdx? fun x => !recLasting x) = none :=
      List.findIdx?_eq_none_iff.mpr fun x hx => by rw [ha x hx, Bool.not_true]
    simp [List.findIdx?_append, hnone, List.findIdx?_cons, hq]
  have herase : (a ++ q :: b).eraseIdx a.length = a ++ b := by
    rw [List.eraseIdx_append_of_length_le (Nat.le_refl _), Nat.sub_self, List.eraseIdx_cons_zero]
  unfold recPush
  rw [if_neg (by omega), if_pos rfl, hidx, ← herase]

end

/-! ## Reporting a fault (R398, R399) -/

/-- The bits of an event register after a mask of events is raised there. -/
theorem rbit_setEvt_self (s : State) (a : Nat) (m : Word) (j : Nat) (h : a ∉ ntxRegs) :
    rbit (setEvt s a m) a j = (rbit s a j || bit m j) := by
  unfold rbit
  rw [rget_setEvt_self s a m h, bit_or]

theorem OnlyEvents.only {l : List Nat} {s t : State} (h : OnlyEvents l s t) : Only l s t := by
  obtain ⟨r, i, p, n, d, o, rfl, hregs, -⟩ := h
  exact ⟨hregs, rfl, rfl, rfl, rfl⟩

theorem fltEvt_not_mem_ntxRegs : Reg.fltEvt ∉ ntxRegs := by decide

section
variable (s : State) (f : FaultInfo)

theorem fault_flt : (fault s f).flt = (s.flt.put (f.time.getD (shadow s)) f).1 := by
  obtain ⟨r, i, p, n, d, o, hfault, -, -⟩ := fault_shape s f
  rw [hfault]

theorem fault_seq : (fault s f).flt.seq = s.flt.seq + 1 := congrArg FltSt.seq (fault_flt s f)

theorem fault_recs : (fault s f).flt.recs = (offeredQueue s f).1 := congrArg FltSt.recs (fault_flt s f)

/-- Registers outside the fault manager's own and the EVENT counters, and every memory, stay. -/
theorem only_fault : Only fltRegs s (fault s f) := (fault_shape s f).only

/-- The state once the record is queued and a loss is counted and told, before REC and LASTING are raised. -/
def faultQueued : State :=
  let t := { s with flt := (s.flt.put (f.time.getD (shadow s)) f).1 }
  if (offeredQueue s f).2 then evt (bump t Reg.fltNlost) Reg.fltEvt 5 else t

theorem fault_eq_setEvt :
    fault s f = setEvt (faultQueued s f) Reg.fltEvt (bitMask 0 ||| if f.lasting then bitMask 1 else 0) := rfl

/-- FLT_NLOST advances by 1 with a loss and stays without one. -/
theorem rget_fault_fltNlost :
    rget (fault s f) Reg.fltNlost = if (offeredQueue s f).2 then rget s Reg.fltNlost + 1 else rget s Reg.fltNlost := by
  have hne : Reg.fltNlost ≠ Reg.fltEvt := by decide
  have hntx : Reg.fltNlost ∉ ntxRegs := by decide
  rw [fault_eq_setEvt, rget_setEvt_ne _ _ hne hntx]
  unfold faultQueued
  dsimp only
  split
  · rw [rget_evt_ne _ _ hne hntx]
    exact rget_rset_self ..
  · rfl

/-- LOST stands after a loss. -/
theorem rbit_fault_lost (h : (offeredQueue s f).2 = true) : rbit (fault s f) Reg.fltEvt 5 = true := by
  have hlost : rbit (faultQueued s f) Reg.fltEvt 5 = true := by
    unfold faultQueued
    rw [if_pos h]
    exact rbit_evt_self _ _ _ (by decide) fltEvt_not_mem_ntxRegs
  rw [fault_eq_setEvt, rbit_setEvt_self _ _ _ _ fltEvt_not_mem_ntxRegs, hlost, Bool.true_or]

/-- A record raises REC. -/
theorem rbit_fault_rec : rbit (fault s f) Reg.fltEvt 0 = true := by
  rw [fault_eq_setEvt, rbit_setEvt_self _ _ _ _ fltEvt_not_mem_ntxRegs]
  simp [bit_bitMask]

/-- A lasting record raises LASTING. -/
theorem rbit_fault_lasting (h : f.lasting = true) : rbit (fault s f) Reg.fltEvt 1 = true := by
  rw [fault_eq_setEvt, rbit_setEvt_self _ _ _ _ fltEvt_not_mem_ntxRegs]
  simp [bit_bitMask, h]

end

/-! ## Reads that change nothing (11 R292) -/

/-- A served debug read is the register's read with its status, as any other initiator's is without. -/
theorem debugRead_of_served {s : State} {a : Nat} (h : readServed s .debug a = true) :
    debugRead a s = debugAnswer (showRead (regRead .debug a s)) (wordEnd s .debug a false) := by
  obtain ⟨⟨hfab, hblock, hdata, hjudge⟩, hended⟩ : (fabRuns s = true ∧ regionOf a = .block ∧ a ≠ Reg.nftWdata ∧
      fenceJudge s false 2 accRead a = none) ∧ ¬ endMark .debug a false ∈ s.flt.ended := by
    simpa [readServed] using h
  have hcheck : fenceCheck s false (initIndex .debug) (levelOf s .debug) accRead a = (true, s) := by
    unfold fenceCheck
    rw [show levelOf s .debug = 2 from rfl, hjudge]
  have hend : accessEnded s .debug a false = none := by simp [accessEnded, hended]
  have hread : fabricRead .debug a s = ((regRead .debug a s).1, false, (regRead .debug a s).2) := by
    simp [fabricRead, hblock, hend, hdata]
  simp [debugRead, hfab, outRead, hcheck, hread]

/-- A served read of a register whose read leaves the state shows its word and changes what goes out, nothing else. -/
theorem groupLatchRead_of_read_keeps {s : State} {i : Initiator} {a : Nat} {w : Word} (hs : readServed s i a = true)
    (hr : regRead i a s = (w, s)) :
    ∃ o, exec (.groupLatchRead i a) s = .next { s with out := o } ∧ o.read = w := by
  have hexec : exec (.groupLatchRead i a) s = .next (if i = .debug then debugRead a s else showRead (regRead i a s)) := rfl
  rw [hexec]
  by_cases hi : i = .debug
  · subst hi
    rw [if_pos rfl, debugRead_of_served hs, hr]
    exact ⟨_, rfl, rfl⟩
  · rw [if_neg hi, hr]
    exact ⟨_, rfl, rfl⟩

/-! ## The head of the queue (R399) -/

section
variable {k : Nat}

theorem winOf_fltRec (hk : k < 12) : winOf (Reg.fltRec k) = 0x1009 := by
  simp only [winOf, Reg.fltRec]
  omega

theorem offOf_fltRec (hk : k < 12) : offOf (Reg.fltRec k) = 0x20 + k := by
  simp only [offOf, Reg.fltRec]
  omega

theorem liveWord_fltRec (hk : k < 12) (s : State) : liveWord s (Reg.fltRec k) = some ((s.flt.recs.headD []).getD k 0) := by
  have hstat : Reg.fltRec k ≠ Reg.fltStat := by simp only [Reg.fltRec, Reg.fltStat]; omega
  have hmin : Reg.fltRec k ≠ Reg.fltSparemin := by simp only [Reg.fltRec, Reg.fltSparemin]; omega
  unfold liveWord
  simp only [winOf_fltRec hk, offOf_fltRec hk]
  rw [if_neg hstat, if_neg hmin, if_pos (by omega), Nat.add_sub_cancel_left]

theorem readActs_fltRec (hk : k < 12) : readActs (Reg.fltRec k) = false := by
  simp only [readActs, winOf_fltRec hk, Reg.fltRec, Reg.hspRxpop, Reg.tmrnCap, Reg.tbsPpscap, Reg.nftWdata, Reg.intXclaim0,
    Reg.intXclaim1, decide_eq_false_iff_not]
  omega

/-- A record register shows its word of the head record, and its read changes nothing. -/
theorem regRead_fltRec (hk : k < 12) (i : Initiator) (s : State) :
    regRead i (Reg.fltRec k) s = ((s.flt.recs.headD []).getD k 0, s) := by
  rw [regRead_eq_plainRead (readActs_fltRec hk), plainRead, liveWord_fltRec hk]

end

theorem exec_faultPop (i : Initiator) (v : Word) (s : State) : exec (.faultPop i v) s = .next (faultPop v s) := rfl

/-! ## Fault records -/

/-- Settles O52: the record offered is `offeredRecord`, the queue after it `offeredQueue`, and the head is read without effect. -/
theorem faultRecords : Obligations.FaultRecords := by
  intro s i f
  refine ⟨fault_seq s f, ⟨offeredRecord s f, length_recWords .., rfl, recLasting_recWords .., fun hroom => ?_, fun hfull => ?_⟩,
    rbit_fault_rec s f, rbit_fault_lasting s f, only_fault s f, fun k hk hs => ?_, ?_, fun v hv => ?_⟩
  · have hq : offeredQueue s f = (s.flt.recs ++ [offeredRecord s f], false) := recPush_of_room _ _ hroom
    rw [fault_recs, rget_fault_fltNlost, hq]
    exact ⟨rfl, rfl⟩
  · have hlost : (offeredQueue s f).2 = true := recPush_loses _ _ hfull
    refine ⟨?_, rbit_fault_lost s f hlost, fun hl => ?_, fun hl hall => ?_, fun a q b hl hrecs ha hq => ?_⟩
    · rw [rget_fault_fltNlost, if_pos hlost]
    · rw [fault_recs, offeredQueue, hl, recPush_transient _ hfull]
    · rw [fault_recs, offeredQueue, hl, recPush_all_lasting _ hfull hall]
    · rw [hrecs] at hfull
      rw [fault_recs, offeredQueue, hl, hrecs, recPush_replaces _ hfull ha hq]
  · obtain ⟨o, hexec, hread⟩ := groupLatchRead_of_read_keeps hs (regRead_fltRec hk i s)
    exact ⟨_, hexec, hread, rfl, fun _ _ => rfl, rfl, rfl, rfl, rfl⟩
  · rw [exec_faultPop, faultPop, if_pos rfl]
  · rw [exec_faultPop, faultPop, if_neg hv]

end Sys2Proof.Machine


namespace Sys2Proof.Machine

/-! ## The core controls' registers (11 R283; 12 R323) -/

/-- No register of the Tillers' block is one of the EVENT counters. -/
theorem not_mem_ntxRegs_of_til {a : Nat} (h : a / 0x10000 = 0x1019) : a ∉ ntxRegs := by
  intro ha
  have hout : ∀ b ∈ ntxRegs, b / 0x10000 ≠ 0x1019 := by decide
  exact hout a ha h

theorem tilEvt_block (n : Fin 32) : Reg.tilEvt n / 0x10000 = 0x1019 := by
  simp only [Reg.tilEvt]
  omega

/-- A long's two words, written at once, read back. -/
theorem rgroup_rsetGroup_two (s : State) (a : Nat) {v : Nat} (h : v < 2 ^ 32) : rgroup (rsetGroup s a 2 v) a 2 = v := by
  have hlow : rget (rsetGroup s a 2 v) a = wordOf v 0 := by
    rw [show rsetGroup s a 2 v = rset (rset s a (wordOf v 0)) (a + 1) (wordOf v 1) from rfl, rget_rset_ne _ (by omega), rget_rset_self]
  have hhigh : rget (rsetGroup s a 2 v) (a + 1) = wordOf v 1 := rget_rset_self ..
  have hsum : rgroup (rsetGroup s a 2 v) a 2 =
      (rget (rsetGroup s a 2 v) a).toNat + 65536 * ((rget (rsetGroup s a 2 v) (a + 1)).toNat + 65536 * 0) := rfl
  rw [hsum, hlow, hhigh]
  simp only [wordOf, BitVec.toNat_ofNat]
  omega

/-- Registers of one block, and what raising events changes beside them, leave the other blocks and the memories. -/
theorem OnlyEvents.onlyBlocks {l : List Nat} {s t : State} {w : Nat} (h : OnlyEvents l s t)
    (hl : ∀ a ∈ l, a / 0x10000 = w ∨ a ∈ ntxRegs) : OnlyBlocks [w] s t := by
  obtain ⟨hregs, hmem⟩ := h.only
  exact ⟨fun a hw hntx => hregs a fun ha => (hl a ha).elim (fun e => hw (List.mem_singleton.mpr e)) hntx, hmem⟩

theorem OnlyEvents.cores_eq {l : List Nat} {s t : State} (h : OnlyEvents l s t) : t.cores = s.cores := by
  obtain ⟨r, i, p, n, d, o, rfl, -, -⟩ := h
  rfl

theorem OnlyEvents.time_eq {l : List Nat} {s t : State} (h : OnlyEvents l s t) : t.time = s.time := by
  obtain ⟨r, i, p, n, d, o, rfl, -, -⟩ := h
  rfl

/-! ## The end of a stall (11 R283) -/

theorem stallOver_cases (s : State) (k : Nat) :
    stallOver s k = s ∨ k = 32 ∧ stallOver s k = rsetBit s Reg.tilCstat 2 false := by
  unfold stallOver
  split
  · next h => exact .inr ⟨h.1, rfl⟩
  · exact .inl rfl

@[simp] theorem stallOver_core (s : State) (k j : Nat) : (stallOver s k).core j = s.core j := by
  rcases stallOver_cases s k with h | ⟨-, h⟩
  · rw [h]
  · rw [h]; rfl

theorem stallOver_of_ne {s : State} {k : Nat} (h : k ≠ 32) : stallOver s k = s :=
  (stallOver_cases s k).resolve_right fun hk => h hk.1

theorem only_stallOver (s : State) (k : Nat) : Only [Reg.tilCstat] s (stallOver s k) := by
  rcases stallOver_cases s k with h | ⟨-, h⟩ <;> rw [h]
  · exact (OnlyEvents.refl _ s).only
  · exact (OnlyEvents.rset s _ _).only

/-! ## A Tiller's trap (11 R282; 12 R323) -/

/-- The state once `TILn_TRAP` holds the cause of a trap and `TILn_TRAPPC` its address. -/
def trapShown (s : State) (n : Nat) (t : Trap) : State :=
  rsetGroup (rset s (Reg.tilTrap n) (w16 (0x8000 + t.cause))) (Reg.tilTrappc n) 2 ((s.core n).pc.toNat / 2 * 2)

/-- The state once the event of a DET cause is raised as well. -/
def trapTold (s : State) (n : Nat) (t : Trap) : State :=
  if 0x10 ≤ t.cause ∧ t.cause ≤ 0x13 then evt (trapShown s n t) (Reg.tilEvt n) 1 else trapShown s n t

/-- The registers that may tell of a Tiller's trap. -/
def trapRegs (n : Nat) : List Nat := Reg.tilTrap n :: Reg.tilTrappc n :: (Reg.tilTrappc n + 1) :: Reg.tilEvt n :: ntxRegs

section
variable (s : State) (n : Fin 32) (t : Trap)

theorem trapTold_shape : OnlyEvents (trapRegs n) s (trapTold s n t) := by
  have hshown : OnlyEvents (trapRegs n) s (trapShown s n t) :=
    (((OnlyEvents.rset s _ _).mono (by simp [trapRegs])).trans ((OnlyEvents.rset _ (Reg.tilTrappc n) _).mono (by simp [trapRegs]))).trans
      ((OnlyEvents.rset _ (Reg.tilTrappc n + 1) _).mono (by simp [trapRegs]))
  unfold trapTold
  split
  · refine hshown.trans ((evt_shape ..).mono fun a ha => ?_)
    exact List.mem_cons_of_mem _ (List.mem_cons_of_mem _ (List.mem_cons_of_mem _ ha))
  · exact hshown

/-- The event changes no other register of the Tillers' block. -/
theorem rget_trapTold {a : Nat} (hne : a ≠ Reg.tilEvt n) (hblock : a / 0x10000 = 0x1019) :
    rget (trapTold s n t) a = rget (trapShown s n t) a := by
  unfold trapTold
  split
  · exact rget_evt_ne _ _ hne (not_mem_ntxRegs_of_til hblock)
  · rfl

theorem rget_trapTold_tilTrap : rget (trapTold s n t) (Reg.tilTrap n) = w16 (0x8000 + t.cause) := by
  have hlow : Reg.tilTrap n ≠ Reg.tilTrappc n := by simp only [Reg.tilTrap, Reg.tilTrappc]; omega
  have hhigh : Reg.tilTrap n ≠ Reg.tilTrappc n + 1 := by simp only [Reg.tilTrap, Reg.tilTrappc]; omega
  rw [rget_trapTold s n t (by simp only [Reg.tilTrap, Reg.tilEvt]; omega) (by simp only [Reg.tilTrap]; omega)]
  exact (rget_rset_ne _ hhigh).trans ((rget_rset_ne _ hlow).trans (rget_rset_self ..))

theorem rgroup_trapTold_tilTrappc : rgroup (trapTold s n t) (Reg.tilTrappc n) 2 = (s.core n).pc.toNat / 2 * 2 := by
  have hsame : rgroup (trapTold s n t) (Reg.tilTrappc n) 2 = rgroup (trapShown s n t) (Reg.tilTrappc n) 2 := by
    refine congrArg ofWords (List.map_congr_left fun k hk => rget_trapTold s n t ?_ ?_)
    all_goals
      have := List.mem_range.mp hk
      simp only [Reg.tilTrappc, Reg.tilEvt]
      omega
  rw [hsame, trapShown, rgroup_rsetGroup_two]
  have := (s.core n).pc.isLt
  omega

/-- A DET cause raises the Tiller's event. -/
theorem rbit_trapTold_tilEvt (h : 0x10 ≤ t.cause ∧ t.cause ≤ 0x13) : rbit (trapTold s n t) (Reg.tilEvt n) 1 = true := by
  unfold trapTold
  rw [if_pos h]
  exact rbit_evt_self _ _ _ (by decide) (not_mem_ntxRegs_of_til (tilEvt_block n))

end

section
variable {s : State} {n : Fin 32} (tnpc : DWord)

/-- A Tiller in no trap and with a vector goes to its vector. -/
theorem takeTrap_of_vectored (t : Trap) (hvec : (s.core n).tvec ≠ 0) (htrp : bit (s.core n).sr 11 = false) :
    takeTrap s n t tnpc = (trapTold s n t).updCore n fun c => c.trapped false t tnpc := by
  have hn : (n : Nat) ≠ 32 := by omega
  have hgo : ¬ (bit (s.core n).sr 11 = true ∨ (s.core n).tvec = 0) := by
    rintro (h | h)
    · exact Bool.false_ne_true (htrp.symm.trans h)
    · exact hvec h
  unfold takeTrap
  simp only [stallOver_of_ne hn, if_neg hn, if_neg hgo]
  rfl

/-- What a Tiller's trap saves, tells and leaves, for every cause. -/
theorem trapTaken_takeTrap (t : Trap) (hcause : t.cause < 256) (hvec : (s.core n).tvec ≠ 0) (htrp : bit (s.core n).sr 11 = false) :
    TrapTaken s (takeTrap s n t tnpc) n (w16 (t.code * 256 + t.cause)) := by
  have hcore : (takeTrap s n t tnpc).core n = (s.core n).trapped false t tnpc := by
    have hsame : (trapTold s n t).core n = s.core n := congrArg (fun b => b.nth n {}) (trapTold_shape s n t).cores_eq
    rw [takeTrap_of_vectored tnpc t hvec htrp, updCore_core_self _ (by omega), hsame]
  have hlow : (w16 (t.code * 256 + t.cause)).toNat % 256 = t.cause := by
    simp only [w16, BitVec.toNat_ofNat]
    omega
  have hblock : OnlyBlocks [0x1019] s (trapTold s n t) := (trapTold_shape s n t).onlyBlocks fun a ha => by
    simp only [trapRegs, List.mem_cons] at ha
    rcases ha with rfl | rfl | rfl | rfl | ha
    · exact .inl (by simp only [Reg.tilTrap]; omega)
    · exact .inl (by simp only [Reg.tilTrappc]; omega)
    · exact .inl (by simp only [Reg.tilTrappc]; omega)
    · exact .inl (by simp only [Reg.tilEvt]; omega)
    · exact .inr (by simpa using ha)
  unfold TrapTaken
  rw [hcore, hlow, takeTrap_of_vectored tnpc t hvec htrp]
  exact ⟨rfl, rfl, rfl, rfl, rfl, rfl, rfl, rfl, rfl, rget_trapTold_tilTrap s n t, rgroup_trapTold_tilTrappc s n t, hblock⟩

/-- A trap of a DET cause also raises the Tiller's event. -/
theorem rbit_takeTrap_tilEvt (t : Trap) (hdet : 0x10 ≤ t.cause ∧ t.cause ≤ 0x13) (hvec : (s.core n).tvec ≠ 0)
    (htrp : bit (s.core n).sr 11 = false) : rbit (takeTrap s n t tnpc) (Reg.tilEvt n) 1 = true := by
  rw [takeTrap_of_vectored tnpc t hvec htrp, rbit_updCore]
  exact rbit_trapTold_tilEvt s n t hdet

end

/-! ## Deterministic mode at claim and complete registers (17 R432) -/

theorem detLoad_claim (s : State) (k : Nat) {a : Nat} (h : a = 0x10020 ∨ a = 0x10022) : detLoad s k accRead a = some trapDetq := by
  rcases h with rfl | rfl <;> rfl

theorem detStore_complete (s : State) (k : Nat) {a : Nat} (h : a = 0x10021 ∨ a = 0x10023) : detStore s k a = some trapDetq := by
  rcases h with rfl | rfl <;> rfl

section
variable {s : State} {k : Nat} (f : Bool) (v : Word)

theorem claimRow_of_off (hon : coreOn s k = false) : claimRow s k f = s := by simp [claimRow, hon]

theorem completeRow_of_off (hon : coreOn s k = false) : completeRow s k f v = s := by simp [completeRow, hon]

theorem claimRow_of_det (hon : coreOn s k = true) (hdet : detNow s k = true) :
    claimRow s k f = takeTrap s k trapDetq (openNext s k) := by simp [claimRow, hon, hdet]

theorem completeRow_of_det (hon : coreOn s k = true) (hdet : detNow s k = true) :
    completeRow s k f v = takeTrap s k trapDetq (openNext s k) := by simp [completeRow, hon, hdet]

theorem claimRow_of_not_det (hon : coreOn s k = true) (hdet : detNow s k = false) :
    claimRow s k f = showRead (intClaim s k f) := by simp [claimRow, hon, hdet]

theorem completeRow_of_not_det (hon : coreOn s k = true) (hdet : detNow s k = false) :
    completeRow s k f v = intComplete s k f v := by simp [completeRow, hon, hdet]

end

/-! ## Interrupt entry (12 R318 to R320) -/

/-- Deterministic mode closes both classes. -/
theorem nextInterrupt_of_det {s : State} {k : Nat} (h : detNow s k = true) : nextInterrupt s k = none := by
  have hclosed : ∀ fast, classOpen (s.core k).sr fast = false := fun fast => by
    rw [classOpen, show bit (s.core k).sr 12 = true from h]
    rfl
  simp [nextInterrupt, hclosed]

theorem takeInterrupt_of_none {s : State} {k : Nat} (h : nextInterrupt s k = none) : takeInterrupt s k = s := by
  unfold takeInterrupt
  rw [h]
  exact ite_self s

/-- A core that works takes its next interrupt between bundles, in WAIT and from a stall on a queue. -/
theorem takeInterrupt_of_some {s : State} {k : Nat} {fast sec : Bool} (hon : coreOn s k = true)
    (hhold : (s.core k).hold = .none ∨ (s.core k).hold = .wait ∨ ∃ q, (s.core k).hold = .queue q)
    (h : nextInterrupt s k = some (fast, sec)) :
    takeInterrupt s k = bumpFree ((stallOver s k).updCore k fun c => c.interrupted fast sec) := by
  have hgo : ¬ (¬ coreOn s k ∨ (s.core k).hold = .fabric ∨ (s.core k).hold = .halted ∨ (s.core k).hold = .stopped) := by
    rcases hhold with hh | hh | ⟨q, hh⟩ <;> simp [hon, hh]
  unfold takeInterrupt
  rw [if_neg hgo, h]

/-- Entry changes no register but `TIL_CSTAT`, and no memory. -/
theorem only_interrupted (s : State) (k : Nat) (f : CoreSt → CoreSt) :
    Only [Reg.tilCstat] s (bumpFree ((stallOver s k).updCore k f)) := only_stallOver s k

section
variable (c : CoreSt) (fast sec : Bool)

/-- Entry marks its class as entered. -/
theorem bit_interrupted_class : bit (c.interrupted fast sec).sr (if fast then 10 else 9) = true := by
  cases fast <;> cases sec <;> simp [CoreSt.interrupted, bit_setBit]

/-- Entry for a secure source makes the core secure. -/
theorem bit_interrupted_sec : bit (c.interrupted fast true).sr 15 = true := by
  simp [CoreSt.interrupted, bit_setBit]

theorem interrupted_epcn : (c.interrupted false sec).epcn = evenAddr c.pc.toNat := rfl
theorem interrupted_esrn : (c.interrupted false sec).esrn = c.sr := rfl
theorem interrupted_epcf : (c.interrupted true sec).epcf = evenAddr c.pc.toNat := rfl
theorem interrupted_esrf : (c.interrupted true sec).esrf = c.sr := rfl
theorem interrupted_hold : (c.interrupted fast sec).hold = .none := rfl
theorem interrupted_w : (c.interrupted fast sec).w = c.w := by cases fast <;> rfl
theorem interrupted_fw : (c.interrupted fast sec).fw = c.fw := by cases fast <;> rfl

theorem interrupted_pc : (c.interrupted fast false).pc = if fast then c.ivecf else c.ivecn := by cases fast <;> rfl
theorem interrupted_pc_secure : (c.interrupted fast true).pc = if fast then c.sivecf else c.sivecn := by cases fast <;> rfl

end

/-! ## A stall's time-out (11 R283) -/

/-- When a stall of core `k` on a queue has lasted `STALLMAX` µs: 1 µs is 3072/25 ticks, rounded up. -/
def stallLimit (s : State) (k : Nat) : Nat := (s.core k).stallAt + ((rget s Reg.tilStallmax).toNat * 3072 + 24) / 25

theorem stallTimeout_of_stalled {s : State} {k : Nat} (hon : coreOn s k = true) (hhold : ∃ q, (s.core k).hold = .queue q)
    (hmax : rget s Reg.tilStallmax ≠ 0) : stallTimeout s k =
      if k < 32 then evt (reach s (stallLimit s k)) (Reg.tilEvt k) 3 else rsetBit (reach s (stallLimit s k)) Reg.tilCstat 2 true := by
  obtain ⟨q, hq⟩ := hhold
  have hgo : ¬ (¬ coreOn s k ∨ (rget s Reg.tilStallmax).toNat = 0) := by
    simpa [hon, ← BitVec.toNat_inj] using hmax
  unfold stallTimeout
  simp only [hq, if_neg hgo]
  rfl

theorem stallTimeout_of_unlimited {s : State} (k : Nat) (h : rget s Reg.tilStallmax = 0) : stallTimeout s k = s := by
  unfold stallTimeout
  cases (s.core k).hold <;> simp [h]

theorem stallTimeout_of_not_stalled {s : State} {k : Nat} (h : ∀ q, (s.core k).hold ≠ .queue q) : stallTimeout s k = s := by
  unfold stallTimeout
  cases hh : (s.core k).hold with
  | queue q => exact absurd hh (h q)
  | none | fabric | wait | halted | stopped => rfl

/-! ## Claims and completions (17 R429, R430) -/

/-- An EVENT message leaves the interrupt controller. -/
@[simp] theorem mgmtEvent_int (s : State) : (mgmtEvent s).int = s.int := by
  unfold mgmtEvent
  split
  · split
    · rfl
    · split
      · rfl
      · dsimp only
        split
        · rfl
        · split <;> rfl
  · rfl

theorem only_showRead (s : State) (w : Word) : Only [] s (showRead (w, s)) := ⟨fun _ _ => rfl, rfl, rfl, rfl, rfl⟩

section
variable {s : State} {k : Nat} {f : Bool} {n : Nat}

theorem intClaim_of_active (h : activeClass s k f = some n) : intClaim s k f = (w16 (0x8000 + n), s) := by
  simp only [intClaim, h]

theorem intClaim_of_selected (hnone : activeClass s k f = none)
    (h : selectFor s k f (decide (k = 32) && bit (s.core 32).sr 15) = some n) : intClaim s k f = (w16 n, activate s n k) := by
  simp only [intClaim, hnone, h]

theorem intClaim_of_none (hnone : activeClass s k f = none)
    (h : selectFor s k f (decide (k = 32) && bit (s.core 32).sr 15) = none) : intClaim s k f = (0xFFFF, s) := by
  simp only [intClaim, hnone, h]

end

section
variable (s : State) (n k : Nat)

theorem activate_active : (activate s n k).int.active = (n, k) :: s.int.active := by rw [activate, mgmtEvent_int]

theorem activate_edge : (activate s n k).int.edge = s.int.edge.filter (· ≠ n) := by rw [activate, mgmtEvent_int]

theorem sameMemory_activate : SameMemory s (activate s n k) := (mgmtEvent_shape _).only.2

theorem endActive_active : (endActive s n).int.active = s.int.active.filter fun e => e.1 ≠ n := by
  unfold endActive
  rw [mgmtEvent_int]
  dsimp only
  split <;> rfl

theorem sameMemory_endActive : SameMemory s (endActive s n) := by
  unfold endActive
  dsimp only
  split <;> exact (mgmtEvent_shape _).only.2

end

/-! ## The commands, as the operations on the state they perform -/

theorem exec_interruptClaim (k : Fin 33) (f : Bool) (s : State) : exec (.interruptClaim k f) s = .next (claimRow s k f) := rfl

theorem exec_interruptComplete (k : Fin 33) (f : Bool) (v : Word) (s : State) :
    exec (.interruptComplete k f v) s = .next (completeRow s k f v) := rfl

theorem exec_interruptEntry (k : Fin 33) (s : State) : exec (.interruptEntry k) s = .next (takeInterrupt s k) := rfl

theorem exec_stallTimeout (k : Fin 33) (s : State) : exec (.stallTimeout k) s = .next (stallTimeout s k) := rfl

/-! ## Deterministic mode and interrupts -/

/-- In deterministic mode a Tiller's claim traps with DETQ and raises its event (R432; 11 R282). -/
theorem ends_interruptClaim_det {s : State} {k : Fin 33} {n : Fin 32} (hkn : k.val = n.val) (hon : coreOn s k = true)
    (hdet : detNow s k = true) (hvec : (s.core n).tvec ≠ 0) (htrp : bit (s.core n).sr 11 = false) (f : Bool) :
    Ends (.interruptClaim k f) s fun t => TrapTaken s t n 0x0010 ∧ rbit t (Reg.tilEvt n) 1 = true := by
  refine ⟨takeTrap s n trapDetq (openNext s n), ?_, trapTaken_takeTrap _ trapDetq (by decide) hvec htrp,
    rbit_takeTrap_tilEvt _ trapDetq (by decide) hvec htrp⟩
  rw [exec_interruptClaim, claimRow_of_det f hon hdet, hkn]

/-- An interrupt saves PC and status and goes on at its vector (12 R320). -/
theorem ends_interruptEntry {s : State} {k : Fin 33} {fast sec : Bool} (hon : coreOn s k = true)
    (hhold : (s.core k).hold = .none ∨ (s.core k).hold = .wait ∨ ∃ q, (s.core k).hold = .queue q)
    (h : nextInterrupt s k = some (fast, sec)) : Ends (.interruptEntry k) s fun t =>
      t.core k = (s.core k).interrupted fast sec ∧ Only [Reg.tilCstat] s t := by
  refine ⟨_, ?_, ?_, only_interrupted s k fun c => c.interrupted fast sec⟩
  · rw [exec_interruptEntry, takeInterrupt_of_some hon hhold h]
  · rw [bumpFree_core, updCore_core_self _ k.isLt, stallOver_core]

/-- A Tiller stalled for `STALLMAX` raises STALL in its event register (11 R283). -/
theorem ends_stallTimeout_tiller {s : State} {n : Fin 32} (hon : coreOn s n = true) (hhold : ∃ q, (s.core n).hold = .queue q)
    (hmax : rget s Reg.tilStallmax ≠ 0) : Ends (.stallTimeout (Fin.castLE (by decide) n)) s fun t =>
      rget t (Reg.tilEvt n) = (rget s (Reg.tilEvt n) ||| 0x0008) ∧ t.cores = s.cores ∧
        t.time.now = max s.time.now (stallLimit s n) ∧ Only (Reg.tilEvt n :: ntxRegs) s t := by
  have hshape := evt_shape (reach s (stallLimit s n)) (Reg.tilEvt n) 3
  refine ⟨evt (reach s (stallLimit s n)) (Reg.tilEvt n) 3, ?_, ?_, hshape.cores_eq, congrArg TimeSt.now hshape.time_eq, hshape.only⟩
  · rw [exec_stallTimeout]
    exact congrArg _ ((stallTimeout_of_stalled hon hhold hmax).trans (if_pos n.isLt))
  · exact rget_evt_self _ _ _ (not_mem_ntxRegs_of_til (tilEvt_block n))

/-- The Crown core stalled for `STALLMAX` shows STALL (11 R283). -/
theorem ends_stallTimeout_crown {s : State} (hon : coreOn s 32 = true) (hhold : ∃ q, (s.core 32).hold = .queue q)
    (hmax : rget s Reg.tilStallmax ≠ 0) : Ends (.stallTimeout 32) s fun t =>
      rbit t Reg.tilCstat 2 = true ∧ t.cores = s.cores ∧ Only [Reg.tilCstat] s t := by
  refine ⟨rsetBit (reach s (stallLimit s 32)) Reg.tilCstat 2 true, ?_, ?_, rfl, (OnlyEvents.rset (reach s (stallLimit s 32)) _ _).only⟩
  · rw [exec_stallTimeout]
    exact congrArg _ (stallTimeout_of_stalled hon hhold hmax)
  · rw [rbit_rsetBit _ _ _ _ _ _ (by decide), if_pos ⟨rfl, rfl⟩]

section
variable {s : State} {k : Fin 33} {f : Bool} (hon : coreOn s k = true) (hdet : detNow s k = false)
include hon hdet

/-- A claim shows the word of `intClaim` in the state it leaves (R429). -/
theorem exec_interruptClaim_of_not_det : exec (.interruptClaim k f) s = .next (showRead (intClaim s k f)) := by
  rw [exec_interruptClaim, claimRow_of_not_det f hon hdet]

theorem exec_interruptComplete_of_not_det (v : Word) : exec (.interruptComplete k f v) s = .next (intComplete s k f v) := by
  rw [exec_interruptComplete, completeRow_of_not_det f v hon hdet]

/-- A claim while a source is active shows that source (R429). -/
theorem ends_interruptClaim_active {n : Nat} (h : activeClass s k f = some n) : Ends (.interruptClaim k f) s fun t =>
    t.out.read = w16 (0x8000 + n) ∧ t.int = s.int ∧ Only [] s t := by
  refine ⟨_, exec_interruptClaim_of_not_det hon hdet, ?_⟩
  rw [intClaim_of_active h]
  exact ⟨rfl, rfl, only_showRead ..⟩

/-- A claim makes the selected source active and takes its edge (R425, R429). -/
theorem ends_interruptClaim_selected {n : Nat} (hnone : activeClass s k f = none)
    (h : selectFor s k f (decide (k.val = 32) && bit (s.core 32).sr 15) = some n) : Ends (.interruptClaim k f) s fun t =>
      t.out.read = w16 n ∧ t.int.active = (n, k.val) :: s.int.active ∧ t.int.edge = s.int.edge.filter (· ≠ n) ∧ SameMemory s t := by
  refine ⟨_, exec_interruptClaim_of_not_det hon hdet, ?_⟩
  rw [intClaim_of_selected hnone h]
  exact ⟨rfl, activate_active .., activate_edge .., sameMemory_activate ..⟩

/-- A claim with nothing to claim shows 0xFFFF (R429). -/
theorem ends_interruptClaim_none (hnone : activeClass s k f = none)
    (h : selectFor s k f (decide (k.val = 32) && bit (s.core 32).sr 15) = none) : Ends (.interruptClaim k f) s fun t =>
      t.out.read = 0xFFFF ∧ t.int = s.int ∧ Only [] s t := by
  refine ⟨_, exec_interruptClaim_of_not_det hon hdet, ?_⟩
  rw [intClaim_of_none hnone h]
  exact ⟨rfl, rfl, only_showRead ..⟩

/-- A completion of the active source ends it (R430). -/
theorem ends_interruptComplete_active {v : Word} (h : activeClass s k f = some v.toNat) : Ends (.interruptComplete k f v) s fun t =>
    t.int.active = s.int.active.filter (fun e => e.1 ≠ v.toNat) ∧ SameMemory s t := by
  refine ⟨_, exec_interruptComplete_of_not_det hon hdet v, ?_⟩
  rw [intComplete, if_pos h]
  exact ⟨endActive_active .., sameMemory_endActive ..⟩

/-- A completion of any other source is an error (R430). -/
theorem ends_interruptComplete_other {v : Word} (h : activeClass s k f ≠ some v.toNat) : Ends (.interruptComplete k f v) s fun t =>
    rbit t Reg.intErr 0 = true ∧ t.int = s.int ∧ Only [Reg.intErr] s t := by
  refine ⟨_, exec_interruptComplete_of_not_det hon hdet v, ?_⟩
  rw [intComplete, if_neg h]
  exact ⟨by rw [rbit_rsetBit _ _ _ _ _ _ (by decide), if_pos ⟨rfl, rfl⟩], rfl, (OnlyEvents.rset s _ _).only⟩

end

/-- Settles O48: what `claimRow`, `completeRow`, `takeInterrupt` and `stallTimeout` do in each case of the core's mode and state. -/
theorem deterministicInterrupts : Obligations.DeterministicInterrupts := by
  intro s k
  refine ⟨fun hon hdet => ⟨fun f => ?_, fun f v => ?_, rfl, fun n hkn hvec htrp => ends_interruptClaim_det hkn hon hdet hvec htrp⟩,
    fun hoff f v => ⟨?_, ?_⟩, fun hdet => ?_, fun _ => detLoad_claim s k, fun _ => detStore_complete s k, fun hnone => ?_,
    fun fast sec hon hhold hnext => ?_, fun n => ends_stallTimeout_tiller, ends_stallTimeout_crown, fun hno => ?_,
    fun f hon hdet => ⟨fun n => ends_interruptClaim_active hon hdet, fun n => ends_interruptClaim_selected hon hdet,
      ends_interruptClaim_none hon hdet, fun v => ends_interruptComplete_active hon hdet, fun v => ends_interruptComplete_other hon hdet⟩⟩
  · rw [exec_interruptClaim, claimRow_of_det f hon hdet]
  · rw [exec_interruptComplete, completeRow_of_det f v hon hdet]
  · rw [exec_interruptClaim, claimRow_of_off f hoff]
  · rw [exec_interruptComplete, completeRow_of_off f v hoff]
  · rw [exec_interruptEntry, takeInterrupt_of_none (nextInterrupt_of_det hdet)]
  · rw [exec_interruptEntry, takeInterrupt_of_none hnone]
  · obtain ⟨t, hexec, hcore, honly⟩ := ends_interruptEntry hon hhold hnext
    refine ⟨t, hexec, ?_⟩
    dsimp only
    rw [hcore]
    have hclass := bit_interrupted_class (s.core k) fast sec
    refine ⟨?_, ?_, ?_, ?_, interrupted_hold .., interrupted_w .., interrupted_fw .., honly⟩
    · rintro rfl
      exact ⟨interrupted_epcn .., interrupted_esrn .., hclass⟩
    · rintro rfl
      exact ⟨interrupted_epcf .., interrupted_esrf .., hclass⟩
    · rintro rfl
      exact interrupted_pc ..
    · rintro rfl
      exact ⟨bit_interrupted_sec .., interrupted_pc_secure ..⟩
  · rw [exec_stallTimeout]
    rcases hno with hmax | hhold
    · rw [stallTimeout_of_unlimited k hmax]
    · rw [stallTimeout_of_not_stalled hhold]

end Sys2Proof.Machine

namespace Sys2Proof.Machine

/-! ## What a chip reset leaves of the tag (18 R449, R454) -/

/-- The page buffer is discarded, and the tag store stands as it was. -/
def BufferDiscarded (s t : State) : Prop := t.tag.buf = none ∧ t.tag.store = s.tag.store

/-- Stopping the flash and the fuses does not reach the tag. -/
theorem interruptStores_tag (s : State) : (interruptStores s).tag = s.tag :=
  interruptStores_keeps (P := fun t => t.tag = s.tag) (fun _ _ h => h) (fun _ _ _ h => h) (fun _ _ _ h => h) (fun _ _ h => h) rfl

@[simp] theorem scanMarkers_buf (t : TagSt) : (scanMarkers t).buf = t.buf := rfl
@[simp] theorem scanMarkers_store (t : TagSt) : (scanMarkers t).store = t.store := rfl

theorem bufferDiscarded_freshChip (s : State) (por : Bool) : BufferDiscarded s (freshChip s por) :=
  have hkept : (freshChip s por).tag.store = (interruptStores s).tag.store := rfl
  ⟨rfl, by rw [hkept, interruptStores_tag]⟩

/-- A power-up without a field also scans the markers (R451), which are apart from buffer and store. -/
theorem bufferDiscarded_powerOnReset (s : State) : BufferDiscarded s (powerOnReset s) := by
  have hfresh : BufferDiscarded s (rtcToMain (freshChip s true)) := bufferDiscarded_freshChip s true
  obtain ⟨hbuf, hstore⟩ := hfresh
  unfold powerOnReset
  dsimp only
  split
  · exact ⟨hbuf, hstore⟩
  · exact ⟨(scanMarkers_buf _).trans hbuf, (scanMarkers_store _).trans hstore⟩

theorem bufferDiscarded_chipReset {s : State} (hlost : s.power.lost = false) (cause : Nat) : BufferDiscarded s (chipReset s cause) := by
  unfold chipReset
  rw [if_neg (ne_true_of_eq_false hlost)]
  exact bufferDiscarded_freshChip s false

/-! ## The commands that reset the chip (02 R62, R65, R68) -/

section
variable {s : State}

theorem exec_powerOnReset (s : State) : exec .powerOnReset s = .next (powerOnReset s) := rfl

theorem exec_debugReset (s : State) : exec .debugReset s = .next (chipReset s 4) := rfl

theorem exec_softwareReset_write (i : Initiator) (v : Word) (s : State) :
    exec (.softwareReset i v) s = .next (rstctlWrite (levelOf s i) v s) := rfl

theorem exec_externalReset (hlost : s.power.lost = false) :
    exec .externalReset s = .next (chipReset { s with power := { s.power with resetLow := true } } 1) :=
  congrArg Host.Outcome.next (if_neg (ne_true_of_eq_false hlost))

theorem exec_watchdogReset (hdue : watchdogDue s = true) : exec .watchdogReset s = .next (chipReset s 2) :=
  congrArg Host.Outcome.next (if_pos hdue)

theorem exec_softwareReset {i : Initiator} (hlevel : levelOf s i = 0 ∨ levelOf s i = 2) :
    exec (.softwareReset i 0x5A3C) s = .next (chipReset s 3) := by
  have hkey : rstctlWrite (levelOf s i) 0x5A3C s = chipReset s 3 := if_pos ⟨hlevel, rfl⟩
  rw [exec_softwareReset_write, hkey]

theorem watchdogDue_iff : watchdogDue s = true ↔
    rbit s Reg.sysWdctl 0 = true ∧ s.wdog.restart = false ∧ max 1 (rget s Reg.sysWdper).toNat ≤ s.wdog.count := by
  simp only [watchdogDue, Bool.and_eq_true, Bool.not_eq_true', decide_eq_true_eq]
  rw [and_right_comm, and_assoc]

end

/-! ## The host's window (18 R454) -/

section
variable {s : State}

theorem exec_windowWrite (hlost : s.power.lost = false) (i : Initiator) (v : Word) :
    exec (.windowWrite i v) s = .next (windowWrite v s) :=
  congrArg Host.Outcome.next (if_neg (ne_true_of_eq_false hlost))

/-- While the buffer holds page `p`, a write to another page only moves the window's address on and raises PAGE. -/
theorem windowWrite_of_other_page {p : Nat} {b : List Octet} (hbuf : s.tag.buf = some (p, b)) (hp : p ≠ rfld s Reg.nftWaddr 11 0 / 16)
    (v : Word) : windowWrite v s =
      setEvt (rsetFld s Reg.nftWaddr 11 0 (rfld s Reg.nftWaddr 11 0 + 1)) Reg.nftEvt (bitMask 4) := by
  have hbuf' : (rsetFld s Reg.nftWaddr 11 0 (rfld s Reg.nftWaddr 11 0 + 1)).tag.buf = some (p, b) := hbuf
  simp only [windowWrite, hbuf', if_neg hp]

theorem OnlyEvents.tag_eq {l : List Nat} {s t : State} (h : OnlyEvents l s t) : t.tag = s.tag := by
  obtain ⟨r, i, p, n, d, o, rfl, -, -⟩ := h
  rfl

theorem windowWrite_shape_of_other_page {p : Nat} {b : List Octet} (hbuf : s.tag.buf = some (p, b))
    (hp : p ≠ rfld s Reg.nftWaddr 11 0 / 16) (v : Word) :
    OnlyEvents (Reg.nftWaddr :: Reg.nftEvt :: ntxRegs) s (windowWrite v s) := by
  rw [windowWrite_of_other_page hbuf hp]
  exact ((OnlyEvents.rset s _ _).mono (by simp)).trans ((setEvt_shape _ _ _).mono fun _ ha => List.mem_cons_of_mem _ ha)

theorem nftEvt_not_mem_ntxRegs : Reg.nftEvt ∉ ntxRegs := by decide

theorem rbit_page_windowWrite_of_other_page {p : Nat} {b : List Octet} (hbuf : s.tag.buf = some (p, b))
    (hp : p ≠ rfld s Reg.nftWaddr 11 0 / 16) (v : Word) : rbit (windowWrite v s) Reg.nftEvt 4 = true := by
  rw [windowWrite_of_other_page hbuf hp, rbit_setEvt_self _ _ _ _ nftEvt_not_mem_ntxRegs, bit_bitMask]
  exact Bool.or_true _

/-- A write of 1 to DROP discards the buffer. -/
theorem exec_pageBufferDrop (hlost : s.power.lost = false) (i : Initiator) {v : Word} (hdrop : bit v 0 = true) :
    exec (.pageBufferDrop i v) s = .next (updTag s fun t => { t with buf := none }) :=
  congrArg Host.Outcome.next ((if_neg (ne_true_of_eq_false hlost)).trans ((if_pos rfl).trans (if_pos hdrop)))

end

/-- Settles O57: a window write to another page moves the address and raises PAGE alone, and every chip reset leaves the store and no buffer. -/
theorem pageBuffer : Obligations.PageBuffer := by
  intro s i hlost
  refine ⟨fun v p b hbuf hp => ?_, fun v hdrop => exec_pageBufferDrop hlost i hdrop, fun c hc => ?_⟩
  · have hshape := windowWrite_shape_of_other_page hbuf hp v
    exact ⟨_, exec_windowWrite hlost i v, by rw [hshape.tag_eq, hbuf], rbit_page_windowWrite_of_other_page hbuf hp v, hshape.only⟩
  · rcases hc with rfl | rfl | rfl | ⟨rfl, hwdog⟩ | ⟨rfl, hlevel⟩
    · exact ⟨_, exec_powerOnReset s, bufferDiscarded_powerOnReset s⟩
    · exact ⟨_, exec_externalReset hlost, bufferDiscarded_chipReset (s := { s with power := { s.power with resetLow := true } }) hlost 1⟩
    · exact ⟨_, exec_debugReset s, bufferDiscarded_chipReset hlost 4⟩
    · exact ⟨_, exec_watchdogReset (watchdogDue_iff.mpr hwdog), bufferDiscarded_chipReset hlost 2⟩
    · exact ⟨_, exec_softwareReset hlevel, bufferDiscarded_chipReset hlost 3⟩

end Sys2Proof.Machine
